-- ==== Sys2Proof/Word.lean ====
section
/-! DEFINITION. Sys2Proof/Word.lean: the word types of the module and the sparse tables in which State holds
what the manual numbers in thousands (slots, associations, queue pairs). -/

namespace Sys2Proof

/-- A byte of a frame, a body, a memory. -/
abbrev Byte := BitVec 8

/-- A P-space port, a Lolan register, a register field's word (R8: bit 0 least significant). -/
abbrev Word := BitVec 32

/-- A run of bytes, the lowest address first. -/
abbrev Bytes := List (BitVec 8)

/-- A 96-bit global time stamp as R56 lays it out. -/
abbrev Gts := BitVec 96

/-- A sparse table: the entries that differ from the table's stated default, keys strictly rising. -/
abbrev Tab (α : Type) := List (Nat × α)

/-- A memory: the bytes that differ from what an unlisted address reads as, addresses strictly rising. -/
abbrev Mem := List (Nat × BitVec 8)

end Sys2Proof
end

