-- ==== Sys2Proof/Syntax.lean ====
section
/-! DEFINITION. Sys2Proof/Syntax.lean: the commands of the block, one constructor per row of the spec's table of
operations and events, with the operands each needs from outside. -/

namespace Sys2Proof

/-- The resource classes of R29, in the order of its rows. -/
inductive ResClass where
  | lane | hashUnit | engine | tenantCore | noiseCell | nandBlock | keyRow | norSector | dmaEngine | fwPair
  deriving DecidableEq, Repr

/-- What the SEC-DED check of a key-store row finds as it is read (R216). -/
inductive RowEcc where
  | clean | corrected | uncorrectable
  deriving DecidableEq, Repr

/-- What a transfer on a handshake link carries, so that its failure can complete it (R19, R20). -/
inductive OpRef where
  | none
  | job (id : Nat)
  | driner (party tag : Nat)
  /-- a key load (R219): the share of a slot's row that the transfer carries, as its check bits find the row (R216), and
  the job it is for -/
  | keyLoad (slot : Nat) (ecc : RowEcc) (job : Nat)
  deriving DecidableEq, Repr

/-- One try of a transfer as its receiver finds it (R17, R19): the parity of the bytes and the 2-bit sequence. -/
structure Try where
  parityOk : Bool
  seqOk : Bool
  deriving DecidableEq, Repr

/-- A pulse's edge at TIME_IN: whether it rises, and the pulse's width in ns (R61, R62). -/
structure TinPulse where
  rising : Bool
  widthNs : Nat
  deriving DecidableEq, Repr

/-- A decoded IRIG-B frame, as the receiver at TIME_IN hands it over (R63). -/
structure Irig where
  /-- every position marker stands where the standard places it -/
  markersOk : Bool
  sec : Nat
  min : Nat
  hour : Nat
  /-- day of year, from 1 -/
  day : Nat
  /-- the year of B004 to B007 -/
  year : Option Nat
  /-- straight binary seconds of the day, when present -/
  sbs : Option Nat
  /-- the IEEE 1344 fields: parity correct -/
  parityOk : Bool
  /-- IEEE 1344 year -/
  cfYear : Option Nat
  /-- leap second pending, and its sign (true deletes) -/
  lsp : Bool
  lsDelete : Bool
  /-- local time offset in half hours -/
  offset : Int
  /-- time quality -/
  quality : BitVec 4
  deriving DecidableEq, Repr

/-- The errors of R114. -/
inductive AerError where
  | receiverError | badTlp | badDllp | replayTimeout | replayRollover | correctedInternal | advisoryNonFatal
  | poisoned | ecrc | completionTimeout | unexpectedCompletion | completerAbort | unsupportedRequest
  | uncorrectableInternal | dataLink | flowControl | receiverOverflow | malformed
  deriving DecidableEq, Repr

/-- A configuration-space control that a host write sets (R92, R100, R102, R104, R109, R112, R113). `fn` 0 is PF0. -/
inductive Cfg where
  /-- Max Payload Size and Max Read Request Size, in bytes -/
  | maxPayload (bytes : Nat)
  | maxRead (bytes : Nat)
  | tag10 (on : Bool)
  | ptmEnable (on : Bool)
  | relaxed (on : Bool)
  /-- Completion Timeout Value and Completion Timeout Disable of Device Control 2 -/
  | cplTimeout (value : BitVec 4) (disable : Bool)
  | ecrc (generate check : Bool)
  | vfEnable (on : Bool) (numVFs : Nat)
  | busMaster (fn : Fin 64) (on : Bool)
  | d3hot (fn : Fin 64) (on : Bool)
  /-- the MSI-X function mask -/
  | fnMask (fn : Fin 64) (on : Bool)
  | msixEnable (fn : Fin 64) (on : Bool)
  /-- a base address register of PF0 (0 BAR0, 1 BAR2, 2 BAR4) and one of the SR-IOV capability (0 BAR0, 1 BAR2) -/
  | bar (n : Fin 3) (value : BitVec 64)
  | vfBar (n : Fin 2) (value : BitVec 64)
  /-- the severity of an uncorrectable error (R114) -/
  | severity (e : AerError) (fatal : Bool)
  /-- the Margining Lane Control register of a lane (R92) -/
  | margin (lane : Fin 16) (control : BitVec 16)
  deriving DecidableEq, Repr

/-- What causes a host reset (R111). -/
inductive HostResetCause where
  | perst | hotReset | linkDown | flrPf0
  deriving DecidableEq, Repr

/-- What acts on one function alone (R112). -/
inductive FnResetCause where
  | flr | busMasterClear | d3hot | vfDisable
  deriving DecidableEq, Repr

/-- How a completion to a module read ends (R104). -/
inductive Cpl where
  | data (bytes : List (BitVec 8))
  | unsupported | abort | poisoned | ecrcFail
  deriving DecidableEq, Repr

/-- What a host's read of a BAR asks for: its size in bytes, and whether it is an AtomicOp request (R92, R96). -/
structure BarAsk where
  size : Nat
  atomic : Bool
  deriving DecidableEq, Repr

/-- Flow-control credit: headers and 16-byte data units of posted, non-posted and completion TLPs. -/
structure Credit where
  ph : Nat := 0
  pd : Nat := 0
  nh : Nat := 0
  nd : Nat := 0
  ch : Nat := 0
  cd : Nat := 0
  deriving DecidableEq, Repr

/-- A Driner command as firmware takes it from its channel (R127, R128): the issuer's MID, the tag and the payload
bytes in the layout of R132 and R133. The opcode is the row's. -/
structure Req where
  party : Nat
  tag : Nat
  payload : List (BitVec 8)
  deriving DecidableEq, Repr

/-- A register access: by a core to a P-space port, with its MID and privilege level (R89, R371), or by the host to a
BAR of a function (R96). -/
inductive RegAccess where
  | port (mid : Nat) (pl : BitVec 2) (port : BitVec 16)
  | bar (fn : Fin 64) (bar offset size : Nat)
  deriving DecidableEq, Repr

/-- How a codeword read ends (R286): the threshold shifts it needed, soft decoding, or failure. -/
inductive ReadEnd where
  | hard (shifts : Nat)
  | soft
  /-- codewords of the segment that soft decoding could not correct, by number (R263) -/
  | unreadable (codewords : BitVec 16)
  deriving DecidableEq, Repr

/-- How a segment program or a block erase ends (R289): its status read passes, reports a failure, or itself fails. -/
inductive NandEnd where
  | pass
  | fail
  | noStatus
  deriving DecidableEq, Repr

/-- How the granules of a window read stand (R313): all valid, a single-bit error, correctable only at a shifted
reference, never; or the read link fails under the jig (R325). -/
inductive FlRead where
  | clean | corrected | shifted | never | jig
  deriving DecidableEq, Repr

/-- How a running flash operation ends: after its retries; the spares that fail their own erase before one serves
(R323); the first failing word of a margin check (R311). -/
structure FlEnd where
  pass : Bool
  spareFails : Nat
  failAt : Option Nat
  deriving DecidableEq, Repr

/-- One range that a DMA engine moves (R402): spaces I or D of a core's banks, cluster memory or the code-flash window.
`space` 0 is I-space, 1 D-space; `core` names the core whose I-space or local banks the range lies in. -/
structure DmaEnd where
  space : Nat
  core : Fin 14
  addr : Nat
  deriving DecidableEq, Repr

/-- A DMA descriptor: the engine moves `len` bytes; `op` is the operation that asked for the move. `parityErrors` counts the
tries that find its parity wrong before one finds it right (R29). -/
structure DmaDesc where
  src : DmaEnd
  dst : DmaEnd
  len : Nat
  op : OpRef
  parityErrors : Nat := 0
  deriving DecidableEq, Repr

/-- An SRAM error that an access finds: uncorrectable (vector 10), or corrected by the ECC and only counted (R29). -/
structure MemErr where
  space : Nat
  addr : BitVec 32
  corrected : Bool := false
  deriving DecidableEq, Repr

/-- What cards answer to a frame of reader mode (R460, R461): bits at anticollision up to and including the first
collision, whole bytes otherwise. -/
inductive CardFrame where
  /-- ATQA: at least one card answers REQA; UID size by its bits 7:6 -/
  | atqa (size : Nat)
  /-- anticollision: the bits received before the first collision, and whether there is one -/
  | uidBits (bits : List Bool) (collision : Bool)
  /-- SAK -/
  | sak (cascade iso4 : Bool)
  /-- ATS with its TA(1) -/
  | ats (ta : BitVec 8)
  | pps
  deriving DecidableEq, Repr

/-- The commands: one constructor per row of the table, in its order. -/
inductive Instr where
  /-- TRANSFER (R17): One four-phase transfer on a handshake link is taken by its receiver, with parity and sequence checks, a single repeat, isolation-gate handling and jig injection. -/
  | transfer (link mid : Nat) (word : BitVec 256) (first second : Try) (op : OpRef)
  /-- LINK_ACK_TIMEOUT (R20): A receiver fails to acknowledge within 4,096 sender cycles; the sender abandons the transfer and completes the operation with RESOURCE, or with JIG when the jig dropped the transfer. -/
  | linkAckTimeout (link mid : Nat) (op : OpRef)
  /-- LOCKSTEP_MISMATCH (R24): The two cores of a firmware pair disagree; DISAGREE fires and the pair re-executes from the last committed instruction. -/
  | lockstepMismatch (pair : Fin 2)
  /-- RETIREMENT (R30): A permanent decision retires a resource: its gate closes, a spare is assayed and opened, the retirement map is updated and a record is written, one retirement per class at a time. -/
  | retirement (cls : ResClass) (assays : List Bool)
  /-- ASSAY_DONE (R30): An assay of a lane, hash unit, engine or spare ends and passes, or fails and retires the resource. -/
  | assayDone (cls : ResClass) (phys : Nat) (pass : Bool)
  /-- PERIODIC_ASSAY (R215): The 24 h assay period of an active lane or hash unit expires, and its assay is started, with a stand-in for a reserved one. -/
  | periodicAssay (cls : ResClass) (phys : Nat)
  /-- ROOT_OK (R43): The start counter reaches 65,536 CLKIN edges; every divider is released on one root edge, domains move from bypass and the GTS starts. -/
  | rootOk
  /-- CLK_DOMSEL_WRITE (R48): PL0 firmware requests a domain multiplexer switch; the write is refused, discarded or carried out glitch-free. -/
  | clkDomselWrite (pl : BitVec 2) (value : BitVec 32) (stopped : BitVec 5)
  /-- MISSING_CLOCK (R50): The missing-clock detector fires; module reset is asserted, the sticky flag is set and the tamper source is raised. -/
  | missingClock
  /-- LOUPE_START (R53): Writing START arms a Loupe channel, which begins counting at the next reference edge. -/
  | loupeStart (ch : Fin 8) (value : BitVec 32)
  /-- LOUPE_ABORT (R53): A write of CLK_LP_CTRLn while BUSY aborts the measurement without setting DONE. -/
  | loupeAbort (ch : Fin 8) (value : BitVec 32)
  /-- LOUPE_GATE_END (R53): The gate of 2^GATE_EXP reference edges ends; the count is held, DONE is set, and in continuous mode the next gate starts. -/
  | loupeGateEnd (ch : Fin 8) (edges : Nat)
  /-- LOUPE_REF_LOST (R53): No reference edge arrives for 2.0 s; the measurement ends with DONE and REF_LOST. -/
  | loupeRefLost (ch : Fin 8)
  /-- LOOP_SECOND (R67): At each GTS second boundary the discipline loop takes the offset, rejects or accepts it, updates INC, steps, drops sources and updates QUAL. -/
  | loopSecond (boundary : Nat)
  /-- XCHK_HOLD_END (R68): The 60 s drop of TIME_IN imposed by the cross-check ends. -/
  | xchkHoldEnd
  /-- HOLDOVER_LIMIT (R70): The holdover error estimate exceeds TIM_HOLD.LIMIT and QUAL falls to 0b11. -/
  | holdoverLimit
  /-- TIN_EDGE (R62): An active edge at TIME_IN in 1PPS mode is captured, delay-compensated and validated as a pulse. -/
  | tinEdge (phase : Fin 4) (pulse : TinPulse)
  /-- IRIG_FRAME (R63): A complete IRIG-B frame is decoded and validated, converted to TAI, and any announced leap second is applied. -/
  | irigFrame (frame : Irig)
  /-- TIN_LOST (R62): No valid TIME_IN edge arrives for 2.5 s; the reference is lost and quality may pass to holdover. -/
  | tinLost
  /-- PTM_REQUEST (R109): The PTM interval expires and a PTM Request is sent, stamped t1. -/
  | ptmRequest
  /-- PTM_RESPONSE (R109): A PTM ResponseD arrives and is stamped t4, giving the dialog's offset; a Response without data abandons the dialog. -/
  | ptmResponse (t2 : Option (BitVec 64)) (prop : BitVec 32)
  /-- PTM_TIMEOUT (R109): No PTM answer arrives within 1 ms and the dialog is abandoned. -/
  | ptmTimeout
  /-- TIM_CMD_LOAD (R72): Writing TIM_CMD.LOAD loads TIM_LOAD into the GTS when QUAL is 0b11 and the value is later, otherwise sets LOAD_BACK. -/
  | timCmdLoad
  /-- TIM_CMD_REBASE (R73): Writing TIM_CMD.REBASE releases Dovetail, closes the drawer, sets the counter in either direction and writes a rebase record. -/
  | timCmdRebase
  /-- TIM_CMD_ARM (R87): Writing TIM_CMD.ARM ends the start hold and arms the shadow copies without a load. -/
  | timCmdArm
  /-- TIM_MAP_COMMIT (R65): Writing COMMIT takes TIM_MAP0–TIM_MAP6 as one PTM map. -/
  | timMapCommit
  /-- SHADOW_COPY (R86): Every 2^20 ns of device time, while armed, GTS[95:18] is copied into the always-on time shadow. -/
  | shadowCopy
  /-- BRACKET_TIMEOUT (R88): No lock is reached within 60 s of the start load; the bracket end is taken and bracketed records carry UNSYNC. -/
  | bracketTimeout
  /-- PPSO_PULSE (R75): PPSO drives its active edge at a second boundary plus TIM_PPSO_OFS when quality allows. -/
  | ppsoPulse
  /-- PPSO_PULSE_END (R76): The pulse width expires and PPSO returns to its inactive level. -/
  | ppsoPulseEnd
  /-- EVT_EDGE (R77): A raw edge at an event pin is captured to 208 ps and starts or restarts the pin's filter. -/
  | evtEdge (pin : Fin 16) (phase : Fin 4) (level : Bool)
  /-- EVT_FILTER_DONE (R79): A level holds for FILT_LEN units; the change is accepted and an event queued, or the pending change is abandoned as an excursion. -/
  | evtFilterDone (pin : Fin 16)
  /-- EVT_CTRL_WRITE (R80): A write of TIM_EVT_CTRLn takes the present level as accepted and discards any pending change. -/
  | evtCtrlWrite (pin : Fin 16) (value : BitVec 32)
  /-- DOVETAIL_ARRIVAL (R85): An event reaches the Dovetail store and is held, refused as C2 or C3, released at once as LATE, or held back on its link. -/
  | dovetailArrival (n : Nat)
  /-- DOVETAIL_RELEASE (R83): A held event falls below the release horizon and is released in order to archive intake and host notification. -/
  | dovetailRelease
  /-- TIME_GET (R91): Driner returns the latched GTS, the error estimate and the source. -/
  | timeGet (r : Req)
  /-- TIME_STATUS (R90): Driner returns the time status, offset, INC, TAI-UTC and events. -/
  | timeStatus (r : Req)
  /-- TIME_CONFIG (R91): PF0 configures TIME_IN, PTM, the loop gains and holdover; a mode change drops the current reference. -/
  | timeConfig (r : Req)
  /-- TIME_SET_MAP (R91): PF0 supplies a PTM-to-TAI map that takes effect at the next loop second. -/
  | timeSetMap (r : Req)
  /-- TIME_SET_UTC (R90): PF0 sets the TAI-UTC offset and its valid flag. -/
  | timeSetUtc (r : Req)
  /-- TIME_LOAD (R90): PF0 loads the GTS under R72, or the command completes with REJECTED. -/
  | timeLoad (r : Req)
  /-- TIME_REBASE (R73): PF0 with owner authorization rebases the GTS in either direction. -/
  | timeRebase (r : Req)
  /-- PPSO_CONFIG (R90): PF0 configures PPSO enable, polarity, quality, width and offset. -/
  | ppsoConfig (r : Req)
  /-- EVT_CONFIG (R90): PF0 writes an event pin's control image and notification queue, with REJECTED cases. -/
  | evtConfig (r : Req)
  /-- EVT_READ (R90): Any function reads an event pin's status image. -/
  | evtRead (r : Req)
  /-- DOORBELL (R97): A host write to a doorbell BAR is decoded unit by unit, checked, and applied as new SQ tails and CQ heads, or discarded with a reason. -/
  | doorbell (fn : Fin 64) (offset : Nat) (data : List (BitVec 8)) (allBytes : Bool)
  /-- CONFIG_WRITE (R92): A host configuration write sets endpoint controls such as MPS, tags, PTM Enable, Bus Master Enable or SR-IOV enables. -/
  | configWrite (c : Cfg)
  /-- LINK_UP (R113): The link trains up and configuration requests are served; the width is checked against the class-0 floor. -/
  | linkUp (speed width : Nat)
  /-- LINK_RETRAIN (R108): The link retrains to a new width or rate; the guarantee is withdrawn below the floor or restored at or above it. -/
  | linkRetrain (speed width : Nat)
  /-- HOST_RESET (R111): PERST_N, a Hot Reset, a link-down or an FLR of PF0 resets the endpoint, disables queue pairs, drops jobs and flushes host channels. -/
  | hostReset (cause : HostResetCause)
  /-- FUNCTION_RESET (R112): A VF FLR, a clear of Bus Master Enable or a move to D3hot stops, drops and disables that one function's work. -/
  | functionReset (fn : Fin 64) (cause : FnResetCause)
  /-- HOST_READ_COMPLETION (R104): A completion to a module read arrives; the tag is freed, or a failed read completes its job with HOST_READ. -/
  | hostReadCompletion (tag : Nat) (c : Cpl)
  /-- COMPLETION_TIMEOUT (R104): A read passes its completion timeout and fails under R104. -/
  | completionTimeout (tag : Nat)
  /-- AER_ERROR (R114): A link or TLP error is detected, logged and reported through AER, uncorrectable ones also archived. -/
  | aerError (e : AerError) (fn : Fin 64) (header : Nat)
  /-- TLP_TRANSMIT (R105): At a TLP boundary the transmitter sends the priority head when credit allows, otherwise a general TLP. -/
  | tlpTransmit
  /-- CREDIT_UPDATE (R106): The link partner returns flow-control credit and a waiting priority TLP may leave. -/
  | creditUpdate (c : Credit)
  /-- CREDIT_WAIT_EXPIRY (R106): A credit wait of the priority head passes 100 ns; CRED_STALL counts it and affected class-0 jobs carry cause 0x07. -/
  | creditWaitExpiry
  /-- COALESCE_TIMEOUT (R101): The oldest unsignalled completion has been held COAL_TIME µs and the queue pair's vector is signalled. -/
  | coalesceTimeout (qpn : Nat)
  /-- HEARTBEAT (R99): Firmware advances GLB_HEARTBEAT once per millisecond. -/
  | heartbeat
  /-- REGISTER_WRITE (R11): A write to a register field that has no row of its own takes effect under its access code. -/
  | registerWrite (a : RegAccess) (value : BitVec 64)
  /-- MBX_SEND (R121): SEND copies the staging buffer into the channel FIFO and sets doorbell bit 0, or is discarded with OVERRUN. -/
  | mbxSend (mid window : Nat)
  /-- MBX_POP (R121): POP removes the head message of a channel FIFO. -/
  | mbxPop (mid window : Nat)
  /-- MBX_DB_WRITE (R122): A sender sets or a receiver clears doorbell bits, which signal interrupts or wake cores. -/
  | mbxDbWrite (mid window : Nat) (value : BitVec 32)
  /-- MBX_DB_MASK_WRITE (R122): A receiver writes the doorbell mask; unmasking a set bit signals it. -/
  | mbxDbMaskWrite (mid window : Nat) (value : BitVec 32)
  /-- MBX_TIMEOUT (R123): A head message is not popped within the channel timeout and TIMEOUT sets on the sender's side. -/
  | mbxTimeout (ch : Fin 256)
  /-- MBX_BIND_WRITE (R118): PL0 firmware writes a binding-table entry, discarded after the lock. -/
  | mbxBindWrite (mid : Nat) (pl : BitVec 2) (ch : Fin 256) (wordB : Bool) (value : BitVec 32)
  /-- MBX_LOCK (R118): Setting LOCK locks the binding table until module reset. -/
  | mbxLock
  /-- DRINER_RESPONSE_SEND (R131): A held Driner response is sent once its channel has room for all its messages. -/
  | drinerResponseSend (n : Nat)
  /-- IDENT_GET (R132): Returns ordering code, identity, serial, firmware version and boot count. -/
  | identGet (r : Req)
  /-- FEATURES_GET (R134): Returns the feature bits, VFs, vectors and the caller's queue range. -/
  | featuresGet (r : Req)
  /-- CAPACITY_GET (R134): Returns active, spare and retired counts per resource class and the class-0 reservation state. -/
  | capacityGet (r : Req)
  /-- QP_ASSIGN (R135): PF0 gives a function one contiguous range of queue pairs, or removes it. -/
  | qpAssign (r : Req)
  /-- CTX_TABLE_SET (R136): PF0 donates the host memory that holds the context table. -/
  | ctxTableSet (r : Req)
  /-- QP_CREATE (R140): A function enables a queue pair from a context image, advancing SEQ and computing the MAC. -/
  | qpCreate (r : Req)
  /-- QP_DESTROY (R141): A function begins destroying a queue pair: fetch stops, jobs in flight finish, then EN clears and the context is written back. -/
  | qpDestroy (r : Req)
  /-- QP_DESTROY_FINISH (R141): The last job of a destroying queue pair completes and the destroy writes back, clears DESTROYING and answers. -/
  | qpDestroyFinish (qpn : Nat)
  /-- QP_QUERY (R132): Returns a queue pair's state word, SQ head, CQ tail and overflow count. -/
  | qpQuery (r : Req)
  /-- KEY_SWEEP_STEP (R143): The sweep re-keys the next queue pair's context, and at the end of the walk erases the old key. -/
  | keySweepStep
  /-- SQ_FETCH (R155): The fetch scheduler chooses an eligible queue pair by class priority and deficit round robin and reads a run of SQ entries. -/
  | sqFetch
  /-- JOB_ADMIT (R150): Fetched SQ entries are admitted to the job table in ring order as earlier runs and table entries allow. -/
  | jobAdmit (qpn : Nat)
  /-- JOB_DISPATCH (R157): A job is dispatched to lanes, a gang or a hash unit once they and a mask draw are free. -/
  | jobDispatch
  /-- JOB_COMPLETION (R154): A job ends: its output precedes the CQE, the CQE is written with status, flags, credit and GTS, and holds are released. -/
  | jobCompletion (job : Nat)
  /-- EVENT_ENTRY (R161): An event entry is written to an event queue in release order, or dropped and counted when the queue is full. -/
  | eventEntry
  /-- JOB_NOP (R149): A NOP job makes no host access and completes with OK, reporting credit. -/
  | jobNop (job : Nat)
  /-- GOOSE_TRANSMIT_TAG (R177): A GOOSE frame is tagged under the current transmit key and written to DST. -/
  | gooseTransmitTag (job : Nat)
  /-- GOOSE_RECEIVE_VERIFY (R179): A GOOSE frame is parsed, keyed, tag-checked, replay-checked and freshness-checked. -/
  | gooseReceiveVerify (job : Nat)
  /-- SV_TRANSMIT_TAG (R177): A Sampled Values frame is tagged and written to DST. -/
  | svTransmitTag (job : Nat)
  /-- SV_RECEIVE_VERIFY (R179): A Sampled Values frame is verified through the steps of R179. -/
  | svReceiveVerify (job : Nat)
  /-- GENERIC_FRAME_TRANSMIT (R190): A generic frame is encrypted and tagged with AES-GCM under the association's key. -/
  | genericFrameTransmit (job : Nat)
  /-- GENERIC_FRAME_RECEIVE (R190): A generic frame is decrypted, verified and replay-checked. -/
  | genericFrameReceive (job : Nat)
  /-- AES_GCM_ENCRYPT (R208): A cipher job encrypts and tags under a general slot. -/
  | aesGcmEncrypt (job : Nat)
  /-- AES_GCM_DECRYPT (R211): A cipher job decrypts and verifies, writing plaintext before the verdict. -/
  | aesGcmDecrypt (job : Nat)
  /-- AES_GMAC_GENERATE (R208): A cipher job generates a GMAC tag over AAD. -/
  | aesGmacGenerate (job : Nat)
  /-- AES_GMAC_VERIFY (R208): A cipher job verifies a GMAC tag in constant time. -/
  | aesGmacVerify (job : Nat)
  /-- AES_CTR (R208): A cipher job XORs data with the CTR keystream. -/
  | aesCtr (job : Nat)
  /-- SHA_256 (R231): A hash job computes a SHA-256 digest. -/
  | sha256 (job : Nat)
  /-- SHA_512 (R231): A hash job computes a SHA-512 digest. -/
  | sha512 (job : Nat)
  /-- HMAC_SHA256 (R232): A hash job computes HMAC-SHA256 under a general slot. -/
  | hmacSha256 (job : Nat)
  /-- ARCHIVE_APPEND (R293): Job 0x30 appends a record body of the queue pair's class; its CQE follows commitment. -/
  | archiveAppend (job : Nat)
  /-- PA_CREATE (R169): PF0 creates an association in IDLE, optionally restoring replay state from a checkpoint. -/
  | paCreate (r : Req)
  /-- PA_KEY_LOAD (R185): PF0 unwraps a sealed key into an association slot as current or next, or replaces the next key. -/
  | paKeyLoad (r : Req)
  /-- PA_ROLL (R186): PF0 schedules the next key of a direction to become current at an activation GTS. -/
  | paRoll (r : Req)
  /-- PA_STATE_SET (R171): PF0 sets an association FREE, ACTIVE or SUSPENDED, or resynchronizes its replay state. -/
  | paStateSet (r : Req)
  /-- ASSOCIATION_FREED (R171): The last job of an association being freed completes; its slots are erased and its entry cleared. -/
  | associationFreed (n : Fin 2048)
  /-- PA_QUERY (R196): Returns an association's 40-byte state block. -/
  | paQuery (r : Req)
  /-- ROLL_FIRE (R186): The GTS reaches a roll's activation; the next key becomes current and an event entry is raised. -/
  | rollFire (n : Fin 2048) (rx : Bool)
  /-- GRACE_END (R186): Activation plus GRACE passes and the previous receive key is erased once unheld. -/
  | graceEnd (n : Fin 2048)
  /-- KEY_UNWRAP (R223): PF0 unwraps a sealed key into a general slot. -/
  | keyUnwrap (r : Req)
  /-- KEY_ATTR_GET (R218): Returns a slot's attribute word as visible to the issuer. -/
  | keyAttrGet (r : Req)
  /-- KEY_ERASE (R218): PF0 erases a general slot under R221. -/
  | keyErase (r : Req)
  /-- KEY_UNWRAP_GO (R223): Writing GO starts an unwrap of the sealed key in KEY_SEAL0–19 through the Locket engine and seal unit. -/
  | keyUnwrapGo (value : BitVec 32)
  /-- UNWRAP_THROTTLE_END (R224): 60 s after the 16th failed unwrap, the throttle lifts. -/
  | unwrapThrottleEnd
  /-- KEY_CMD_ERASE (R221): Writing ERASE sets the selected slot ERASING pending its holds. -/
  | keyCmdErase
  /-- KEY_CMD_RESPLIT (R220): Writing RESPLIT re-splits the selected slot's shares. -/
  | keyCmdResplit
  /-- KEY_ERASE_FINISH (R221): A slot's hold count reaches 0; zeros are written and read back, retiring the row if needed. -/
  | keyEraseFinish (slot : Fin 16384) (readsZero : Bool)
  /-- RESPLIT (R220): A slot reaches 65,536 key loads and its shares are re-split with fresh noise. -/
  | resplit (slot : Fin 16384)
  /-- LANE_TRANSIENT_ERROR (R214): A lane finds a mask-share parity error or tag self-check mismatch; the job reruns, at most twice. -/
  | laneTransientError (phys : Fin 544) (job : Nat)
  /-- LANE_ASSAY_GO (R215): Writing BCH_ASSAY.GO starts an assay of the chosen lane. -/
  | laneAssayGo (value : BitVec 32)
  /-- BCH_RESERVE_WRITE (R205): Firmware writes the reservation count and acceptance, applied lane by lane. -/
  | bchReserveWrite (value : BitVec 32)
  /-- C0_RESERVE_SET (R205): PF0 sets or withdraws the owner's reserved-lane count and acceptance. -/
  | c0ReserveSet (r : Req)
  /-- HASH_UNIT_MISMATCH (R234): A hash unit's result check fails; the job or archive work is computed again on another unit. -/
  | hashUnitMismatch (phys : Fin 68) (job : Option Nat)
  /-- HASH_ASSAY_GO (R234): Writing BCH_HU_ASSAY.GO starts an assay of the chosen hash unit. -/
  | hashAssayGo (value : BitVec 32)
  /-- ME_ADD (R237): An engine adds two operands modulo M. -/
  | meAdd (n : Fin 4) (sizeW : BitVec 9)
  /-- ME_SUB (R237): An engine subtracts two operands modulo M. -/
  | meSub (n : Fin 4) (sizeW : BitVec 9)
  /-- MMUL (R237): An engine performs a Montgomery multiply. -/
  | mmul (n : Fin 4) (sizeW : BitVec 9)
  /-- INV (R237): An engine computes a constant-time modular inverse. -/
  | invM (n : Fin 4) (sizeW : BitVec 9)
  /-- EXP (R237): An engine computes a modular exponent by Montgomery ladder. -/
  | expM (n : Fin 4) (sizeW : BitVec 9)
  /-- ME_LOAD (R240): An engine loads a secret from key slots or a module row over the key bus. -/
  | meLoad (n : Fin 4) (sizeW : BitVec 9)
  /-- ME_CLEAR (R237): An engine erases a page and clears its SECRET bit. -/
  | meClear (n : Fin 4) (sizeW : BitVec 9)
  /-- P521_SIGN (R243): The engine signs a digest with P-521 and checks the signature before release. -/
  | p521Sign (n : Fin 4) (sizeW : BitVec 9)
  /-- P521_VERIFY (R242): The engine verifies a P-521 signature. -/
  | p521Verify (n : Fin 4) (sizeW : BitVec 9)
  /-- P521_PUBKEY (R241): The engine computes a P-521 public key. -/
  | p521Pubkey (n : Fin 4) (sizeW : BitVec 9)
  /-- ENGINE_DONE (R239): An engine operation ends in its fixed time; the result is written, or the page erased with REJECTED. -/
  | engineDone (n : Fin 4) (checkFails : Bool)
  /-- KEY_ME_DATA_READ (R236): A read of KEY_ME_DATA returns the word, or 0 for a secret page, and advances ADDR. -/
  | keyMeDataRead (n : Fin 4)
  /-- KEY_ME_DATA_WRITE (R236): A write of KEY_ME_DATA stores a word, erasing a secret page first, and advances ADDR. -/
  | keyMeDataWrite (n : Fin 4) (value : BitVec 32)
  /-- KEY_ME_LOCK (R236): Setting PROG locks pages 48–63 until module reset. -/
  | keyMeLock
  /-- ENGINE_ASSAY_GO (R235): Writing KEY_ME_ASSAY.GO runs the known-answer assay of a physical engine. -/
  | engineAssayGo (value : BitVec 32)
  /-- WINDOW_RELEASE (R251): A noise cell completes a 1,024-bit window, runs its health tests and releases or discards it. -/
  | windowRelease (cell : Fin 272) (bits : BitVec 1024)
  /-- STARTUP_TEST_DONE (R252): A noise cell's 4,096-bit start-up test ends, passing, retrying or retiring the cell. -/
  | startupTestDone (cell : Fin 272) (bits : BitVec 4096)
  /-- CONDITIONER_BLOCK (R253): A conditioner core produces a 512-bit block, handed to consumers in precedence order. -/
  | conditionerBlock
  /-- KEY_NH_RAND_READ (R259): A core reads 32 fresh bits from the software pool, waiting when it is empty. -/
  | keyNhRandRead (mid : Nat)
  /-- NH_RAND_TIMEOUT (R259): A software read waits 10 µs without a word, returns 0 and sets UNDERRUN. -/
  | nhRandTimeout (mid : Nat)
  /-- TEST_EN_WRITE (R261): In Factory, KEY_NH_CTRL.TEST_EN replaces cell output with the test pattern; elsewhere the write is discarded. -/
  | testEnWrite (on : Bool)
  /-- RECORD_INTAKE (R279): A record arrives at the intake port and is accepted, coalesced, dropped into a gap or held. -/
  | recordIntake
  /-- RECORD_SEQUENCE (R270): An accepted record with its body digest is given DSEQ and LINK and placed in the open drawer. -/
  | recordSequence
  /-- CLOSE_INTERVAL_EXPIRY (R274): The close interval passes with a content record in the drawer and the drawer closes INTERVAL. -/
  | closeIntervalExpiry
  /-- ARC_FORCE_CLOSE (R274): Writing FORCE_CLOSE closes the open drawer with COMMAND. -/
  | arcForceClose
  /-- SEGMENT_PROGRAM_DONE (R270): A segment program ends; records whose segments all passed are committed, or a failure retires the block. -/
  | segmentProgramDone (seg : Nat) (e : NandEnd)
  /-- SEAL_DEFER_TIMEOUT (R278): 1 s after a close condition without the predecessor's seal, the drawer closes with SEAL_DEFERRED. -/
  | sealDeferTimeout
  /-- LARGE_RECORD_SECOND_READ (R280): A large record's body is read a second time into segments and its digest compared. -/
  | largeRecordSecondRead (dseq : Nat) (data : Option (List (BitVec 8)))
  /-- RUN_TIMEOUT (R281): 1 s after a repeat run's first repeat, the run ends and a COUNT record is sequenced. -/
  | runTimeout
  /-- GAP_TIMEOUT (R282): A gap has been open 1 s and closes with a GAP record. -/
  | gapTimeout
  /-- INCIDENT_EXIT (R283): Occupancy has stayed below 25 % for 10 s with no gap open, and an automatic INCIDENT ends. -/
  | incidentExit
  /-- EMERGENCY_SET_READY (R284): A replacement emergency set finishes erasing and stands ready. -/
  | emergencySetReady
  /-- SCRUB_READ (R287): The scrubber reads a programmed segment, possibly scheduling a refresh. -/
  | scrubRead (seg : Nat) (result : ReadEnd)
  /-- BLOCK_REFRESH (R288): A block's segments are copied to headroom, the directory updated and the old block erased. -/
  | blockRefresh (block : Fin 1310720)
  /-- CHANNEL_TIMEOUT (R289): A NAND channel fails training or times out and is retired. -/
  | channelTimeout (ch : Fin 8) (training : Bool)
  /-- ARC_APPEND (R292): An issuer appends a record by Driner, answered after sequencing or commitment. -/
  | arcAppend (r : Req) (body : Option (List (BitVec 8)))
  /-- ARC_READ (R294): PF0 reads committed records into a buffer. -/
  | arcRead (r : Req)
  /-- ARC_SEAL_GET (R295): Returns a drawer's seal record once signed. -/
  | arcSealGet (r : Req)
  /-- ARC_STATUS (R295): Returns archive usage, staging, INCIDENT and gap count. -/
  | arcStatus (r : Req)
  /-- ARC_CONFIG (R295): PF0 sets the drawer close interval. -/
  | arcConfig (r : Req)
  /-- ARCHIVE_INTAKE_OPEN (R272): At start, intake opens and sequencing resumes with a GAP or the first OPEN. -/
  | archiveIntakeOpen
  /-- FL_UNLOCK_WRITE (R307): A write of FL_UNLOCK advances or breaks the six-write command sequence. -/
  | flUnlockWrite (mid : Nat) (pl : BitVec 2) (value : BitVec 32)
  /-- FL_SEQ_TIMEOUT (R307): More than 100 µs pass within a command sequence and it is broken with SEQ_ERR. -/
  | flSeqTimeout
  /-- PROGRAM (R304): A flash PROGRAM command writes a granule or raw word with margin verify. -/
  | program (mid : Nat) (pl : BitVec 2) (value : BitVec 32)
  /-- ERASE (R316): A flash ERASE command journals and erases a sector. -/
  | erase (mid : Nat) (pl : BitVec 2) (value : BitVec 32)
  /-- SUSPEND (R314): SUSPEND pauses a running erase. -/
  | suspend (mid : Nat) (pl : BitVec 2) (value : BitVec 32)
  /-- FL_SUSPEND_HELD_EXPIRY (R314): A held SUSPEND takes effect after the erase has run a further 1 ms. -/
  | flSuspendHeldExpiry
  /-- RESUME (R314): RESUME continues a suspended erase. -/
  | resume (mid : Nat) (pl : BitVec 2) (value : BitVec 32)
  /-- MARGIN_CHECK (R311): A flash range is read at program or erase margin without change. -/
  | marginCheck (mid : Nat) (pl : BitVec 2) (value : BitVec 32)
  /-- RDP_RAISE (R321): The read-out protection level is raised under a double decision. -/
  | rdpRaise (mid : Nat) (pl : BitVec 2) (value : BitVec 32)
  /-- RDP_DESCEND (R322): The level descends from 1 to 0, erasing keys, banks and the archive key. -/
  | rdpDescend (mid : Nat) (pl : BitVec 2) (value : BitVec 32)
  /-- KIND_SET (R303): In Factory at level 0, a sector's kind is set. -/
  | kindSet (mid : Nat) (pl : BitVec 2) (value : BitVec 32)
  /-- FL_COMMAND_DONE (R309): A flash program, erase, margin check or descent step ends with its RESULT, retiring sectors on failure. -/
  | flCommandDone (e : FlEnd)
  /-- FLASH_WINDOW_READ (R313): A window read is served with ECC correction, retry, hold or a bus error. -/
  | flashWindowRead (mid : Nat) (pl : BitVec 2) (addr size : Nat) (how : FlRead)
  /-- FL_WP_WRITE (R319): Setting FL_WPn bits write-protects sectors until module reset. -/
  | flWpWrite (mid : Nat) (pl : BitVec 2) (n : Fin 64) (value : BitVec 32)
  /-- FL_SCAN (R317): After reset release the controller scans the erase journals and marks ERASE_INCOMPLETE sectors. -/
  | flScan
  /-- MOV (R339): ALU MOV in register, immediate or memory forms, including loads and stores. -/
  | mov (c : Fin 14)
  /-- ADD (R339): ALU ADD in any form. -/
  | add (c : Fin 14)
  /-- ADC (R339): ALU add with carry. -/
  | adc (c : Fin 14)
  /-- SUB (R339): ALU SUB. -/
  | sub (c : Fin 14)
  /-- SBC (R339): ALU subtract with borrow. -/
  | sbc (c : Fin 14)
  /-- CMP (R339): SUB that writes only flags. -/
  | cmp (c : Fin 14)
  /-- AND (R339): ALU AND. -/
  | andI (c : Fin 14)
  /-- OR (R339): ALU OR. -/
  | orI (c : Fin 14)
  /-- XOR (R339): ALU XOR. -/
  | xorI (c : Fin 14)
  /-- TST (R339): AND that writes only flags. -/
  | tst (c : Fin 14)
  /-- SHL (R339): Shift left. -/
  | shl (c : Fin 14)
  /-- SHR (R339): Logical shift right. -/
  | shr (c : Fin 14)
  /-- SAR (R339): Arithmetic shift right. -/
  | sar (c : Fin 14)
  /-- ROL (R339): Rotate left. -/
  | rol (c : Fin 14)
  /-- MUL (R339): Low 32 bits of a product. -/
  | mul (c : Fin 14)
  /-- MULHU (R339): High 32 bits of an unsigned product. -/
  | mulhu (c : Fin 14)
  /-- NEG (R340): Negate. -/
  | neg (c : Fin 14)
  /-- NOT (R340): Bitwise complement. -/
  | notI (c : Fin 14)
  /-- SEXB (R340): Sign-extend a byte. -/
  | sexb (c : Fin 14)
  /-- SEXH (R340): Sign-extend a halfword. -/
  | sexh (c : Fin 14)
  /-- DIVU (R340): Unsigned divide. -/
  | divu (c : Fin 14)
  /-- DIVS (R340): Signed divide. -/
  | divs (c : Fin 14)
  /-- REMU (R340): Unsigned remainder. -/
  | remu (c : Fin 14)
  /-- REMS (R340): Signed remainder. -/
  | rems (c : Fin 14)
  /-- MULHS (R340): High 32 bits of a signed product. -/
  | mulhs (c : Fin 14)
  /-- CLZ (R340): Count leading zeros. -/
  | clz (c : Fin 14)
  /-- LEA (R340): Load the effective address. -/
  | lea (c : Fin 14)
  /-- LDSB (R340): Sign-extending byte load. -/
  | ldsb (c : Fin 14)
  /-- LDSH (R340): Sign-extending halfword load. -/
  | ldsh (c : Fin 14)
  /-- BCC (R343): Conditional branch with a delay slot. -/
  | bcc (c : Fin 14)
  /-- BCC_A (R343): Annulling conditional branch. -/
  | bccA (c : Fin 14)
  /-- JMP (R342): Jump, absolute or through a register. -/
  | jmp (c : Fin 14)
  /-- CALL (R342): Call, absolute or through a register, pushing the shadow stack. -/
  | call (c : Fin 14)
  /-- BSR (R342): Relative call. -/
  | bsr (c : Fin 14)
  /-- BBT (R342): Branch on bit true. -/
  | bbt (c : Fin 14)
  /-- BBF (R342): Branch on bit false. -/
  | bbf (c : Fin 14)
  /-- BBT_A (R342): Annulling branch on bit true. -/
  | bbtA (c : Fin 14)
  /-- BBF_A (R342): Annulling branch on bit false. -/
  | bbfA (c : Fin 14)
  /-- BBTC (R342): Branch on bit true and clear it indivisibly. -/
  | bbtc (c : Fin 14)
  /-- BBTC_A (R342): Annulling branch on bit true and clear. -/
  | bbtcA (c : Fin 14)
  /-- LOOP (R347): Start a hardware loop with a register count. -/
  | loopI_ (c : Fin 14)
  /-- LOOPI (R347): Start a hardware loop with an immediate count. -/
  | loopi (c : Fin 14)
  /-- BREAKL (R347): Clear LA. -/
  | breakl (c : Fin 14)
  /-- SETB (R350): Set a bit, direct or indexed. -/
  | setb (c : Fin 14)
  /-- CLRB (R350): Clear a bit, direct or indexed. -/
  | clrb (c : Fin 14)
  /-- CPLB (R350): Complement a bit. -/
  | cplb (c : Fin 14)
  /-- MOVB_TO_F (R350): Copy a bit into F. -/
  | movbToF (c : Fin 14)
  /-- MOVB_FROM_F (R350): Copy F into a bit. -/
  | movbFromF (c : Fin 14)
  /-- ANDB (R350): F := F AND bit. -/
  | andb (c : Fin 14)
  /-- ORB (R350): F := F OR bit. -/
  | orb (c : Fin 14)
  /-- XORB (R350): F := F XOR bit. -/
  | xorb (c : Fin 14)
  /-- ANDNB (R350): F := F AND NOT bit. -/
  | andnb (c : Fin 14)
  /-- ORNB (R350): F := F OR NOT bit. -/
  | ornb (c : Fin 14)
  /-- TSTB (R350): Test and set a local bit indivisibly. -/
  | tstb (c : Fin 14)
  /-- BOP (R350): Three-bit logical operation. -/
  | bop (c : Fin 14)
  /-- TAS (R351): Test-and-set a byte in a local bank. -/
  | tas (c : Fin 14)
  /-- LDR_RS (R351): Load a word and take a reservation. -/
  | ldrRs (c : Fin 14)
  /-- STC (R352): Store conditionally on the reservation. -/
  | stc (c : Fin 14)
  /-- CLRRS (R359): Clear the reservation. -/
  | clrrs (c : Fin 14)
  /-- MAC (R357): Dual-fetch multiply-accumulate with pointer post-modify. -/
  | mac (c : Fin 14)
  /-- MACR (R355): Multiply-accumulate from registers. -/
  | macr (c : Fin 14)
  /-- ACSR (R355): Take an accumulator's low word and shift logically. -/
  | acsr (c : Fin 14)
  /-- ACSRA (R355): Take an accumulator's low word and shift arithmetically. -/
  | acsra (c : Fin 14)
  /-- ACSAT (R355): Round and saturate an accumulator into a register. -/
  | acsat (c : Fin 14)
  /-- ACCLR (R355): Clear an accumulator. -/
  | acclr (c : Fin 14)
  /-- NOP (R359): No operation. -/
  | nop (c : Fin 14)
  /-- WAIT (R359): Stop the core clock until an interrupt request or mailbox signal. -/
  | wait (c : Fin 14)
  /-- WAIT_WAKE (R359): An interrupt request or mailbox signal wakes a waiting core. -/
  | waitWake (c : Fin 14)
  /-- BRK (R359): Raise the breakpoint fault. -/
  | brk (c : Fin 14)
  /-- ISYNC (R333): Discard fetched instructions and refetch. -/
  | isync (c : Fin 14)
  /-- FENCE (R354): Wait until earlier stores are visible and loads complete. -/
  | fence (c : Fin 14)
  /-- RET (R342): Return to LK, popping and checking the shadow stack. -/
  | ret (c : Fin 14)
  /-- RETX (R387): Return from a fault, interrupt, system call or escalation with double-checked records. -/
  | retx (c : Fin 14) (upset : Bool)
  /-- SC (R392): Fast system call through SCE0–SCE3. -/
  | sc (c : Fin 14)
  /-- UDF (R359): Raise the illegal-instruction fault. -/
  | udf (c : Fin 14)
  /-- IN (R361): Read a P-space port. -/
  | inP (c : Fin 14)
  /-- OUT (R361): Write a P-space port. -/
  | outP (c : Fin 14)
  /-- MFS (R329): Read a special register. -/
  | mfs (c : Fin 14)
  /-- MTS (R329): Write a special register; a write of SR changes mode. -/
  | mts (c : Fin 14)
  /-- EVPOST (R362): Post a stamped Dovetail event from a core. -/
  | evpost (c : Fin 14)
  /-- DMA_DESCRIPTOR (R402): A DMA engine checks and moves one descriptor's range under its MPU. -/
  | dmaDescriptor (e : Fin 8) (d : DmaDesc)
  /-- FAULT_ENTRY (R374): A fault is entered through its descriptor, pushing a record and writing a frame. -/
  | faultEntry (c : Fin 14) (err : Option MemErr)
  /-- INTERRUPT_ENTRY (R376): The highest pending level above ML is taken at an instruction boundary. -/
  | interruptEntry (c : Fin 14)
  /-- SS_SPILL (R386): A read of GLB_SS_SPILL0 removes the oldest record of a less privileged shadow stack. -/
  | ssSpill (c : Fin 14) (d : Fin 16)
  /-- SS_FILL (R386): A write of GLB_SS_SPILL0 inserts a staged record at the bottom of a shadow stack. -/
  | ssFill (c : Fin 14) (value : BitVec 32)
  /-- SS_REDIRECT (R390): A write of GLB_SS_REDIRECT replaces the PC of the top exception or system-call record. -/
  | ssRedirect (c : Fin 14) (value : BitVec 32)
  /-- IRQ_SWSET (R376): A write of GLB_IRQ_SWSET sets pending interrupt levels. -/
  | irqSwset (c : Fin 14) (value : BitVec 32)
  /-- CORE_RUN (R369): Setting or clearing a tenant core's RUN starts it at PL2 or stops it at a boundary. -/
  | coreRun (mid : Nat) (on : Bool)
  /-- CORE_RESET (R406): GLB_CORE_CTRL.RESET resets a tenant core's registers, stacks, escalation and lockup. -/
  | coreReset (mid : Nat)
  /-- ESC_LOCK (R406): Setting ESC_LOCK locks GLB_ESC_PC until core or module reset. -/
  | escLock (mid : Nat)
  /-- DECISION_RECHECK (R440): After the random delay of a double decision the condition is evaluated again, and a disagreement fires DISAGREE. -/
  | decisionRecheck (second : Bool)
  /-- MAIN_ENTRY (R408): VIN_3V3 passes 2.85 V rising; MAIN is entered and module reset held. -/
  | mainEntry (vin : Nat)
  /-- RESET_RELEASE (R408): All rails, MRST_N and CLKIN meet the release condition for 1 ms and module reset is released. -/
  | resetRelease
  /-- POWER_WARNING (R414): VIN_3V3 crosses the warning level and power-fail prepare starts. -/
  | powerWarning (mv : Nat)
  /-- PREPARE_END (R414): Prepare finishes; the supervisor re-arms and RECOVERING sets if no recovery yet. -/
  | prepareEnd
  /-- RECOVERY (R416): VIN_3V3 holds above 3.10 V for 1 ms after prepare; intake, fetch and lanes resume. -/
  | recovery (mv : Nat)
  /-- POWER_RESET (R417): VIN_3V3 falls below 2.85 V; module reset is asserted and MAIN ends. -/
  | powerReset (mv : Nat)
  /-- RAIL_FAULT (R409): A derived rail leaves its window for 1 µs and module reset is asserted without prepare. -/
  | railFault (rails : BitVec 4)
  /-- VBAT_CHANGE (R419): VBAT enters or leaves its range or crosses its low level, changing state or writing a power record. -/
  | vbatChange (mv : Nat)
  /-- POWER_ESTIMATE (R420): Every 10 µs the module estimates its input power against the cap. -/
  | powerEstimate (mw : Nat)
  /-- CAP_SHED_STEP (R420): Every 100 µs over the cap, the module takes one more shed step. -/
  | capShedStep
  /-- CAP_UNSHED_STEP (R420): Every 10 ms under the cap less 5 %, the module undoes one shed step. -/
  | capUnshedStep
  /-- MRST (R519): MRST_N held low asserts module reset, including a host reset. -/
  | mrst (low : Bool)
  /-- PROFILE_SET (R37): PF0 selects a profile, applied lane by lane, or recorded while an automatic INCIDENT stands. -/
  | profileSet (r : Req)
  /-- PROFILE_GET (R134): Returns the active profile, return-to profile, reservation and power cap. -/
  | profileGet (r : Req)
  /-- POWER_STATUS (R424): Returns VIN_3V3, temperature, input power and the power-state byte. -/
  | powerStatus (r : Req)
  /-- ASSAY_RUN (R134): PF0 runs the assay of a named resource and receives its result. -/
  | assayRun (r : Req)
  /-- VENEER_CHECK (R426): At each Veneer period a fresh pattern is driven through each mesh net and compared. -/
  | veneerCheck (net : Fin 4) (drawn arrived : BitVec 32) (inTime : Bool)
  /-- TAMPER_FIRE (R436): A source's filter counter reaches its length; the flag is set and the response carried out or queued. -/
  | tamperFire (index : BitVec 5)
  /-- TAMPER_COUNTER_TIMEOUT (R428): An event source sees 1 s with no event; its counter returns to 0 and it re-arms. -/
  | tamperCounterTimeout (index : BitVec 5)
  /-- FUSE_BLOW (R443): A held zeroize or retire fuse blow is carried out once VBAT or a strong field is available. -/
  | fuseBlow (vbatOk : Bool)
  /-- TMP_CMD_CLEAR (R431): Writing TMP_CMD.CLEAR clears masked sticky flags under a double decision. -/
  | tmpCmdClear
  /-- TMP_CMD_ZEROIZE (R451): Writing TMP_CMD.ZEROIZE fires source 31. -/
  | tmpCmdZeroize
  /-- TMP_CMD_POP (R445): Writing TMP_CMD.POP removes the head pending-action entry. -/
  | tmpCmdPop
  /-- TMP_SRC_CFG_WRITE (R429): A write of a source's filter or response restarts its counter, or is discarded. -/
  | tmpSrcCfgWrite (value : BitVec 32)
  /-- TMP_STATUS (R449): Returns sticky flags, pending count, overflow and the response in force. -/
  | tmpStatus (r : Req)
  /-- TMP_CONFIG (R449): PF0 with Auth configures a source's filter and response. -/
  | tmpConfig (r : Req)
  /-- TMP_FLAG_CLEAR (R449): PF0 with Auth clears sticky flags. -/
  | tmpFlagClear (r : Req)
  /-- ZEROIZE (R449): PF0 with Auth fires source 31 and zeroizes. -/
  | zeroize (r : Req)
  /-- PENDING_ACTIONS_ARCHIVE (R445): At start, firmware archives pending actions as bracketed records and completes any zeroize. -/
  | pendingActionsArchive
  /-- FIELD_RISE (R454): The field rises through a threshold; FIELD is entered, tag mode activates, writes or VFIELD become available. -/
  | fieldRise (field : Nat)
  /-- FIELD_FALL (R454): The field falls through a threshold; the activation ends, FIELD is left, or writes or VFIELD stop. -/
  | fieldFall (field : Nat)
  /-- LOCKET_NOISE_READY (R478): The Locket cells end their start-up test and a UID is drawn, or tag mode stays silent. -/
  | locketNoiseReady (pass : BitVec 2)
  /-- REQA (R458): A REQA frame moves the tag from IDLE to READY. -/
  | reqa
  /-- WUPA (R458): A WUPA frame wakes the tag, including from HALT. -/
  | wupa
  /-- ANTICOLLISION (R458): An anticollision frame is answered with UID bits. -/
  | anticollision (level nbits : Nat) (bits : BitVec 32)
  /-- SELECT (R456): SELECT makes the tag ACTIVE with SAK 0x20. -/
  | selectI (level : Nat) (uid : BitVec 32) (bcc : BitVec 8)
  /-- HLTA (R458): HLTA moves the tag to HALT and ends any session. -/
  | hlta
  /-- RATS (R458): RATS opens ISO/IEC 14443-4 and returns the ATS. -/
  | rats (fsdi cid : BitVec 4)
  /-- PPS (R461): PPS selects the bit rate. -/
  | pps (dri dsi : BitVec 2)
  /-- S_DESELECT (R458): S(DESELECT) returns the tag to HALT and ends any session. -/
  | sDeselect
  /-- AUTH1 (R464): The PCD's first Clasp pass arrives and the PICC answers AUTH2 or ERROR. -/
  | auth1 (inf : List (BitVec 8))
  /-- AUTH2 (R464): In reader mode the card's AUTH2 is checked and AUTH3 sent. -/
  | auth2 (inf : List (BitVec 8))
  /-- AUTH3 (R464): The PCD's third pass is checked and the session opens with a first SECURE frame. -/
  | auth3 (inf : List (BitVec 8))
  /-- SECURE_FRAME (R465): A SECURE frame is decrypted and checked, carrying a Locket command, or ends the session. -/
  | secureFrame (inf : List (BitVec 8))
  /-- ERROR_FRAME (R464): An ERROR frame ends the exchange. -/
  | errorFrame (inf : List (BitVec 8))
  /-- SESSION_TIMEOUT (R465): 30 s pass without a frame and the Clasp session ends. -/
  | sessionTimeout
  /-- CL_CONFIG (R479): PF0 sets the contactless mode, rates and guard time. -/
  | clConfig (r : Req)
  /-- BADGE_READ (R459): PF0 runs reader mode to find and authenticate a badge. -/
  | badgeRead (r : Req)
  /-- READER_GUARD_EXPIRY (R459): The carrier guard time ends and the first REQA is sent. -/
  | readerGuardExpiry
  /-- REQA_RETRY (R459): 10 ms pass without an answer and REQA is sent again. -/
  | reqaRetry
  /-- CARD_ANSWER (R460): A card's answer frame in reader mode advances anticollision, selection or RATS. -/
  | cardAnswer (frame : CardFrame)
  /-- BADGE_TIMEOUT (R459): BADGE_READ's timeout passes, the carrier goes off and the result is returned. -/
  | badgeTimeout
  /-- JOURNAL_READ (R479): PF0 reads seal-journal entries into a buffer. -/
  | journalRead (r : Req)
  /-- JOURNAL_ARCHIVE (R474): Firmware archives new journal entries as custody-mark records. -/
  | journalArchive
  /-- BOOT_ROM_START (R484): After ROOT_OK and SCAN_DONE the boot ROM continues descents, installs staged images, selects a slot and hands over or enters the loader. -/
  | bootRomStart
  /-- FIRMWARE_START (R486): Stage 1 advances the boot count and firmware carries out the start through FW_READY. -/
  | firmwareStart
  /-- LOADER_IMAGE_LOAD (R485): The loader writes an image to slot A, verifies it and resets the module. -/
  | loaderImageLoad (r : Req) (data : List (BitVec 8))
  /-- HALLMARK_GET (R492): A signed Hallmark report over the caller's nonce is written to a buffer. -/
  | hallmarkGet (r : Req)
  /-- CERT_CHAIN_GET (R494): Returns the drawer-seal, attestation and device CA certificates. -/
  | certChainGet (r : Req)
  /-- TP_LOAD (R496): PF0 loads, measures and installs a tenant program on a core. -/
  | tpLoad (r : Req) (data : List (BitVec 8))
  /-- FIRMWARE_STAGE (R496): TP_LOAD with core 0xF0 stages a verified firmware image for the next start. -/
  | firmwareStage (r : Req) (data : List (BitVec 8))
  /-- BUNDLE (R500): TP_LOAD with core 0xF1 applies an owner bundle's items in order, including lifecycle actions. -/
  | bundle (r : Req) (data : List (BitVec 8))
  /-- TP_START (R497): PF0 starts a tenant core at ENTRY at PL2. -/
  | tpStart (r : Req)
  /-- TP_STOP (R497): PF0 stops a tenant core. -/
  | tpStop (r : Req)
  /-- TP_SOURCES (R82): PF0 assigns tenant-defined source ranges to a core. -/
  | tpSources (r : Req)
  /-- TP_STATUS (R497): Returns a tenant core's state and faults. -/
  | tpStatus (r : Req)
  /-- TEST_PORT_UNLOCK (R505): In Factory with the test-port fuse intact, the port is unlocked under a double decision. -/
  | testPortUnlock
  /-- TEST_PORT_PROVISION (R499): Ranmor moves a module from Factory to Provisioned through the test port. -/
  | testPortProvision
  /-- JIG_ARM (R503): PF0 arms the jig with a token, withdrawing the guarantee. -/
  | jigArm (r : Req)
  /-- JIG_DISARM (R504): PF0 ends the jig. -/
  | jigDisarm (r : Req)
  /-- JIG_EXPIRY (R504): The jig's DURATION elapses and the jig ends. -/
  | jigExpiry
  /-- TAMPER_SAMPLE (R428): A level source takes a sample, or an event source counts an event, advancing, resetting or re-arming its filter counter without reaching the filter length. -/
  | tamperSample (index : BitVec 5) (active : Bool)
  /-- AO_NOISE_FAIL (R442): An always-on noise cell fails its repetition-count test, and when both have failed AO_NOISE_FAIL sets and decisions and Veneer fall back. -/
  | aoNoiseFail (cell : Fin 2)
  /-- LOCKET_NOISE_CELL_FAIL (R478): A Locket noise cell fails a health test during a field activation, and when both have failed tag mode goes silent and NOISE_FAIL sets. -/
  | locketNoiseCellFail (cell : Fin 2)
  /-- HOST_REGISTER_READ (R96): A host read of a BAR0 or BAR4 register is served within 600 ns, clearing RC fields or latching companion words. -/
  | hostRegisterRead (fn : Fin 64) (bar offset : Nat) (ask : BarAsk)
  /-- BLOCK_ERASE_DONE (R284): A NAND block erase for erase-ahead, refresh or reuse completes with its status, and an erase status failure retires the block. -/
  | blockEraseDone (block : Fin 1310720) (e : NandEnd)
  /-- CARD_RESPONSE_TIMEOUT (R461): In reader mode a selected card does not answer RATS or a Clasp pass within its frame wait time, and is treated as not Clasp-capable or as failed. -/
  | cardResponseTimeout
  /-- CHAINED_I_BLOCK (R452): In tag mode a non-last chained I-block of a Clasp message arrives and is acknowledged while the message is assembled. -/
  | chainedIBlock (inf : List (BitVec 8))
  /-- R_BLOCK (R452): In tag mode the PCD sends an R(ACK) or R(NAK), asking for the next block of a chained response or a retransmission. -/
  | rBlock (ack : Bool) (number : Bool)
  /-- S_WTX_RESPONSE (R471): The PCD answers the module's S(WTX) request, extending the frame wait so the held response may be sent. -/
  | sWtxResponse (made : Nat)
  deriving DecidableEq, Repr

end Sys2Proof
end

