-- ==== Sys2Proof/Decode.lean ====
section
/-! DEFINITION. Sys2Proof/Decode.lean: commands from the words of the spec's table. The table gives no row any bits: the
commands of a block are events and operations, not words. The Lolan-32 encodings (R335 to R342), which a core of the
block fetches from its own I-space, are read in Machine/Operands.lean. -/

namespace Sys2Proof

/-- The command that a word of the table spells: none does (log entry 1). -/
def decodeTableWord (_nbits _w : Nat) : Option Instr := none

end Sys2Proof
end

