-- ==== Sys2Proof/Config.lean ====
section
/-! DEFINITION. Sys2Proof/Config.lean: what a part fixes and the spec does not, and the values the spec leaves
open. Every open value is an opaque constant with no body, applied to what it may depend on. -/

namespace Sys2Proof.Config

/-- The part of an ordering code that R12 leaves to the order: true is GL2400-2TE, false GL2400-2TC. -/
opaque grade2TE : Bool

/-- A value the spec leaves open: free in `k`, the model's counter of the free values drawn so far (State.free). -/
opaque freeValue : Nat → Nat

/-- A draw of `n` random bits at precedence 1, 3 or 4 of R524 and of the always-on and Locket cells (R442, R478),
whose blocks no command names: free in the draw's number. -/
opaque noise : Nat → Nat → Nat

/-- The body of a record whose layout no rule states (record types 0x0010, 0x0011, 0x0022, 0x0023, 0x0024, 0x0025
and others named in log entry 12): free in the record's type and the facts the rule says the record carries. -/
opaque openBody : Nat → List Nat → Bytes

/-- The bytes of the retirement map in its ECC sectors (R30, R306), whose layout no rule states: free in what it holds. -/
opaque mapImage : List Nat → Bytes

/-- Whether a quotient the spec gives only as a real number (R65, R67, R70) is rounded up: free in its numerator and
denominator. -/
opaque roundUp : Int → Nat → Bool

/-- A secret fixed in OTP at manufacture (R266, R494, R500): free. -/
opaque otpSecret : Bytes

/-- The module's serial number (R132: 8 bytes): free. -/
opaque serial : BitVec 64

/-- The bytes of a certificate or of a text the spec names and does not give: free in the item's number. -/
opaque openText : Nat → Bytes

/-- A byte of a sector whose erase was abandoned (R317): free in the number of the abandonment and the offset. -/
opaque tornByte : Nat → Nat → BitVec 8

/-- The SEC-DED check byte of a granule of the code flash (R304): the code is not given. -/
opaque checkByte : BitVec 64 → BitVec 8

/-- Whether a block fetched after a write and before ISYNC is taken as it stood before (R333): free in the model's counter
and the block. -/
opaque staleOld : Nat → Nat → Bool

/-- A byte of the boot ROM (R330): free in its address. -/
opaque romByte : Nat → BitVec 8

/-- A key that the Locket engine derives from the OTP secret (R462, R469, R494, R500): free in the key's number. -/
opaque derivedKey : Nat → BitVec 256

/-- The words of the engine programs and their tables in pages 48 to 63, by word address: part of the firmware (R241; log
entry 140). -/
opaque progWord : Nat → BitVec 32

/-- The archive key drawn at provisioning (R266): free. -/
opaque archiveKey : BitVec 512

/-- The device attestation key (R494), a number below 2^521: free. -/
opaque attestKey : Nat

/-- The public key with which Ranmor signs boot images (R483): free. -/
opaque ranmorKey : Bytes

/-- The channels that an owner configuration binds between tenant cores (R117, item 0x07 of R500), whose layout no rule
states: channel, sender core, receiver core; free in the item's bytes. -/
opaque ownerChannels : Bytes → List (Nat × Nat × Nat)

/-- The tenant source ranges of an owner configuration (R82, item 0x07 of R500), likewise: core, first number, count. -/
opaque ownerRanges : Bytes → List (Nat × Nat × Nat)

end Sys2Proof.Config
end

