-- ==== Sys2Proof/Machine/State.lean ====
section
/-! DEFINITION. Sys2Proof/Machine/State.lean: everything the spec gives the module to hold, as plain data, and the
machine right after reset. A field's default is its value right after module reset in MAIN. -/

namespace Sys2Proof.Machine

/-! ### Chapter 1: handshake links, retirement, the class-0 guarantee -/

/-- One handshake link (R17 to R21). -/
structure Link where
  /-- phase of the four-phase handshake (R17), as it stands between commands: 0, or 1 while a request that the jig has
  dropped waits for its acknowledgement (R20, R503) -/
  phase : Nat := 0
  /-- the 2-bit transfer sequence of the next transfer -/
  seq : BitVec 2 := 0
  /-- a transfer that the jig delivers after the next one (R503) -/
  late : Option (Nat × BitVec 256) := none
  /-- the words taken by the receiver, in the order delivered (R18), with the MID attached to each (R23) -/
  taken : List (Nat × BitVec 256) := []
  deriving DecidableEq, Repr

/-- A permanent decision waiting to be carried out, or being carried out (R30, R33). -/
structure RetReq where
  cls : ResClass
  /-- the physical resource -/
  phys : Nat
  /-- errors counted when the decision was taken (R30) -/
  errors : Nat
  /-- GTS of the permanent decision, which orders retirements of a class (R33) -/
  at_ : Gts
  /-- jobs rerun because of this retirement (R32: recorded in the retirement record) -/
  rerun : Nat := 0
  /-- the resource is a key row whose contents are lost to an uncorrectable error (R31) -/
  lost : Bool := false
  /-- the logical number that the resource served when it was retired (R30) -/
  num : Option Nat := none
  /-- the ASSAY_RUN that its end answers: party and tag (R134) -/
  who : Option (Nat × Nat) := none
  deriving DecidableEq, Repr

/-- Retirement state of one resource class (R29 to R33). Kept over every reset (R31). -/
structure RetClass where
  /-- the retirement map: logical number to physical number; no entry: its own number; 0xFFFF_FFFF: out of service -/
  map : Tab Nat := []
  /-- physical resources retired, never brought back (R31) -/
  retired : List Nat := []
  /-- the retirement under way: the request and the spare whose assay runs -/
  bringIn : Option (RetReq × Nat) := none
  /-- stamps, in D0 cycles, of the transient errors of each physical resource within the window of R29 -/
  transients : Tab (List Nat) := []
  deriving DecidableEq, Repr

structure Ret where
  lane : RetClass := {}
  hashUnit : RetClass := {}
  engine : RetClass := {}
  tenantCore : RetClass := {}
  noiseCell : RetClass := {}
  nandBlock : RetClass := {}
  keyRow : RetClass := {}
  norSector : RetClass := {}
  dmaEngine : RetClass := {}
  fwPair : RetClass := {}
  /-- permanent decisions not yet carried out, in order of arrival (R33) -/
  waiting : List RetReq := []
  /-- causes for which the class-0 guarantee stands withdrawn (R34): lanes, link, noise, jig -/
  wLanes : Bool := false
  wLink : Bool := false
  wNoise : Bool := false
  wJig : Bool := false
  /-- the owner's acceptance stands (R34, R205); ends at module reset -/
  accept : Bool := false
  /-- the owner's reserved-lane count of R5; ends at module reset -/
  ownerCount : Option Nat := none
  /-- assays due or running: class, physical index, whether it runs, and the command it answers (R134, R215) -/
  assays : List (ResClass × Nat × Bool × Option (Nat × Nat)) := []
  /-- the lanes that merge with one under assay (R215): lane under assay, partner -/
  partners : Tab Nat := []
  deriving DecidableEq, Repr

/-- The handshake links by number. The spec numbers no links; the number is the model's (log entry 9). -/
structure Lnk where
  links : Tab Link := []
  /-- firmware pairs running; the lockstep re-executions since start (R24) -/
  reexec : Nat := 0
  deriving DecidableEq, Repr

/-! ### Chapter 2: the clock -/

/-- A Loupe channel (R52, R53, R55). -/
structure Loupe where
  /-- CLK_LP_CTRLn without START, which reads 0 -/
  ctrl : Word := 0
  busy : Bool := false
  /-- CLK_LP_STATn bits 1, 2, 3, 4 and 6 -/
  stat : Word := 0
  /-- reference edges seen since START, measured edges since the first of them, the count of a gate that has ended, and when
  the last reference edge came, or START, in D0 cycles -/
  refs : Nat := 0
  count : Nat := 0
  ended : Option Nat := none
  refAt : Nat := 0
  /-- the count of the last completed gate -/
  cnt : BitVec 40 := 0
  /-- CNT_HI as latched by the last CNT_LO read -/
  hi : BitVec 8 := 0
  deriving DecidableEq, Repr

structure Clk where
  /-- CLKIN edges since module reset was released (CLK_STATUS.START_COUNT, R42) -/
  startCount : Nat := 0
  rootOk : Bool := false
  domPll : BitVec 5 := 0
  /-- a switch that waits at step 1 of R47 because its old clock has stopped -/
  switchBusy : BitVec 5 := 0
  domsel : BitVec 5 := 0b11111
  /-- CLK_EVENTS -/
  events : Word := 0
  loupe : Tab Loupe := []
  /-- the missing-clock detector is armed (R49): it arms on the first CLKIN edge in MAIN -/
  mcArmed : Bool := true
  /-- a bring-up of the root: when every divider was released, in D0 cycles (R45); stamps of slower islands count their edges
  from it (R26) -/
  rootAt : Nat := 0
  /-- islands whose clock is gated (R16), by the order of R15: 0 host, 1 job, 2 cipher bench, 3 key, 4 hash, 5 modular
  engines, 6 noise harvest, 7 core cluster, 8 mailbox fabric, 9 time, 10 archive, 11 code flash controller, 12 contactless -/
  gated : BitVec 13 := 0
  /-- D0 cycles counted toward the next CLKIN edge, 0 to 11 -/
  sub : Nat := 0
  deriving DecidableEq, Repr

/-! ### Chapter 3: time, event pins, Dovetail -/

/-- The registers of a PTM map (R65, TIM_MAP0 to TIM_MAP6). -/
structure PtmMap where
  p0 : BitVec 64 := 0
  t0Nsec : BitVec 30 := 0
  t0Sec : BitVec 48 := 0
  /-- r in ppb, two's complement -/
  rate : Word := 0
  /-- u in ns -/
  unc : BitVec 16 := 0xFFFF
  deriving DecidableEq, Repr

structure Tim where
  /-- GTS seconds and the 70-bit accumulator in units of 2^-40 ns (R58) -/
  sec : Nat := 0
  acc : Nat := 0
  inc : Nat := 0xD555555555
  qual : BitVec 2 := 0b11
  /-- TIM_GTS1 and TIM_GTS2 as latched by a read of TIM_GTS0, and INC_HI as latched -/
  latch : BitVec 64 := 0
  incHi : BitVec 8 := 0xD5
  /-- TIM_STATUS.SRC -/
  src : BitVec 2 := 0
  ptmValid : Bool := false
  mapStale : Bool := true
  backPend : Bool := false
  loaded : Bool := false
  xchkHold : Bool := false
  /-- registers of R89 -/
  ctrl : Word := 0x118
  loop : Word := 0x0A61
  theta : Word := 0
  tinDelay : BitVec 20 := 0
  hold : Word := 0x03E80064
  events : Word := 0
  load : BitVec 96 := 0
  utc : Word := 0
  map : PtmMap := {}
  ppsoCtrl : Word := 0x186A04
  ppsoOfs : Word := 0
  shadow : BitVec 78 := 0
  shadowPresent : Bool := false
  /-- TIME_IN (R61 to R64): the reference is valid; last valid edge in D0 cycles; this second's offset in 2^-16 ns -/
  tinValid : Bool := false
  tinLast : Option Nat := none
  tinTheta : Option Int := none
  /-- a valid edge has come in this second (R66) -/
  tinEdge : Bool := false
  /-- TIME_IN was dropped (R67) and is reconsidered only after loss and regain -/
  tinDropped : Bool := false
  /-- IRIG-B: stamp of the frame's reference marker; when the last valid one came, in D0 cycles; UTC second of the
  previous valid frame, with whether it read second 60, and its marker's stamp; valid frames in a row; the IEEE 1344 time
  quality of the last valid frame -/
  mark : Option Gts := none
  markAt : Option Nat := none
  irigPrev : Option (Int × Bool) := none
  irigMark : Option Gts := none
  irigRun : Nat := 0
  irigQuality : BitVec 4 := 0
  /-- f as the last two frames give it (R67) -/
  irigSeed : Option Int := none
  deriving DecidableEq, Repr

/-- The discipline loop and the PTM requester (R65 to R70, R109). -/
structure Loop where
  /-- f and s in units of 1 / (10^9 * 2^31) -/
  f : Int := 0
  slew : Int := 0
  rejected : Nat := 0
  /-- successive seconds with TIME_IN's and PTM's offset within the bound of R69 -/
  inBound : Nat := 0
  inBoundPtm : Nat := 0
  /-- f of the last 64 seconds, newest first (R70) -/
  hist : List Int := []
  /-- sources acquired before: 1PPS, IRIG-B, PTM (R67: f is seeded at the first) -/
  seeded : BitVec 3 := 0
  /-- the last GTS second the loop has taken -/
  lastSec : Nat := 0
  xchkRun : Nat := 0
  /-- when TIME_IN was dropped by the cross-check, in D0 cycles -/
  xchkAt : Nat := 0
  /-- E at the moment of loss, in ns, and when the loss came, in D0 cycles -/
  eLock : Nat := 0
  lossAt : Nat := 0
  /-- PTM dialog (R65, R109): its Request stands in the priority queue; t1 of the dialog under way, and when it left;
  previous dialog's t1 and t4 in 2^-16 ns; when the last Request was due -/
  ptmQueued : Bool := false
  ptmSent : Nat := 0
  ptmT1 : Option Nat := none
  ptmPrev : Option (Nat × Nat) := none
  ptmAt : Nat := 0
  ptmDropped : Bool := false
  /-- this second's dialogs: offset, round trip and t1 in 2^-16 ns -/
  dialogs : List (Int × Nat × Nat) := []
  /-- the last dialog's Master Time and t1 -/
  master : Nat := 0
  masterT1 : Nat := 0
  /-- the map in force, and the map that takes effect at the next second (R91) -/
  mapNow : Option PtmMap := none
  mapNext : Option PtmMap := none
  /-- the start hold of R87 stands -/
  startHold : Bool := true
  /-- shadow copies are armed (R86), and the last period of 2^20 ns copied -/
  armed : Bool := false
  shadowIdx : Nat := 0
  /-- bracket start and end (R86, R88), and the load's instant -/
  bracketStart : Gts := 0
  bracketEnd : Option Gts := none
  unsync : Bool := false
  loadAt : Nat := 0
  /-- stamp of the last time record (R91) -/
  recGts : Gts := 0
  /-- PPSO (R75, R76): driven active; end of the pulse or of the last one in D0 cycles, 0 before the first; the phase of
  its edges in their cycles; a step since -/
  ppsoOn : Bool := false
  ppsoEnd : Nat := 0
  ppsoPhase : BitVec 2 := 0
  stepped : Bool := false
  deriving DecidableEq, Repr

/-- A change of level that a pin's filter has not yet accepted (R77, R78). -/
structure PinPend where
  /-- stamp of the first raw edge away from the accepted level, and of the edge that began the present run -/
  first : Gts
  run : Gts
  /-- when the present run began, in D0 cycles -/
  runAt : Nat
  bounces : Nat
  deriving DecidableEq, Repr

/-- An event pin (R77 to R80). -/
structure Pin where
  ctrl : Word := 6
  accepted : Bool := false
  raw : Bool := false
  pend : Option PinPend := none
  /-- TIM_EVT_STATn.EXCURSIONS, cleared by a read; excursions since the last event; events lost since the last event -/
  excursions : Nat := 0
  excSince : Nat := 0
  lost : Nat := 0
  overflow : Bool := false
  /-- the host notification queue set by EVT_CONFIG -/
  qpn : Nat := 0
  deriving DecidableEq, Repr

/-- An event on its way to, or in, Dovetail: what its record will carry (R79, R83, R267). -/
structure DvEv where
  typ : Nat
  src : Nat
  cls : BitVec 2
  gts : Gts
  aoseq : Option Nat := none
  body : Bytes := []
  /-- the event queue the event is copied to, and the 8-byte RESULT of R161 -/
  qpn : Option Nat := none
  result : Bytes := []
  /-- the event was raised while the jig was active (R268) -/
  jig : Bool := false
  /-- the core whose post queue holds the event until it reaches Dovetail (R362) -/
  core : Option Nat := none
  /-- the firing of a tamper source (R438): undelivered at module reset, it becomes a pending entry (R21) -/
  firing : Bool := false
  deriving DecidableEq, Repr

structure Dv where
  /-- TIM_DV_CTRL.WINDOW -/
  window : BitVec 6 := 3
  lateCount : Nat := 0
  /-- events stamped and still on their handshake links, in each source's own order (R27, R85) -/
  inbox : List DvEv := []
  /-- the store, in order of arrival (R83) -/
  store : List DvEv := []
  /-- GTS[95:2] of the last event released since the last rebase (R84) -/
  lastRel : Option Nat := none
  pins : Tab Pin := []
  /-- tenant-defined source ranges, by tenant core: first and count (R82) -/
  ranges : Tab (List (Nat × Nat)) := []
  deriving DecidableEq, Repr

/-! ### Chapter 4: the endpoint -/

/-- A TLP of the module, by its credit type (R106). -/
inductive TlpKind where
  | write | read (tag : Nat) | completion | ptm
  deriving DecidableEq, Repr

structure Tlp where
  /-- egress number, in order of placing in a queue -/
  id : Nat
  /-- requester function -/
  fn : Nat
  kind : TlpKind
  addr : Nat
  data : Bytes
  /-- bytes asked for by a read -/
  len : Nat := 0
  /-- Relaxed Ordering attribute (R107) -/
  ro : Bool := false
  /-- the status of a completion: 0 Successful, 1 Unsupported Request, 4 Completer Abort -/
  status : Nat := 0
  /-- the class-0 job it belongs to (R106), and whether it is that job's completion entry -/
  job : Option Nat := none
  cqe : Bool := false
  deriving DecidableEq, Repr

/-- Why the module reads host memory. -/
inductive RdWhy where
  | context (qpn : Nat)
  /-- one of the requests of a run of SQ entries (R102, R150), by the run's number -/
  | sqRun (qpn run chunk : Nat)
  | payload (job chunk : Nat)
  | sweep (qpn : Nat)
  deriving DecidableEq, Repr

/-- A host-memory read: waiting for a tag, or outstanding under one (R102, R104). -/
structure HRead where
  why : RdWhy
  fn : Nat
  /-- class 0: the reserved pool -/
  c0 : Bool
  addr : Nat
  len : Nat
  /-- when its request left the transmitter, in D0 cycles -/
  sentAt : Option Nat := none
  deriving DecidableEq, Repr

/-- An MSI-X table entry (R94, R95, R100). -/
structure Vec where
  addr : BitVec 64 := 0
  data : Word := 0
  masked : Bool := true
  pending : Bool := false
  /-- the pending message is a class-0 completion queue's, and another source's (R101) -/
  prio : Bool := false
  general : Bool := false
  deriving DecidableEq, Repr

/-- A PCIe function: 0 is PF0, n is VFn (R93, R99). -/
structure Fun where
  bme : Bool := false
  d3hot : Bool := false
  fnMask : Bool := false
  /-- MSI-X Enable -/
  msixEn : Bool := false
  vecs : Tab Vec := []
  fwReady : Bool := false
  /-- the copies a VF reads: GLB_HEARTBEAT, GLB_IRQ_CAUSE, GLB_IRQ_MASK, GLB_DB_ERR, GLB_DB_COUNT, GLB_HOST_ERR, GLB_SCRATCH -/
  heartbeat : Word := 0
  cause : BitVec 4 := 0
  mask : BitVec 4 := 0xF
  dbErr : Word := 0
  dbCount : Nat := 0
  badAccess : Nat := 0
  dropped : Nat := 0
  scratch : Word := 0
  /-- GLB_STATUS as last compared for STATUS_CHG -/
  seen : Word := 0xD0
  /-- the queue-pair range: first QPN and count (R135) -/
  first : Nat := 0
  count : Nat := 0
  deriving DecidableEq, Repr

structure Pci where
  up : Bool := false
  speed : Nat := 0
  width : Nat := 0
  credStall : Nat := 0
  maxPayload : Nat := 128
  maxRead : Nat := 512
  tag10 : Bool := false
  ptmEn : Bool := false
  relaxed : Bool := true
  ctv : BitVec 4 := 0
  ctDisable : Bool := false
  ecrcGen : Bool := false
  ecrcChk : Bool := false
  vfEnable : Bool := false
  numVFs : Nat := 0
  /-- base addresses of PF0's BAR0, BAR2 and BAR4 and of the SR-IOV capability's BAR0 and BAR2 (R94, R95) -/
  bars : Tab (BitVec 64) := []
  vfBars : Tab (BitVec 64) := []
  /-- errors whose severity the host has changed from its default (R114) -/
  sevSet : List AerError := []
  /-- the Margining Lane Control registers (R92) -/
  margin : Tab (BitVec 16) := []
  beatAt : Nat := 0
  fns : Tab Fun := []
  /-- outstanding reads by tag, and reads waiting for a tag -/
  tags : Tab HRead := []
  waitTag : List HRead := []
  prio : List Tlp := []
  gen : List Tlp := []
  nextId : Nat := 1
  /-- TLPs that have left the transmitter, in order -/
  wire : List Tlp := []
  credit : Credit := {}
  /-- a credit wait of the priority head began (R106), in D0 cycles; it has been counted -/
  waitAt : Option Nat := none
  waitCounted : Bool := false
  /-- AER errors logged: error, function, header and severity -/
  aer : List (AerError × Nat × Nat × Nat) := []
  /-- Uncorrectable Internal Error raised since module reset, by HALT and by ZEROIZE (R114) -/
  uieHalt : Bool := false
  deriving DecidableEq, Repr

/-! ### Chapter 5: mailboxes and Driner -/

/-- A mailbox channel (R116 to R125). -/
structure Chan where
  /-- messages held, oldest first, each of 16 words -/
  fifo : List (List Word) := []
  /-- the sender's staging buffer, word by word (R121) -/
  staging : Tab Word := []
  db : Word := 0
  mask : Word := 0
  /-- OVERRUN, TIMEOUT and FLUSHED on the sender's side -/
  overrun : Bool := false
  timeout : Bool := false
  flushed : Bool := false
  /-- when the head message became head, in D0 cycles (R123) -/
  headAt : Nat := 0
  /-- binding entry (R126) -/
  valid : Bool := false
  irq : BitVec 4 := 0
  sender : BitVec 8 := 0
  receiver : BitVec 8 := 0
  timeoutUs : Nat := 1000000
  deriving DecidableEq, Repr

structure Mbx where
  chans : Tab Chan := []
  lock : Bool := false
  /-- MBX_FAULT -/
  fault : Word := 0
  deriving DecidableEq, Repr

/-- A Driner command that firmware has assembled, or a response that firmware holds (R127 to R131). -/
structure Held where
  /-- MID of the issuer -/
  party : Nat
  opcode : Nat
  tag : Nat
  status : Nat
  dup : Bool
  payload : Bytes
  /-- its command was begun; a command refused as it arrived was not (R130) -/
  begun : Bool
  /-- egress number of the last TLP of the command's buffer: the response waits for it (R128) -/
  after : Nat := 0
  deriving DecidableEq, Repr

/-- A command whose messages are arriving (R128). -/
structure Partial where
  party : Nat
  opcode : Nat
  tag : Nat
  length : Nat
  got : Bytes
  deriving DecidableEq, Repr

/-- A command assembled and not yet begun. -/
structure Taken where
  party : Nat
  opcode : Nat
  tag : Nat
  payload : Bytes
  /-- the GTS as firmware took the command (R91) -/
  gts : Gts := 0
  deriving DecidableEq, Repr

structure Drn where
  incoming : List Partial := []
  taken : List Taken := []
  /-- commands begun whose response is not yet sent: party, tag, opcode (R130) -/
  out : List (Nat × Nat × Nat) := []
  held : List Held := []
  /-- notices dropped on each function's alert channel since the last that went through, at most 15 (R131) -/
  dropped : Tab Nat := []
  /-- egress number of the last TLP of a buffer written for the response that comes next (R128); 0: none -/
  buf : Nat := 0
  deriving DecidableEq, Repr

/-! ### Chapter 6: queue pairs and jobs -/

/-- A queue state word (R138). -/
structure QpWord where
  en : Bool := false
  cls : BitVec 2 := 0
  owner : BitVec 6 := 0
  gen : Bool := false
  pinned : Bool := false
  destroying : Bool := false
  seq : BitVec 16 := 0
  /-- the EVENT_Q flag of the context it was enabled with (R139), fixed while it is enabled; no field of the state word -/
  evq : Bool := false
  deriving DecidableEq, Repr

/-- A queue-pair context (R139) without its SEQ and MAC, which the state word and the key give. -/
structure Ctx where
  sqBase : BitVec 64 := 0
  cqBase : BitVec 64 := 0
  sqLog : BitVec 8 := 0
  cqLog : BitVec 8 := 0
  cls : BitVec 8 := 0
  flags : BitVec 8 := 0
  vector : BitVec 16 := 0
  weight : BitVec 8 := 0
  coalCount : BitVec 8 := 0
  coalTime : BitVec 16 := 0
  inflightMax : BitVec 16 := 0
  sqHead : BitVec 16 := 0
  cqTail : BitVec 16 := 0
  sqTail : BitVec 16 := 0
  cqHead : BitVec 16 := 0
  ovf : BitVec 32 := 0
  phase : BitVec 8 := 0
  deriving DecidableEq, Repr

/-- A doorbell unit that has passed the decoding of R97: the values it writes. -/
structure Unit8 where
  fn : Nat
  tail : Option (BitVec 16)
  head : Option (BitVec 16)
  deriving DecidableEq, Repr

/-- An event entry for an event queue (R161). -/
structure EvEnt where
  qpn : Nat
  gts : Gts
  result : Bytes
  deriving DecidableEq, Repr

/-- A run of SQ entries: read, its entries not yet admitted (R150). -/
structure SqRun where
  id : Nat
  first : Nat
  count : Nat
  /-- the requests it is read with, and what they have returned (R102) -/
  need : Nat := 1
  got : Tab Bytes := []
  /-- the entries once read; none while a request is outstanding -/
  data : Option Bytes := none
  /-- its read waited for a tag (R103), or in the priority queue during a credit wait of more than 100 ns (R106) -/
  waited : Bool := false
  credWait : Bool := false
  deriving DecidableEq, Repr

/-- What the chip keeps of a queue pair beside its state word and context. -/
structure QpRun where
  /-- runs in ring order (R150) -/
  runs : List SqRun := []
  /-- the next entry to fetch: SQ_HEAD plus the entries of outstanding runs -/
  fetch : Nat := 0
  /-- entries written to the CQ since the last signal, when the oldest has been held for COAL_TIME, in D0 cycles, and the
  vector (R101) -/
  unsig : Nat := 0
  due : Nat := 0
  vector : Nat := 0
  /-- deficit of the round robin (R155) -/
  deficit : Nat := 0
  /-- doorbell units and event entries waiting on the context fetch (R144, R147, R162) -/
  units : List Unit8 := []
  fetching : Bool := false
  /-- its context is to be fetched: it was evicted with entries still to fetch, or the fetch waits for room in the cache or
  for the write-back (R144, R147) -/
  posted : Bool := false
  /-- the QP_DESTROY that waits: party and tag (R141) -/
  destroyBy : Option (Nat × Nat) := none
  /-- the QP_QUERY commands that wait on the context fetch -/
  queryBy : List (Nat × Nat) := []
  deriving DecidableEq, Repr

/-- Where a job stands (R155, R157). -/
inductive Stage where
  /-- admitted with FENCE: it starts once every earlier job of its queue pair has completed -/
  | fenced
  /-- admitted; its payload reads are outstanding, or wait -/
  | reading
  /-- ready to be dispatched -/
  | ready
  /-- on its lanes or hash unit -/
  | running
  /-- its outcome is known -/
  | done
  deriving DecidableEq, Repr

/-- The fields of an SQE (R148). -/
structure Sqe where
  opcode : Nat
  flags : BitVec 8
  cid : Nat
  target : Nat
  keysel : Nat
  tagLen : Nat
  src : Nat
  dst : Nat
  length : Nat
  aadLen : Nat
  iv : Bytes
  tag : Bytes
  /-- the reserved bytes are 0 -/
  resOk : Bool
  deriving DecidableEq, Repr

/-- A hold on a key slot (R207). `role` is KEY of R192: 0 current, 1 next, 2 previous; association jobs hold every key
that R188 lets them use at the instant of admission, and the one used is chosen with the frame's key ID. -/
structure KeyHold where
  role : Nat
  slot : Nat
  epoch : Nat := 0
  keyId : Nat := 0
  deriving DecidableEq, Repr

/-- A job of the job table (R156). -/
structure Job where
  id : Nat
  qpn : Nat
  fn : Nat
  cls : BitVec 2
  sqe : Sqe
  stage : Stage := .reading
  /-- payload chunks outstanding, and those read -/
  need : Nat := 0
  got : Tab Bytes := []
  /-- its lanes (physical numbers) or hash unit -/
  lanes : List Nat := []
  hashUnit : Option Nat := none
  holds : List KeyHold := []
  reruns : Nat := 0
  /-- lanes it used -/
  lanesUsed : Nat := 0
  /-- its job-table index (R206) -/
  idx : Nat := 0
  /-- the lane or hash unit in which its last run failed (R214, R234) -/
  avoid : Option Nat := none
  /-- the invocation value that its output carries (R178) -/
  inv : Option Nat := none
  /-- output bytes that each of its lanes has written to DST (R211) -/
  written : Tab Nat := []
  /-- it was rerun after a retirement under R32 -/
  rerunRet : Bool := false
  /-- first cause of R160, 0: none -/
  outside : Nat := 0
  /-- GTS at admission, and at which the outcome was registered -/
  admitted : Gts := 0
  /-- outcome: status, RESULT, when registered -/
  status : Nat := 0
  result : Bytes := List.replicate 8 0
  gts : Gts := 0
  notArchived : Bool := false
  /-- a Driner command held its association at its admission, until when, in D0 cycles (R172) -/
  heldUntil : Nat := 0
  /-- it waits for the commitment of a record (R293) -/
  waitRec : Bool := false
  /-- its lane wait began, and it was dispatched, in D0 cycles -/
  readyAt : Nat := 0
  startedAt : Nat := 0
  deriving DecidableEq, Repr

structure Qps where
  /-- the 16 frame sequencers (R15): until when each locates fields, in D0 cycles -/
  seqBusy : Tab Nat := []
  words : Tab QpWord := []
  /-- the context cache, and its use order, the most recent first -/
  cache : Tab Ctx := []
  lru : List Nat := []
  run : Tab QpRun := []
  /-- the context table: host address and queue pairs covered (R136) -/
  table : Option (BitVec 64 × Nat) := none
  /-- the context keys of GEN 0 and GEN 1 (R142) -/
  key0 : BitVec 128 := 0
  key1 : BitVec 128 := 0
  gen : Bool := false
  /-- a key sweep runs: the next QPN of the walk, and queue pairs taken out of order (R143) -/
  sweep : Option Nat := none
  sweepNext : List Nat := []
  /-- class-0 queue pairs with new entries, in order of doorbell arrival (R155) -/
  c0Order : List Nat := []
  /-- what is left of the round's quanta of C1, C2 and C3 -/
  q1 : Nat := 0
  q2 : Nat := 0
  q3 : Nat := 0
  /-- jobs of the job table in admission order, and the next job number -/
  jobs : List Job := []
  nextJob : Nat := 0
  nextRun : Nat := 0
  /-- event entries released and not yet written, in order (R161) -/
  events : List EvEnt := []
  deriving DecidableEq, Repr

/-! ### Chapter 7: protected associations -/

inductive PaState where
  | free | idle | active | suspended
  deriving DecidableEq, Repr

/-- A replay mark and window (R181, R182). -/
structure Mark where
  /-- 0 LEARN, 1 learned, 2 seeded from a checkpoint (R196) -/
  mode : Nat := 0
  /-- GOOSE: stNum in bits 31:0, sqNum in bits 63:32; otherwise the count -/
  hi : Nat := 0
  /-- counts hi - k already accepted, bit k -/
  seen : BitVec 64 := 0
  deriving DecidableEq, Repr

/-- One direction of an association: which slot of the two is current, next, previous (R166, R185). -/
structure Dir where
  cur : Option Nat := none
  next : Option Nat := none
  prev : Option Nat := none
  /-- the activation of a pending roll, and the end of grace of the previous key (R186) -/
  roll : Option Gts := none
  graceEnd : Option Gts := none
  deriving DecidableEq, Repr

/-- What an association keeps of a key beside its slot: epoch, key id, transmit counter, replay state (R178, R182). -/
structure PaKey where
  epoch : Nat := 0
  keyId : Nat := 0
  counter : Nat := 0
  exhausted : Bool := false
  mark : Mark := {}
  deriving DecidableEq, Repr

structure Pa where
  state : PaState := .free
  /-- PA_STATE_SET FREE waits for jobs in flight; the command that waits (R171) -/
  freeing : Option (Nat × Nat) := none
  kind : BitVec 8 := 0
  params : Bytes := []
  tx : Dir := {}
  rx : Dir := {}
  /-- by slot 0 to 3 of the association -/
  keys : Tab PaKey := []
  mark : Mark := {}
  /-- marks a checkpoint seeds a later key load with, by key id (R183) -/
  seeds : List (Nat × Mark) := []
  accepted : Nat := 0
  failed : Nat := 0
  replayed : Nat := 0
  stale : Nat := 0
  /-- receive failures in the GTS second held, and whether code 0x03 was raised in it (R195) -/
  failSec : Nat := 0
  failCount : Nat := 0
  failRaised : Bool := false
  /-- a Driner command holds the entry until this instant, in D0 cycles (R172) -/
  heldUntil : Nat := 0
  deriving DecidableEq, Repr

/-! ### Chapter 8: the cipher bench and the key store -/

/-- What one member of a gang computes (R204): H, E(K, J0), its run of counter blocks and its run of GHASH blocks. -/
structure Deal where
  h : Bool := false
  j0 : Bool := false
  /-- first block and how many, of the message -/
  first : Nat := 0
  count : Nat := 0
  /-- first block and how many, of the GHASH input -/
  gfirst : Nat := 0
  gcount : Nat := 0
  deriving DecidableEq, Repr

/-- A lane's request-table entry (R206) and what it keeps of the job it runs. -/
structure Lane where
  job : Option Nat := none
  slot : Nat := 0
  mode : Nat := 0
  cls : BitVec 2 := 0
  gang : BitVec 8 := 0xFF
  member : Nat := 0
  klen : Bool := false
  /-- STATE of R206 -/
  state : Nat := 0
  /-- key registers, two shares (R198); zero outside a job -/
  key0 : BitVec 256 := 0
  key1 : BitVec 256 := 0
  /-- the job's mask draw, bytes m0 to m7 (R199) -/
  mask : BitVec 64 := 0
  /-- the AES state of the block in work, as two shares, at the block's start (R198, R199) -/
  aes0 : BitVec 128 := 0
  aes1 : BitVec 128 := 0
  /-- its part of the job (R204), and the block computations it has ended -/
  deal : Deal := {}
  blocks : Nat := 0
  /-- the staging buffer's output that has not left yet (R198, R211) -/
  staged : Bytes := []
  deriving DecidableEq, Repr

/-- A gang record (R206). -/
structure Gang where
  job : Nat
  g : Nat
  members : List Nat
  finished : Nat := 0
  deriving DecidableEq, Repr

structure Bch where
  lanes : Tab Lane := []
  gangs : Tab Gang := []
  /-- mask draws (R213) -/
  reserve : List (BitVec 64) := []
  general : List (BitVec 64) := []
  /-- the duty that a lane running a job keeps until that job ends (R36): physical lane, 1 reserved, 0 unreserved, 2 gated -/
  oldDuty : Tab Nat := []
  count : BitVec 8 := 64
  events : Word := 0
  laneSel : BitVec 10 := 0
  assayPhys : BitVec 10 := 0
  assayResult : BitVec 2 := 0
  /-- when each lane and hash unit was last assayed, in D0 cycles (R215, R234) -/
  assayed : Tab Nat := []
  /-- when the start's assays ended, in D0 cycles: the stamp of every unit not listed above -/
  assayBase : Nat := 0
  deriving DecidableEq, Repr

/-- A key-store row (R216, R217). -/
structure KRow where
  s0 : BitVec 256 := 0
  s1 : BitVec 256 := 0
  attr : BitVec 64 := 0
  /-- live holds (R207), loads since the last re-split (R220) -/
  holds : Nat := 0
  loads : Nat := 0
  /-- the erase of this slot was asked by KEY_CMD (R218) -/
  byCmd : Bool := false
  /-- the KEY_ERASE that waits for the erase: party, tag -/
  waiter : Option (Nat × Nat) := none
  deriving DecidableEq, Repr

/-- An unwrap under way (R223). -/
structure Unwrap where
  slot : Nat
  epoch : Nat
  sealB : Bytes
  /-- the Driner command it serves: party, tag, and whether a PA_KEY_LOAD (association, direction) -/
  party : Nat
  tag : Nat
  pa : Option (Nat × Nat)
  /-- it replaces a next key (R185) -/
  replace : Bool
  /-- 0: before the decision of code 6; 1: before that of code 8; 2: while a replaced next key is erased; 3: released, before its
  split has its noise -/
  stage : Nat := 0
  /-- the tag comparison of the transport key's wrap, and of the seal -/
  ok6 : Bool := false
  ok8 : Bool := false
  /-- the unwrapped key, in the seal unit -/
  key : Bytes := []
  deriving DecidableEq, Repr

structure Key where
  rows : Tab KRow := []
  /-- module rows: 1 device attestation key, 2 drawer-seal key, as two shares (R216, R240) -/
  modRows : Tab (BitVec 544 × BitVec 544) := []
  /-- the row of the installed transport key: its wrapped form and identifier (R216) -/
  transRow : Option (Bytes × Word) := none
  unwrap : Option Unwrap := none
  /-- stamps of UNWRAP_FAIL outcomes (R224) -/
  fails : List Nat := []
  throttledAt : Option Nat := none
  slotSel : BitVec 14 := 0
  attrHi : Word := 0
  events : Word := 0
  unSlot : BitVec 14 := 0
  unEpoch : BitVec 8 := 0
  unResult : BitVec 2 := 0
  fault : Word := 0
  /-- KEY_SEAL0 to KEY_SEAL19 -/
  sealW : Tab Word := []
  deriving DecidableEq, Repr

/-! ### Chapter 9: hash units and modular engines -/

structure HashUnit where
  job : Option Nat := none
  /-- until when it hashes for the archive or for firmware, in D0 cycles, and that work's cycles (R229) -/
  workTill : Nat := 0
  work : Nat := 0
  lent : Bool := false
  state : Nat := 0
  key : BitVec 256 := 0
  deriving DecidableEq, Repr

/-- Firmware work that an engine carries out (R244). -/
inductive EngineFor where
  /-- started by a register write -/
  | register
  | drawerSeal (drawer : Nat)
  | hallmark (party tag : Nat)
  | snapshot
  deriving DecidableEq, Repr

/-- A logical engine's registers and the operation it runs (R236 to R241, R247). -/
structure Engine where
  cmd : Word := 0
  ops : Word := 0
  par : Word := 0
  /-- STAT.RESULT and SECRET_RES -/
  result : BitVec 2 := 0
  secretRes : Bool := false
  addr : BitVec 14 := 0
  /-- a GO whose draws the harvest has not given yet (R238) -/
  waitsGo : Bool := false
  /-- operand memory: word address to word; unlisted words read 0 -/
  mem : Tab Word := []
  /-- pages 48 to 63: firmware has written the programs and their tables there (R241), and the words written since -/
  loaded : Bool := false
  written : Tab (Option Word) := []
  secret : BitVec 64 := 0
  /-- the running operation: its OP and PROG, and what its end will write on the result page (none: REJECTED, the page is
  erased) -/
  running : Bool := false
  op : Nat := 0
  prog : Nat := 0
  out : Option (List Word) := none
  outSecret : Bool := false
  resPage : Nat := 0
  for_ : EngineFor := .register
  /-- a ZEROIZE came while it ran: no result is written (R246) -/
  drop : Bool := false
  /-- key slots held by a LOAD (R240) -/
  holds : List Nat := []
  /-- the flow's first signature has failed (R243) -/
  second : Bool := false
  deriving DecidableEq, Repr

structure Hme where
  units : Tab HashUnit := []
  huEvents : Word := 0
  huSel : BitVec 7 := 0
  huAssay : BitVec 7 := 0
  huResult : BitVec 2 := 0
  lend : Nat := 720
  engines : Tab Engine := []
  /-- engines retired while they ran, by the logical number they served; each ends its operation (R235, R238, R246) -/
  away : Tab Engine := []
  meEvents : Word := 0
  progLock : Bool := false
  meAssay : BitVec 3 := 0
  meAssayResult : BitVec 2 := 0
  /-- firmware has loaded the programs into pages 48 to 63 (R241) -/
  progs : Bool := false
  deriving DecidableEq, Repr

/-! ### Chapter 10: the noise harvest -/

/-- A noise cell (R248 to R252). -/
structure Cell where
  /-- the start-up test was passed since module start, the last adaptive-proportion failure, or bring-in; a cell in
  service that has not is in its start-up test -/
  passed : Bool := false
  /-- the last raw bit and how many times in a row it has come (R250) -/
  last : Bool := false
  run : Nat := 0
  /-- ones in the last completed window -/
  ones : Nat := 0
  deriving DecidableEq, Repr

structure Nh where
  cells : Tab Cell := []
  /-- bits of released windows not yet conditioned, in window order (R253) -/
  windows : List Bool := []
  /-- conditioned bits handed to the consumers of precedences 1, 3 and 4 and not drawn yet (R255, R524) -/
  b1 : List Bool := []
  b3 : List Bool := []
  b4 : List Bool := []
  /-- the bits that their waiting draws still want -/
  w1 : Nat := 0
  w3 : Nat := 0
  w4 : Nat := 0
  /-- conditioned bits too few for a whole draw, handed out first next time (R254) -/
  left : List Bool := []
  /-- the software pool (R259) -/
  soft : List Word := []
  started : Bool := false
  thrC3 : Bool := false
  thrC2 : Bool := false
  exhausted : Bool := false
  testEn : Bool := false
  pattern : Word := 0
  events : Word := 0
  cellSel : BitVec 9 := 0
  /-- UNDERRUN of each core, by MID, and reads that wait for a word: MID, start, and whether the wait has passed
  10 µs (R259) -/
  underrun : Tab Bool := []
  waits : List (Nat × Nat × Bool) := []
  deriving DecidableEq, Repr

/-! ### Chapter 11: the evidence archive -/

/-- A record (R267). LINK is empty until the record is sequenced. -/
structure Rec where
  typ : Nat
  src : Nat
  cls : BitVec 2
  /-- LEN_FLAGS[31:25] under R268: LATE, BRACKETED, UNSYNC, JIG, AO, EMERGENCY -/
  flags : BitVec 7 := 0
  gts : Gts
  dseq : Nat := 0
  aoseq : Nat := 0
  link : Bytes := []
  body : Bytes
  deriving DecidableEq, Repr

/-- Who waits for a record: a Driner command or a job (R292, R293, R445). -/
inductive Waiter where
  /-- answered at sequencing -/
  | cmdSeq (party tag : Nat)
  /-- answered at commitment -/
  | cmdCommit (party tag : Nat)
  | job (id : Nat)
  /-- a repeat (R281) that waits for its COUNT record: its own stamp at intake -/
  | cmdRepeat (party tag : Nat) (gts : Gts)
  | none
  deriving DecidableEq, Repr

/-- A record at the intake port (R270). -/
structure Arrival where
  r : Rec
  waiter : Waiter := .none
  /-- the staging room was reserved at admission (job 0x30) -/
  reserved : Bool := false
  deriving DecidableEq, Repr

/-- A record accepted and waiting to be sequenced (R279). -/
structure Staged where
  r : Rec
  waiter : Waiter
  deriving DecidableEq, Repr

/-- A record sequenced: where it stands (R270, R273). -/
structure ARec where
  r : Rec
  drawer : Nat
  /-- offset in the drawer's stream, and the global segment in which the drawer begins -/
  off : Nat
  seg0 : Nat
  /-- every byte of it has programmed with a passing status (R270) -/
  committed : Bool := false
  /-- a codeword of it is unreadable (R290) -/
  unreadable : Bool := false
  /-- the body bytes of a large record's second read differ from the body the link covers (R280) -/
  second : Option Bytes := none
  deriving DecidableEq, Repr

/-- A segment sequenced and not yet fully programmed (R270): its global number, the stream bytes that stand in it, the
bytes of it programmed with a passing status, and whether its stream has passed it. -/
structure Seg where
  num : Nat
  fill : Nat
  prog : Nat := 0
  closed : Bool := false
  deriving DecidableEq, Repr

/-- A drawer, open or closed (R273 to R278). -/
structure Drawer where
  num : Nat
  firstDseq : Nat
  seg0 : Nat
  /-- stream length, and records placed -/
  len : Nat := 0
  count : Nat := 0
  /-- it holds a content record, and the SEAL record of its predecessor (R274) -/
  content : Bool := false
  hasSeal : Bool := false
  openedAt : Nat
  /-- when a close condition arrived, and the close cause (R274, R278) -/
  closeAt : Option Nat := none
  cause : Nat := 0
  /-- smallest and largest header GTS (R276) -/
  gtsFirst : Gts
  gtsLast : Gts
  /-- DSEQ of its TRAILER once closed; its seal record once signed; DSEQ of its SEAL record -/
  trailer : Option Nat := none
  sealB : Option Bytes := none
  sealDseq : Option Nat := none
  deriving DecidableEq, Repr

/-- An open gap (R282). -/
structure Gap where
  cls : Nat
  cause : Nat
  records : Nat
  bytes : Nat
  first : Gts
  last : Gts
  openedAt : Nat
  skipped : Nat := 0
  deriving DecidableEq, Repr

/-- An open run of repeats (R281). -/
structure Run where
  typ : Nat
  src : Nat
  digest : Bytes
  repeats : Nat
  first : Gts
  last : Gts
  /-- DSEQ of the original plus 1; 0 while it waits in staging -/
  orig : Nat
  openedAt : Nat
  /-- it has ended and waits for its original to be sequenced -/
  ended : Bool := false
  /-- repeats answered once the original has its DSEQ: party, tag, stamp; and those answered at commitment -/
  seqWaiters : List (Nat × Nat × Gts) := []
  waiters : List Waiter := []
  deriving DecidableEq, Repr

/-- A NAND channel (R289, R298). -/
structure NandCh where
  dies : BitVec 8 := 0xFF
  spare : Nat := 40960
  retired : Bool := false
  /-- stamps of command timeouts (R289) -/
  timeouts : List Nat := []
  deriving DecidableEq, Repr

/-- What a block is erased for (R264, R284, R288): the erase-ahead pool, its return to the refresh headroom, or later use. -/
inductive EraseFor where
  | ahead | headroom | reuse
  deriving DecidableEq, Repr

/-- The erase-ahead pool of a module as delivered: blocks 0 and 1 of every die (log entry 37). -/
def firstAhead : List Nat := (List.range 128).map fun i => i / 2 % 8 * 163840 + i / 16 * 20480 + i % 2

/-- An emergency set of a module as delivered: block 2, or block 3, of dies 0 to 3 of every channel (log entry 37). -/
def firstSet (b : Nat) : List Nat := (List.range 32).map fun i => i % 8 * 163840 + i / 8 * 20480 + b

/-- A NAND block, by number channel * 163,840 + die * 20,480 + block (R263). -/
structure NandBlk where
  /-- global segments it holds, stamps of its refreshes, retired, an erase under way -/
  segs : List Nat := []
  refreshes : List Nat := []
  retired : Bool := false
  /-- an erase of it is due or under way -/
  erasing : Option EraseFor := none
  /-- a refresh is due (R286) -/
  due : Bool := false
  deriving DecidableEq, Repr

structure Arc where
  ready : Bool := false
  auto : Bool := false
  /-- when occupancy fell below 25 % with no gap open (R283) -/
  calmAt : Option Nat := none
  /-- records at the intake port, in intake order; those held on their paths stay here (R279) -/
  arrivals : List Arrival := []
  staged : List Staged := []
  /-- bytes staged in the general area and in the class-0 reserve -/
  genUsed : Nat := 0
  resUsed : Nat := 0
  /-- the next DSEQ, the last LINK, the last committed DSEQ plus 1 -/
  nextDseq : Nat := 0
  lastLink : Bytes := []
  committed : Nat := 0
  /-- a record has been committed since the archive was begun (R270) -/
  begun : Bool := false
  nextSeg : Nat := 0
  nextDrawer : Nat := 0
  openDrawer : Option Drawer := none
  /-- drawers closed, newest first; those not yet signed are signed in drawer order (R277) -/
  closed : List Drawer := []
  recs : List ARec := []
  segs : List Seg := []
  waiters : List (Nat × Waiter) := []
  gaps : List Gap := []
  runs : List Run := []
  /-- the last C1 record accepted, by source: type, digest, DSEQ plus 1 once sequenced (R281) -/
  lastC1 : Tab (Nat × Bytes × Nat) := []
  /-- large records: those whose second read runs, by DSEQ (R280) -/
  large : List (Nat × Waiter) := []
  /-- the blocks of the emergency sets that stand ready, of those being erased; the open stripe is one (R284) -/
  emSets : List (List Nat) := [firstSet 2, firstSet 3]
  emPend : List (List Nat) := []
  emOpen : Bool := false
  /-- erased blocks ready for the open stripe, and blocks left in the refresh headroom (R264) -/
  ahead : List Nat := firstAhead
  headroom : Nat := 27125
  /-- segments being programmed and blocks being erased, as the power governor admitted them (R265) -/
  programs : List Nat := []
  erases : List Nat := []
  prepare : Bool := false
  /-- the previous MAIN period ended with a completed prepare (R272) -/
  clean : Bool := true
  w : Nat := 16
  /-- the blocks of the open stripe, in dealing order (R265) -/
  stripe : List Nat := []
  /-- ARC_NOTICE 0x0005 is due with the first record in the emergency set just taken (R296) -/
  emNotice : Bool := false
  /-- segments left before the stripe's current blocks are full (R265) -/
  stripeLeft : Nat := 0
  used : Nat := 0
  cap : Nat := 30517600
  gapsTotal : Nat := 0
  full : Bool := false
  overfill : Nat := 0
  notified : BitVec 2 := 0
  ctrl : Word := 0x7832
  events : Word := 0
  dseqHi : Word := 0
  drawerHi : Word := 0
  chSel : BitVec 3 := 0
  faultA : Word := 0
  faultB : Word := 0
  chans : Tab NandCh := []
  blocks : Tab NandBlk := []
  /-- unreadable codewords, by global segment * 16 + codeword (R290) -/
  bad : List Nat := []
  /-- when each segment was programmed or last read by the scrubber, in this start (R287) -/
  scrubbed : Tab Nat := []
  /-- when the full pass of this start began -/
  passFrom : Nat := 0
  /-- stamps of the failed status reads of each die, by channel * 8 + die (R289) -/
  dieFails : Tab (List Nat) := []
  /-- a seal waits for an engine (R277) -/
  sealWait : Bool := false
  /-- the 512-bit archive key, and whether it stands (R266): wrapped in flash, and given to the inline cipher -/
  key : BitVec 512 := Config.archiveKey
  keyStored : Bool := true
  keyLoaded : Bool := false
  deriving DecidableEq, Repr

/-! ### Chapter 12: the code flash -/

/-- What the code flash controller runs (R302, R309). -/
inductive FlOp where
  | program (addr : Nat) (d0 d1 : Word)
  | erase (sector : Nat)
  | margin (first count : Nat) (eraseMargin : Bool)
  /-- a double decision on the read-out protection level (R321, R322) -/
  | decide (dest : Nat)
  /-- the descent of R322 has its marker and erased keys; the step under way, 3 to 5 -/
  | descent (step : Nat)
  deriving DecidableEq, Repr

/-- A suspended erase (R314, R318). -/
structure FlSusp where
  sector : Nat
  /-- the controller suspended it itself at a power warning -/
  own : Bool
  deriving DecidableEq, Repr

structure Fls where
  /-- cells of the physical sectors, by physical sector * 65,536 + offset; unlisted bytes are erased (0xFF) -/
  cells : Mem := []
  /-- program counts of raw words, by physical sector * 16,384 + word; unlisted: 3 (R305) -/
  counts : Tab Nat := []
  /-- kind map (true: raw), remap, read-out protection level and descent marker of the configuration area (R300) -/
  kinds : Tab Bool := []
  remap : Tab Nat := []
  rdp : Nat := 1
  rdpFuse : Bool := false
  marker : Bool := false
  /-- check bytes that a torn program left in the side area (R304), by physical sector * 8,192 + granule; unlisted: the check byte
  of the granule's data -/
  checks : Tab Nat := []
  /-- the 32-byte line that each bank's buffer holds, plus 1; 0: none (R301) -/
  lines : Tab Nat := []
  /-- logical sectors marked bad (R323) -/
  bad : List Nat := []
  /-- journal words by 2 * bank + half, in the order programmed; the half in use by bank (R316) -/
  journal : Tab (List Word) := []
  half : Tab Nat := []
  /-- physical sectors whose erase was abandoned, with the number of the free values they read as (R317) -/
  torn : Tab Nat := []
  /-- physical sectors found ERASE_INCOMPLETE by the scan -/
  incomplete : List Nat := []
  running : Option FlOp := none
  susp : Option FlSusp := none
  /-- the running erase began or resumed; it has been resumed since its start (R314); a SUSPEND is held -/
  erasedAt : Nat := 0
  resumed : Bool := false
  suspHeld : Bool := false
  result : Nat := 0
  scanDone : Bool := false
  heldOff : Bool := false
  /-- unlock sequence: writes taken so far, 0 to 5; its MID; when it began -/
  seq : Nat := 0
  seqMid : Nat := 0
  seqAt : Nat := 0
  ctrl : Word := 2
  cmd : Word := 0
  addr : Word := 0
  data0 : Word := 0
  data1 : Word := 0
  events : Word := 0
  fault : Word := 0
  faultAddr : Word := 0
  sectSel : BitVec 11 := 0
  /-- FL_WP0 to FL_WP63 -/
  wp : Tab Word := []
  deriving DecidableEq, Repr

/-! ### Chapters 13 and 14: the Lolan-32 cores and the memory protection units -/

/-- What takes effect with the completion of a delay slot (R344). -/
inductive Defer where
  | none
  /-- CALL, CALL [g], BSR: LK and the shadow-stack push -/
  | call
  /-- RET: the shadow-stack pop -/
  | ret
  /-- BBTC: the bit cleared -/
  | clearBit (bit : BitVec 16)
  deriving DecidableEq, Repr

/-- A branch whose delay slot is the next instruction (R343). -/
structure Slot where
  branch : BitVec 24
  /-- the target of a branch taken -/
  target : Option (BitVec 24)
  /-- the slot does nothing: an annulling branch not taken -/
  annul : Bool
  effect : Defer
  deriving DecidableEq, Repr

/-- A shadow-stack record (R383). -/
structure SsRec where
  w0 : Word
  w1 : Word
  deriving DecidableEq, Repr

/-- A Lolan-32 core under one identity: 0 is the pair 0x50/0x51, 1 the pair 0x52/0x53, 2 to 13 the tenant cores
0x54 to 0x5F. The two cores of a pair hold the same state (R24). -/
structure Core where
  /-- g0 to g15 -/
  g : Tab Word := []
  pc : BitVec 24 := 0
  lk : BitVec 24 := 0
  sr : Word := 0xF00
  lc : Word := 0
  ls : BitVec 24 := 0
  le : BitVec 24 := 0
  ac0 : BitVec 96 := 0
  ac1 : BitVec 96 := 0
  /-- the address recorded with a poisoned accumulator (R401) -/
  poison0 : Option Word := none
  poison1 : Option Word := none
  xp : BitVec 17 := 0
  yp : BitVec 17 := 0
  xm : Word := 0
  ym : Word := 0
  edtb : Word := 0
  sce0 : Word := 0
  sce1 : Word := 0
  sce2 : Word := 0
  sce3 : Word := 0
  slot : Option Slot := none
  /-- the aligned 32-byte granule under reservation (R352), as a D-space address divided by 32 -/
  rsv : Option Nat := none
  /-- when the LDR.RS took the reservation (R352) -/
  rsvAt : Nat := 0
  waiting : Bool := false
  /-- RUN of a tenant core; a firmware core runs from module reset -/
  run : Bool := false
  lockup : Bool := false
  /-- shadow stacks by level, the top first, and their spilled counts; the escalation shadow stack -/
  ss : Tab (List SsRec) := []
  spilled : Tab Nat := []
  escSs : List SsRec := []
  /-- GLB_IRQ_PEND, GLB_SS_SEL, GLB_SS_SPILL1 -/
  irqPend : Word := 0
  ssSel : BitVec 2 := 3
  spill1 : Word := 0
  /-- GLB_ESC_STAT, GLB_ESC_SAVED_PC, GLB_ESC_SAVED_SR, GLB_ESC_SAVED_SP, GLB_ESC_RESUME -/
  escActive : Bool := false
  escCause : BitVec 3 := 0
  escVector : BitVec 6 := 0
  escLevel : BitVec 2 := 0
  escPc : BitVec 24 := 0
  escSr : Word := 0
  escSp : Word := 0
  escResume : BitVec 24 := 0
  escClear : Bool := false
  /-- GLB_ESC_PC ADDR and VALID, ESC_LOCK, ESC_COUNT -/
  hndl : BitVec 24 := 0
  hndlValid : Bool := false
  escLock : Bool := false
  escCount : Nat := 0
  deriving DecidableEq, Repr

/-- The SRAM of one core (R327, R395), which a core reset and a RETX keep. -/
structure CoreMem where
  i : Mem := []
  x : Mem := []
  y : Mem := []
  esc : Mem := []
  bits : Tab Bool := []
  /-- bytes of I-space written since the last ISYNC, as they stood before: by aligned 16-byte block (R333) -/
  stale : Tab Bytes := []
  /-- the 4-entry store buffer toward cluster memory, the oldest first: address and bytes (R354) -/
  stores : List (Nat × Bytes) := []
  deriving DecidableEq, Repr

/-- A memory protection unit (R399 to R403). -/
structure Mpu where
  base : Tab Word := []
  /-- GLB_MPU_ATTRr; reset value SIZE 5 -/
  attr : Tab Word := []
  violA : Word := 0
  violB : Word := 0
  /-- DMA_PL of a DMA engine -/
  dmaPl : BitVec 2 := 3
  deriving DecidableEq, Repr

structure Lol where
  cores : Tab Core := [(0, { pc := 0xFC0000 }), (1, { pc := 0xFC0000 })]
  mems : Tab CoreMem := []
  /-- cluster shared memory, by offset -/
  shared : Mem := []
  /-- memory protection units: 0 to 13 of the cores, 16 to 23 of the DMA engines -/
  mpus : Tab Mpu := []
  /-- GLB_CORE_SEL.MID -/
  sel : BitVec 8 := 0x50
  deriving DecidableEq, Repr

/-! ### Chapters 0 and 15: power states, profiles, supplies -/

/-- The power states of R2. -/
inductive PowerState where
  | main | field | backup | off
  deriving DecidableEq, Repr

/-- The profiles of R4. -/
inductive Profile where
  | guard | throughput | incident | frugal
  deriving DecidableEq, Repr

structure Pwr where
  state : PowerState := .main
  /-- module reset is asserted -/
  inReset : Bool := false
  /-- supplies and sensors: VIN_3V3 in mV; derived rails in window; VBAT in mV; field in tenths of A/m; die in 0.1 degrees -/
  vin : Nat := 3300
  rails : BitVec 4 := 0xF
  vbat : Nat := 3000
  field : Nat := 0
  temp : Int := 250
  vinMin : Nat := 3300
  tempMax : Int := 250
  prepare : Bool := false
  recovering : Bool := false
  /-- recovery rule met while prepare runs (R416) -/
  recoverMet : Bool := false
  prepAt : Nat := 0
  warnAt : Nat := 0
  warnings : Nat := 0
  dipMin : Nat := 3300
  dips : Nat := 0
  lastUs : Nat := 0
  events : Word := 0
  capW : BitVec 6 := 0
  capActive : Bool := false
  shed : Nat := 0
  /-- unreserved lane groups of 32 gated by shed step 3 -/
  shedGroups : Nat := 0
  mw : Nat := 0
  /-- estimates of the last millisecond, newest first -/
  est : List Nat := []
  underAt : Option Nat := none
  shedAt : Nat := 0
  capRecAt : Option Nat := none
  backupSeen : Bool := false
  fieldSeen : Bool := false
  /-- the first start follows a power-up from OFF (R430) -/
  offSeen : Bool := true
  /-- records due at the next start: POWER_LOST (lowest VIN_3V3 and the state entered), RAIL_FAULT rails, MRST -/
  dueLost : Option (Nat × Nat × Nat) := none
  dueRail : Nat := 0
  /-- a module reset included a host reset (R111) -/
  dueHost : Bool := false
  dueMrst : Bool := false
  profile : Profile := .guard
  /-- the profile an automatic INCIDENT returns to, and one held during prepare (R37, R283, R415) -/
  returnTo : Option Profile := none
  heldProfile : Option Profile := none
  /-- MRST_N and PERST_N levels -/
  mrstN : Bool := true
  perstN : Bool := true
  /-- CLKIN edges arrive -/
  clkin : Bool := true
  /-- when the release condition of R408 began to hold, in D0 cycles -/
  okSince : Nat := 0
  deriving DecidableEq, Repr

/-! ### Chapter 16: tamper -/

/-- A tamper source (R425 to R429, R451). -/
structure Src where
  /-- the filter counter -/
  count : Nat := 0
  /-- TMP_SRC_STAT.FIRES -/
  fires : Nat := 0
  armed : Bool := true
  /-- successive inactive samples since the source fired, or the last event's instant in D0 cycles -/
  quiet : Nat := 0
  lastAt : Nat := 0
  /-- the configured filter and response; 0: the default of R425 -/
  filt : Nat := 0
  resp : Nat := 0
  /-- qualified-active now (TMP_LIVE) -/
  live : Bool := false
  /-- what the record of the next firing carries: DECISION and DETAIL (R438) -/
  decision : Nat := 0
  detail : Nat := 0
  /-- a firing not yet recorded, and the instant of the last record (R428) -/
  recAt : Option Nat := none
  /-- the flag was set by a firing with NOTIFY or stronger (R439) -/
  notified : Bool := false
  deriving DecidableEq, Repr

/-- A pending-action entry (R444). -/
structure Pend where
  index : Nat
  resp : Nat
  /-- 1 FIELD, 2 BACKUP -/
  state : Nat
  seq : Nat
  deriving DecidableEq, Repr

/-- What a double decision decides (R441), with what it needs to be carried out. -/
inductive DecWhat where
  /-- the source, the response, and the AO sequence number of the firing -/
  | respond (index resp seq : Nat)
  | lifecycle (dest : Nat) (party tag : Nat)
  | rdp (dest : Nat)
  | flagClear (mask : Word) (party tag : Option Nat)
  | jig (party tag : Nat) (token : Bytes)
  | testPort
  | kekUnwrap
  | keyRelease
  deriving DecidableEq, Repr

/-- A double decision between its first and its second evaluation (R440). -/
structure Dec where
  what : DecWhat
  /-- the first evaluation -/
  first : Bool
  /-- the fresh random byte r; none: it waits for the noise harvest (R525) -/
  r : Option Nat
  /-- when the delay of 16 + r units began -/
  at_ : Nat := 0
  deriving DecidableEq, Repr

structure Tmp where
  flags : Word := 0x20
  aoLost : Bool := true
  aoNoiseFail : Bool := false
  /-- always-on noise cells that have failed (R442) -/
  aoCells : BitVec 2 := 0
  pend : List Pend := []
  overflow : Nat := 0
  aoseq : Nat := 0
  pendSeq : Word := 0
  clearMask : Word := 0
  result : BitVec 2 := 0
  srcSel : BitVec 5 := 0
  srcs : Tab Src := []
  /-- strongest response carried out since module reset: 0, 3, 4 or 5 (R437) -/
  respInForce : Nat := 0
  /-- ZEROIZE or RETIRE carried out since module reset (GLB_STATUS.ZEROIZED) -/
  zeroized : Bool := false
  /-- ALERT_N asserted (R439) -/
  alert : Bool := false
  decisions : List Dec := []
  /-- this start has archived the pending actions (R445) -/
  pendDone : Bool := false
  /-- the KEK of the always-on island, while one stands -/
  kek : Option (BitVec 256) := none
  /-- zeroize fuses blown, of 32 (R448); the retire fuse; fuse blows held for want of supply (R443) -/
  zfuses : Nat := 0
  retireFuse : Bool := false
  heldZ : Nat := 0
  heldRetire : Bool := false
  /-- policy SEALED as TMP_POLICY holds it, and the policy fixed in OTP (R447) -/
  policySealed : Bool := false
  policyFused : Option Bool := none
  /-- the pattern last driven into each Veneer net (R426) -/
  veneer : Tab Word := []
  deriving DecidableEq, Repr

/-! ### Chapter 17: the contactless port -/

/-- An entry of the Clasp key block (R462), its master key as the Locket engine unwraps it. -/
structure ClaspKey where
  role : BitVec 8
  key : BitVec 256
  deriving DecidableEq, Repr

/-- A Clasp exchange (R463 to R465). -/
structure Clasp where
  /-- the session is open; before that, AUTH1 has passed (tag mode) or has been sent (reader mode) -/
  isOpen : Bool
  keyNo : Nat
  role : BitVec 8
  credUid : Bytes
  na : Bytes
  nb : Bytes
  k : Bytes
  ks : Bytes := []
  txCtr : Nat := 0
  rxCtr : Nat := 0
  /-- instant of the last frame, in D0 cycles -/
  lastAt : Nat
  deriving DecidableEq, Repr

/-- A MARK under way (R471): its entry, whether step 3 has begun, the programs made of its 65, and whether the controller
suspended an erase of bank 3 for them (R476). -/
structure MarkOp where
  index : Nat
  jseq : Nat
  aoseq : Nat
  entry : Bytes
  begun : Bool := false
  made : Nat
  paused : Bool := false
  deriving DecidableEq, Repr

/-- Where BADGE_READ stands (R459 to R461). -/
inductive BadgeStage where
  | guard | polling
  /-- anticollision at a cascade level: UID bits resolved so far -/
  | anticol (level : Nat) (bits : List Bool)
  | select (level : Nat)
  | rats | pps
  /-- a Clasp pass that waits for its nonce (R525) -/
  | nonce
  | auth | session | identity
  deriving DecidableEq, Repr

structure Badge where
  party : Nat
  tag : Nat
  /-- timeout in ms, and when the operation began, in D0 cycles -/
  timeout : Nat
  begun : Nat
  stage : BadgeStage := .guard
  /-- when the last REQA left -/
  reqaAt : Nat := 0
  uid : Bytes := []
  /-- cards resolved so far, and whether one was Clasp-capable -/
  cards : Nat := 0
  capable : Bool := false
  deriving DecidableEq, Repr

structure Cl where
  /-- mode in force; CL_CTRL holds the mode asked for -/
  mode : BitVec 2 := 0
  ctrl : Word := 0x333C
  events : Word := 0
  /-- thresholds with hysteresis: tag, write, VFIELD (R454) -/
  fieldTag : Bool := false
  fieldWrite : Bool := false
  vfield : Bool := false
  /-- this activation's UID once drawn (R457); Locket cells failed; tag mode silent for this activation -/
  uid : Option (BitVec 32) := none
  cellsFailed : BitVec 2 := 0
  silent : Bool := false
  noiseFail : Bool := false
  /-- TAG_STATE: 0 IDLE, 1 READY, 2 ACTIVE, 3 HALT; reached from HALT; ISO/IEC 14443-4 open; rate chosen by PPS -/
  tagState : BitVec 2 := 0
  star : Bool := false
  proto : Bool := false
  rate : BitVec 4 := 0
  /-- FSD of the PCD, in bytes (RATS) -/
  fsd : Nat := 256
  /-- message blocks received under chaining; blocks of the response still to send; the last block sent -/
  chain : Bytes := []
  toSend : List Bytes := []
  lastBlock : Bytes := []
  /-- an S(WTX) request awaits its answer -/
  wtx : Bool := false
  clasp : Option Clasp := none
  /-- failed authentications in this activation (R466) -/
  actFails : Nat := 0
  mark : Option MarkOp := none
  /-- CL_AUTH.FAILS and CL_SNAP: kept in the always-on island -/
  authFails : Nat := 0
  snapSlot : BitVec 12 := 0
  snapValid : Bool := false
  /-- what this activation's scan found, once made (R468) -/
  scanned : Option (Option Nat) := none
  keys : Tab ClaspKey := []
  badge : Option Badge := none
  carrier : Bool := false
  carrierOffAt : Nat := 0
  /-- this start has walked the journal; the first JSEQ that this start archived at once (R474) -/
  walked : Bool := false
  atOnce : Option Nat := none
  /-- frames sent by the module, the oldest first -/
  sent : List Bytes := []
  deriving DecidableEq, Repr

/-! ### Chapter 18: start, measurement, lifecycle, the jig -/

/-- What runs on firmware pair A (R482 to R487). -/
inductive FwStage where
  | rom | loader | stage1 | running
  deriving DecidableEq, Repr

/-- An entry of the measurement list (R488). -/
structure Meas where
  kind : BitVec 8
  index : BitVec 8
  digest : Bytes
  deriving DecidableEq, Repr

/-- A tenant core's program (R495 to R497). -/
structure Tenant where
  loaded : Bool := false
  /-- stopped by TP_STOP since it last ran -/
  stopped : Bool := false
  entry : BitVec 24 := 0
  version : Word := 0
  digest : Bytes := []
  /-- faults taken since the load, and the vector of the last -/
  faults : Nat := 0
  lastFault : Nat := 0
  deriving DecidableEq, Repr

/-- The jig in force (R502, R503). -/
structure Jig where
  links : BitVec 5
  /-- MODE and RATE_LOG2 by link -/
  modes : List (Nat × Nat)
  endAt : Nat
  deriving DecidableEq, Repr

/-- A Hallmark report that waits for its signature (R490, R492): who asked, the buffer, the bytes before SIG. -/
structure Report where
  party : Nat
  tag : Nat
  addr : Nat
  room : Nat
  body : Bytes
  /-- the physical engine on which its signature has failed (R243) -/
  failedOn : Option Nat := none
  deriving DecidableEq, Repr

structure Lc where
  /-- fixed in OTP at manufacture, by no rule of the spec: the serial number (R490), the public key of boot images (R483), the
  journal key (R472) and the key that seals bundles (R500), as the Locket engine derives them (log entry 5) -/
  serial : BitVec 64 := Config.serial
  ranmorKey : Bytes := Config.ranmorKey
  journalKey : BitVec 256 := Config.derivedKey 10
  bundleKey : BitVec 256 := Config.derivedKey 11
  /-- coded as GLB_STATUS.LIFECYCLE (R498) -/
  lifecycle : BitVec 2 := 1
  fw : FwStage := .rom
  fwReady : Bool := false
  testFuse : Bool := true
  testPort : Bool := false
  minSvn : Nat := 0
  /-- slot booted: 0 A, 1 B; its VERSION and STAGE_FIRST -/
  slot : Nat := 0
  version : Word := 0
  stageFirst : Nat := 0
  bootCount : Nat := 0
  meas : List Meas := []
  composite : Bytes := List.replicate 64 0
  configHash : Bytes := List.replicate 64 0
  /-- the stamps of the boot ROM and of stage 1, taken before the load (R87) -/
  startStamps : List Gts := []
  gtsBoot : Gts := 0
  /-- installed by bundles (R500) -/
  ownerKey : Option Bytes := none
  programKey : Option Bytes := none
  /-- the transport key as the wrapped-key sectors hold it (R306, R500): its wrapped form and TRANSPORT_ID -/
  transport : Option (Bytes × Word) := none
  /-- the drawer-seal key (R494, R500), generated at provisioning and stored with its certificate -/
  sealKey : Option Nat := none
  /-- firmware has staged an image: its flag word is cleared and the boot ROM has not installed it yet (R484, R496) -/
  staged : Bool := false
  /-- the loader has answered a TP_LOAD and asserts module reset once its answer has left (R485) -/
  resetDue : Bool := false
  /-- filter and response that TMP_CONFIG has stored for each source (R429) -/
  tmpCfg : Tab (Nat × Nat) := []
  /-- the attestation certificate (R494): none, as Ranmor issued it at factory test; a descent erases it -/
  attCert : Option Bytes := none
  sealCert : Bytes := []
  subsys : Word := 0
  ownerCfg : Bytes := []
  authSeq : Nat := 0
  tenants : Tab Tenant := []
  jig : Option Jig := none
  jigSince : Bool := false
  /-- the last snapshot's sequence number, and the ring slot that the next one takes (R493) -/
  snapSeq : Nat := 0
  snapNext : Nat := 0
  /-- a snapshot is due: the nonce it will carry; the one being signed; the fields of the last one without GTS_REPORT and
  NONCE (R493) -/
  snapDue : Option Bytes := none
  snapBody : Option Bytes := none
  /-- the snapshot's signature has failed once (R243) -/
  snapFailedOn : Option Nat := none
  lastSnap : Bytes := []
  /-- reports asked for and not yet signed, in order -/
  reports : List Report := []
  /-- Decommissioned: this start's snapshot is stored and HALT has taken force (R498) -/
  retiredHalt : Bool := false
  deriving DecidableEq, Repr

/-! ### The whole module -/

structure State where
  /-- physical time in D0 cycles (1.2 GHz); advanced by a step on an empty queue (log entry 2) -/
  now : Nat := 0
  /-- draws of free values so far: the model's own field -/
  free : Nat := 0
  clk : Clk := {}
  tim : Tim := {}
  loop : Loop := {}
  dv : Dv := {}
  pci : Pci := {}
  mbx : Mbx := {}
  drn : Drn := {}
  qps : Qps := {}
  pas : Tab Pa := []
  bch : Bch := {}
  key : Key := {}
  hme : Hme := {}
  nh : Nh := {}
  arc : Arc := {}
  pwr : Pwr := {}
  tmp : Tmp := {}
  ret : Ret := {}
  fls : Fls := {}
  lol : Lol := {}
  cl : Cl := {}
  lc : Lc := {}
  lnk : Lnk := {}
  /-- commands waiting, first in, first out -/
  pending : List Instr := []
  deriving DecidableEq, Repr

/-- Why a step stops with a fault. No meaning of this model does: a tamper response, a core fault, an engine's REJECTED
are all next states. -/
inductive Fault where
  /-- raised by nobody; safe -/
  | none
  deriving DecidableEq, Repr

/-- Why a step is refused. -/
inductive Refusal where
  /-- a command that has no meaning yet, by its mnemonic; safe -/
  | notModelled (mnemonic : String)
  deriving DecidableEq, Repr

/-- What a meaning answers. -/
abbrev Out := Host.Outcome State Fault Refusal

/-- The module right after module reset is released in MAIN, at its first start (R43, t = 0). -/
def State.reset : State := {}

end Sys2Proof.Machine
end

