-- ==== Sys2Proof/Machine/Ops.lean ====
section
/-! DEFINITION. Sys2Proof/Machine/Ops.lean: the named operations over tables, memories, bytes and fields, the accessors
of State, and what every chapter shares: stamps, free values, noise draws. -/

namespace Sys2Proof.Machine

/-! ### Sparse tables and memories -/

/-- The entry of a table at `n`: the listed one, otherwise the default. -/
def tget {α : Type} (d : α) : Tab α → Nat → α
  | [], _ => d
  | (k, v) :: t, n => if k = n then v else tget d t n

/-- A table without its entry at `n`. -/
def tdel {α : Type} (n : Nat) (t : Tab α) : Tab α := t.filter fun e => e.1 != n

/-- A table with an entry put before the first of a greater number. -/
def tins {α : Type} (n : Nat) (v : α) : Tab α → Tab α
  | [] => [(n, v)]
  | (k, w) :: t => if k < n then (k, w) :: tins n v t else (n, v) :: (k, w) :: t

/-- A table with the entry at `n` set: keys strictly rising, no entry equal to the default. On any table, what is read at
`n` afterwards is `v`, and every other entry reads as before. -/
def tset {α : Type} [DecidableEq α] (d : α) (t : Tab α) (n : Nat) (v : α) : Tab α :=
  if v = d then tdel n t else tins n v (tdel n t)

/-- A table with every listed entry changed. -/
def tmap {α : Type} [DecidableEq α] (d : α) (f : Nat → α → α) : Tab α → Tab α
  | [] => []
  | (k, v) :: t => if f k v = d then tmap d f t else (k, f k v) :: tmap d f t

/-- The canonical form of a table: keys strictly rising, no entry equal to the default. -/
def twf {α : Type} [DecidableEq α] (d : α) : Tab α → Bool
  | [] => true
  | [(_, v)] => decide (v ≠ d)
  | (k, v) :: (k', v') :: t => decide (v ≠ d) && decide (k < k') && twf d ((k', v') :: t)

/-- The canonical form of a memory whose unlisted bytes read `d`. -/
def Memory.wf (d : Byte) (m : Mem) : Bool := twf d m

/-- The byte of a memory at an address; SRAM's unlisted bytes read 0. -/
def mget (m : Mem) (a : Nat) : Byte := tget 0 m a

/-- Writes one byte of SRAM. -/
def mset (m : Mem) (a : Nat) (v : Byte) : Mem := tset 0 m a v

/-- `n` bytes of SRAM from `a`. -/
def mread (m : Mem) (a : Nat) : Nat → Bytes
  | 0 => []
  | n + 1 => mget m a :: mread m (a + 1) n

/-- Writes a run of bytes of SRAM from `a`. -/
def mwrite (m : Mem) (a : Nat) : Bytes → Mem
  | [] => m
  | b :: t => mwrite (mset m a b) (a + 1) t

/-- The entries of a table whose keys lie outside `lo ≤ key < lo + n`. -/
def tclear {α : Type} (t : Tab α) (lo n : Nat) : Tab α :=
  t.filter fun e => e.1 < lo || lo + n ≤ e.1

/-! ### Bytes and fields -/

/-- The `n` low bytes of a number, least significant first (R8). -/
def le (n v : Nat) : Bytes :=
  match n with
  | 0 => []
  | k + 1 => BitVec.ofNat 8 v :: le k (v / 256)

/-- The `n` low bytes of a number, most significant first (network order). -/
def be (n v : Nat) : Bytes := (le n v).reverse

/-- The number that bytes spell, least significant first. -/
def ofLe : Bytes → Nat
  | [] => 0
  | b :: t => b.toNat + 256 * ofLe t

/-- The number that bytes spell, most significant first. -/
def ofBe (b : Bytes) : Nat := ofLe b.reverse

/-- `n` bytes at offset `o`; a short run is filled with zeros. -/
def sub (b : Bytes) (o n : Nat) : Bytes :=
  let r := (b.drop o).take n
  r ++ List.replicate (n - r.length) 0

/-- The little-endian number of `n` bytes at offset `o`. -/
def leAt (b : Bytes) (o n : Nat) : Nat := ofLe (sub b o n)

/-- Every byte of a run is 0. -/
def allZero (b : Bytes) : Bool := b.all (· == 0)

/-- Field [hi:lo] of a word. -/
def fld (w : Word) (hi lo : Nat) : Nat := w.toNat / 2 ^ lo % 2 ^ (hi + 1 - lo)

/-- A word that carries `v` in bits [hi:lo] and 0 elsewhere. -/
def bf (hi lo v : Nat) : Word := BitVec.ofNat 32 (v % 2 ^ (hi + 1 - lo) * 2 ^ lo)

/-- A word with field [hi:lo] replaced. -/
def setFld (w : Word) (hi lo v : Nat) : Word :=
  (w &&& ~~~ (bf hi lo (2 ^ (hi + 1 - lo) - 1))) ||| bf hi lo v

/-- Bit `n` of a word. -/
def bit (w : Word) (n : Nat) : Bool := w.getLsbD n

/-- A word with the one bit `n` set. -/
def bitW (n : Nat) : Word := BitVec.ofNat 32 (2 ^ n)

/-- A word with bit `n` made `b`. -/
def setBit (w : Word) (n : Nat) (b : Bool) : Word :=
  if b then w ||| bitW n else w &&& ~~~ (bitW n)

def b2n (b : Bool) : Nat := if b then 1 else 0

/-- A saturating increment. -/
def satInc (n max : Nat) : Nat := if n < max then n + 1 else n

/-- Two's complement reading of the low `w` bits of a number. -/
def toSigned (w n : Nat) : Int :=
  let m := n % 2 ^ w
  if m < 2 ^ (w - 1) then (m : Int) else (m : Int) - (2 ^ w : Nat)

/-- The low `w` bits of an integer in two's complement. -/
def ofSigned (w : Nat) (i : Int) : Nat := (i % (2 ^ w : Nat)).toNat

/-- A list with one entry replaced. -/
def lset {α : Type} : List α → Nat → α → List α
  | [], _, _ => []
  | _ :: t, 0, v => v :: t
  | x :: t, n + 1, v => x :: lset t n v

/-- A list without its entry at `n`. -/
def ldel {α : Type} : List α → Nat → List α
  | [], _ => []
  | _ :: t, 0 => t
  | x :: t, n + 1 => x :: ldel t n

/-- Numbers 0 to n - 1. -/
abbrev upto (n : Nat) : List Nat := List.range n

/-- Repeats a state change for each element. -/
def each {α : Type} (l : List α) (f : α → State → State) (s : State) : State :=
  l.foldl (fun s a => f a s) s

/-! ### Time -/

/-- D0 cycles in a microsecond (log entry 2). -/
def usC : Nat := 1200

/-- D0 cycles in a millisecond and a second. -/
def msC : Nat := 1200000
def secC : Nat := 1200000000

/-- A 96-bit global time stamp (R56): SEC, NSEC, SUB, QUAL. -/
def gtsOf (sec nsec subns : Nat) (qual : BitVec 2) : Gts :=
  BitVec.ofNat 96 (sec % 2 ^ 48 * 2 ^ 48 + nsec % 2 ^ 30 * 2 ^ 18 + subns % 2 ^ 16 * 4 + qual.toNat)

/-- GTS[95:2]: the time of a stamp without its quality. -/
def gtsTime (g : Gts) : Nat := g.toNat / 4

def gtsSec (g : Gts) : Nat := g.toNat / 2 ^ 48
def gtsNsec (g : Gts) : Nat := g.toNat / 2 ^ 18 % 2 ^ 30
def gtsSub (g : Gts) : Nat := g.toNat / 4 % 2 ^ 16
def gtsQual (g : Gts) : BitVec 2 := BitVec.ofNat 2 g.toNat

/-- A stamp as a count of units of 2^-16 ns since second 0. -/
def gtsUnits (g : Gts) : Nat := (gtsSec g * 1000000000 + gtsNsec g) * 65536 + gtsSub g

/-- The stamp of a count of units of 2^-16 ns. -/
def unitsGts (u : Nat) (q : BitVec 2) : Gts :=
  gtsOf (u / 65536 / 1000000000) (u / 65536 % 1000000000) (u % 65536) q

/-- The GTS now (R56, R58): the counter with the quality in force. -/
def State.gts (s : State) : Gts :=
  gtsOf s.tim.sec (s.tim.acc / 2 ^ 40) (s.tim.acc / 2 ^ 24 % 65536) s.tim.qual

/-- A stamp one unit of 2^-16 ns after another (R27). -/
def gtsNext (g : Gts) : Gts := unitsGts (gtsUnits g + 1) (gtsQual g)

/-! ### Free values and noise -/

/-- The next free value, below `2 ^ w` (AN UNDEFINED VALUE; log entry 5). -/
def State.freeVal (s : State) (w : Nat) : Nat × State :=
  (Config.freeValue s.free % 2 ^ w, { s with free := s.free + 1 })

/-- The number that a bit string spells, the first bit the most significant. -/
def bitNum (b : List Bool) : Nat := b.foldl (fun a x => 2 * a + b2n x) 0

/-- The conditioned bits handed to a precedence that draws for itself (R255). -/
def State.drawBits (s : State) (p : Nat) : List Bool :=
  match p with | 1 => s.nh.b1 | 3 => s.nh.b3 | _ => s.nh.b4

/-- A draw of `n` bits finds them (R525). -/
def State.canDraw (s : State) (p n : Nat) : Bool := n ≤ (s.drawBits p).length

/-- A consumer waits for a draw of `n` bits: what is missing is wanted of the stream (R524, R525). -/
def State.ask (s : State) (p n : Nat) : State :=
  let w (old : Nat) : Nat := max old (n - (s.drawBits p).length)
  match p with
  | 1 => { s with nh := { s.nh with w1 := w s.nh.w1 } }
  | 3 => { s with nh := { s.nh with w3 := w s.nh.w3 } }
  | _ => { s with nh := { s.nh with w4 := w s.nh.w4 } }

/-- A draw of `n` bits, each of them used once (R254): its number, and the state without them. -/
def State.draw (s : State) (p n : Nat) : Nat × State :=
  let v := bitNum ((s.drawBits p).take n)
  match p with
  | 1 => (v, { s with nh := { s.nh with b1 := s.nh.b1.drop n } })
  | 3 => (v, { s with nh := { s.nh with b3 := s.nh.b3.drop n } })
  | _ => (v, { s with nh := { s.nh with b4 := s.nh.b4.drop n } })

/-- What a draw is for happens as soon as its bits are there; until then it waits. -/
def State.withDraw (s : State) (p n : Nat) (f : Nat → State → State) : State :=
  if s.canDraw p n then f (s.draw p n).1 (s.draw p n).2 else s.ask p n

/-- A draw from cells that are not the harvest's: the always-on cells (R442) or the Locket cells (R478). -/
def State.drawAo (s : State) (n : Nat) : Nat × State :=
  (Config.noise s.free n % 2 ^ n, { s with free := s.free + 1 })

/-! ### Whether the main-domain logic runs -/

/-- MAIN, and module reset released (R2, R408). -/
def State.up (s : State) : Bool := s.pwr.state == .main && !s.pwr.inReset

/-! ### Accessors of the tables of State -/

def State.core (s : State) (c : Nat) : Core := tget {} s.lol.cores c
def State.setCore (s : State) (c : Nat) (k : Core) : State :=
  { s with lol := { s.lol with cores := tset {} s.lol.cores c k } }
def State.cmem (s : State) (c : Nat) : CoreMem := tget {} s.lol.mems c
def State.setCmem (s : State) (c : Nat) (m : CoreMem) : State :=
  { s with lol := { s.lol with mems := tset {} s.lol.mems c m } }
def State.mpu (s : State) (u : Nat) : Mpu := tget {} s.lol.mpus u
def State.setMpu (s : State) (u : Nat) (m : Mpu) : State :=
  { s with lol := { s.lol with mpus := tset {} s.lol.mpus u m } }
def State.chan (s : State) (i : Nat) : Chan := tget {} s.mbx.chans i
def State.setChan (s : State) (i : Nat) (c : Chan) : State :=
  { s with mbx := { s.mbx with chans := tset {} s.mbx.chans i c } }
def State.fun_ (s : State) (i : Nat) : Fun := tget {} s.pci.fns i
def State.setFun (s : State) (i : Nat) (f : Fun) : State :=
  { s with pci := { s.pci with fns := tset {} s.pci.fns i f } }
def State.pin (s : State) (i : Nat) : Pin := tget {} s.dv.pins i
def State.setPin (s : State) (i : Nat) (p : Pin) : State :=
  { s with dv := { s.dv with pins := tset {} s.dv.pins i p } }
def State.qw (s : State) (q : Nat) : QpWord := tget {} s.qps.words q
def State.setQw (s : State) (q : Nat) (w : QpWord) : State :=
  { s with qps := { s.qps with words := tset {} s.qps.words q w } }
def State.qrun (s : State) (q : Nat) : QpRun := tget {} s.qps.run q
def State.setQrun (s : State) (q : Nat) (r : QpRun) : State :=
  { s with qps := { s.qps with run := tset {} s.qps.run q r } }
def State.pa (s : State) (n : Nat) : Pa := tget {} s.pas n
def State.setPa (s : State) (n : Nat) (p : Pa) : State := { s with pas := tset {} s.pas n p }
def State.lane (s : State) (n : Nat) : Lane := tget {} s.bch.lanes n
def State.setLane (s : State) (n : Nat) (l : Lane) : State :=
  { s with bch := { s.bch with lanes := tset {} s.bch.lanes n l } }
def State.krow (s : State) (n : Nat) : KRow := tget {} s.key.rows n
def State.setKrow (s : State) (n : Nat) (r : KRow) : State :=
  { s with key := { s.key with rows := tset {} s.key.rows n r } }
def State.hunit (s : State) (n : Nat) : HashUnit := tget {} s.hme.units n
def State.setHunit (s : State) (n : Nat) (u : HashUnit) : State :=
  { s with hme := { s.hme with units := tset {} s.hme.units n u } }
def State.eng (s : State) (n : Nat) : Engine := tget {} s.hme.engines n
def State.setEng (s : State) (n : Nat) (e : Engine) : State :=
  { s with hme := { s.hme with engines := tset {} s.hme.engines n e } }
def State.cell (s : State) (n : Nat) : Cell := tget {} s.nh.cells n
def State.setCell (s : State) (n : Nat) (c : Cell) : State :=
  { s with nh := { s.nh with cells := tset {} s.nh.cells n c } }
def State.src (s : State) (i : Nat) : Src := tget {} s.tmp.srcs i
def State.setSrc (s : State) (i : Nat) (x : Src) : State :=
  { s with tmp := { s.tmp with srcs := tset {} s.tmp.srcs i x } }
def State.nblk (s : State) (i : Nat) : NandBlk := tget {} s.arc.blocks i
def State.setNblk (s : State) (i : Nat) (b : NandBlk) : State :=
  { s with arc := { s.arc with blocks := tset {} s.arc.blocks i b } }
def State.nch (s : State) (i : Nat) : NandCh := tget {} s.arc.chans i
def State.setNch (s : State) (i : Nat) (c : NandCh) : State :=
  { s with arc := { s.arc with chans := tset {} s.arc.chans i c } }
def State.tenant (s : State) (i : Nat) : Tenant := tget {} s.lc.tenants i
def State.setTenant (s : State) (i : Nat) (t : Tenant) : State :=
  { s with lc := { s.lc with tenants := tset {} s.lc.tenants i t } }
def State.loupe (s : State) (i : Nat) : Loupe := tget {} s.clk.loupe i
def State.setLoupe (s : State) (i : Nat) (l : Loupe) : State :=
  { s with clk := { s.clk with loupe := tset {} s.clk.loupe i l } }
def State.link (s : State) (i : Nat) : Link := tget {} s.lnk.links i
def State.setLink (s : State) (i : Nat) (l : Link) : State :=
  { s with lnk := { s.lnk with links := tset {} s.lnk.links i l } }

/-- The retirement state of a class (R29). -/
def Ret.get (r : Ret) : ResClass → RetClass
  | .lane => r.lane | .hashUnit => r.hashUnit | .engine => r.engine | .tenantCore => r.tenantCore
  | .noiseCell => r.noiseCell | .nandBlock => r.nandBlock | .keyRow => r.keyRow | .norSector => r.norSector
  | .dmaEngine => r.dmaEngine | .fwPair => r.fwPair

def Ret.put (r : Ret) (c : ResClass) (v : RetClass) : Ret :=
  match c with
  | .lane => { r with lane := v } | .hashUnit => { r with hashUnit := v } | .engine => { r with engine := v }
  | .tenantCore => { r with tenantCore := v } | .noiseCell => { r with noiseCell := v }
  | .nandBlock => { r with nandBlock := v } | .keyRow => { r with keyRow := v }
  | .norSector => { r with norSector := v } | .dmaEngine => { r with dmaEngine := v }
  | .fwPair => { r with fwPair := v }

end Sys2Proof.Machine
end

