-- ==== Sys2Proof/Machine/Crypto.lean ====
section
/-! DEFINITION. Sys2Proof/Machine/Crypto.lean: the ciphers, hashes and codes that the spec names by their standards:
AES with GCM, GMAC, CTR, CMAC (R208, R142, R464), SHA-256, SHA-512, SHA-512/256, HMAC (R231, R232). What each computes
is the named standard's; the spec states no other definition of it (log entry 30). They compute on numbers, and `force`
fixes the order in which Lean's kernel evaluates them, so that a closed term of any of them is a value. -/

namespace Sys2Proof.Machine

/-! ### Evaluation in order -/

/-- `f n`, with the number evaluated first. -/
def force {α : Type} (n : Nat) (f : Nat → α) : α :=
  match n with
  | 0 => f 0
  | k + 1 => f (k + 1)

/-- `f l`, with every number of the list evaluated first. -/
def forceL {α : Type} : List Nat → (List Nat → α) → α
  | [], f => f []
  | x :: t, f => force x fun n => forceL t fun l => f (n :: l)

theorem force_eq {α : Type} (n : Nat) (f : Nat → α) : force n f = f n := by cases n <;> rfl

theorem forceL_eq {α : Type} (l : List Nat) (f : List Nat → α) : forceL l f = f l := by
  induction l generalizing f with
  | nil => rfl
  | cons x t ih => simp [forceL, force_eq, ih]

/-! ### Bytes -/

def natsOf (b : Bytes) : List Nat := b.map (·.toNat)
def bytesOf (l : List Nat) : Bytes := l.map fun n => BitVec.ofNat 8 n

/-- The number that octets spell in network order, from an octet already read. -/
def natBe : List Nat → Nat → Nat
  | [], a => a
  | x :: t, a => natBe t (256 * a + x)

/-- The `n` low octets of a number in network order. -/
def octets (n v : Nat) : List Nat := (upto n).map fun i => v / 256 ^ (n - 1 - i) % 256

/-- Exclusive or of two runs, as long as the shorter. -/
def xorN (a b : List Nat) : List Nat := List.zipWith (· ^^^ ·) a b

/-- A run split into pieces of `n`, the last one possibly shorter; `f` bounds their number. -/
def pieces (n : Nat) : Nat → List Nat → List (List Nat)
  | 0, _ => []
  | f + 1, b => if b.isEmpty then [] else b.take n :: pieces n f (b.drop n)

/-- A run split into 16-octet blocks. -/
def blocks16 (b : List Nat) : List (List Nat) := pieces 16 ((b.length + 15) / 16) b

/-- Zero padding to a multiple of 16 octets. -/
def pad16 (b : List Nat) : List Nat := b ++ List.replicate ((16 - b.length % 16) % 16) 0

/-! ### AES (FIPS 197) -/

/-- The S-box, 32 entries to a number, the first one lowest. -/
def sboxRows : List Nat :=
  [0xC072A49CAFA2D4ADF04759FA7DC982CA76ABD7FE2B670130C56F6BF27B777C63,
   0x75B227EBE28012079A059618C323C7041531D871F1E5A534CCF73F362693FDB7,
   0xCF584C4A39BECB6A5BB1FC20ED00D153842FE329B3D63B52A05A6E1B1A2C8309,
   0xD2F3FF1021DAB6BCF5389D928F40A351A89F3C507F02F94585334D43FBAAEFD0,
   0xDB0B5EDE14B8EE4688902A22DC4F816073195D643D7EA7C41744975FEC130CCD,
   0x08AE7A65EAF4566CA94ED58D6D37C8E779E4959162ACD3C25C2406490A3A32E0,
   0x9E1DC186B95735610EF6034866B53E708A8BBD4B1F74DDE8C6B4A61C2E2578BA,
   0x16BB54B00F2D99416842E6BF0D89A18CDF2855CEE9871E9B948ED9691198F8E1]

def sbox (x : Nat) : Nat := (sboxRows.getD (x / 32) 0 >>> (8 * (x % 32))) % 256

/-- Product with x in GF(2^8). -/
def xtime (b : Nat) : Nat := if b < 128 then 2 * b else (2 * b) ^^^ 0x11B

/-- Key expansion: `n` more 4-octet words, held newest first; `i` is the next word's index. -/
def expandKey (nk : Nat) : Nat → Nat → Nat → List (List Nat) → List (List Nat)
  | 0, _, _, w => w
  | n + 1, i, rc, w =>
    let prev := w.getD 0 []
    let back := w.getD (nk - 1) []
    let t :=
      if i % nk = 0 then
        match (prev.drop 1 ++ prev.take 1).map sbox with
        | a :: r => (a ^^^ rc) :: r
        | [] => []
      else if 6 < nk && i % nk = 4 then prev.map sbox
      else prev
    forceL (xorN back t) fun k => force (i + 1) fun i' => force (if i % nk = 0 then xtime rc else rc) fun rc' =>
      expandKey nk n i' rc' (k :: w)

/-- The round keys of a 16- or 32-byte key. -/
def roundKeys (key : Bytes) : List (List Nat) :=
  forceL (natsOf key) fun key =>
  let nk := key.length / 4
  let w := expandKey nk (4 * (nk + 7) - nk) nk 1 (pieces 4 nk key).reverse
  pieces 16 (nk + 7) w.reverse.flatten

/-- SubBytes and ShiftRows. -/
def subShift (s : List Nat) : List Nat :=
  match s with
  | [a0, a1, a2, a3, b0, b1, b2, b3, c0, c1, c2, c3, d0, d1, d2, d3] =>
    [sbox a0, sbox b1, sbox c2, sbox d3, sbox b0, sbox c1, sbox d2, sbox a3,
     sbox c0, sbox d1, sbox a2, sbox b3, sbox d0, sbox a1, sbox b2, sbox c3]
  | _ => s

def mixColumns : List Nat → List Nat
  | a :: b :: d :: e :: t =>
    [xtime a ^^^ (xtime b ^^^ b) ^^^ d ^^^ e, a ^^^ xtime b ^^^ (xtime d ^^^ d) ^^^ e,
     a ^^^ b ^^^ xtime d ^^^ (xtime e ^^^ e), (xtime a ^^^ a) ^^^ b ^^^ d ^^^ xtime e] ++ mixColumns t
  | _ => []

/-- The rounds after the first key addition; the last round mixes no columns. -/
def aesRounds : List (List Nat) → List Nat → List Nat
  | [], s => s
  | [k], s => xorN (subShift s) k
  | k :: ks, s => forceL (subShift s) fun s1 => forceL (xorN (mixColumns s1) k) fun s2 => aesRounds ks s2

/-- One block under round keys. -/
def aesBlock (rk : List (List Nat)) (b : List Nat) : List Nat :=
  match rk with
  | [] => b
  | k :: ks => forceL (xorN b k) fun s => aesRounds ks s

/-! ### GCM, GMAC, CTR (SP 800-38D, SP 800-38A) -/

/-- Product in GF(2^128), the first bit of a block the coefficient of x^0: the low `n` bits of x are still to come. -/
def ghMul (x : Nat) : Nat → Nat → Nat → Nat
  | 0, z, _ => z
  | n + 1, z, v =>
    force (if x.testBit n then z ^^^ v else z) fun z' =>
    force (if v % 2 = 1 then (v / 2) ^^^ (0xE1 <<< 120) else v / 2) fun v' => ghMul x n z' v'

/-- GHASH over blocks, from the value y. -/
def ghash (h : Nat) : List (List Nat) → Nat → Nat
  | [], y => y
  | x :: t, y => force (y ^^^ natBe x 0) fun a => force (ghMul a 128 0 h) fun y' => ghash h t y'

/-- Counter block `n` after J0: its low 32 bits count in network order. -/
def ctrBlock (j0 : List Nat) (n : Nat) : List Nat := j0.take 12 ++ octets 4 (natBe (j0.drop 12) 0 + n)

/-- Data XOR keystream, the first block under counter `n`. -/
def ctrNats (rk : List (List Nat)) (j0 : List Nat) : List (List Nat) → Nat → List Nat
  | [], _ => []
  | x :: t, n => force n fun n => forceL (xorN x (aesBlock rk (ctrBlock j0 n))) fun y => y ++ ctrNats rk j0 t (n + 1)

/-- The GCM tag of AAD and ciphertext. -/
def gcmTag (rk : List (List Nat)) (j0 aad ct : List Nat) : List Nat :=
  force (natBe (aesBlock rk (List.replicate 16 0)) 0) fun h =>
  forceL (pad16 aad ++ pad16 ct ++ octets 8 (8 * aad.length) ++ octets 8 (8 * ct.length)) fun b =>
  force (ghash h (blocks16 b) 0) fun s => forceL (xorN (octets 16 s) (aesBlock rk j0)) fun t => t

/-- J0 of a 12-byte IV (R208). -/
def gcmJ0 (iv : Bytes) : Bytes := iv ++ [0, 0, 0, 1]

/-- Data XOR keystream, the first block under counter `n` after J0. -/
def ctrXor (rk : List (List Nat)) (j0 : Bytes) (n : Nat) (d : Bytes) : Bytes :=
  forceL (natsOf j0) fun j => forceL (natsOf d) fun d => forceL (ctrNats rk j (blocks16 d) n) fun c => bytesOf c

/-- GCM encryption: ciphertext and the 16-byte tag. -/
def gcmSeal (key iv aad pt : Bytes) : Bytes × Bytes :=
  let rk := roundKeys key
  let ct := ctrXor rk (gcmJ0 iv) 1 pt
  (ct, forceL (natsOf (gcmJ0 iv)) fun j => forceL (natsOf aad) fun a => forceL (natsOf ct) fun c =>
    bytesOf (gcmTag rk j a c))

/-- GCM decryption: plaintext and the computed tag. -/
def gcmOpen (key iv aad ct : Bytes) : Bytes × Bytes :=
  let rk := roundKeys key
  (ctrXor rk (gcmJ0 iv) 1 ct, forceL (natsOf (gcmJ0 iv)) fun j => forceL (natsOf aad) fun a => forceL (natsOf ct) fun c =>
    bytesOf (gcmTag rk j a c))

/-- CTR as job 0x14 runs it: the first counter block is IV ‖ 1. -/
def ctrJob (key iv d : Bytes) : Bytes := ctrXor (roundKeys key) (gcmJ0 iv) 0 d

/-! ### XTS (IEEE 1619) -/

/-- The tweak times alpha, its least significant byte first. -/
def xtsDouble (t : Nat) : Nat := if t < 2 ^ 127 then 2 * t else (2 * t) % 2 ^ 128 ^^^ 0x87

/-- Blocks under the data key's schedule from the tweak `t`. -/
def xtsBlocks (rk : List (List Nat)) : List (List Nat) → Nat → List Nat
  | [], _ => []
  | x :: r, t => force t fun t =>
    forceL (octets 16 t).reverse fun tb => forceL (xorN (aesBlock rk (xorN x tb)) tb) fun y => y ++ xtsBlocks rk r (xtsDouble t)

/-- XTS-AES-256 encryption of a data unit of whole blocks under its two keys and its number. -/
def xtsSeal (key1 key2 : Bytes) (unit : Nat) (d : Bytes) : Bytes :=
  forceL (octets 16 unit).reverse fun u => forceL (aesBlock (roundKeys key2) u) fun t =>
  forceL (natsOf d) fun d => forceL (xtsBlocks (roundKeys key1) (blocks16 d) (natBe t.reverse 0)) fun c => bytesOf c

/-! ### CMAC (SP 800-38B) -/

def cmacDouble (b : Nat) : Nat := if b < 2 ^ 127 then 2 * b else (2 * b) % 2 ^ 128 ^^^ 0x87

/-- Blocks chained through the cipher from the value y. -/
def chain (rk : List (List Nat)) : List (List Nat) → List Nat → List Nat
  | [], y => y
  | x :: t, y => forceL (xorN y x) fun a => forceL (aesBlock rk a) fun y' => chain rk t y'

/-- AES-CMAC of a message. -/
def cmac (key msg : Bytes) : Bytes :=
  let rk := roundKeys key
  forceL (natsOf msg) fun m =>
  force (cmacDouble (natBe (aesBlock rk (List.replicate 16 0)) 0)) fun k1 =>
  let n := (m.length - 1) / 16
  let last := m.drop (16 * n)
  let tail :=
    if last.length = 16 then xorN last (octets 16 k1)
    else xorN (last ++ 0x80 :: List.replicate (15 - last.length) 0) (octets 16 (cmacDouble k1))
  forceL tail fun t => bytesOf (chain rk (blocks16 (m.take (16 * n)) ++ [t]) (List.replicate 16 0))

/-! ### SHA-2 (FIPS 180-4) -/

/-- Sums and rotations at word size `w`. -/
def addW (w a b : Nat) : Nat := (a + b) % 2 ^ w
def rotW (w x n : Nat) : Nat := (x >>> n) ||| ((x <<< (w - n)) % 2 ^ w)

/-- The rounds: `r` holds the rotation amounts of the two sums, `ks` the constants, `ws` the message schedule. -/
def shaRounds (w : Nat) (r : List Nat) : List Nat → List Nat → List Nat → List Nat
  | k :: ks, ws, st =>
    match ws, st with
    | x :: xs, [a, b, c, d, e, f, g, h] =>
      let rot (y i : Nat) : Nat := rotW w y (r.getD i 0)
      force (rot e 0 ^^^ rot e 1 ^^^ rot e 2) fun s1 =>
      force (((e &&& f) ^^^ ((2 ^ w - 1 - e) &&& g)) + k + x) fun ch =>
      force (addW w (h + s1) ch) fun t1 =>
      force ((rot a 3 ^^^ rot a 4 ^^^ rot a 5) + ((a &&& b) ^^^ (a &&& c) ^^^ (b &&& c))) fun t2 =>
      force (addW w t1 t2) fun a' => force (addW w d t1) fun e' => shaRounds w r ks xs [a', a, b, c, e', e, f, g]
    | _, _ => st
  | [], _, st => st

/-- The message schedule, newest word first: `n` more words. -/
def shaSchedule (w : Nat) (r : List Nat) : Nat → List Nat → List Nat
  | 0, l => l
  | n + 1, l =>
    let x2 := l.getD 1 0
    let x15 := l.getD 14 0
    force (rotW w x2 (r.getD 9 0) ^^^ rotW w x2 (r.getD 10 0) ^^^ (x2 >>> r.getD 11 0)) fun s1 =>
    force (rotW w x15 (r.getD 6 0) ^^^ rotW w x15 (r.getD 7 0) ^^^ (x15 >>> r.getD 8 0)) fun s0 =>
    force ((s1 + l.getD 6 0 + s0 + l.getD 15 0) % 2 ^ w) fun x => shaSchedule w r n (x :: l)

/-- One block into the chaining value. -/
def shaBlock (w : Nat) (r ks st block : List Nat) : List Nat :=
  forceL ((pieces (w / 8) 16 block).map fun b => natBe b 0) fun ws =>
  forceL (shaSchedule w r (ks.length - 16) ws.reverse).reverse fun sched =>
  List.zipWith (addW w) st (shaRounds w r ks sched st)

def shaBlocks (w : Nat) (r ks : List Nat) : List (List Nat) → List Nat → List Nat
  | [], st => st
  | b :: t, st => forceL (shaBlock w r ks st b) fun st' => shaBlocks w r ks t st'

/-- Padding: 0x80, zeros, and the bit length in `lenBytes` octets. -/
def shaPad (blockBytes lenBytes : Nat) (msg : List Nat) : List Nat :=
  let z := (2 * blockBytes - 1 - lenBytes - msg.length % blockBytes) % blockBytes
  msg ++ 0x80 :: (List.replicate z 0 ++ octets lenBytes (8 * msg.length))

/-- A hash of the family: blocks of 2w octets, the bit length in w / 4. -/
def shaFold (w : Nat) (r ks iv : List Nat) (msg : Bytes) : Bytes :=
  forceL (natsOf msg) fun m => forceL (shaPad (2 * w) (w / 4) m) fun p =>
  forceL (shaBlocks w r ks (pieces (2 * w) (p.length / (2 * w)) p) iv) fun st =>
  bytesOf (st.map (octets (w / 8))).flatten

def sha256Rot : List Nat := [6, 11, 25, 2, 13, 22, 7, 18, 3, 17, 19, 10]
def sha512Rot : List Nat := [14, 18, 41, 28, 34, 39, 1, 8, 7, 19, 61, 6]

def sha256K : List Nat :=
  [0x428A2F98, 0x71374491, 0xB5C0FBCF, 0xE9B5DBA5, 0x3956C25B, 0x59F111F1, 0x923F82A4, 0xAB1C5ED5,
   0xD807AA98, 0x12835B01, 0x243185BE, 0x550C7DC3, 0x72BE5D74, 0x80DEB1FE, 0x9BDC06A7, 0xC19BF174,
   0xE49B69C1, 0xEFBE4786, 0x0FC19DC6, 0x240CA1CC, 0x2DE92C6F, 0x4A7484AA, 0x5CB0A9DC, 0x76F988DA,
   0x983E5152, 0xA831C66D, 0xB00327C8, 0xBF597FC7, 0xC6E00BF3, 0xD5A79147, 0x06CA6351, 0x14292967] ++
  [0x27B70A85, 0x2E1B2138, 0x4D2C6DFC, 0x53380D13, 0x650A7354, 0x766A0ABB, 0x81C2C92E, 0x92722C85,
   0xA2BFE8A1, 0xA81A664B, 0xC24B8B70, 0xC76C51A3, 0xD192E819, 0xD6990624, 0xF40E3585, 0x106AA070,
   0x19A4C116, 0x1E376C08, 0x2748774C, 0x34B0BCB5, 0x391C0CB3, 0x4ED8AA4A, 0x5B9CCA4F, 0x682E6FF3,
   0x748F82EE, 0x78A5636F, 0x84C87814, 0x8CC70208, 0x90BEFFFA, 0xA4506CEB, 0xBEF9A3F7, 0xC67178F2]

def sha512K : List Nat :=
  [0x428A2F98D728AE22, 0x7137449123EF65CD, 0xB5C0FBCFEC4D3B2F, 0xE9B5DBA58189DBBC, 0x3956C25BF348B538,
   0x59F111F1B605D019, 0x923F82A4AF194F9B, 0xAB1C5ED5DA6D8118, 0xD807AA98A3030242, 0x12835B0145706FBE,
   0x243185BE4EE4B28C, 0x550C7DC3D5FFB4E2, 0x72BE5D74F27B896F, 0x80DEB1FE3B1696B1, 0x9BDC06A725C71235,
   0xC19BF174CF692694, 0xE49B69C19EF14AD2, 0xEFBE4786384F25E3, 0x0FC19DC68B8CD5B5, 0x240CA1CC77AC9C65,
   0x2DE92C6F592B0275, 0x4A7484AA6EA6E483, 0x5CB0A9DCBD41FBD4, 0x76F988DA831153B5, 0x983E5152EE66DFAB,
   0xA831C66D2DB43210, 0xB00327C898FB213F, 0xBF597FC7BEEF0EE4, 0xC6E00BF33DA88FC2, 0xD5A79147930AA725,
   0x06CA6351E003826F, 0x142929670A0E6E70, 0x27B70A8546D22FFC, 0x2E1B21385C26C926, 0x4D2C6DFC5AC42AED,
   0x53380D139D95B3DF, 0x650A73548BAF63DE, 0x766A0ABB3C77B2A8, 0x81C2C92E47EDAEE6, 0x92722C851482353B] ++
  [0xA2BFE8A14CF10364, 0xA81A664BBC423001, 0xC24B8B70D0F89791, 0xC76C51A30654BE30, 0xD192E819D6EF5218,
   0xD69906245565A910, 0xF40E35855771202A, 0x106AA07032BBD1B8, 0x19A4C116B8D2D0C8, 0x1E376C085141AB53,
   0x2748774CDF8EEB99, 0x34B0BCB5E19B48A8, 0x391C0CB3C5C95A63, 0x4ED8AA4AE3418ACB, 0x5B9CCA4F7763E373,
   0x682E6FF3D6B2B8A3, 0x748F82EE5DEFB2FC, 0x78A5636F43172F60, 0x84C87814A1F0AB72, 0x8CC702081A6439EC,
   0x90BEFFFA23631E28, 0xA4506CEBDE82BDE9, 0xBEF9A3F7B2C67915, 0xC67178F2E372532B, 0xCA273ECEEA26619C,
   0xD186B8C721C0C207, 0xEADA7DD6CDE0EB1E, 0xF57D4F7FEE6ED178, 0x06F067AA72176FBA, 0x0A637DC5A2C898A6,
   0x113F9804BEF90DAE, 0x1B710B35131C471B, 0x28DB77F523047D84, 0x32CAAB7B40C72493, 0x3C9EBE0A15C9BEBC,
   0x431D67C49C100D4C, 0x4CC5D4BECB3E42B6, 0x597F299CFC657E2A, 0x5FCB6FAB3AD6FAEC, 0x6C44198C4A475817]

def sha256Iv : List Nat :=
  [0x6A09E667, 0xBB67AE85, 0x3C6EF372, 0xA54FF53A, 0x510E527F, 0x9B05688C, 0x1F83D9AB, 0x5BE0CD19]

def sha512Iv : List Nat :=
  [0x6A09E667F3BCC908, 0xBB67AE8584CAA73B, 0x3C6EF372FE94F82B, 0xA54FF53A5F1D36F1,
   0x510E527FADE682D1, 0x9B05688C2B3E6C1F, 0x1F83D9ABFB41BD6B, 0x5BE0CD19137E2179]

/-- The initial value of SHA-512/256. -/
def sha512tIv : List Nat :=
  [0x22312194FC2BF72C, 0x9F555FA3C84C64C2, 0x2393B86B6F53B151, 0x963877195940EABD,
   0x96283EE2A88EFFE3, 0xBE5E1E2553863992, 0x2B0199FC2C85B8AA, 0x0EB72DDC81C52CA2]

def sha256 (msg : Bytes) : Bytes := shaFold 32 sha256Rot sha256K sha256Iv msg
def sha512 (msg : Bytes) : Bytes := shaFold 64 sha512Rot sha512K sha512Iv msg
def sha512t (msg : Bytes) : Bytes := (shaFold 64 sha512Rot sha512K sha512tIv msg).take 32

/-- HMAC-SHA256. -/
def hmac256 (key msg : Bytes) : Bytes :=
  let k := sub (if 64 < key.length then sha256 key else key) 0 64
  sha256 (k.map (· ^^^ 0x5C) ++ sha256 (k.map (· ^^^ 0x36) ++ msg))

end Sys2Proof.Machine
end

