-- ==== Sys2Proof/Machine/Gang.lean ====
section
/-! DEFINITION. Sys2Proof/Machine/Gang.lean: how a job's work is dealt to the lanes of a gang and merged again (R201, R204). -/

namespace Sys2Proof.Machine

/-- Quotient rounded up. -/
def ceilDiv (a b : Nat) : Nat := (a + b - 1) / b

/-- Block computations that a member ends before its counter blocks: H on member 0, E(K, J0) on member 1, or both on a
single lane (R204; which members: log entry 134). -/
def preBlocks (ctr : Bool) (g k : Nat) : Nat := if ctr then 0 else if g = 1 then 2 else if k < 2 then 1 else 0

/-- Member `k`'s part of a job of `m` message and `a` AAD blocks on `g` lanes (R204): contiguous runs, no more than b block
computations and x GHASH blocks each. -/
def dealOf (ctr : Bool) (m a g k : Nat) : Deal :=
  let b := ceilDiv (if ctr then m else m + 2) g
  let first := min m (b * k - ((upto k).map (preBlocks ctr g)).sum)
  let tot := if ctr then 0 else a + m + 1
  let x := ceilDiv tot g
  { h := !ctr && k = 0, j0 := !ctr && (if g = 1 then k = 0 else k = 1)
    first := first, count := min (b - preBlocks ctr g k) (m - first)
    gfirst := min tot (x * k), gcount := min x (tot - min tot (x * k)) }

/-- The parts of all members, in merge order. -/
def deals (ctr : Bool) (m a g : Nat) : List Deal := (upto (max 1 g)).map (dealOf ctr m a (max 1 g))

/-- Cycles of a block computation (R200). -/
def blockCycles (key256 : Bool) : Nat := if key256 then 294 else 210

/-- Cycles of a job's lane work (R201): up to the end of the blocks, and with the merges. -/
def computeCycles (ctr key256 : Bool) (m a g : Nat) : Nat :=
  let t := blockCycles key256
  if ctr then 56 + t * ceilDiv m g
  else
    let b := ceilDiv (m + 2) g
    56 + t * b + 16 * (ceilDiv (a + m + 1) g - (b - 1) * (t / 16))

def laneCycles (ctr key256 : Bool) (m a g : Nat) : Nat :=
  computeCycles ctr key256 m a g + (if !ctr && 1 < g then 16 * g else 0)

/-- H to the power `n` (R204). -/
def ghPow (h : Nat) : Nat → Nat
  | 0 => 2 ^ 127
  | n + 1 => force (ghPow h n) fun x => ghMul x 128 0 h

/-- The partial sums of the members, merged in block order: the sum so far times H to the length of the next run. -/
def mergeSums (h : Nat) (blocks : List (List Nat)) : List Deal → Nat → Nat
  | [], y => y
  | d :: t, y =>
    force (ghash h ((blocks.drop d.gfirst).take d.gcount) 0) fun p =>
    force (ghMul y 128 0 (ghPow h d.gcount)) fun z => mergeSums h blocks t (z ^^^ p)

/-- The counter blocks of the members' runs, in order; the message's first block is encrypted under counter `n`. -/
def gangCtr (rk : List (List Nat)) (j0 : Bytes) (n : Nat) (d : Bytes) (ds : List Deal) : Bytes :=
  (ds.map fun x => ctrXor rk j0 (n + x.first) ((d.drop (16 * x.first)).take (16 * x.count))).flatten

/-- The tag from the members' parts: H, E(K, J0) and the merged sums. -/
def gangTag (rk : List (List Nat)) (j0 aad ct : List Nat) (ds : List Deal) : List Nat :=
  force (natBe (aesBlock rk (List.replicate 16 0)) 0) fun h =>
  forceL (pad16 aad ++ pad16 ct ++ octets 8 (8 * aad.length) ++ octets 8 (8 * ct.length)) fun b =>
  force (mergeSums h (blocks16 b) ds 0) fun s => forceL (xorN (octets 16 s) (aesBlock rk j0)) fun t => t

/-- The members' parts for a message and AAD of so many bytes. -/
def dealBytes (ctr : Bool) (len aadLen g : Nat) : List Deal := deals ctr (ceilDiv len 16) (ceilDiv aadLen 16) g

/-- GCM encryption on a gang of `g` lanes: ciphertext and the 16-byte tag. -/
def gangSeal (g : Nat) (key iv aad pt : Bytes) : Bytes × Bytes :=
  let rk := roundKeys key
  let ds := dealBytes false pt.length aad.length g
  let ct := gangCtr rk (gcmJ0 iv) 1 pt ds
  (ct, forceL (natsOf (gcmJ0 iv)) fun j => forceL (natsOf aad) fun a => forceL (natsOf ct) fun c => bytesOf (gangTag rk j a c ds))

/-- GCM decryption on a gang: plaintext and the computed tag. -/
def gangOpen (g : Nat) (key iv aad ct : Bytes) : Bytes × Bytes :=
  let rk := roundKeys key
  let ds := dealBytes false ct.length aad.length g
  (gangCtr rk (gcmJ0 iv) 1 ct ds,
   forceL (natsOf (gcmJ0 iv)) fun j => forceL (natsOf aad) fun a => forceL (natsOf ct) fun c => bytesOf (gangTag rk j a c ds))

/-- CTR on a gang. -/
def gangStream (g : Nat) (key iv d : Bytes) : Bytes := gangCtr (roundKeys key) (gcmJ0 iv) 0 d (dealBytes true d.length 0 g)

end Sys2Proof.Machine
end

