-- ==== Sys2Proof/Machine/Frames.lean ====
section
/-! DEFINITION. Sys2Proof/Machine/Frames.lean: the frame sequencer (R174 to R177, R190): what it reads from a GOOSE or SV
frame and from the AAD of a generic frame, the span, the tag and the transmit rewrite. -/

namespace Sys2Proof.Machine

/-! ### Parameters (R168) -/

def paAlg (p : Bytes) : Nat := leAt p 0 1
def paReplayIv (p : Bytes) : Bool := leAt p 1 1 % 2 = 1
def paInclAddr (p : Bytes) : Bool := leAt p 1 1 / 2 % 2 = 1
def paSimAccept (p : Bytes) : Bool := leAt p 1 1 / 4 % 2 = 1
def paFresh (p : Bytes) : Bool := leAt p 1 1 / 8 % 2 = 1
def paRestore (p : Bytes) : Bool := leAt p 1 1 / 16 % 2 = 1
def paArchiveFail (p : Bytes) : Bool := leAt p 1 1 / 32 % 2 = 1
def paFreshPast (p : Bytes) : Nat := leAt p 0x10 2
def paFreshFuture (p : Bytes) : Nat := leAt p 0x12 2
def paSmpRate (p : Bytes) : Nat := leAt p 0x14 2
def paGrace (p : Bytes) : Nat := leAt p 0x16 2
def paWindow (p : Bytes) : Nat := leAt p 0x18 1
def paGenTag (p : Bytes) : Nat := leAt p 0x19 1
def paSeqOfs (p : Bytes) : Nat := leAt p 0x1A 2
def paKidOfs (p : Bytes) : Nat := leAt p 0x1C 2
def paFailLimit (p : Bytes) : Nat := leAt p 0x1E 2
def paEventQ (p : Bytes) : Nat := leAt p 0x20 4

/-- An algorithm is AES-GMAC (0x01 to 0x04). -/
def algGmac (a : Nat) : Bool := 1 ≤ a && a ≤ 4
def algHmac (a : Nat) : Bool := 5 ≤ a && a ≤ 7

/-- Octets of an algorithm's authentication value; generic frames take GEN_TAG_LEN. -/
def algTag (a : Nat) : Nat :=
  match a with
  | 1 => 8 | 2 => 16 | 3 => 8 | 4 => 16 | 5 => 10 | 6 => 16 | 7 => 32 | _ => 0

/-- Octets of an algorithm's key. -/
def algKey (a : Nat) : Nat := if a = 1 || a = 2 || a = 8 then 16 else 32

/-- The wrap modulus of an SV count (R182). -/
def paModulus (p : Bytes) : Nat := if paSmpRate p = 0 then 65536 else paSmpRate p

/-! ### The tags of IEC 62351-6's elements. The spec names the elements and gives no tag octets. PRESUMED (log entry 32). -/

def tagKeyId : Nat := 0x82
def tagIv : Nat := 0x83
def tagAuth : Nat := 0x85

/-! ### BER (R174) -/

/-- An element: its tag octet, where it begins, where its value begins, and its length. -/
structure Elem where
  tag : Nat
  start : Nat
  val : Nat
  len : Nat
  deriving DecidableEq, Repr

def octet (f : Bytes) (i : Nat) : Nat := (f.getD i 0).toNat
def net16 (f : Bytes) (i : Nat) : Nat := ofBe (sub f i 2)

/-- A BER length at `p`, short or long form with at most two length octets, all before `hi`: the length and the place of
the value. -/
def berLen (f : Bytes) (p hi : Nat) : Option (Nat × Nat) :=
  if hi ≤ p then none else
  let b := octet f p
  if b < 0x80 then some (b, p + 1)
  else if b = 0x81 && p + 2 ≤ hi then some (octet f (p + 1), p + 2)
  else if b = 0x82 && p + 3 ≤ hi then some (net16 f (p + 1), p + 3)
  else none

/-- The elements that fill the octets from `p` to `hi` exactly, at one level. -/
def elems (f : Bytes) : Nat → Nat → Nat → Option (List Elem)
  | 0, p, hi => if p = hi then some [] else none
  | n + 1, p, hi =>
    if p = hi then some []
    else match berLen f (p + 1) hi with
      | none => none
      | some (len, v) =>
        if hi < v + len then none
        else (elems f n (v + len) hi).map ({ tag := octet f p, start := p, val := v, len := len } :: ·)

def findTag (es : List Elem) (t : Nat) : Option Elem := es.find? (·.tag == t)

/-- A non-negative BER integer of R174: one to four octets with the first bit 0, or five of which the first is 0. -/
def berInt (f : Bytes) (e : Elem) : Option Nat :=
  let v := sub f e.val e.len
  if (1 ≤ e.len && e.len ≤ 4 && octet f e.val < 0x80) || (e.len = 5 && octet f e.val = 0) then some (ofBe v) else none

/-! ### A frame as parsed -/

structure Frame where
  sim : Bool
  /-- where APPID stands, and the authentication value element begins -/
  appid : Nat
  spanEnd : Nat
  /-- where the key ID, the initialization vector and the authentication value stand -/
  kid : Nat
  iv : Nat
  auth : Nat
  /-- GOOSE: seconds and fraction of t, stNum, sqNum -/
  tSec : Nat := 0
  tFrac : Nat := 0
  stNum : Nat := 0
  sqNum : Nat := 0
  /-- SV: noASDU, first smpCnt, first smpSynch -/
  noAsdu : Nat := 0
  smpCnt : Nat := 0
  smpSynch : Nat := 0
  deriving DecidableEq, Repr

/-- The VLAN tags from offset `p`: where the EtherType stands, or the parse code. At most `n` tags more. -/
def skipTags (f : Bytes) : Nat → Nat → Except Nat Nat
  | n, p =>
    if f.length < p + 2 then .error 4
    else if net16 f p = 0x8100 || net16 f p = 0x88A8 then
      match n with
      | 0 => .error 2
      | k + 1 => if f.length < p + 4 then .error 4 else skipTags f k (p + 4)
    else .ok p

/-- The APDU of a frame from `a` to `e` (R174): its fields, into `fr`. `sv` tells the protocol, `m` the wrap modulus. -/
def parseApdu (f : Bytes) (sv : Bool) (m a e : Nat) (fr : Frame) : Except Nat Frame :=
  if e ≤ a || octet f a ≠ (if sv then 0x60 else 0x61) then .error 5 else
  match berLen f (a + 1) e with
  | none => .error 5
  | some (len, v) =>
    if v + len ≠ e then .error 5 else
    match elems f (e - v) v e with
    | none => .error 5
    | some es =>
      if !sv then
        match findTag es 0x84, findTag es 0x85, findTag es 0x86 with
        | some t, some st, some sq =>
          match berInt f st, berInt f sq with
          | some n, some q =>
            if t.len ≠ 8 then .error 6
            else .ok { fr with tSec := ofBe (sub f t.val 4), tFrac := ofBe (sub f (t.val + 4) 3), stNum := n, sqNum := q }
          | _, _ => .error 6
        | _, _, _ => .error 6
      else
        match findTag es 0xA2 with
        | none => .error 6
        | some seq =>
          match elems f seq.len seq.val (seq.val + seq.len) with
          | none => .error 5
          | some asdus =>
            match asdus with
            | [] => .error 6
            | d :: _ =>
              if d.tag ≠ 0x30 then .error 6 else
              match elems f d.len d.val (d.val + d.len) with
              | none => .error 5
              | some fs =>
                match findTag es 0x80, findTag fs 0x82, findTag fs 0x85 with
                | some no, some c, some y =>
                  if no.len = 0 || 4 < no.len || c.len ≠ 2 || y.len ≠ 1 then .error 6
                  else if m ≤ net16 f c.val then .error 6
                  else .ok { fr with noAsdu := ofBe (sub f no.val no.len), smpCnt := net16 f c.val,
                                     smpSynch := octet f y.val }
                | _, _, _ => .error 6

/-- The security extension of octets `a` to `e` (R174): the recognized elements at one level, each at most once, the
authentication value last. -/
def parseExt (f : Bytes) (alg a e : Nat) (fr : Frame) : Except Nat Frame :=
  match elems f (e - a) a e with
  | none => .error 7
  | some es =>
    let count (t : Nat) : Nat := (es.filter (·.tag == t)).length
    if 1 < count tagKeyId || 1 < count tagIv || 1 < count tagAuth then .error 7 else
    match findTag es tagKeyId, es.getLast? with
    | some k, some l =>
      if k.len ≠ 4 || l.tag ≠ tagAuth || l.len ≠ algTag alg then .error 7
      else
        match findTag es tagIv with
        | some i => if algGmac alg && i.len ≠ 12 then .error 7
                    else .ok { fr with spanEnd := l.start, kid := k.val, iv := i.val, auth := l.val }
        | none => if algGmac alg then .error 7
                  else .ok { fr with spanEnd := l.start, kid := k.val, auth := l.val }
    | _, _ => .error 7

/-- A GOOSE or SV frame under an association's parameters, part by part in the order of R174 (R175). -/
def parseFrame (f : Bytes) (sv : Bool) (p : Bytes) : Except Nat Frame :=
  if f.length < 12 then .error 4
  else if sub f 0 6 ≠ sub p 4 6 then .error 1
  else if !allZero (sub p 0x0A 6) && sub f 6 6 ≠ sub p 0x0A 6 then .error 1
  else
    match skipTags f 2 12 with
    | .error c => .error c
    | .ok t =>
      if net16 f t ≠ (if sv then 0x88BA else 0x88B8) then .error 2
      else if f.length < t + 4 then .error 4
      else if net16 f (t + 2) ≠ leAt p 2 2 then .error 3
      else if f.length < t + 8 then .error 4
      else
        let a := t + 2
        let len := net16 f (a + 2)
        let r1 := net16 f (a + 4)
        let sim := 0x8000 ≤ r1
        let ext := r1 % 256
        if sim && !paSimAccept p then .error 8
        else if ext = 0 || f.length < a + 8 || len < 8 || f.length < a + len then .error 4
        else
          match parseApdu f sv (paModulus p) (a + 8) (a + len)
              { sim := sim, appid := a, spanEnd := 0, kid := 0, iv := 0, auth := 0 } with
          | .error c => .error c
          | .ok fr =>
            if f.length < a + len + ext then .error 4 else parseExt f (paAlg p) (a + len) (a + len + ext) fr

/-! ### Span, tag, rewrite (R176, R177) -/

def frameSpan (f p : Bytes) (fr : Frame) : Bytes :=
  (if paInclAddr p then f.take 12 else []) ++ sub f fr.appid (fr.spanEnd - fr.appid)

/-- The tag of a span under an algorithm and a key, on `g` lanes. -/
def spanTag (g alg : Nat) (key iv span : Bytes) : Bytes :=
  let n := algTag alg
  if algHmac alg then (hmac256 key span).take n else ((gangSeal g key iv span []).2).take n

/-- Octets of a frame replaced. -/
def patch (f : Bytes) (o : Nat) (v : Bytes) : Bytes := f.take o ++ v ++ f.drop (o + v.length)

/-- The invocation vector: key ID and the 8-octet invocation value (R177, R190). -/
def frameIv (keyId invocation : Nat) : Bytes := be 4 keyId ++ be 8 invocation

/-- A frame tagged on transmit: key ID, initialization vector and authentication value replaced. -/
def tagFrame (g : Nat) (f p : Bytes) (fr : Frame) (key : Bytes) (keyId invocation : Nat) : Bytes :=
  let iv := frameIv keyId invocation
  let f1 := patch f fr.kid (be 4 keyId)
  let f2 := if algGmac (paAlg p) then patch f1 fr.iv iv else f1
  patch f2 fr.auth (spanTag g (paAlg p) key iv (frameSpan f2 p fr))

end Sys2Proof.Machine
end

