-- ==== Sys2Proof/Machine/Records.lean ====
section
/-! DEFINITION. Sys2Proof/Machine/Records.lean: events on their way to Dovetail, records at the archive's intake port,
and the raising of tamper sources (R26, R27, R81, R267 to R270, R428). -/

namespace Sys2Proof.Machine

/-- FLAGS of R268 as bits of the 7-bit field. -/
def fLate : BitVec 7 := 1
def fBracketed : BitVec 7 := 2
def fUnsync : BitVec 7 := 4
def fJig : BitVec 7 := 8
def fAo : BitVec 7 := 16
def fEmergency : BitVec 7 := 32

/-- The jig is active (R503). -/
def State.jigOn (s : State) : Bool := s.lc.jig.isSome

/-- A HALT response, or a stronger one, is in force (R437). -/
def State.halted (s : State) : Bool := 3 ≤ s.tmp.respInForce || s.lc.retiredHalt

/-- An event is stamped and leaves its stamp point on its source's handshake link toward Dovetail (R26, R85). -/
def State.post (s : State) (e : DvEv) : State :=
  { s with dv := { s.dv with inbox := s.dv.inbox ++ [{ e with jig := s.jigOn }] } }

/-- Root cycles from one edge to the next of the clock that stamps a source's events (R26, R44): 4 at 1.2 GHz (tamper and
power, on arrival at the time island; time, bench, noise), 6 at 800 MHz (clock monitors, archive, key island), 48 at 100 MHz
(contactless), 5 at 960 MHz (firmware, jig, functions, cores, associations, tenant programs). -/
def srcDiv (src : Nat) : Nat :=
  if src = 3 || src = 4 || src = 7 then 6
  else if src = 5 then 48
  else if src = 1 || src = 2 || src = 6 || src = 8 || src = 9 then 4
  else 5

/-- D0 cycles from the last edge of a clock of `div` root cycles to now; all edges are aligned (R45). -/
def State.edgeBack (s : State) (div : Nat) : Nat :=
  let c := s.now - s.clk.rootAt
  c - 4 * c / div * div / 4

/-- The stamp that a clocked island gives now: the counter's value at the island's own last edge (R26). -/
def State.stampAt (s : State) (div : Nat) : Gts :=
  match s.edgeBack div with
  | 0 => s.gts
  | b => unitsGts (gtsUnits s.gts - b * s.tim.inc / 2 ^ 24) s.tim.qual

/-- An event registered now, with no cause in the module (R26). -/
def State.event (s : State) (typ src : Nat) (cls : BitVec 2) (body : Bytes) : State :=
  s.post { typ := typ, src := src, cls := cls, gts := s.stampAt (srcDiv src), body := body }

/-- What an event causes: every event that `f` posts is stamped at least one unit of GTS[2] after it (R27). -/
def State.consequences (s : State) (cause : Gts) (f : State → State) : State :=
  let n := s.dv.inbox.length
  let t := f s
  let after (e : DvEv) : DvEv := if gtsTime e.gts ≤ gtsTime cause then { e with gts := gtsNext cause } else e
  { t with dv := { t.dv with inbox := t.dv.inbox.take n ++ (t.dv.inbox.drop n).map after } }

/-- The stamp of the last event posted. -/
def State.lastStamp (s : State) : Gts := (s.dv.inbox.getLast?.map (·.gts)).getD s.gts

/-- A record reaches the archive's intake port (R270), with the JIG flag of R268. -/
def State.arrive (s : State) (r : Rec) (w : Waiter) (reserved : Bool) : State :=
  let r' := if s.jigOn then { r with flags := r.flags ||| fJig } else r
  { s with arc := { s.arc with arrivals := s.arc.arrivals ++ [{ r := r', waiter := w, reserved := reserved }] } }

/-- A record that firmware writes itself, stamped now (R270). -/
def State.fwRec (s : State) (typ src : Nat) (cls : BitVec 2) (body : Bytes) : State :=
  s.arrive { typ := typ, src := src, cls := cls, gts := s.stampAt 5, body := body } .none false

/-- The class of a record type whose header class R269 fixes as C0 or C1. -/
def c0 : BitVec 2 := 0
def c1 : BitVec 2 := 1

/-- The tamper sources of R425. -/
def srcDisagree : Nat := 19
def srcLockup : Nat := 20
def srcKeybus : Nat := 21
def srcLink : Nat := 22
def srcCommanded : Nat := 31

/-- An event source counts one event (R428): an armed source's counter advances; what its record will carry is kept. The
source fires by TAMPER_FIRE when its counter has reached its filter length. -/
def State.raise (s : State) (idx decision detail : Nat) : State :=
  let x := s.src idx
  s.setSrc idx { x with
    count := if x.armed then x.count + 1 else x.count
    lastAt := s.now
    decision := decision
    detail := detail }

/-- The disagreement of a double decision or of a lockstep pair raises DISAGREE with the code of R441. -/
def State.disagree (s : State) (code : Nat) : State := s.raise srcDisagree code 0

/-- A transient error of a resource (R29), within the window of its class: the stamps that remain with this one. -/
def State.transient (s : State) (c : ResClass) (phys window : Nat) : State × Nat :=
  let rc := s.ret.get c
  let old := (tget [] rc.transients phys).filter fun t => s.now < t + window
  let now' := s.now :: old
  ({ s with ret := s.ret.put c { rc with transients := tset [] rc.transients phys now' } }, now'.length)

/-- A permanent decision on a resource: it waits its turn in its class (R33). A resource already retired, or already
waiting, is not decided again. -/
def State.permanent (s : State) (c : ResClass) (phys errors : Nat) : State :=
  let rc := s.ret.get c
  if rc.retired.contains phys || s.ret.waiting.any (fun r => r.cls == c && r.phys == phys) then s
  else { s with ret := { s.ret with waiting := s.ret.waiting ++
    [{ cls := c, phys := phys, errors := errors, at_ := s.gts }] } }

end Sys2Proof.Machine
end

