-- ==== Sys2Proof/Machine/Pcie.lean ====
section
/-! DEFINITION. Sys2Proof/Machine/Pcie.lean: the endpoint (chapter 4): functions, MSI-X, cause bits, the two egress
queues, credit, AER, configuration and link events. -/

namespace Sys2Proof.Machine

/-- A VF is enabled (R131): VF Enable set and the VF within NumVFs. PF0 always is. -/
def State.fnEnabled (s : State) (fn : Nat) : Bool :=
  fn == 0 || (s.pci.vfEnable && fn ≤ s.pci.numVFs)

/-- Functions that exist now: PF0 and the enabled VFs. -/
def State.fns (s : State) : List Nat := (upto 64).filter s.fnEnabled

/-- The module may issue requests for a function (R112, R128): Bus Master Enable, D0, link up. -/
def State.mayMove (s : State) (fn : Nat) : Bool :=
  let f := s.fun_ fn
  s.up && s.pci.up && s.fnEnabled fn && f.bme && !f.d3hot

/-! ### GLB_STATUS and the cause bits -/

/-- Codes of GLB_STATUS.PROFILE (R99). -/
def Profile.code : Profile → Nat
  | .guard => 0 | .throughput => 1 | .incident => 2 | .frugal => 3

/-- The class-0 guarantee is withdrawn: a cause of R34 stands. -/
def State.c0Withdrawn (s : State) : Bool := s.ret.wLanes || s.ret.wLink || s.ret.wNoise || s.ret.wJig

/-- GLB_STATUS as a function reads it (R99). -/
def State.glbStatus (s : State) (fn : Nat) : Word :=
  bf 0 0 (b2n (s.fun_ fn).fwReady) ||| bf 1 1 (b2n s.halted) ||| bf 2 2 (b2n s.tmp.zeroized) |||
  bf 3 3 (b2n s.jigOn) ||| bf 5 4 s.lc.lifecycle.toNat ||| bf 7 6 s.tim.qual.toNat |||
  bf 10 8 s.pwr.profile.code ||| bf 11 11 (b2n s.c0Withdrawn)

/-- WAKE_N is driven low (R514, R515): in MAIN with module reset released, while the link is down and ALERT_N is low. It
follows from the state and is held nowhere else. -/
def State.wakeLow (s : State) : Bool := s.pwr.state == .main && !s.pwr.inReset && !s.pci.up && s.tmp.alert

/-! ### Egress -/

/-- Whether the link partner's credit covers a TLP: one header, and data in units of 16 bytes (log entry 14). -/
def dataUnits (t : Tlp) : Nat := (t.data.length + 15) / 16

def creditCovers (c : Credit) (t : Tlp) : Bool :=
  match t.kind with
  | .write => 1 ≤ c.ph && dataUnits t ≤ c.pd
  | .ptm => 1 ≤ c.ph
  | .read _ => 1 ≤ c.nh
  | .completion => 1 ≤ c.ch && dataUnits t ≤ c.cd

def creditSpend (c : Credit) (t : Tlp) : Credit :=
  match t.kind with
  | .write => { c with ph := c.ph - 1, pd := c.pd - dataUnits t }
  | .ptm => { c with ph := c.ph - 1 }
  | .read _ => { c with nh := c.nh - 1 }
  | .completion => { c with ch := c.ch - 1, cd := c.cd - dataUnits t }

/-- The credit type of a TLP. -/
def Tlp.typ (t : Tlp) : Nat :=
  match t.kind with
  | .write | .ptm => 0
  | .read _ => 1
  | .completion => 2

/-- An HRead that no table entry equals: the tag table's default. -/
def noRead : HRead := { why := .context 0, fn := 0, c0 := false, addr := 0, len := 0 }

/-- A TLP leaves the transmitter: its credit is spent; a read's request is timed (R104), and a PTM Request stamped t1
(R109). -/
def State.sendTlp (s : State) (t : Tlp) : State :=
  let p := { s.pci with credit := creditSpend s.pci.credit t, wire := s.pci.wire ++ [t] }
  match t.kind with
  | .read tag =>
    match (p.tags.find? (·.1 == tag)).map (·.2) with
    | some h => { s with pci := { p with tags := tset noRead p.tags tag { h with sentAt := some s.now } } }
    | none => { s with pci := p }
  | .ptm => { s with pci := p, loop := { s.loop with ptmQueued := false, ptmT1 := some (gtsUnits s.gts), ptmSent := s.now } }
  | _ => { s with pci := p }

/-- The first TLP of the general queue that credit covers, of a credit type none of the TLPs before it has: TLPs of one
type keep their order (R105, R106). `skip` lists types that may not be sent. -/
def firstGen (c : Credit) (skip : List Nat) : List Tlp → Option Nat
  | [] => none
  | t :: r =>
    if !skip.contains t.typ && creditCovers c t then some 0
    else (firstGen c (t.typ :: skip) r).map (· + 1)

/-- A completion entry that waits out a long credit wait: OUTSIDE and cause 7, unless it names a cause (R106, R160). -/
def Tlp.late (t : Tlp) : Tlp :=
  if t.cqe && leAt t.data 3 1 / 4 % 2 = 0 then
    { t with data := lset (lset t.data 3 (BitVec.ofNat 8 (leAt t.data 3 1 + 4))) 0x1C 7 }
  else t

/-- Why a read of host memory was asked for, when a TLP asks for one. -/
def State.readWhy (s : State) (t : Tlp) : Option RdWhy :=
  match t.kind with
  | .read tag => (s.pci.tags.find? (·.1 == tag)).map (·.2.why)
  | _ => none

/-- The job a TLP belongs to: that of its payload read, of its payload write or of its completion entry. -/
def State.tlpJob (s : State) (t : Tlp) : Option Nat :=
  match s.readWhy t with
  | some (.payload id _) => some id
  | _ => t.job

/-- A class-0 job that had a TLP in the priority queue during a long credit wait: cause 7, unless another came first. -/
def credLate (ids : List Nat) (j : Job) : Job :=
  if ids.contains j.id && j.cls == 0 && j.outside == 0 then { j with outside := 7 } else j

/-- A credit wait of more than 100 ns: every class-0 job with a TLP in the priority queue carries cause 7 (R106, R160),
also one whose entry is still being read or whose completion entry waits there. -/
def State.creditLate (s : State) : State :=
  let ids := s.pci.prio.filterMap s.tlpJob
  let mark (t : Tlp) (s : State) : State :=
    match s.readWhy t with
    | some (.sqRun q id _) =>
      let r := s.qrun q
      s.setQrun q { r with runs := r.runs.map fun x => if x.id = id then { x with credWait := true } else x }
    | _ => s
  let s := each s.pci.prio mark s
  { s with pci := { s.pci with prio := s.pci.prio.map Tlp.late }
           qps := { s.qps with jobs := s.qps.jobs.map (credLate ids) } }

/-- The priority head stands without credit of its own type. -/
def State.headLacks (s : State) : Bool :=
  s.pci.up && match s.pci.prio with
    | t :: _ => !creditCovers s.pci.credit t
    | [] => false

/-- A credit wait begins when the priority head cannot be sent for want of credit, and ends when that is over; what joined
the queue since a long one's expiry has waited in it too (R106). -/
def State.creditWait (s : State) : State :=
  match s.headLacks, s.pci.waitAt with
  | true, none => { s with pci := { s.pci with waitAt := some s.now, waitCounted := false } }
  | false, some _ =>
    let s := if s.pci.waitCounted then s.creditLate else s
    { s with pci := { s.pci with waitAt := none, waitCounted := false } }
  | _, _ => s

/-- A TLP is placed at the tail of an egress queue (R105); a TLP placed there is never withdrawn (R32). -/
def State.place (s : State) (prio : Bool) (t : Tlp) : State :=
  let t : Tlp := { t with id := s.pci.nextId }
  if prio then
    State.creditWait { s with pci := { s.pci with prio := s.pci.prio ++ [t], nextId := s.pci.nextId + 1 } }
  else { s with pci := { s.pci with gen := s.pci.gen ++ [t], nextId := s.pci.nextId + 1 } }

/-! ### MSI-X and the cause bits -/

/-- The message of an MSI-X vector (R100): sent, or its pending bit set when the vector or the function is masked. DESIGN CHOICE
(log entry 126): with the function's MSI-X Enable or Bus Master Enable clear the message is dropped. -/
def State.msix (s : State) (fn vec : Nat) (prio : Bool) : State :=
  let f := s.fun_ fn
  let v := tget {} f.vecs vec
  if !f.msixEn then s
  else if v.masked || f.fnMask then
    let w : Vec := { v with pending := true, prio := v.prio || prio, general := v.general || !prio }
    s.setFun fn { f with vecs := tset {} f.vecs vec w }
  else if !s.mayMove fn then s
  else s.place prio { id := 0, fn := fn, kind := .write, addr := v.addr.toNat, data := le 4 v.data.toNat }

/-- Sends the message of a vector that has become unmasked with its pending bit set (R100). One that a class-0 queue and
another source share leaves in the priority queue once the function's general writes are on the wire: it passes no entry that
caused it (R101). -/
def State.unmaskVec (s : State) (fn vec : Nat) : State :=
  let f := s.fun_ fn
  let v := tget {} f.vecs vec
  let behind := v.prio && v.general && s.pci.gen.any fun t => t.fn == fn && t.kind == .write
  if v.pending && !v.masked && !f.fnMask && f.msixEn && !behind then
    let w : Vec := { v with pending := false, prio := false, general := false }
    (s.setFun fn { f with vecs := tset {} f.vecs vec w }).msix fn vec v.prio
  else s

/-- Vectors of a function whose pending bit is set send once they are unmasked (R100). -/
def State.unmaskFn (s : State) (fn : Nat) : State := each ((s.fun_ fn).vecs.map (·.1)) (fun v s => s.unmaskVec fn v) s

/-- A bit of GLB_IRQ_CAUSE: 0 MBX, 1 ALERT, 2 STATUS_CHG, 3 DB_ERR (R99). -/
def causeVec (b : Nat) : Nat := if b = 0 then 0 else 1

/-- A cause bit is raised: it signals when it becomes set while unmasked (R100). -/
def State.cause (s : State) (fn b : Nat) : State :=
  let f := s.fun_ fn
  let s' := s.setFun fn { f with cause := f.cause ||| BitVec.ofNat 4 (2 ^ b) }
  if f.cause.getLsbD b || f.mask.getLsbD b then s' else s'.msix fn (causeVec b) false

/-- Compares each function's GLB_STATUS with what it last was; a change raises STATUS_CHG (R99). -/
def State.statusTouch (s : State) : State :=
  each s.fns (fun fn s =>
    let f := s.fun_ fn
    let w := s.glbStatus fn
    if f.seen = w then s else (s.setFun fn { f with seen := w }).cause fn 2) s

/-- FW_READY sets (R113, R485): for PF0 once firmware, or the loader, runs behind a link that is up; for a VF once it is
enabled too and has queue pairs assigned. -/
def State.fwReadies (s : State) : State :=
  let running : Bool := s.lc.fw == .running
  let loader : Bool := s.lc.fw == .loader
  if !(s.up && s.pci.up && (running || loader)) then s
  else
    let set (fn : Nat) (s : State) : State :=
      let f := s.fun_ fn
      if fn = 0 || (running && f.count ≠ 0) then s.setFun fn { f with fwReady := true } else s
    (each s.fns set s).statusTouch

/-- A general TLP leaves; a message that waited for it may now be placed (R101). -/
def State.sendGen (s : State) (i : Nat) : State :=
  match s.pci.gen[i]? with
  | some g => ({ s with pci := { s.pci with gen := ldel s.pci.gen i } }.sendTlp g).unmaskFn g.fn
  | none => s

/-- TLP_TRANSMIT (R105, R106): the priority head when credit allows; otherwise a general TLP, of another credit type
than a waiting priority head's. A long credit wait that ends with credit for the head marks the jobs in the queue before it
leaves. -/
def execTlpTransmit (s : State) : Out :=
  if !(s.up && s.pci.up) then .next s else
  let s := s.creditWait
  match s.pci.prio with
  | t :: r =>
    if creditCovers s.pci.credit t then .next ({ s with pci := { s.pci with prio := r } }.sendTlp t).creditWait
    else match firstGen s.pci.credit [t.typ] s.pci.gen with
      | some i => .next (s.sendGen i).creditWait
      | none => .next s
  | [] =>
    match firstGen s.pci.credit [] s.pci.gen with
    | some i => .next (s.sendGen i).creditWait
    | none => .next s

/-- CREDIT_UPDATE (R106): the link partner returns credit. -/
def execCreditUpdate (c : Credit) (s : State) : Out :=
  if !(s.up && s.pci.up) then .next s else
  let k := s.pci.credit
  let k' : Credit := { ph := k.ph + c.ph, pd := k.pd + c.pd, nh := k.nh + c.nh, nd := k.nd + c.nd,
                       ch := k.ch + c.ch, cd := k.cd + c.cd }
  .next (State.creditWait { s with pci := { s.pci with credit := k' } })

/-- CREDIT_WAIT_EXPIRY (R106): the credit wait of the priority head passes 100 ns (120 cycles of D0). CRED_STALL counts
it once, and the class-0 jobs in the priority queue carry cause 7. -/
def execCreditWaitExpiry (s : State) : Out :=
  match s.pci.waitAt with
  | none => .next s
  | some t =>
    if s.pci.waitCounted || !s.headLacks || s.now ≤ t + 120 then .next s else
    let s := s.creditLate
    .next { s with pci := { s.pci with waitCounted := true, credStall := satInc s.pci.credStall 65535 } }

/-! ### Link and configuration -/

/-- The class-0 bandwidth floor (R108): Gen4 x8, Gen3 x16, or wider. -/
def linkOk (speed width : Nat) : Bool :=
  (4 ≤ speed && 8 ≤ width) || (3 ≤ speed && 16 ≤ width)

/-- HEARTBEAT (R99): firmware advances GLB_HEARTBEAT once per millisecond while it runs, each function's copy. -/
def execHeartbeat (s : State) : Out :=
  if !(s.up && s.lc.fw == .running) || s.now < s.pci.beatAt + msC then .next s
  else
    let beat (fn : Nat) (s : State) : State := s.setFun fn { s.fun_ fn with heartbeat := (s.fun_ fn).heartbeat + 1 }
    .next (each s.fns beat { s with pci := { s.pci with beatAt := s.now } })

/-- The completion timeout the module applies, in D0 cycles (R104). -/
def cplTimeout (v : BitVec 4) (disable : Bool) : Nat :=
  if disable then 64 * msC
  else match v.toNat with
    | 1 => 100 * usC
    | 2 => 10 * msC
    | 5 => 55 * msC
    | 6 => 210 * msC
    | 9 => 900 * msC
    | 10 => 3500 * msC
    | 13 => 13 * secC
    | 14 => 64 * secC
    | _ => 50 * msC

/-- Tags of the two pools of R102: first and count. -/
def tagPool (tag10 c0 : Bool) : Nat × Nat :=
  match tag10, c0 with
  | true, true => (0x100, 128)
  | true, false => (0x180, 640)
  | false, true => (0, 64)
  | false, false => (0x40, 192)

/-- A free tag of a pool, the lowest first. -/
def State.freeTag (s : State) (c0 : Bool) : Option Nat :=
  let (b, n) := tagPool s.pci.tag10 c0
  ((upto n).map (b + ·)).find? fun t => !(s.pci.tags.any (·.1 == t))

/-- A read takes a tag of its pool and its request is placed: class-0 requests in the priority queue (R102, R105).
Without a free tag it waits, and a class-0 read that waits puts its job outside the guarantee, cause 1 of R160. -/
def State.startRead (s : State) (h : HRead) : State :=
  match s.freeTag h.c0 with
  | some t =>
    { s with pci := { s.pci with tags := tset noRead s.pci.tags t h } }.place h.c0
      { id := 0, fn := h.fn, kind := .read t, addr := h.addr, data := [], len := h.len }
  | none => { s with pci := { s.pci with waitTag := s.pci.waitTag ++ [h] } }

/-- Starts the oldest waiting read of a pool whose tag has come free. -/
def State.retryTags (s : State) (c0 : Bool) : State :=
  match s.pci.waitTag.findIdx? (·.c0 == c0), s.freeTag c0 with
  | some i, some _ =>
    match s.pci.waitTag[i]? with
    | some h => { s with pci := { s.pci with waitTag := ldel s.pci.waitTag i } }.startRead h
    | none => s
  | _, _ => s

/-- AER default severities (R114): 0 correctable, 1 non-fatal, 2 fatal. -/
def aerSeverity : AerError → Nat
  | .receiverError | .badTlp | .badDllp | .replayTimeout | .replayRollover | .correctedInternal
  | .advisoryNonFatal => 0
  | .poisoned | .ecrc | .completionTimeout | .unexpectedCompletion | .completerAbort | .unsupportedRequest
  | .uncorrectableInternal => 1
  | .dataLink | .flowControl | .receiverOverflow | .malformed => 2

def aerNum : AerError → Nat
  | .receiverError => 0 | .badTlp => 1 | .badDllp => 2 | .replayTimeout => 3 | .replayRollover => 4
  | .correctedInternal => 5 | .advisoryNonFatal => 6 | .poisoned => 7 | .ecrc => 8 | .completionTimeout => 9
  | .unexpectedCompletion => 10 | .completerAbort => 11 | .unsupportedRequest => 12
  | .uncorrectableInternal => 13 | .dataLink => 14 | .flowControl => 15 | .receiverOverflow => 16
  | .malformed => 17

/-- Host and link records, TYPE 0x0023, class C1 (R269), under the function's source number (R93). -/
def State.hostRec (s : State) (fn : Nat) (facts : List Nat) : State :=
  s.event 0x0023 (0x020 + fn) c1 (Config.openBody 0x0023 facts)

/-- The severity of an error: its default, or the other uncorrectable one where the host has changed it (R114). -/
def State.severity (s : State) (e : AerError) : Nat :=
  let d := aerSeverity e
  if d ≠ 0 && s.pci.sevSet.contains e then 3 - d else d

/-- An error is logged and reported through AER; an uncorrectable one is also archived (R114). -/
def State.aerLog (s : State) (e : AerError) (fn header : Nat) : State :=
  let s := { s with pci := { s.pci with aer := s.pci.aer ++ [(e, fn, header, s.severity e)] } }
  if aerSeverity e = 0 then s else s.hostRec fn [1, aerNum e, header]

/-! ### Configuration space (R92 to R95) -/

/-- A field of a function's configuration space. -/
inductive CfgReg where
  | vendorId | deviceId | classCode | revision | subsystemIds
  /-- a base address register by its pair, 0, 2 or 4; in a VF those of the SR-IOV capability -/
  | bar (n : Nat)
  | vfBar (n : Nat)
  | linkRates | linkWidth | margining | marginControl (lane : Nat)
  | mpsSupported | maxPayload | maxRead | tag8 | tag10Requester | tag10Completer | tag10Enable
  | virtualChannels | totalVFs | numVFs | vfEnable | firstVfOffset | vfStride | ari
  | msixVectors | msi | intx | aer | ecrcGeneration | ecrcChecking
  | ptmRequester | ptmResponder | ptmRoot | ptmEnable | relaxedOrdering
  | noSnoop | ido | tph | ats | pri | pasid | atomicOp | ltr | aspmL0s | aspmL1 | l1Substates
  | d3hot | noSoftReset | serialNumber | timeoutRanges | timeoutDisable | timeoutValue | busMaster
  deriving DecidableEq, Repr

/-- The bytes that a base address register covers, by its pair (R94), and those of one VF (R95). -/
def barSize (n : Nat) : Nat := if n = 0 then 16 * 1048576 else if n = 2 then 8 * 1048576 else 1048576
def vfBarSize (n : Nat) : Nat := if n = 0 then 65536 else 262144

/-- A base address register as it reads: the address above its size, and 0b0100 for a 64-bit, non-prefetchable memory BAR. -/
def barValue (size : Nat) (v : BitVec 64) : Nat := v.toNat / size * size + 4

/-- A field of configuration space as a function reads it (R92 to R95). The bit of a feature not supported is 0. -/
def State.configRead (s : State) (fn : Nat) : CfgReg → Nat
  | .vendorId => 0x1D8B
  | .deviceId => if fn = 0 then 0x2400 else 0x2401
  | .classCode => 0x108000
  | .revision => 0xB1
  | .subsystemIds => s.lc.subsys.toNat
  | .bar n => if fn = 0 && (n = 0 || n = 2 || n = 4) then barValue (barSize n) (tget 0 s.pci.bars (n / 2)) else 0
  | .vfBar n => if fn = 0 && (n = 0 || n = 2) then barValue (vfBarSize n) (tget 0 s.pci.vfBars (n / 2)) else 0
  | .linkRates => 0b1111
  | .linkWidth => 16
  | .margining => 1
  | .marginControl l => (tget 0 s.pci.margin l).toNat
  | .mpsSupported => 512
  | .maxPayload => s.pci.maxPayload
  | .maxRead => s.pci.maxRead
  | .tag8 | .tag10Requester | .tag10Completer => 1
  | .tag10Enable => b2n s.pci.tag10
  | .virtualChannels => 1
  | .totalVFs => if fn = 0 then 63 else 0
  | .numVFs => if fn = 0 then s.pci.numVFs else 0
  | .vfEnable => b2n (fn = 0 && s.pci.vfEnable)
  | .firstVfOffset | .vfStride => if fn = 0 then 1 else 0
  | .ari => 1
  | .msixVectors => if fn = 0 then 2048 else 64
  | .aer | .ecrcGeneration | .ecrcChecking => 1
  | .ptmRequester => 1
  | .ptmEnable => b2n s.pci.ptmEn
  | .relaxedOrdering => b2n s.pci.relaxed
  | .d3hot => b2n (s.fun_ fn).d3hot
  | .noSoftReset => 1
  | .serialNumber => s.lc.serial.toNat
  | .timeoutRanges => 0b1111
  | .timeoutDisable => b2n s.pci.ctDisable
  | .timeoutValue => s.pci.ctv.toNat
  | .busMaster => b2n (s.fun_ fn).bme
  | .msi | .intx | .ptmResponder | .ptmRoot | .noSnoop | .ido | .tph | .ats | .pri | .pasid | .atomicOp | .ltr | .aspmL0s
  | .aspmL1 | .l1Substates => 0

/-- AER_ERROR (R114). -/
def execAerError (e : AerError) (fn : Fin 64) (header : Nat) (s : State) : Out :=
  if !(s.up && s.pci.up) then .next s else .next (s.aerLog e fn.val header)

end Sys2Proof.Machine
end

