-- ==== Sys2Proof/Machine/Mailbox.lean ====
section
/-! DEFINITION. Sys2Proof/Machine/Mailbox.lean: the mailbox fabric (R116 to R126): channels, windows, doorbells,
timeouts and the binding table. -/

namespace Sys2Proof.Machine

/-- The MID of a core identity: pair A 0x50, pair B 0x52, tenant core n 0x54 + n (R22). -/
def coreMid (c : Nat) : Nat := if c = 0 then 0x50 else if c = 1 then 0x52 else 0x52 + c

/-- The core identity of a MID; a checking core is its pair (R24). -/
def midCore (m : Nat) : Option Nat :=
  if m = 0x50 || m = 0x51 then some 0
  else if m = 0x52 || m = 0x53 then some 1
  else if 0x54 ≤ m && m ≤ 0x5F then some (m - 0x52)
  else none

/-- The function of a MID (R22). -/
def midFn (m : Nat) : Option Nat := if 1 ≤ m && m ≤ 0x40 then some (m - 1) else none

/-- The retirement map's mark of a logical resource out of service. -/
def gone : Nat := 0xFFFFFFFF

/-- The physical resource that serves a logical number, if any does (R29, R30). -/
def State.phys (s : State) (c : ResClass) (logical : Nat) : Option Nat :=
  let m := (s.ret.get c).map
  match m.find? (·.1 == logical) with
  | some (_, p) => if p = gone then none else some p
  | none => if (s.ret.get c).retired.contains logical then none else some logical

/-- The receiver is a retired resource: a tenant core that no spare serves, or a firmware pair (R29, R123). -/
def State.midRetired (s : State) (m : Nat) : Bool :=
  match midCore m with
  | some c => if 2 ≤ c then (s.phys .tenantCore (c - 2)).isNone else (s.phys .fwPair c).isNone
  | none => false

/-- Channels bound to a party, in ascending order (the windows of R120). -/
def State.windows (s : State) (mid : Nat) : List Nat :=
  (upto 256).filter fun n =>
    let c := s.chan n
    c.valid && (c.sender.toNat == mid || c.receiver.toNat == mid)

/-- How many windows a party has (R120). -/
def windowMax (mid : Nat) : Nat := if 2 ≤ mid && mid ≤ 0x40 then 16 else 256

/-- The channel that window `w` of a party shows. -/
def State.windowChan (s : State) (mid w : Nat) : Option Nat :=
  if w < windowMax mid then (s.windows mid)[w]? else none

/-- A discarded access is counted in MBX_FAULT (R119): the first with its channel and MID, later ones by MORE. -/
def State.mbxFault (s : State) (ch mid : Nat) : State :=
  let f := s.mbx.fault
  let f' := if bit f 31 then setBit f 30 true else bf 7 0 ch ||| bf 15 8 mid ||| bitW 31
  { s with mbx := { s.mbx with fault := f' } }

/-- A signal of a channel (R122): GLB_IRQ_CAUSE.MBX of a function, or an interrupt request at the binding's level. -/
def State.signal (s : State) (ch : Nat) : State :=
  let c := s.chan ch
  match midFn c.receiver.toNat, midCore c.receiver.toNat with
  | some fn, _ => s.cause fn 0
  | none, some k =>
    if c.irq = 0 then s
    else
      let co := s.core k
      s.setCore k { co with irqPend := co.irqPend ||| bitW c.irq.toNat }
  | none, none => s

/-- Doorbell bits become set (R122): a bit that becomes set with its mask bit clear signals. -/
def State.dbSet (s : State) (ch : Nat) (bits : Word) : State :=
  let c := s.chan ch
  let s' := s.setChan ch { c with db := c.db ||| bits }
  if bits &&& ~~~ c.db &&& ~~~ c.mask = 0 then s' else s'.signal ch

/-- Adds a message to a FIFO and sets doorbell bit 0 (R121, R122). A full FIFO discards it with OVERRUN; a retired
receiver discards it with OVERRUN and TIMEOUT (R123). -/
def State.push (s : State) (ch : Nat) (msg : List Word) : State :=
  let c := s.chan ch
  if s.midRetired c.receiver.toNat then s.setChan ch { c with overrun := true, timeout := true }
  else if 16 ≤ c.fifo.length then s.setChan ch { c with overrun := true }
  else
    (s.setChan ch { c with
      fifo := c.fifo ++ [msg]
      headAt := if c.fifo.isEmpty then s.now else c.headAt }).dbSet ch 1

/-- The sixteen words of a staging buffer. -/
def stagingWords (c : Chan) : List Word := (upto 16).map (tget 0 c.staging)

/-- Host writes to mailboxes before FW_READY are discarded (R113). -/
def State.mbxOpen (s : State) (mid : Nat) : Bool :=
  s.up && match midFn mid with
    | some fn => (s.fun_ fn).fwReady
    | none => true

/-- MBX_SEND (R119, R121): SEND in a window of a party. -/
def execMbxSend (mid window : Nat) (s : State) : Out :=
  if !s.mbxOpen mid then .next s else
  match s.windowChan mid window with
  | none => .next s
  | some ch =>
    let c := s.chan ch
    if c.sender.toNat ≠ mid then .next (s.mbxFault ch mid) else .next (s.push ch (stagingWords c))

/-- A staging-buffer word is written (R120, R121); only the sender may. -/
def State.stagingWrite (s : State) (mid window i : Nat) (v : Word) : State :=
  if !s.mbxOpen mid then s else
  match s.windowChan mid window with
  | none => s
  | some ch =>
    let c := s.chan ch
    if c.sender.toNat ≠ mid then s.mbxFault ch mid
    else s.setChan ch { c with staging := tset 0 c.staging i v }

/-- Removes the head message of a FIFO (R121); the next message becomes head now (R123). -/
def State.popHead (s : State) (ch : Nat) : State :=
  let c := s.chan ch
  s.setChan ch { c with fifo := c.fifo.drop 1, headAt := s.now }

/-- MBX_DB_WRITE (R119, R122): the sender sets bits, the receiver clears them. -/
def State.dbWrite (s : State) (mid window : Nat) (v : Word) : State :=
  if !s.mbxOpen mid then s else
  match s.windowChan mid window with
  | none => s
  | some ch =>
    let c := s.chan ch
    if c.sender.toNat = mid then s.dbSet ch v
    else s.setChan ch { c with db := c.db &&& ~~~ v }

def execMbxDbWrite (mid window : Nat) (value : BitVec 32) (s : State) : Out :=
  .next (s.dbWrite mid window value)

/-- MBX_DB_MASK_WRITE (R119, R122): the receiver writes the mask; a bit unmasked while set signals. -/
def execMbxDbMaskWrite (mid window : Nat) (value : BitVec 32) (s : State) : Out :=
  if !s.mbxOpen mid then .next s else
  match s.windowChan mid window with
  | none => .next s
  | some ch =>
    let c := s.chan ch
    if c.receiver.toNat ≠ mid then .next (s.mbxFault ch mid)
    else
      let s' := s.setChan ch { c with mask := value }
      if c.db &&& c.mask &&& ~~~ value = 0 then .next s' else .next (s'.signal ch)

/-- MBX_TIMEOUT (R123): the head message was not popped within the channel's timeout. -/
def execMbxTimeout (ch : Fin 256) (s : State) : Out :=
  let c := s.chan ch.val
  if !s.up || c.fifo.isEmpty || s.now < c.headAt + c.timeoutUs * usC then .next s
  else .next (s.setChan ch.val { c with timeout := true })

/-- Sticky flags of MBX_STATUS are cleared by the sender's W1C (R120). -/
def State.mbxStatusWrite (s : State) (mid window : Nat) (v : Word) : State :=
  if !s.mbxOpen mid then s else
  match s.windowChan mid window with
  | none => s
  | some ch =>
    let c := s.chan ch
    if c.sender.toNat ≠ mid then s
    else s.setChan ch { c with
      overrun := c.overrun && !bit v 11
      timeout := c.timeout && !bit v 12
      flushed := c.flushed && !bit v 13 }

/-- A register of a window as a party reads it (R120). `reg` is the port offset, 0 to 20. -/
def State.windowRead (s : State) (mid window reg : Nat) : Word :=
  match s.windowChan mid window with
  | none => 0
  | some ch =>
    let c := s.chan ch
    let sends := c.sender.toNat == mid
    if reg < 16 then
      if sends then tget 0 c.staging reg
      else match c.fifo with
        | m :: _ => m.getD reg 0
        | [] => 0
    else match reg with
      | 16 => bf 7 0 ch ||| bf 8 8 (if sends then 0 else 1) |||
              bf 23 16 (if sends then c.receiver.toNat else c.sender.toNat)
      | 17 => bf 4 0 c.fifo.length ||| bf 9 5 (16 - c.fifo.length) ||| bf 10 10 (b2n (!c.fifo.isEmpty)) |||
              (if sends then bf 11 11 (b2n c.overrun) ||| bf 12 12 (b2n c.timeout) ||| bf 13 13 (b2n c.flushed)
               else 0)
      | 19 => c.db
      | 20 => c.mask
      | _ => 0

/-- Discards a channel's messages; one or more of them set FLUSHED on the sender's side (R125). -/
def State.flushChan (s : State) (ch : Nat) : State :=
  let c := s.chan ch
  if c.fifo.isEmpty then s else s.setChan ch { c with fifo := [], flushed := true }

/-! ### The binding table -/

/-- A binding entry is written by PL0 firmware or the boot ROM, before the lock (R118, R126). -/
def State.bindWrite (s : State) (ch : Nat) (wordB : Bool) (v : Word) : State :=
  if s.mbx.lock then s else
  let c := s.chan ch
  if wordB then
    let t := fld v 21 0
    if 1 ≤ t && t ≤ 4000000 then s.setChan ch { c with timeoutUs := t } else s
  else s.setChan ch { c with
    valid := bit v 0
    irq := BitVec.ofNat 4 (fld v 7 4)
    sender := BitVec.ofNat 8 (fld v 15 8)
    receiver := BitVec.ofNat 8 (fld v 23 16) }

/-- A firmware core's MID, or the boot ROM's while it appears (R22, R23). -/
def State.fwMid (s : State) (mid : Nat) : Bool :=
  (0x50 ≤ mid && mid ≤ 0x53) || (mid == 0x7F && (s.lc.fw == .rom || s.lc.fw == .loader))

/-- MBX_BIND_WRITE (R118, R126): only PL0 of a firmware core, or the boot ROM, writes the table. -/
def execMbxBindWrite (mid : Nat) (pl : BitVec 2) (ch : Fin 256) (wordB : Bool) (value : BitVec 32) (s : State) : Out :=
  if s.up && s.fwMid mid && pl = 0 then .next (s.bindWrite ch.val wordB value) else .next s

/-- MBX_LOCK (R118): the table is locked until module reset. -/
def execMbxLock (s : State) : Out :=
  if s.up then .next { s with mbx := { s.mbx with lock := true } } else .next s

/-- A binding register as it reads (R126). -/
def State.bindRead (s : State) (ch : Nat) (wordB : Bool) : Word :=
  let c := s.chan ch
  if wordB then bf 21 0 c.timeoutUs
  else bf 0 0 (b2n c.valid) ||| bf 7 4 c.irq.toNat ||| bf 15 8 c.sender.toNat ||| bf 23 16 c.receiver.toNat

/-- A mailbox signal stands toward a core: a doorbell bit set and unmasked on a channel it receives (R122, R359). -/
def State.mbxSignals (s : State) (mid : Nat) : Bool :=
  (upto 256).any fun n =>
    let c := s.chan n
    c.valid && c.receiver.toNat == mid && c.db &&& ~~~ c.mask != 0

/-- The bindings that PL0 firmware makes at every start (R117): channels of Driner, responses and notices. -/
def boundSender (n : Nat) : Nat :=
  if n < 64 then 1 + n else if n < 192 then 0x50 else if n < 204 then 0x54 + (n - 192) else 0x52

def boundReceiver (n : Nat) : Nat :=
  if n < 64 then 0x50 else if n < 128 then 1 + (n - 64) else if n < 192 then 1 + (n - 128)
  else if n < 204 then 0x52 else 0x54 + (n - 204)

/-- A channel is bound between two MIDs; after the lock the write is discarded (R118). -/
def State.bindChan (s : State) (n a b : Nat) : State :=
  if s.mbx.lock then s
  else s.setChan n { s.chan n with valid := true, sender := BitVec.ofNat 8 a, receiver := BitVec.ofNat 8 b }

/-- Firmware binds channels 0 to 215 and locks the table (R117); the interrupt level is firmware's, 0 unless a core
receives (log entry 15). -/
def State.bindAll (s : State) : State :=
  let s := each (upto 216) (fun n s => s.bindChan n (boundSender n) (boundReceiver n)) s
  { s with mbx := { s.mbx with lock := true } }

end Sys2Proof.Machine
end

