-- ==== Sys2Proof/Machine/Driner.lean ====
section
/-! DEFINITION. Sys2Proof/Machine/Driner.lean: Driner framing (R127 to R131): assembling commands, the checks every
command passes, responses and notices. -/

namespace Sys2Proof.Machine

/-! ### Status codes (R10) -/

def stOk : Nat := 0
def stAuthFail : Nat := 1
def stReplay : Nat := 2
def stStale : Nat := 3
def stLength : Nat := 4
def stKeyAbsent : Nat := 5
def stPaState : Nat := 6
def stAccess : Nat := 7
def stRejected : Nat := 8
def stResource : Nat := 9
def stRetired : Nat := 10
def stArchiveFull : Nat := 11
def stAborted : Nat := 12
def stHostRead : Nat := 13
def stJig : Nat := 14
def stTime : Nat := 15

/-! ### The catalogue (R132) -/

/-- Who may issue a command: PF0, any PCIe function, or any function or tenant core. -/
inductive Issuer where
  | pf0 | fn | any
  deriving DecidableEq, Repr

/-- A catalogue row: request bytes, issuer, answered in HALT (R433). -/
structure CmdRow where
  op : Nat
  size : Nat
  issuer : Issuer
  halt : Bool

/-- The catalogue of R132, R133 and R433. -/
def catalogue : List CmdRow := [
  ⟨0x0101, 0, .any, true⟩, ⟨0x0102, 0, .any, true⟩, ⟨0x0103, 0, .any, true⟩,
  ⟨0x0201, 0, .fn, true⟩, ⟨0x0202, 0, .fn, true⟩, ⟨0x0203, 20, .pf0, false⟩, ⟨0x0204, 28, .pf0, false⟩,
  ⟨0x0205, 4, .pf0, false⟩, ⟨0x0206, 12, .pf0, false⟩, ⟨0x0207, 156, .pf0, false⟩,
  ⟨0x0208, 12, .pf0, false⟩, ⟨0x0209, 9, .pf0, false⟩, ⟨0x020A, 1, .fn, true⟩] ++ [
  ⟨0x0301, 12, .pf0, false⟩, ⟨0x0302, 12, .pf0, false⟩, ⟨0x0303, 68, .fn, false⟩, ⟨0x0304, 4, .fn, false⟩,
  ⟨0x0305, 4, .fn, true⟩,
  ⟨0x0401, 52, .pf0, false⟩, ⟨0x0402, 84, .pf0, false⟩, ⟨0x0403, 16, .pf0, false⟩, ⟨0x0404, 4, .pf0, false⟩,
  ⟨0x0405, 2, .any, true⟩, ⟨0x0406, 84, .pf0, false⟩, ⟨0x0407, 2, .any, true⟩, ⟨0x0408, 2, .pf0, false⟩] ++ [
  ⟨0x0501, 20, .any, false⟩, ⟨0x0502, 24, .pf0, true⟩, ⟨0x0503, 8, .any, true⟩, ⟨0x0504, 0, .any, true⟩,
  ⟨0x0505, 2, .pf0, false⟩,
  ⟨0x0601, 44, .any, false⟩, ⟨0x0602, 12, .any, false⟩,
  ⟨0x0701, 16, .pf0, false⟩, ⟨0x0702, 1, .pf0, false⟩, ⟨0x0703, 1, .pf0, false⟩, ⟨0x0704, 6, .pf0, false⟩,
  ⟨0x0705, 1, .pf0, false⟩] ++ [
  ⟨0x0801, 0, .any, true⟩, ⟨0x0802, 148, .pf0, false⟩, ⟨0x0803, 152, .pf0, true⟩, ⟨0x0804, 144, .pf0, true⟩,
  ⟨0x0901, 4, .pf0, false⟩, ⟨0x0902, 2, .pf0, false⟩, ⟨0x0903, 16, .pf0, true⟩,
  ⟨0x0A01, 1, .pf0, false⟩, ⟨0x0A02, 0, .any, true⟩, ⟨0x0A03, 2, .pf0, false⟩, ⟨0x0A04, 0, .any, true⟩,
  ⟨0x0B01, 4, .pf0, false⟩, ⟨0x0B02, 164, .pf0, false⟩, ⟨0x0B03, 0, .pf0, false⟩]

/-- The catalogue's row of an opcode. -/
def cmdRow (op : Nat) : Option CmdRow := catalogue.find? (·.op == op)

/-- Whether a party may issue a command of a row (R132): PF0, a PCIe function, or a tenant core. -/
def mayIssue (i : Issuer) (party : Nat) : Bool :=
  match i with
  | .pf0 => party == 1
  | .fn => (midFn party).isSome
  | .any => (midFn party).isSome || (0x54 ≤ party && party ≤ 0x5F)

/-- The tags of a party's commands outstanding (R130): begun, assembled and not yet begun, or refused as they arrived, and in
each case not yet answered. -/
def State.outstanding (s : State) (party : Nat) : List Nat :=
  (s.drn.out.filter (·.1 == party)).map (·.2.1) ++ (s.drn.taken.filter (·.party == party)).map (·.tag) ++
  (s.drn.held.filter fun h => h.party == party && !h.begun).map (·.tag)

/-! ### Responses -/

/-- A response is held until its channel has room (R131). A response other than OK carries the payload its entry states
(R129). It also waits for the writes of the buffer that its command wrote (R128). -/
def State.holdFor (s : State) (begun : Bool) (party op tag status : Nat) (dup : Bool) (payload : Bytes) : State :=
  { s with drn := { s.drn with buf := 0, held := s.drn.held ++
    [{ party := party, opcode := op, tag := tag, status := status, dup := dup, payload := payload, begun := begun
       after := s.drn.buf }] } }

/-- The response to a command refused as it arrived. -/
def State.hold (s : State) (party op tag status : Nat) (dup : Bool) (payload : Bytes) : State :=
  s.holdFor false party op tag status dup payload

/-- The response to a command begun (R129); a command whose channel was flushed since gets none (R125). -/
def State.reply (s : State) (party tag op status : Nat) (payload : Bytes) : State :=
  if s.drn.out.contains (party, tag, op) then s.holdFor true party op tag status false payload
  else { s with drn := { s.drn with buf := 0 } }

/-- A command has a response held. -/
def State.answered (s : State) (party tag : Nat) : Bool :=
  s.drn.held.any fun h => h.party == party && h.tag == tag && h.begun

/-- Firmware serves a party: it runs (or the loader does, for PF0: R485), and the function's FW_READY is set. -/
def State.serves (s : State) (party : Nat) : Bool :=
  s.up && match s.lc.fw, midFn party with
    | .running, some fn => (s.fun_ fn).fwReady
    | .running, none => 0x54 ≤ party && party ≤ 0x5F
    | .loader, some 0 => (s.fun_ 0).fwReady
    | _, _ => false

/-- Firmware starts the commands of one channel in arrival order (R129): of those assembled and not yet begun, the
issuer's oldest is next. -/
def State.turn (s : State) (op : Nat) (r : Req) : Bool :=
  match s.drn.taken.find? (·.party == r.party) with
  | some t => t.opcode == op && t.tag == r.tag && t.payload == r.payload
  | none => true

/-- Removes the assembled command that a row carries out, if it stands among those taken. -/
def State.untake (s : State) (party op tag : Nat) : State :=
  match s.drn.taken.findIdx? (fun t => t.party == party && t.opcode == op && t.tag == tag) with
  | some i => { s with drn := { s.drn with taken := ldel s.drn.taken i } }
  | none => s

/-- A command was assembled from its channel's messages: R130 has been applied to it. -/
def State.wasTaken (s : State) (op : Nat) (r : Req) : Bool :=
  s.drn.taken.any fun t => t.party == r.party && t.opcode == op && t.tag == r.tag

/-- KEY_UNWRAP or KEY_ERASE of a slot that does not exist: REJECTED, whoever issues it (R218). -/
def noSlot (op : Nat) (r : Req) : Bool := (op = 0x0406 || op = 0x0408) && 16384 ≤ leAt r.payload 0 2

/-- A Driner command: the checks that every command passes (R129, R130, R132, R433, R485), then its own body. -/
def driner (op : Nat) (r : Req) (s : State) (body : State → State) : Out :=
  if !s.serves r.party || !s.turn op r then .next s else
  let checked := s.wasTaken op r
  let s := s.untake r.party op r.tag
  if !checked && (s.outstanding r.party).contains r.tag then .next (s.hold r.party op r.tag stRejected true [])
  else if !checked && 16 ≤ (s.outstanding r.party).length then .next (s.hold r.party op r.tag stResource false [])
  else
    let s := { s with drn := { s.drn with out := s.drn.out ++ [(r.party, r.tag, op)] } }
    match cmdRow op with
    | none => .next (s.reply r.party r.tag op stRejected [])
    | some row =>
      if s.lc.fw == .loader && op != 0x0101 && !(op == 0x0701 && leAt r.payload 0 1 == 0xF0) then .next (s.reply r.party r.tag op stRejected [])
      else if s.halted && !row.halt then .next (s.reply r.party r.tag op stAborted [])
      else if !mayIssue row.issuer r.party then .next (s.reply r.party r.tag op (if noSlot op r then stRejected else stAccess) [])
      else if r.payload.length ≠ row.size || r.tag = 0 then .next (s.reply r.party r.tag op stRejected [])
      else .next (body s)

/-- A command that its body answers at once: status and payload. -/
def drinerNow (op : Nat) (r : Req) (s : State) (body : State → State × Nat × Bytes) : Out :=
  driner op r s fun s =>
    let (s', st, p) := body s
    s'.reply r.party r.tag op st p

/-! ### Messages -/

/-- The messages of a command, response or notice (R127, R128): at least one, each of 64 bytes with the header. -/
def messages (op tag len flags : Nat) (payload : Bytes) : Nat → Nat → List (List Word)
  | 0, _ => []
  | n + 1, i =>
    let more := if n = 0 then 0 else 4
    let cont := if i = 0 then 0 else 2
    let hdr := le 2 op ++ le 2 tag ++ le 2 len ++ le 2 (flags + cont + more)
    let bytes := sub (hdr ++ sub payload (56 * i) 56) 0 64
    ((upto 16).map fun k => BitVec.ofNat 32 (leAt bytes (4 * k) 4)) ::
      messages op tag len flags payload n (i + 1)

/-- How many messages a payload needs (R128). -/
def msgCount (len : Nat) : Nat := max 1 ((len + 55) / 56)

/-- The response channel of a party (R117). -/
def respChan (party : Nat) : Nat :=
  match midFn party with
  | some fn => 64 + fn
  | none => 204 + (party - 0x54)

/-- DRINER_RESPONSE_SEND (R128, R131): held response `i` goes into its channel once FREE covers its messages and the
last TLP of the command's buffer has left the transmitter. -/
def execDrinerResponseSend (i : Nat) (s : State) : Out :=
  match s.drn.held[i]? with
  | none => .next s
  | some h =>
    let ch := respChan h.party
    let n := msgCount h.payload.length
    let waits := s.pci.gen.any fun t => t.kind == .write && t.id ≤ h.after
    if !s.up || 16 < (s.chan ch).fifo.length + n || waits then .next s
    else
      let flags := 1 + (if h.dup then 8 else 0) + 256 * h.status
      let s := each (messages h.opcode h.tag h.payload.length flags h.payload n 0) (fun m s => s.push ch m) s
      let out := if h.begun then s.drn.out.filter fun o => !(o.1 == h.party && o.2.1 == h.tag) else s.drn.out
      .next { s with drn := { s.drn with held := ldel s.drn.held i, out := out } }

/-- A notice on a function's alert channel (R131): dropped and counted when the channel is full; otherwise it carries
the count of those dropped before it, and raises ALERT (R99). -/
def State.notice (s : State) (fn op : Nat) (payload : Bytes) : State :=
  if !(s.up && s.lc.fw == .running && s.fnEnabled fn) then s else
  let ch := 128 + fn
  let n := msgCount payload.length
  let d := tget 0 s.drn.dropped fn
  if 16 < (s.chan ch).fifo.length + n then
    { s with drn := { s.drn with dropped := tset 0 s.drn.dropped fn (satInc d 15) } }
  else
    let s := { s with drn := { s.drn with dropped := tset 0 s.drn.dropped fn 0 } }
    (each (messages op 0 payload.length (16 * d) payload n 0) (fun m s => s.push ch m) s).cause fn 1

/-- A notice to every function: PF0 and each VF enabled now (R131). -/
def State.noticeAll (s : State) (op : Nat) (payload : Bytes) : State :=
  each s.fns (fun fn s => s.notice fn op payload) s

/-- A tag is that of an outstanding command of its issuer (R130). -/
def State.tagBusy (s : State) (party tag : Nat) : Bool := (s.outstanding party).contains tag

/-- Firmware's reading of one message on a command channel (R127, R128, R130): a reserved flag, TAG 0, a continuation whose
header is not its command's, or MORE where the last message stands (or the reverse) gives REJECTED, and a LENGTH above 896
gives LENGTH. A whole command with the tag of one outstanding is refused with DUP, and a 17th with RESOURCE. -/
def State.assemble (s : State) (party : Nat) (msg : List Word) : State :=
  let b := (msg.map fun w => le 4 w.toNat).flatten
  let op := leAt b 0 2
  let tag := leAt b 2 2
  let len := leAt b 4 2
  let flags := leAt b 6 2
  let old := s.drn.incoming.find? (·.party == party)
  let rest := s.drn.incoming.filter (·.party != party)
  let refuse (s : State) (op tag st : Nat) : State :=
    ({ s with drn := { s.drn with incoming := rest } } : State).hold party op tag st (s.tagBusy party tag) []
  let finish (s : State) (op tag len : Nat) (got : Bytes) : State :=
    if (flags / 4 % 2 = 1) ≠ (got.length < len) then refuse s op tag stRejected
    else if got.length < len then
      { s with drn := { s.drn with incoming := rest ++
        [{ party := party, opcode := op, tag := tag, length := len, got := got }] } }
    else
      let s := { s with drn := { s.drn with incoming := rest } }
      if s.tagBusy party tag then s.hold party op tag stRejected true []
      else if 16 ≤ (s.outstanding party).length then s.hold party op tag stResource false []
      else if (cmdRow op).isSome then
        { s with drn := { s.drn with taken := s.drn.taken ++
          [{ party := party, opcode := op, tag := tag, payload := got.take len, gts := s.gts }] } }
      else s.hold party op tag stRejected false []
  if flags / 2 % 2 = 0 then
    let s := match old with
      | some p => refuse s p.opcode p.tag stRejected
      | none => s
    if flags ≠ flags / 4 % 2 * 4 || tag = 0 then refuse s op tag stRejected
    else if 896 < len then refuse s op tag stLength
    else finish s op tag len (sub b 8 56)
  else
    match old with
    | some p =>
      if op ≠ p.opcode || tag ≠ p.tag || len ≠ p.length || flags ≠ 2 + flags / 4 % 2 * 4 then refuse s p.opcode p.tag stRejected
      else finish s p.opcode p.tag p.length (p.got ++ sub b 8 56)
    | none => s

/-- MBX_POP (R119, R121): the receiver removes the head message; on a Driner command channel firmware takes it (R129). -/
def execMbxPop (mid window : Nat) (s : State) : Out :=
  if !s.mbxOpen mid then .next s else
  match s.windowChan mid window with
  | none => .next s
  | some ch =>
    let c := s.chan ch
    if c.receiver.toNat ≠ mid then .next (s.mbxFault ch mid)
    else match c.fifo with
      | [] => .next s
      | m :: _ =>
        let s := s.popHead ch
        let driner := (mid == 0x50 && ch < 64) || (mid == 0x52 && 192 ≤ ch && ch < 204)
        if driner && s.serves c.sender.toNat then .next (s.assemble c.sender.toNat m) else .next s

/-- Discards what Driner holds for a party whose channels are flushed (R125, R128, R129). -/
def State.flushDriner (s : State) (party : Nat) : State :=
  { s with drn := { s.drn with
    incoming := s.drn.incoming.filter (·.party != party)
    taken := s.drn.taken.filter (·.party != party)
    out := s.drn.out.filter (·.1 != party)
    held := s.drn.held.filter (·.party != party) } }

/-- Discards the three channels of a function and what Driner holds of it (R112, R125). -/
def State.flushFn (s : State) (fn : Nat) : State :=
  (((s.flushChan fn).flushChan (64 + fn)).flushChan (128 + fn)).flushDriner (1 + fn)

/-! ### Buffers (R128) -/

/-- Splits a host write into TLPs of at most Max Payload Size, none across a 4 KiB boundary. -/
def chunks (mps : Nat) : Nat → Nat → Bytes → List (Nat × Bytes)
  | 0, _, _ => []
  | f + 1, a, b =>
    if b.isEmpty then []
    else
      let n := min (min mps (4096 - a % 4096)) b.length
      (a, b.take n) :: chunks mps f (a + n) (b.drop n)

/-- Payload writes of a function to host memory (R105, R107): TLPs in order in one queue. -/
def State.hostWrite (s : State) (fn addr : Nat) (data : Bytes) (prio ro : Bool) (job : Option Nat) : State :=
  each (chunks s.pci.maxPayload data.length addr data) (fun c s =>
    s.place prio { id := 0, fn := fn, kind := .write, addr := c.1, data := c.2, ro := ro, job := job }) s

/-- A command writes a buffer in host memory: the response that follows waits for these TLPs (R128). -/
def State.bufferWrite (s : State) (fn addr : Nat) (data : Bytes) : State :=
  let s := s.hostWrite fn addr data false false none
  if data.isEmpty then s else { s with drn := { s.drn with buf := s.pci.nextId - 1 } }

end Sys2Proof.Machine
end

