-- ==== Sys2Proof/Machine/Flash.lean ====
section
/-! DEFINITION. Sys2Proof/Machine/Flash.lean: the code flash controller (chapter 12). -/

namespace Sys2Proof.Machine

/-! ### Sectors -/

/-- RESULT codes (R309). -/
def flDone : Nat := 1
def flSeqErr : Nat := 2
def flProtected : Nat := 3
def flNotBlank : Nat := 4
def flOverprogram : Nat := 5
def flIncomplete : Nat := 6
def flSuspended : Nat := 7
def flProgramFail : Nat := 8
def flEraseFail : Nat := 9
def flMarginFail : Nat := 10
def flBad : Nat := 11
def flBusy : Nat := 12
def flRefused : Nat := 13
def flUncorrectable : Nat := 14
def flJig : Nat := 15

/-- A sector of the fixed layout (R306). -/
def fixedSector (ls : Nat) : Bool :=
  ls ≤ 66 || (512 ≤ ls && ls ≤ 578) || (1918 ≤ ls && ls ≤ 2047)

/-- A raw sector (R303): the seal journal's by R306, others by the kind map. -/
def rawSector (f : Fls) (ls : Nat) : Bool :=
  if fixedSector ls then 2046 ≤ ls else tget false f.kinds ls

/-- The physical sector behind a logical one (R300). -/
def physSector (f : Fls) (ls : Nat) : Nat := ((f.remap.find? (·.1 == ls)).map (·.2)).getD ls

/-- Hidden spare sector k of bank b, and the two journal sectors; the numbering is the model's (log entry 20). -/
def spareSector (b k : Nat) : Nat := 2048 + 10 * b + k

/-- A bank's spares that are neither retired nor in use, lowest first (R323). -/
def State.freeSpares (s : State) (b : Nat) : List Nat :=
  ((upto 8).map (spareSector b)).filter fun p =>
    !s.ret.norSector.retired.contains p && !s.fls.remap.any (·.2 == p)

/-- The write-protect bit of a logical sector (R319). -/
def protectedSector (f : Fls) (ls : Nat) : Bool := bit (tget 0 f.wp (ls / 32)) (ls % 32)

/-- A byte of a physical sector: its cell, or a free value while its erase stands abandoned (R317). -/
def flByte (f : Fls) (p o : Nat) : Byte :=
  match f.torn.find? (·.1 == p) with
  | some (_, k) => Config.tornByte k o
  | none => tget 0xFF f.cells (p * 65536 + o)

/-- `n` bytes of the code flash from a byte address, as stored. -/
def flBytes (f : Fls) (a : Nat) : Nat → Bytes
  | 0 => []
  | n + 1 => flByte f (physSector f (a / 65536)) (a % 65536) :: flBytes f (a + 1) n

/-- Writes bytes into the cells behind a byte address, bits going only from 1 to 0 (R305). -/
def flPut (f : Fls) (a : Nat) : Bytes → Fls
  | [] => f
  | b :: t =>
    let k := physSector f (a / 65536) * 65536 + a % 65536
    flPut { f with cells := tset 0xFF f.cells k (tget 0xFF f.cells k &&& b) } (a + 1) t

/-- Erases the cells, counts and abandonment of a physical sector. -/
def flWipe (f : Fls) (p : Nat) : Fls :=
  { f with cells := tclear f.cells (p * 65536) 65536, counts := tclear f.counts (p * 16384) 16384,
           checks := tclear f.checks (p * 8192) 8192, lines := [],
           torn := f.torn.filter (·.1 != p), incomplete := f.incomplete.filter (· != p) }

/-- A granule by its place in the side area: physical sector * 8,192 + granule. -/
def flGranule (f : Fls) (a : Nat) : Nat := physSector f (a / 65536) * 8192 + a % 65536 / 8

/-- The check byte of a granule of data (R304): the code is not given, but erased data have 0xFF. -/
def checkOf (d : Bytes) : Nat := if d.all (· == 0xFF) then 0xFF else (Config.checkByte (BitVec.ofNat 64 (ofLe d))).toNat

/-- The check byte that stands in the side area. -/
def checkByte (f : Fls) (a : Nat) : Nat := ((f.checks.find? (·.1 == flGranule f a)).map (·.2)).getD (checkOf (flBytes f a 8))

/-- A granule whose 72 bits are not all 1 is written (R304). -/
def written (f : Fls) (a : Nat) : Bool := (flBytes f a 8).any (· != 0xFF) || checkByte f a != 0xFF

/-- The program count of a raw word, 3 when erased (R305). -/
def flCount (f : Fls) (a : Nat) : Nat :=
  tget 3 f.counts (physSector f (a / 65536) * 16384 + a % 65536 / 4)

/-- One more program of a raw word: 0b11 to 0b10, then 0b00 (R305). -/
def flCountDown (f : Fls) (a : Nat) : Fls :=
  { f with counts := tset 3 f.counts (physSector f (a / 65536) * 16384 + a % 65536 / 4)
                       (if flCount f a = 3 then 2 else 0) }

/-! ### The erase journals (R316) -/

/-- Programs a journal word for a physical sector: sector in bits 11:0, START bits 15:12 cleared. A full journal sector
is left for the bank's other one, which is erased and whose erase takes the full one's last word. -/
def flJournalStart (f : Fls) (b p : Nat) : Fls :=
  let h := tget 0 f.half b
  let ws := tget [] f.journal (2 * b + h)
  let w : Word := bf 11 0 p ||| 0xFFFF0000
  if ws.length < 16383 then { f with journal := tset [] f.journal (2 * b + h) (ws ++ [w]) }
  else
    let last : Word := bf 11 0 (spareSector b (8 + (1 - h))) ||| 0x0FFF0000
    let j := tset [] f.journal (2 * b + h) (ws ++ [last])
    { f with journal := tset [] j (2 * b + (1 - h)) [w], half := tset 0 f.half b (1 - h) }

/-- Clears the DONE bits of every word of a physical sector (R316, R317). -/
def flJournalDone (f : Fls) (b p : Nat) : Fls :=
  let close (ws : List Word) : List Word :=
    ws.map fun w => if fld w 11 0 = p then w &&& 0x0FFFFFFF else w
  let j := tset [] f.journal (2 * b) (close (tget [] f.journal (2 * b)))
  { f with journal := tset [] j (2 * b + 1) (close (tget [] j (2 * b + 1))) }

/-- Physical sectors with a word whose START is cleared and whose DONE is not (R317). -/
def flOpenSectors (f : Fls) : List Nat :=
  ((f.journal.map (·.2)).flatten.filter fun w => fld w 15 12 = 0 && fld w 31 28 ≠ 0).map fun w => fld w 11 0

/-! ### Results and faults -/

/-- A command ends with a RESULT (R309). -/
def State.flEnd (s : State) (r : Nat) : State :=
  { s with fls := { s.fls with result := r, events := setBit s.fls.events 0 true } }

/-- The operation that runs ends with a RESULT. -/
def State.flEndRun (s : State) (r : Nat) : State :=
  { s with fls := { s.fls with running := none } }.flEnd r

/-- FL_FAULT keeps the first fault and marks later ones (R326). -/
def flFault (f : Fls) (kind a : Nat) : Fls :=
  if bit f.fault 31 then { f with fault := setBit f.fault 30 true }
  else { f with fault := bf 3 0 kind ||| bf 14 4 (a / 65536) ||| bitW 31, faultAddr := bf 26 0 a }

def flEvent (f : Fls) (n : Nat) : Fls := { f with events := setBit f.events n true }

/-- Breaks the unlock sequence (R307). -/
def flBreak (f : Fls) : Fls :=
  flEvent { f with seq := 0, result := flSeqErr } 6

/-! ### Commands -/

/-- A protected sector is met (R319). -/
def State.flHit (s : State) : State :=
  { s with fls := flEvent s.fls 7 }.flEnd flProtected

/-- PROGRAM (R304, R305, R319): checks, then the program runs; a raw word's count goes down before its data. -/
def State.flProgram (s : State) (exempt : Bool) (a : Nat) (d0 d1 : Word) : State :=
  let f := s.fls
  let ls := a / 65536
  let p := physSector f ls
  let raw := rawSector f ls
  if (if raw then a % 4 ≠ 0 || d1 ≠ 0 else a % 8 ≠ 0) then s.flEnd flRefused
  else if f.heldOff && !exempt then s.flEnd flRefused
  else if f.bad.contains ls then s.flEnd flBad
  else if protectedSector f ls then s.flHit
  else if f.susp.any (·.sector == ls) then s.flEnd flSuspended
  else if f.incomplete.contains p then s.flEnd flIncomplete
  else if raw then
    let old := BitVec.ofNat 32 (ofLe (flBytes f a 4))
    if flCount f a = 0 then s.flEnd flOverprogram
    else if d0 &&& ~~~ old ≠ 0 then s.flEnd flNotBlank
    else { s with fls := { flCountDown f a with running := some (.program a d0 d1), lines := tset 0 f.lines (ls / 512) 0 } }
  else if written f a then s.flEnd flNotBlank
  else { s with fls := { f with running := some (.program a d0 d1), lines := tset 0 f.lines (ls / 512) 0 } }

/-- ERASE (R314, R316, R319): journalled, then it runs. -/
def State.flErase (s : State) (a : Nat) : State :=
  let f := s.fls
  let ls := a / 65536
  if a % 65536 ≠ 0 then s.flEnd flRefused
  else if f.heldOff then s.flEnd flRefused
  else if f.susp.isSome then s.flEnd flBusy
  else if f.bad.contains ls then s.flEnd flBad
  else if protectedSector f ls then s.flHit
  else
    let f := flJournalStart f (ls / 512) (physSector f ls)
    { s with fls := { f with
        running := some (.erase ls), erasedAt := s.now, resumed := false, lines := tset 0 f.lines (ls / 512) 0 } }

/-- A running erase pauses (R314). -/
def State.flDoSuspend (s : State) (ls : Nat) : State :=
  { s with fls := { s.fls with running := none, susp := some { sector := ls, own := false }, suspHeld := false } }.flEnd
    flDone

/-- SUSPEND (R314): after a RESUME it is held until the erase has run a further 1 ms. -/
def State.flSuspend (s : State) : State :=
  match s.fls.running with
  | some (.erase ls) =>
    if s.fls.resumed && s.now < s.fls.erasedAt + msC then { s with fls := { s.fls with suspHeld := true } }
    else s.flDoSuspend ls
  | _ => s.flEnd flRefused

/-- RESUME (R314, R319). -/
def State.flResume (s : State) : State :=
  match s.fls.susp with
  | none => s.flEnd flRefused
  | some u =>
    if protectedSector s.fls u.sector then s.flHit
    else
      { s with fls := { s.fls with running := some (.erase u.sector), susp := none, resumed := true, erasedAt := s.now } }.flEnd
        flDone

/-- MARGIN_CHECK (R308, R311). -/
def State.flMargin (s : State) (a n : Nat) (d1 : Word) : State :=
  let ls := a / 65536
  if a % 4 ≠ 0 || n < 4 || 65536 < n || 65536 < a % 65536 + n || 1 < d1.toNat then s.flEnd flRefused
  else if s.fls.susp.any (·.sector == ls) then s.flEnd flSuspended
  else { s with fls := { s.fls with running := some (.margin a n (bit d1 0)) } }

/-- The decisions that wait for their random byte take it in order; with the harvest exhausted each waits its full delay
(R440, R525). -/
def State.fillDecisions (s : State) : State :=
  s.tmp.decisions.foldl (fun s d =>
    if d.r.isSome then { s with tmp := { s.tmp with decisions := s.tmp.decisions ++ [d] } }
    else
      let give (r : Option Nat) (s : State) : State :=
        { s with tmp := { s.tmp with decisions := s.tmp.decisions ++ [{ d with r := r, at_ := s.now }] } }
      if s.nh.exhausted then give (some 255) s
      else if s.canDraw 1 8 then give (some (s.draw 1 8).1) (s.draw 1 8).2
      else give none (s.ask 1 8))
    { s with tmp := { s.tmp with decisions := [] } }

/-- A double decision whose deciding unit draws from the noise harvest (R441). -/
def harvestDec (w : DecWhat) : Bool :=
  match w with
  | .rdp _ => true
  | .keyRelease => true
  | _ => false

/-- A double decision begins (R440): its first evaluation, and a fresh random byte for the delay, from the noise harvest
as soon as it gives one, or from the always-on cells (R441); with the harvest exhausted or both of those cells failed, the full
delay (R442, R525). -/
def State.decide (s : State) (w : DecWhat) (first : Bool) : State :=
  let (r, s) : Option Nat × State :=
    if harvestDec w then (none, s)
    else if s.tmp.aoNoiseFail then (some 255, s)
    else (some (s.drawAo 8).1, (s.drawAo 8).2)
  ({ s with tmp := { s.tmp with decisions := s.tmp.decisions ++ [{ what := w, first := first, r := r, at_ := s.now }] } } : State).fillDecisions

/-- RDP_RAISE (R321): 0 to 1, 0 to 2, 1 to 2; under a double decision. -/
def State.flRaise (s : State) (t : Nat) : State :=
  let l := s.fls.rdp
  if (l = 0 && (t = 1 || t = 2)) || (l = 1 && t = 2) then
    { s with fls := { s.fls with running := some (.decide t) } }.decide (.rdp t) true
  else s.flEnd flRefused

/-- RDP_DESCEND (R322): from level 1 only; under a double decision. -/
def State.flDescend (s : State) : State :=
  if s.fls.rdp = 1 then { s with fls := { s.fls with running := some (.decide 0) } }.decide (.rdp 0) true
  else s.flEnd flRefused

/-- KIND_SET (R303): in Factory at level 0, outside the fixed regions. -/
def State.flKindSet (s : State) (a k : Nat) : State :=
  if s.lc.lifecycle ≠ 0 || s.fls.rdp ≠ 0 || a % 65536 ≠ 0 || 1 < k || fixedSector (a / 65536) then s.flEnd flRefused
  else { s with fls := { s.fls with kinds := tset false s.fls.kinds (a / 65536) (k == 1) } }.flEnd flDone

/-- A complete unlock sequence starts its command (R307, R308, R309). -/
def State.flStart (s : State) (mid : Nat) : State :=
  let f := s.fls
  let op := fld f.cmd 3 0
  let a := f.addr.toNat
  let z0 := f.data0 = 0
  let z1 := f.data1 = 0
  if f.running.isSome && op ≠ 3 then s.flEnd flBusy
  else match op with
    | 1 => s.flProgram (mid == 0x71 && s.cl.mark.any (1 ≤ ·.made)) a f.data0 f.data1
    | 2 => if z0 && z1 then s.flErase a else s.flEnd flRefused
    | 3 => if a = 0 && z0 && z1 then s.flSuspend else s.flEnd flRefused
    | 4 => if a = 0 && z0 && z1 then s.flResume else s.flEnd flRefused
    | 5 => s.flMargin a f.data0.toNat f.data1
    | 6 => if a = 0 && z1 then s.flRaise f.data0.toNat else s.flEnd flRefused
    | 7 => if a = 0 && z0 && z1 then s.flDescend else s.flEnd flRefused
    | 8 => if z1 then s.flKindSet a f.data0.toNat else s.flEnd flRefused
    | _ => s.flEnd flRefused

/-- The registers of the command sequence, and any other FL_ register. -/
inductive FlReg where
  | unlock | cmd | addr | data0 | data1 | other
  deriving DecidableEq

/-- A write of an FL_ register as the command sequence sees it (R307): it advances the sequence, breaks it, or leaves
it alone; the sixth write starts the command. -/
def State.flSeq (s : State) (mid : Nat) (g : FlReg) (v : Word) : State :=
  let f := s.fls
  if f.seq = 0 then
    if g = .unlock then
      if fld v 15 0 = 0x5A17 then { s with fls := { f with seq := 1, seqMid := mid, seqAt := s.now } }
      else { s with fls := flBreak f }
    else s
  else if f.seqMid ≠ mid || f.seqAt + 100 * usC < s.now then { s with fls := flBreak f }
  else match f.seq, g with
    | 1, .unlock => if fld v 15 0 = 0xC3E8 then { s with fls := { f with seq := 2 } } else { s with fls := flBreak f }
    | 2, .cmd => { s with fls := { f with seq := 3 } }
    | 3, .addr => { s with fls := { f with seq := 4 } }
    | 4, .data0 => { s with fls := { f with seq := 5 } }
    | 5, .data1 => { s with fls := { f with seq := 0 } }.flStart mid
    | _, _ => { s with fls := flBreak f }

/-- A write of an FL_ register at PL0 (R326): the register takes its value, and the sequence sees the write. -/
def State.flWrite (s : State) (mid : Nat) (port : Nat) (v : Word) : State :=
  let f := s.fls
  match port with
  | 0x0B01 => { s with fls := { f with ctrl := v &&& 3 } }.flSeq mid .other v
  | 0x0B02 => s.flSeq mid .unlock v
  | 0x0B03 => { s with fls := { f with cmd := v &&& 0xF } }.flSeq mid .cmd v
  | 0x0B04 => { s with fls := { f with addr := v &&& 0x7FFFFFF } }.flSeq mid .addr v
  | 0x0B05 => { s with fls := { f with data0 := v } }.flSeq mid .data0 v
  | 0x0B06 => { s with fls := { f with data1 := v } }.flSeq mid .data1 v
  | 0x0B07 => { s with fls := { f with events := f.events &&& ~~~ v } }.flSeq mid .other v
  | 0x0B08 =>
    (if bit v 31 then { s with fls := { f with fault := 0, faultAddr := 0 } } else s).flSeq mid .other v
  | 0x0B0A => { s with fls := { f with sectSel := BitVec.ofNat 11 v.toNat } }.flSeq mid .other v
  | _ =>
    if 0x0B40 ≤ port && port < 0x0B80 then
      let n := port - 0x0B40
      { s with fls := { f with wp := tset 0 f.wp n (tget 0 f.wp n ||| v) } }.flSeq mid .other v
    else if 0x0B00 ≤ port && port ≤ 0x0B0D then s.flSeq mid .other v
    else s

/-- The logical sector of a suspended erase, and the state of a sector (R326). -/
def sectState (f : Fls) (ls : Nat) : Nat :=
  if f.bad.contains ls then 4
  else if f.incomplete.contains (physSector f ls) then 3
  else if f.susp.any (·.sector == ls) then 2
  else if f.running == some (.erase ls) then 1 else 0

/-- FL_ registers as they read (R326). -/
def State.flRegRead (s : State) (port : Nat) : Word :=
  let f := s.fls
  match port with
  | 0x0B00 =>
    bf 0 0 (b2n f.running.isSome) ||| bf 1 1 (b2n f.susp.isSome) ||| bf 12 2 ((f.susp.map (·.sector)).getD 0) |||
    bf 16 13 f.result ||| bf 18 17 f.rdp ||| bf 19 19 (b2n f.scanDone) ||| bf 20 20 (b2n (!f.incomplete.isEmpty)) |||
    bf 21 21 (b2n f.heldOff) ||| bf 22 22 (b2n (f.seq != 0))
  | 0x0B01 => f.ctrl
  | 0x0B04 => f.addr
  | 0x0B05 => f.data0
  | 0x0B06 => f.data1
  | 0x0B07 => f.events
  | 0x0B08 => f.fault
  | 0x0B09 => f.faultAddr
  | 0x0B0A => bf 10 0 f.sectSel.toNat
  | 0x0B0B =>
    let ls := f.sectSel.toNat
    bf 0 0 (b2n (rawSector f ls)) ||| bf 3 1 (sectState f ls) ||| bf 4 4 (b2n (protectedSector f ls)) |||
    bf 5 5 (b2n (fixedSector ls)) ||| bf 17 6 (physSector f ls)
  | 0x0B0C => bf 1 0 f.rdp ||| bf 2 2 (b2n f.rdpFuse) ||| bf 3 3 (b2n f.marker)
  | 0x0B0D => bf 3 0 (s.freeSpares 0).length ||| bf 7 4 (s.freeSpares 1).length |||
              bf 11 8 (s.freeSpares 2).length ||| bf 15 12 (s.freeSpares 3).length
  | _ => if 0x0B40 ≤ port && port < 0x0B80 then tget 0 f.wp (port - 0x0B40) else 0

/-! ### The commands of the table -/

/-- A command of the flash: the FL_DATA1 write that completes a sequence whose FL_CMD names `op` (R307, R308). -/
def flCommand (op mid : Nat) (pl : BitVec 2) (value : BitVec 32) (s : State) : Out :=
  if s.up && pl = 0 && fld s.fls.cmd 3 0 = op then .next (s.flWrite mid 0x0B06 value) else .next s

/-- FL_UNLOCK_WRITE (R307). -/
def execFlUnlockWrite (mid : Nat) (pl : BitVec 2) (value : BitVec 32) (s : State) : Out :=
  if s.up && pl = 0 then .next (s.flWrite mid 0x0B02 value) else .next s

/-- FL_SEQ_TIMEOUT (R307): more than 100 µs have passed since the first write. -/
def execFlSeqTimeout (s : State) : Out :=
  if s.up && s.fls.seq ≠ 0 && s.fls.seqAt + 100 * usC < s.now then .next { s with fls := flBreak s.fls } else .next s

def execProgram (mid : Nat) (pl : BitVec 2) (value : BitVec 32) (s : State) : Out := flCommand 1 mid pl value s
def execErase (mid : Nat) (pl : BitVec 2) (value : BitVec 32) (s : State) : Out := flCommand 2 mid pl value s
def execSuspend (mid : Nat) (pl : BitVec 2) (value : BitVec 32) (s : State) : Out := flCommand 3 mid pl value s
def execResume (mid : Nat) (pl : BitVec 2) (value : BitVec 32) (s : State) : Out := flCommand 4 mid pl value s
def execMarginCheck (mid : Nat) (pl : BitVec 2) (value : BitVec 32) (s : State) : Out := flCommand 5 mid pl value s
def execRdpRaise (mid : Nat) (pl : BitVec 2) (value : BitVec 32) (s : State) : Out := flCommand 6 mid pl value s
def execRdpDescend (mid : Nat) (pl : BitVec 2) (value : BitVec 32) (s : State) : Out := flCommand 7 mid pl value s
def execKindSet (mid : Nat) (pl : BitVec 2) (value : BitVec 32) (s : State) : Out := flCommand 8 mid pl value s

/-- FL_SUSPEND_HELD_EXPIRY (R314): the erase has run a further 1 ms since its RESUME. -/
def execFlSuspendHeldExpiry (s : State) : Out :=
  match s.fls.running with
  | some (.erase ls) =>
    if s.up && s.fls.suspHeld && s.fls.erasedAt + msC ≤ s.now then .next (s.flDoSuspend ls) else .next s
  | _ => .next s

/-- The retirement record of a NOR sector (R30, R323): written by firmware, source 0x000. -/
def State.norRecord (s : State) (ls p spares : Nat) : State :=
  s.fwRec 0x0022 0x000 c0 (Config.openBody 0x0022 [7, ls, p, 1, spares])

/-- The physical sector behind `ls` fails (R323): it is retired; each spare that fails its own erase is retired in turn;
the next one takes the logical sector, holding what `keep` copies; their erases are journalled (R316). None left: the sector is marked bad. -/
def State.norRetire (s : State) (ls spareFails : Nat) (keep : Bool) : State × Bool :=
  let b := ls / 512
  let p := physSector s.fls ls
  let free := s.freeSpares b
  let lost := p :: free.take spareFails
  let r := s.ret.norSector
  let s1 := { s with ret := { s.ret with norSector := { r with retired := r.retired ++ lost } },
                     fls := flEvent s.fls 8 }
  let tried (f : Fls) (q : Nat) : Fls := flJournalDone (flJournalStart f b q) b q
  match free.drop spareFails with
  | q :: rest =>
    let f := flWipe ((free.take (spareFails + 1)).foldl tried s1.fls) q
    let f := if keep then
        { f with cells := each' f.cells p q, counts := eachC f.counts p q, checks := eachK f.checks p q } else f
    let f := flJournalDone f b p
    ({ s1 with fls := { f with remap := tset ls f.remap ls q } }.norRecord ls p rest.length, true)
  | [] =>
    let f := flJournalDone (free.foldl tried s1.fls) b p
    ({ s1 with fls := { f with bad := ls :: f.bad } }.norRecord ls p 0, false)
where
  /-- cells of sector p copied to q -/
  each' (m : Mem) (p q : Nat) : Mem :=
    (m.filter fun e => e.1 / 65536 = p).foldl (fun m e => tset 0xFF m (q * 65536 + e.1 % 65536) e.2) m
  /-- program counts of sector p copied to q -/
  eachC (m : Tab Nat) (p q : Nat) : Tab Nat :=
    (m.filter fun e => e.1 / 16384 = p).foldl (fun m e => tset 3 m (q * 16384 + e.1 % 16384) e.2) m
  /-- check bytes of sector p copied to q -/
  eachK (m : Tab Nat) (p q : Nat) : Tab Nat :=
    (m.filter fun e => e.1 / 8192 = p).foldl (fun m e => tset 256 m (q * 8192 + e.1 % 8192) e.2) m

/-- The data of a program as bytes. -/
def programBytes (f : Fls) (a : Nat) (d0 d1 : Word) : Bytes :=
  le 4 d0.toNat ++ (if rawSector f (a / 65536) then [] else le 4 d1.toNat)

/-- Banks erased by the descent (R322): every sector but both copies of the retirement map; journals and spares too. -/
def flDescentErase (f : Fls) : Fls :=
  let keep (p : Nat) : Bool := [64, 65, 576, 577].any fun ls => physSector f ls == p
  { f with cells := f.cells.filter (fun e => keep (e.1 / 65536)),
           counts := f.counts.filter (fun e => keep (e.1 / 16384)), checks := f.checks.filter (fun e => keep (e.1 / 8192)), lines := [],
           torn := [], incomplete := [], journal := [], half := [], susp := none }

/-- What the erased banks held for firmware (R322): images, keys of the owner, Clasp entries, certificates, counts. -/
def Lc.afterDescent (l : Lc) : Lc :=
  { l with ownerKey := none, programKey := none, transport := none, attCert := some [], sealCert := [], ownerCfg := [],
           sealKey := none, staged := false, tmpCfg := [],
           configHash := List.replicate 64 0, bootCount := 0, authSeq := 0, tenants := [], snapSeq := 0, snapNext := 0,
           subsys := 0, lifecycle := 1 }

/-! ### The window (R301, R302, R313, R315) -/

/-- The jig's mode and rate on a link it targets (R502, R503): 0 drop, 1 corrupt, 2 reorder. -/
def State.jigMode (s : State) (n : Nat) : Option (Nat × Nat) :=
  match s.lc.jig with
  | some j => if n < 5 && j.links.getLsbD n then j.modes[n]? else none
  | none => none

/-- How a window read ends: its bytes, a bus error, or held until the bank is free. -/
inductive FlRes where
  | data (b : Bytes) (s : State)
  | bus (s : State)
  | wait

/-- A bank is running an erase, or the descent erases it (R302, R322). -/
def bankErasing (f : Fls) (b : Nat) : Bool :=
  match f.running with
  | some (.erase ls) => ls / 512 == b
  | some (.descent 3) => b ≤ 1
  | some (.descent 4) => true
  | _ => false

/-- A bank is running a program (R302). -/
def bankProgramming (f : Fls) (b : Nat) : Bool :=
  match f.running with
  | some (.program a _ _) => a / 65536 / 512 == b
  | _ => false

/-- A read of the code-flash window: `how` says how its granules stand; a read that hits the bank's buffered line reads no cell. -/
def State.flWindow (s : State) (mid : Nat) (pl : BitVec 2) (a n : Nat) (how : FlRead) : FlRes :=
  let f := s.fls
  let ls := a / 65536
  let p := physSector f ls
  let fail (k : Nat) (f : Fls) : FlRes := .bus { s with fls := flFault f k a }
  if 0x54 ≤ mid && mid ≤ 0x5F then .bus s
  else if 134217728 ≤ a || !(n = 1 || n = 2 || n = 4 || n = 8) || a % n ≠ 0 || 1 < pl.toNat then fail flRefused f
  else if !f.scanDone then .wait
  else if f.susp.any (·.sector == ls) then fail flSuspended (flEvent f 5)
  else if bankErasing f (ls / 512) then fail flBusy f
  else if bankProgramming f (ls / 512) then .wait
  else if how = .jig && (s.jigMode 4).isSome then fail flJig f
  else
    let hit : Bool := tget 0 f.lines (ls / 512) == a / 32 + 1
    let f := if f.incomplete.contains p then flFault (flEvent f 4) flIncomplete a else f
    let fill (f : Fls) : Fls := { f with lines := tset 0 f.lines (ls / 512) (a / 32 + 1) }
    if rawSector f ls || hit then .data (flBytes f a n) { s with fls := fill f }
    else match how with
      | .corrected =>
        let s' : State := { s with fls := flFault (flEvent (fill f) 1) 0 a }
        .data (flBytes f a n) (s'.transient .norSector p 0).1
      | .shifted =>
        if bit f.ctrl 1 then .data (flBytes f a n) { s with fls := flEvent (fill f) 2 }
        else fail flUncorrectable (flEvent f 3)
      | .never => fail flUncorrectable (flEvent f 3)
      | _ => .data (flBytes f a n) { s with fls := fill f }

/-- FLASH_WINDOW_READ (R313): a held read changes nothing yet (log entry 21). -/
def execFlashWindowRead (mid : Nat) (pl : BitVec 2) (addr size : Nat) (how : FlRead) (s : State) : Out :=
  if !s.up then .next s else
  match s.flWindow mid pl addr size how with
  | .data _ s' => .next s'
  | .bus s' => .next s'
  | .wait => .next s

/-- FL_WP_WRITE (R319): bits are only ever set. -/
def execFlWpWrite (mid : Nat) (pl : BitVec 2) (n : Fin 64) (value : BitVec 32) (s : State) : Out :=
  if s.up && pl = 0 then .next (s.flWrite mid (0x0B40 + n.val) value) else .next s

/-- FL_SCAN (R317): the journals are scanned; sectors with an open word are ERASE_INCOMPLETE. -/
def execFlScan (s : State) : Out :=
  if !s.up || s.fls.scanDone then .next s
  else .next { s with fls := { s.fls with scanDone := true, incomplete := (flOpenSectors s.fls).eraseDups } }

/-- A program that ends without its margin read, or not at all, leaves a mix of old and new bits, in an ECC sector those of the
check byte too (R305, R312, R313). -/
def State.mixProgram (s : State) (a : Nat) (b : Bytes) (w : Nat) : State :=
  let (m, s) := s.freeVal w
  let (k, s) := s.freeVal 8
  let f := flPut s.fls a (List.zipWith (fun x y => x ||| y) b (le b.length m))
  { s with fls := if rawSector f (a / 65536) then f else { f with checks := tset 256 f.checks (flGranule f a) (checkOf b ||| k) } }

/-! ### Supply and reset -/

/-- The controller itself suspends a running erase, of one bank if named (R318, R476); a SUSPEND of firmware's that was held
completes, and the erase is then firmware's. -/
def State.flPause (s : State) (bank : Option Nat) : State :=
  let f := s.fls
  match f.running with
  | some (.erase ls) =>
    if bank.all (· == ls / 512) then
      let s' : State := { s with fls := { f with
        running := none, susp := some { sector := ls, own := !f.suspHeld }, suspHeld := false } }
      if f.suspHeld then s'.flEnd flDone else s'
    else s
  | _ => s

/-- An erase that the controller suspended itself resumes, unless commands are held (R318, R476). -/
def State.flUnpause (s : State) : State :=
  let f := s.fls
  match f.susp with
  | some u =>
    if u.own && !f.heldOff then
      { s with fls := { f with running := some (.erase u.sector), susp := none, resumed := true, erasedAt := s.now } }
    else s
  | none => s

/-- The warning level is crossed (R318): a running erase is suspended, commands are held. -/
def State.flWarn (s : State) : State := ({ s with fls := { s.fls with heldOff := true } } : State).flPause none

/-- Recovery (R318): the hold ends; an erase the controller suspended itself resumes. -/
def State.flRecover (s : State) : State := ({ s with fls := { s.fls with heldOff := false } } : State).flUnpause

/-- Module reset (R305, R313, R317, R319): a program under way leaves its bytes torn, a mix of old and new; an erase,
running or suspended, is abandoned; registers and write protection return to their reset values. -/
def State.flReset (s : State) : State :=
  let f := s.fls
  let abandon (s : State) (ls : Nat) : State :=
    let (_, s) := s.freeVal 1
    { s with fls := { s.fls with torn := tset 0 s.fls.torn (physSector f ls) s.free } }
  let s := match f.running with
    | some (.program a d0 d1) =>
      let b := programBytes f a d0 d1
      s.mixProgram a b (8 * b.length)
    | some (.erase ls) => abandon s ls
    | _ => s
  let s := match f.susp with
    | some u => abandon s u.sector
    | none => s
  let f := s.fls
  { s with fls := { cells := f.cells, counts := f.counts, kinds := f.kinds, remap := f.remap, rdp := f.rdp,
                    checks := f.checks, rdpFuse := f.rdpFuse, marker := f.marker, bad := f.bad, journal := f.journal, half := f.half,
                    torn := f.torn, incomplete := f.incomplete } }

end Sys2Proof.Machine
end

