-- ==== Sys2Proof/Machine/Guard.lean ====
section
/-! DEFINITION. Sys2Proof/Machine/Guard.lean: the resource classes and their counts (R29, R134), lanes in service and
reserved (R34, R202), the causes of the class-0 guarantee and their records (R34, R35), profiles (R4, R37). -/

namespace Sys2Proof.Machine

/-! ### The classes of R29 -/

/-- Logical resources of a class. -/
def classActive : ResClass → Nat
  | .lane => 512 | .hashUnit => 64 | .engine => 4 | .tenantCore => 12 | .noiseCell => 256 | .nandBlock => 0
  | .keyRow => 16384 | .norSector => 2048 | .dmaEngine => 8 | .fwPair => 2

/-- Spares of a class, numbered after its logical resources. NAND blocks and NOR sectors count their own way. -/
def classSpares : ResClass → Nat
  | .lane => 32 | .hashUnit => 4 | .engine => 1 | .tenantCore => 1 | .noiseCell => 16 | .keyRow => 128
  | .nandBlock => 0 | .norSector => 0 | .dmaEngine => 0 | .fwPair => 0

/-- Errors within the window that retire a resource, and the window in D0 cycles. -/
def classRule : ResClass → Nat × Nat
  | .lane => (3, secC) | .hashUnit => (3, secC) | .engine => (2, 10 * secC) | .tenantCore => (16, 86400 * secC)
  | .noiseCell => (4, 60 * secC) | .nandBlock => (3, 2592000 * secC) | .keyRow => (2, 3600 * secC)
  | .norSector => (1, 1) | .dmaEngine => (3, secC) | .fwPair => (2, 3600 * secC)

/-- The source number of the island that owns a class (R30). -/
def classSource : ResClass → Nat
  | .lane => 0x008 | .noiseCell => 0x009 | .nandBlock => 0x004 | .keyRow => 0x007 | .tenantCore => 0x064
  | .hashUnit => 0 | .engine => 0 | .norSector => 0 | .dmaEngine => 0 | .fwPair => 0

/-- A transient error of a resource, and its retirement when the rule of its class is met (R29). -/
def State.strike (s : State) (c : ResClass) (phys : Nat) : State :=
  let (s, n) := s.transient c phys (classRule c).2
  if (classRule c).1 ≤ n then s.permanent c phys n else s

/-- Spares of a class that are neither retired nor in use, the lowest first (R30). -/
def State.freeSparesOf (s : State) (c : ResClass) : List Nat :=
  let rc := s.ret.get c
  ((upto (classSpares c)).map (classActive c + ·)).filter fun p =>
    !rc.retired.contains p && !(rc.map.any (·.2 == p))

/-- Logical resources of a class that a physical one serves. -/
def State.surviving (s : State) (c : ResClass) : List Nat := (upto (classActive c)).filter fun n => (s.phys c n).isSome

/-- The logical number that a physical resource serves. -/
def State.logical (s : State) (c : ResClass) (p : Nat) : Option Nat :=
  (s.surviving c).find? fun n => s.phys c n == some p

/-- A resource's assay is due or runs. -/
def State.underAssay (s : State) (c : ResClass) (p : Nat) : Bool := s.ret.assays.any fun a => a.1 == c && a.2.1 == p

/-- A resource's assay runs: it serves nothing meanwhile, and a lane or hash unit has its stand-in (R215, R234). -/
def State.assayRuns (s : State) (c : ResClass) (p : Nat) : Bool :=
  s.ret.assays.any fun a => a.1 == c && a.2.1 == p && a.2.2.1

/-! ### Lanes (R34, R36, R38, R202) -/

/-- Lanes that a profile keeps active (R4). -/
def laneCap : Profile → Nat
  | .frugal => 256
  | _ => 512

/-- The active logical lanes: the lowest-numbered survivors. -/
def State.activeLanes (s : State) : List Nat := (s.surviving .lane).take (laneCap s.pwr.profile)

/-- The reservation in force (R4, R205): BCH_RESERVE's count. -/
def State.reservation (s : State) : Nat := s.bch.count.toNat

/-- The reserved logical lanes: the lowest-numbered active ones; a lane under assay is stood in for (R202, R215). -/
def State.reservedLanes (s : State) : List Nat :=
  ((s.activeLanes).filter fun n => match s.phys .lane n with
    | some p => !s.assayRuns .lane p
    | none => false).take s.reservation

/-- A logical lane's duty by the profile and the reservation in force: 1 reserved, 0 unreserved, 2 gated. -/
def State.duty (s : State) (n : Nat) : Nat :=
  if s.reservedLanes.contains n then 1 else if s.activeLanes.contains n then 0 else 2

/-- A lane's duty: until the job it runs ends, that of the old profile or reservation (R36). -/
def State.laneDuty (s : State) (p n : Nat) : Nat :=
  match tget 3 s.bch.oldDuty p with
  | 3 => s.duty n
  | d => d

/-- A new profile or reservation is in force: lanes that run jobs keep the duty they had before (R36). -/
def State.keepDuty (s old : State) : State :=
  each s.bch.lanes (fun e s =>
    match e.2.job, s.logical .lane e.1 with
    | some _, some n =>
      let d := old.laneDuty e.1 n
      { s with bch := { s.bch with oldDuty := tset 3 s.bch.oldDuty e.1 (if d = s.duty n then 3 else d) } }
    | _, _ => s) s

/-- The reserved lanes that serve as such now. -/
def State.reservedNow (s : State) : Nat :=
  (s.reservedLanes.filter fun n => match s.phys .lane n with
    | some p => s.laneDuty p n = 1
    | none => false).length + (s.bch.oldDuty.filter (·.2 == 1)).length

/-- The profile's default reservation (R4). -/
def profileReserve : Profile → Nat
  | .throughput => 32
  | _ => 64

/-- The profile's power cap in watts (R4). -/
def profileCap : Profile → Nat
  | .guard => 40 | .throughput => 48 | .incident => 48 | .frugal => 22

/-! ### Capacity (R134) -/

/-- Retirement spare left over all channels, in blocks. -/
def State.nandSpare (s : State) : Nat := ((upto 8).map fun c => (s.nch c).spare).sum

/-- Active, spares left and retired of a class, in the units of R134. -/
def State.capacityRow (s : State) (c : ResClass) : Nat × Nat × Nat :=
  let rc := s.ret.get c
  match c with
  | .nandBlock => (s.arc.cap / 1024, s.nandSpare / 32, (rc.retired.length + 31) / 32)
  | .lane => (s.activeLanes.length, (s.freeSparesOf c).length, rc.retired.length)
  | .norSector => (2048 - s.fls.bad.length, ((upto 4).map fun b => (s.freeSpares b).length).sum, rc.retired.length)
  | _ => ((s.surviving c).length, (s.freeSparesOf c).length, rc.retired.length)

/-- The classes in the order of R29's rows. -/
def allClasses : List ResClass :=
  [.lane, .hashUnit, .engine, .tenantCore, .noiseCell, .nandBlock, .keyRow, .norSector, .dmaEngine, .fwPair]

/-- The number of a class among R29's rows. -/
def classNum (c : ResClass) : Nat := allClasses.idxOf c

/-- The payload of CAPACITY_GET and CAPACITY_NOTICE. -/
def State.capacity (s : State) : Bytes :=
  ((allClasses.map fun c =>
    let (a, b, r) := s.capacityRow c
    le 2 (min a 65535) ++ le 2 (min b 65535) ++ le 2 (min r 65535)).flatten) ++
  le 2 s.reservation ++ le 1 (b2n s.c0Withdrawn)

/-- CAPACITY_NOTICE to PF0 (R35, R132): sent on a loss of capacity and when the guarantee changes (log entry 16). -/
def State.capacityNotice (s : State) : State := s.notice 0 0x0180 s.capacity

/-! ### The guarantee (R34) -/

/-- A cause of withdrawal as it stands. -/
def State.causeStands (s : State) (cause : Nat) : Bool :=
  match cause with
  | 1 => s.ret.wLanes
  | 2 => s.ret.wLink
  | 3 => s.ret.wNoise
  | _ => s.ret.wJig

/-- The source number of a cause's record. -/
def causeSource (cause : Nat) : Nat :=
  match cause with
  | 1 => 0x008
  | 2 => 0x020
  | 3 => 0x009
  | _ => 0x00A

/-- A cause arises or ends (R34): recorded one by one; status and capacity follow. -/
def State.setCause (s : State) (cause : Nat) (on : Bool) (count : Nat) : State :=
  if s.causeStands cause = on then s else
  let r := match cause with
    | 1 => { s.ret with wLanes := on }
    | 2 => { s.ret with wLink := on }
    | 3 => { s.ret with wNoise := on }
    | _ => { s.ret with wJig := on }
  let s := { s with ret := r }
  let body := le 1 (if on then 1 else 2) ++ le 1 cause ++ le 2 0 ++ le 2 count ++ le 2 0
  (s.event 0x0026 (causeSource cause) c0 body).statusTouch.capacityNotice

/-- The jig ends (R504): a record, and the guarantee's cause with it. -/
def State.endJig (s : State) : State :=
  if s.lc.jig.isNone then s
  else
    let s := { s with lc := { s.lc with jig := none } }
    let s := s.event 0x0024 0x00A c0 (Config.openBody 0x0024 [2])
    (s.consequences s.lastStamp fun s => s.setCause 4 false 0).statusTouch

/-- The lanes' cause (R34): it arises when the surviving count is below the reservation, and ends when the reservation
is at or below it and the owner's acceptance stands. -/
def State.laneGuard (s : State) : State :=
  let n := s.activeLanes.length
  if n < s.reservation then s.setCause 1 true n
  else if s.ret.wLanes && s.ret.accept then s.setCause 1 false n
  else s

/-- The reservation that the owner's setting or the profile gives (R5). -/
def State.wantReserve (s : State) : Nat := s.ret.ownerCount.getD (profileReserve s.pwr.profile)

/-- Firmware writes the count in force through BCH_RESERVE (R205). -/
def State.applyReserve (s : State) : State :=
  (({ s with bch := { s.bch with count := BitVec.ofNat 8 s.wantReserve } } : State).keepDuty s).laneGuard

/-- A profile takes effect (R4, R36, R134): PROFILE_NOTICE, STATUS_CHG, the profile's reservation. -/
def State.toProfile (s : State) (p : Profile) (cause : Nat) : State :=
  let old := s.pwr.profile
  let s := (({ s with pwr := { s.pwr with profile := p } } : State).keepDuty s).applyReserve.statusTouch
  s.noticeAll 0x0A80 (le 1 old.code ++ le 1 p.code ++ le 1 cause ++ le 1 0)

end Sys2Proof.Machine
end

