-- ==== Sys2Proof/Machine/QueueBase.lean ====
section
/-! DEFINITION. Sys2Proof/Machine/QueueBase.lean: queue pairs (chapter 6): ranges, contexts and their MAC, the context
cache, doorbell values, credit, completion entries, the job table. -/

namespace Sys2Proof.Machine

/-! ### Ranges and state words -/

/-- The function whose range holds a queue pair (R135). -/
def State.qpOwner (s : State) (q : Nat) : Option Nat :=
  (s.pci.fns.find? fun e => e.2.first ≤ q && q < e.2.first + e.2.count).map (·.1)

/-- A function owns a queue pair. -/
def State.ownsQp (s : State) (fn q : Nat) : Bool :=
  let f := s.fun_ fn
  f.first ≤ q && q < f.first + f.count

/-- The queue state word as QP_QUERY returns it (R138). -/
def QpWord.word (w : QpWord) : Word :=
  bf 0 0 (b2n w.en) ||| bf 2 1 w.cls.toNat ||| bf 8 3 w.owner.toNat ||| bf 9 9 (b2n w.gen) |||
  bf 10 10 (b2n w.pinned) ||| bf 11 11 (b2n w.destroying) ||| bf 31 16 w.seq.toNat

/-- Some queue pair of a range is enabled (R135). -/
def State.anyEnabled (s : State) (first count : Nat) : Bool :=
  s.qps.words.any fun e => e.2.en && first ≤ e.1 && e.1 < first + count

/-! ### Contexts (R139, R142) -/

/-- Context bytes 0x00 to 0x37. -/
def ctxBody (c : Ctx) (seq : BitVec 16) : Bytes :=
  le 8 c.sqBase.toNat ++ le 8 c.cqBase.toNat ++ [c.sqLog, c.cqLog, c.cls, c.flags] ++ le 2 c.vector.toNat ++
  [c.weight, c.coalCount] ++ le 2 c.coalTime.toNat ++ le 2 c.inflightMax.toNat ++ le 2 c.sqHead.toNat ++
  le 2 c.cqTail.toNat ++ le 2 c.sqTail.toNat ++ le 2 c.cqHead.toNat ++ le 4 c.ovf.toNat ++ [c.phase] ++
  List.replicate 13 0 ++ le 2 seq.toNat

/-- The context that 64 bytes spell. -/
def ctxOf (b : Bytes) : Ctx :=
  let n (o k w : Nat) : BitVec w := BitVec.ofNat w (leAt b o k)
  { sqBase := n 0 8 64, cqBase := n 8 8 64, sqLog := n 16 1 8, cqLog := n 17 1 8, cls := n 18 1 8,
    flags := n 19 1 8, vector := n 20 2 16, weight := n 22 1 8, coalCount := n 23 1 8, coalTime := n 24 2 16,
    inflightMax := n 26 2 16, sqHead := n 28 2 16, cqTail := n 30 2 16, sqTail := n 32 2 16,
    cqHead := n 34 2 16, ovf := n 36 4 32, phase := n 40 1 8 }

/-- The context key that a GEN bit names. -/
def State.ctxKey (s : State) (gen : Bool) : Bytes := le 16 (if gen then s.qps.key1 else s.qps.key0).toNat

/-- The context MAC: the leftmost 64 bits of AES-CMAC over the QPN and bytes 0x00 to 0x37. -/
def ctxMac (key : Bytes) (q : Nat) (body : Bytes) : Bytes := (cmac key (le 4 q ++ body)).take 8

/-- The 64 bytes of a queue pair's context as its state word stands. -/
def State.ctxImage (s : State) (q : Nat) (c : Ctx) : Bytes :=
  let w := s.qw q
  let b := ctxBody c w.seq
  b ++ ctxMac (s.ctxKey w.gen) q b

/-- Writes a context to the table, as PF0 and under its Bus Master Enable (R136); bytes that PF0 may not move stay behind
(R128). -/
def State.writeCtx (s : State) (q : Nat) (c : Ctx) : State :=
  match s.qps.table with
  | none => s
  | some (a, _) => if !s.mayMove 0 then s else s.hostWrite 0 (a.toNat + 64 * q) (s.ctxImage q c) false false none

def eventQ (c : Ctx) : Bool := c.flags.getLsbD 1
def irqEn (c : Ctx) : Bool := c.flags.getLsbD 0
def sqSize (c : Ctx) : Nat := 2 ^ c.sqLog.toNat
def cqSize (c : Ctx) : Nat := 2 ^ c.cqLog.toNat

/-- A distance around a ring. -/
def ringDiff (size a b : Nat) : Nat := (a + size - b % size) % size

/-! ### The key sweep's trigger (R143) -/

/-- A state word's SEQ has reached 0xFF00 or 0xFFFF: a sweep begins, with a new key for the other GEN, once the
harvest gives its bits (R525); during a sweep a
queue pair not yet reached is taken next. -/
def State.sweepCheck (s : State) (q : Nat) : State :=
  let w := s.qw q
  match s.qps.sweep with
  | none =>
    if w.seq.toNat < 0xFF00 then s else
    s.withDraw 4 128 fun k s =>
      let gen := !s.qps.gen
      let key0 := if gen then s.qps.key0 else BitVec.ofNat 128 k
      let key1 := if gen then BitVec.ofNat 128 k else s.qps.key1
      { s with qps := { s.qps with key0 := key0, key1 := key1, gen := gen, sweep := some 0, sweepNext := [] } }
  | some next =>
    if w.seq.toNat = 0xFFFF && next ≤ q && w.gen != s.qps.gen && !s.qps.sweepNext.contains q then
      { s with qps := { s.qps with sweepNext := s.qps.sweepNext ++ [q] } }
    else s

/-- A sweep that waits for its key begins (R525). -/
def State.sweepDue (s : State) : State :=
  if s.qps.sweep.isSome then s else
  match s.qps.words.find? fun e => 0xFF00 ≤ e.2.seq.toNat with
  | some (q, _) => s.sweepCheck q
  | none => s

/-- A write-back advances SEQ by one in the state word and the context and makes a new MAC (R143). -/
def State.writeBack (s : State) (q : Nat) (c : Ctx) : State :=
  let w := s.qw q
  ((s.setQw q { w with seq := w.seq + 1 }).writeCtx q c).sweepCheck q

/-! ### The context cache (R144) -/

/-- A context of the cache, if it is held. -/
def State.ctx? (s : State) (q : Nat) : Option Ctx := (s.qps.cache.find? (·.1 == q)).map (·.2)

/-- The default of the cache's table: no cached context equals it, since an enabled queue pair's CQ_LOG2 is at least 4. -/
def noCtx : Ctx := {}

def State.putCtx (s : State) (q : Nat) (c : Ctx) : State :=
  { s with qps := { s.qps with cache := tset noCtx s.qps.cache q c } }

/-- A context is used: it is the most recent. -/
def State.touch (s : State) (q : Nat) : State :=
  { s with qps := { s.qps with lru := q :: s.qps.lru.filter (· != q) } }

def State.uncache (s : State) (q : Nat) : State :=
  { s with qps := { s.qps with cache := s.qps.cache.filter (·.1 != q), lru := s.qps.lru.filter (· != q) } }

/-- Jobs of a queue pair in the job table. -/
def State.jobsOf (s : State) (q : Nat) : List Job := s.qps.jobs.filter (·.qpn == q)

/-- Jobs in flight of a queue pair: admitted ones, and entries of runs fetched or being fetched (R150, R155). -/
def State.inFlight (s : State) (q : Nat) : Nat :=
  (s.jobsOf q).length + ((s.qrun q).runs.map (·.count)).sum

/-- Posted entries not yet asked for. -/
def State.unfetched (s : State) (q : Nat) (c : Ctx) : Nat :=
  if eventQ c then 0 else ringDiff (sqSize c) c.sqTail.toNat (s.qrun q).fetch

/-- The context that makes room: the least recently used one, not pinned and with no job in flight. -/
def State.victim (s : State) : Option Nat := s.qps.lru.reverse.find? fun q => !(s.qw q).pinned && s.inFlight q == 0

/-- Contexts whose read is outstanding: their places in the cache are taken. -/
def State.ctxReads (s : State) : Nat := (s.qps.run.filter fun e => e.2.fetching).length

/-- The cache has a place for one more context, or makes one. -/
def State.hasRoom (s : State) : Bool := s.qps.cache.length + s.ctxReads < 16384 || s.victim.isSome

/-- Makes room for one context where none is free: the least recently used one is written back. -/
def State.evict (s : State) : State :=
  if s.qps.cache.length + s.ctxReads < 16384 then s else
  match s.victim with
  | none => s
  | some q =>
    match s.ctx? q with
    | none => s.uncache q
    | some c =>
      let s := if (s.qw q).en then s.writeBack q c else s
      let r := s.qrun q
      let s := if (s.qw q).en && s.unfetched q c ≠ 0 then s.setQrun q { r with posted := true } else s
      s.uncache q

/-- A context enters the cache; without a place it waits to be fetched. -/
def State.cacheCtx (s : State) (q : Nat) (c : Ctx) : State :=
  if s.hasRoom then (s.evict.putCtx q c).touch q else s.setQrun q { s.qrun q with posted := true }

/-! ### Doorbell errors (R97) -/

/-- A discarded doorbell unit: GLB_DB_ERR and GLB_DB_COUNT of the writing function. -/
def State.dbErr (s : State) (fn q reason : Nat) : State :=
  let f := s.fun_ fn
  let count := satInc f.dbCount (2 ^ 32 - 1)
  if bit f.dbErr 31 then s.setFun fn { f with dbErr := setBit f.dbErr 30 true, dbCount := count }
  else (s.setFun fn { f with dbErr := bf 19 0 q ||| bf 21 20 reason ||| bitW 31, dbCount := count }).cause fn 3

/-! ### Disabling a queue pair -/

/-- A queue pair leaves the order of doorbell arrival. -/
def State.leaveOrder (s : State) (q : Nat) : State :=
  { s with qps := { s.qps with c0Order := s.qps.c0Order.filter (· != q) } }

/-- EN and PINNED clear. -/
def State.disableQp (s : State) (q : Nat) : State :=
  let w := s.qw q
  (s.setQw q { w with en := false, pinned := false }).leaveOrder q

/-- A context fails its check or its fetch (R142, R144): the queue pair is disabled, waiting units are discarded with
reason 3, waiting event entries are dropped, and a record names the check: 1 MAC, 2 SEQ, 3 fetch. -/
def State.ctxFail (s : State) (q check : Nat) : State :=
  let w := s.qw q
  let r := s.qrun q
  let s := s.disableQp q
  let s := each r.units (fun u s => s.dbErr u.fn q 3) s
  let s := s.setQrun q { r with units := [], fetching := false, posted := false, runs := [], fetch := 0 }
  let s := { s with qps := { s.qps with events := s.qps.events.filter (·.qpn != q) } }
  s.event 0x0032 (0x020 + w.owner.toNat) c1 (Config.openBody 0x0032 [q, check])

/-- A context's write-back has not left the transmitter (R147). -/
def State.writingBack (s : State) (addr : Nat) : Bool :=
  (s.pci.prio ++ s.pci.gen).any fun t => t.kind == .write && t.fn == 0 && t.addr == addr

/-- A miss reads the context, in the queue pair's class (R144); PF0 must be able to issue requests (R136). The read waits for
the context's own write-back to finish (R147), and for a place in the cache. -/
def State.fetchCtx (s : State) (q : Nat) : State :=
  let r := s.qrun q
  if r.fetching then s else
  match s.qps.table with
  | none => s.ctxFail q 3
  | some (a, _) =>
    if !s.mayMove 0 then s.ctxFail q 3
    else if s.writingBack (a.toNat + 64 * q) || !s.hasRoom then s.setQrun q { r with posted := true }
    else
      let s := s.evict
      (s.setQrun q { s.qrun q with fetching := true, posted := false }).startRead
        { why := .context q, fn := 0, c0 := (s.qw q).cls == 0, addr := a.toNat + 64 * q, len := 64 }

/-! ### Doorbell values (R145, R146) -/

/-- Whether the queue logic accepts a unit's values. -/
def unitOk (c : Ctx) (u : Unit8) : Bool :=
  (match u.tail with
   | none => true
   | some t => !eventQ c && t.toNat < sqSize c &&
       ringDiff (sqSize c) c.sqTail.toNat c.sqHead.toNat ≤ ringDiff (sqSize c) t.toNat c.sqHead.toNat) &&
  (match u.head with
   | none => true
   | some h => h.toNat < cqSize c &&
       ringDiff (cqSize c) h.toNat c.cqHead.toNat ≤ ringDiff (cqSize c) c.cqTail.toNat c.cqHead.toNat)

/-- A unit of a cached context is applied or discarded with reason 3; a class-0 queue pair with new entries takes its
place in the order of doorbell arrival (R155). -/
def State.applyUnit (s : State) (q : Nat) (c : Ctx) (u : Unit8) : State :=
  if !unitOk c u then s.dbErr u.fn q 3
  else
    let c' := { c with sqTail := u.tail.getD c.sqTail, cqHead := u.head.getD c.cqHead }
    let s := (s.putCtx q c').touch q
    if (s.qw q).cls = 0 && s.unfetched q c' ≠ 0 && !s.qps.c0Order.contains q then
      { s with qps := { s.qps with c0Order := s.qps.c0Order ++ [q] } }
    else s

/-- A unit for an enabled queue pair: on a miss it waits for the context fetch, or joins it (R144, R147). -/
def State.unitArrives (s : State) (q : Nat) (u : Unit8) : State :=
  match s.ctx? q with
  | some c => s.applyUnit q c u
  | none =>
    let r := s.qrun q
    (s.setQrun q { r with units := r.units ++ [u] }).fetchCtx q

/-! ### Credit (R163) -/

/-- The sizes of the two staging areas (R279). -/
def genArea : Nat := 12 * 1048576
def resArea : Nat := 4 * 1048576

/-- A queue pair has archive jobs pending. -/
def State.archivePending (s : State) (q : Nat) : Bool :=
  (s.jobsOf q).any fun j => j.sqe.opcode == 0x30 || j.sqe.flags.getLsbD 2

/-- CREDIT of a queue pair as the archive stands. No emergency set ready counts as the reserve's 50 % row (R284). -/
def State.credit (s : State) (q : Nat) (c : Ctx) : Nat :=
  let full := sqSize c - 1
  let a := s.arc
  let r90 := 9 * resArea ≤ 10 * a.resUsed
  let r50 := resArea ≤ 2 * a.resUsed || a.emSets.isEmpty
  let g75 := 3 * genArea ≤ 4 * a.genUsed
  let n := match c.cls.toNat with
    | 0 => if r90 then 8 else if r50 then c.inflightMax.toNat else full
    | 1 => if r50 then 0 else if g75 then c.inflightMax.toNat else full
    | _ => if r50 then 0 else if g75 && s.archivePending q then 0 else full
  min n full

/-! ### Completion entries (R151, R152, R154, R101) -/

/-- A CQ entry of a queue pair: written at CQ_TAIL with its phase; the tail advances and the phase flips as it wraps. -/
def State.writeCqe (s : State) (q : Nat) (c : Ctx) (cid status flags sqHead credit : Nat) (result gts : Bytes)
    (aux : Nat) (job : Option Nat) : State :=
  let w := s.qw q
  let entry := le 2 cid ++ le 1 status ++ le 1 (flags + c.phase.toNat % 2) ++ le 2 sqHead ++ le 2 credit ++
    result ++ gts ++ le 4 aux
  let fn := w.owner.toNat
  let s := s.place (w.cls == 0) { id := 0, fn := fn, kind := .write, addr := c.cqBase.toNat + 32 * c.cqTail.toNat,
                                  data := entry, job := job, cqe := job.isSome }
  let t := (c.cqTail.toNat + 1) % cqSize c
  let c' := { c with cqTail := BitVec.ofNat 16 t, phase := if t = 0 then c.phase ^^^ 1 else c.phase }
  let s := (s.putCtx q c').touch q
  let r := s.qrun q
  let n := r.unsig + 1
  if !irqEn c then s
  else if c.coalTime = 0 || c.coalCount.toNat ≤ 1 || c.coalCount.toNat ≤ n then
    (s.setQrun q { r with unsig := 0 }).msix fn c.vector.toNat (w.cls == 0)
  else s.setQrun q { r with
    unsig := n, vector := c.vector.toNat, due := if r.unsig = 0 then s.now + c.coalTime.toNat * usC else r.due }

/-- Free CQ slots: none reserved by a job in flight counts (R154). -/
def State.cqFree (s : State) (q : Nat) (c : Ctx) : Nat :=
  (cqSize c - 1) - ringDiff (cqSize c) c.cqTail.toNat c.cqHead.toNat - s.inFlight q

/-! ### The job table -/

def State.job? (s : State) (id : Nat) : Option Job := s.qps.jobs.find? (·.id == id)

def State.putJob (s : State) (j : Job) : State :=
  { s with qps := { s.qps with jobs := s.qps.jobs.map fun k => if k.id = j.id then j else k } }

/-- Releases the key holds of a job (R207). -/
def State.releaseHolds (s : State) (j : Job) : State :=
  each j.holds (fun h s => let r := s.krow h.slot; s.setKrow h.slot { r with holds := r.holds - 1 }) s

/-- Frees a job's lanes and hash unit: their key registers are cleared (R198, R232) and the request entries return to
idle. -/
def State.freeUnits (s : State) (j : Job) : State :=
  let s := each j.lanes (fun p s => s.setLane p {}) s
  let s := match j.hashUnit with
    | some p => s.setHunit p {}
    | none => s
  { s with bch := { s.bch with
      gangs := s.bch.gangs.filter fun g => g.2.job ≠ j.id
      oldDuty := s.bch.oldDuty.filter fun e => !j.lanes.contains e.1 } }

/-- A job leaves the table: its units and holds are free. -/
def State.dropJob (s : State) (j : Job) : State :=
  let s := (s.freeUnits j).releaseHolds j
  { s with qps := { s.qps with jobs := s.qps.jobs.filter (·.id != j.id) } }

/-- An association job (R149). -/
def isAssoc (op : Nat) : Bool := 1 ≤ op && op ≤ 6

/-- RESULT of a job that used no key and gives no count: association jobs report KEY none (R192). -/
def noResult (op : Nat) : Bytes := (if isAssoc op then [3] else [0]) ++ List.replicate 7 0

/-- The outcome of a job is registered now (R151, R197): its units are free, and it waits for its completion. -/
def State.finishJob (s : State) (j : Job) (status : Nat) (result : Bytes) : State :=
  if j.stage = .done then s else
  (s.freeUnits j).putJob { j with
    stage := .done, lanes := [], hashUnit := none, waitRec := false, status := status, result := result, gts := s.stampAt 5 }

/-- A class-0 job's cause of R160, unless another came first. -/
def outsideBy (j : Job) (cause : Nat) : Job :=
  if j.cls = 0 && j.outside = 0 then { j with outside := cause } else j

/-- A job starts again from its start, and DST is written again from its start (R214, R234, R32). -/
def State.rerunJob (s : State) (j : Job) : State :=
  (s.freeUnits j).putJob { j with stage := .ready, lanes := [], hashUnit := none, written := [], readyAt := s.now }

/-- The lowest job-table index that no job holds (R206). -/
def State.freeIndex (s : State) : Nat := ((upto 8192).find? fun i => !s.qps.jobs.any (·.idx == i)).getD 0

/-- Every job in flight completes with ABORTED (R115), in HALT and after ZEROIZE. -/
def State.abortJobs (s : State) : State :=
  each s.qps.jobs (fun j s => s.finishJob j stAborted (noResult j.sqe.opcode)) s

/-- An operation that a link carried ends with a status (R19, R20). -/
def State.failOp (s : State) (op : OpRef) (status : Nat) : State :=
  match op with
  | .none => s
  | .job id => match s.job? id with
    | some j => s.finishJob j status (noResult j.sqe.opcode)
    | none => s
  | .keyLoad _ _ id => match s.job? id with
    | some j => s.finishJob j status (noResult j.sqe.opcode)
    | none => s
  | .driner party tag => match s.drn.out.find? fun o => o.1 == party && o.2.1 == tag with
    | some (_, _, opc) => s.reply party tag opc status []
    | none => s

end Sys2Proof.Machine
end

