-- ==== Sys2Proof/Machine/Keys.lean ====
section
/-! DEFINITION. Sys2Proof/Machine/Keys.lean: the key store (R216 to R221) and sealed keys (R222 to R224). -/

namespace Sys2Proof.Machine

/-! ### Attribute words (R217) -/

/-- Field [hi:lo] of an attribute word. -/
def att (r : KRow) (hi lo : Nat) : Nat := r.attr.toNat / 2 ^ lo % 2 ^ (hi + 1 - lo)

def kEmpty : Nat := 0
def kLoaded : Nat := 1
def kUnusable : Nat := 2
def kErasing : Nat := 3

def kState (r : KRow) : Nat := att r 1 0

/-- A row whose STATE is replaced. -/
def setKState (r : KRow) (st : Nat) : KRow := { r with attr := BitVec.ofNat 64 (r.attr.toNat / 4 * 4 + st) }

/-- The bytes of a slot's key: 16 or 32 (R216). The key's byte 0 stands in the lowest bits. -/
def slotKey (r : KRow) : Bytes := le (16 * att r 3 2) (r.s0 ^^^ r.s1).toNat

/-- A function may use a general slot (R209, R232): LOADED, and its own or SHARED. -/
def mayUse (r : KRow) (fn : Nat) : Bool := kState r = kLoaded && (att r 21 16 = fn || att r 5 5 = 1)

/-- USE bits of R217, by attribute bit. -/
def useGcmEnc : Nat := 8
def useGcmDec : Nat := 9
def useGmacGen : Nat := 10
def useGmacVer : Nat := 11
def useCtr : Nat := 12
def useHmac : Nat := 13
def useEngine : Nat := 14

def hasUse (r : KRow) (b : Nat) : Bool := r.attr.getLsbD b

/-- A hold on a slot (R207). -/
def State.takeHold (s : State) (slot : Nat) : State :=
  let r := s.krow slot
  s.setKrow slot { r with holds := r.holds + 1 }

/-- Key loads from a slot are counted toward its re-split (R220). -/
def State.countLoads (s : State) (slot n : Nat) : State :=
  let r := s.krow slot
  s.setKrow slot { r with loads := r.loads + n }

/-! ### Erase (R221) -/

/-- KEY_FAULT takes a record: the first fault of a kind with its slot, MORE for later ones (R226). -/
def State.keyFault (s : State) (slot kind : Nat) : State :=
  let f := s.key.fault
  let f' := if bit f 31 then setBit f 30 true else bf 13 0 slot ||| bf 17 14 kind ||| bitW 31
  { s with key := { s.key with fault := f' } }

def State.keyEvent (s : State) (b : Nat) : State :=
  { s with key := { s.key with events := setBit s.key.events b true } }

/-- The erase of a slot ends for whoever asked (R218, R221): KEY_EVENTS.ERASE_DONE, and the response to KEY_ERASE. -/
def State.eraseEnded (s : State) (byCmd : Bool) (waiter : Option (Nat × Nat)) : State :=
  let s := if byCmd then s.keyEvent 5 else s
  match waiter with
  | some (p, t) => s.reply p t 0x0408 stOk []
  | none => s

/-- An erase begins: the slot is ERASING until its hold count is 0. An EMPTY or UNUSABLE slot is left as it is. -/
def State.eraseSlot (s : State) (slot : Nat) (byCmd : Bool) (waiter : Option (Nat × Nat)) : State :=
  let r := s.krow slot
  if kState r = kEmpty || kState r = kUnusable then s.eraseEnded byCmd waiter
  else s.setKrow slot { setKState r kErasing with byCmd := r.byCmd || byCmd, waiter := r.waiter <|> waiter }

/-- The source number of a retirement record (R25, R30): a tenant core's own, whichever core serves it. -/
def retSource (c : ResClass) (logical : Nat) : Nat :=
  match c with
  | .tenantCore => 0x064 + (if logical < 12 then logical else 0)
  | _ => classSource c

/-- The retirement record of R30: logical and physical resource, errors, jobs rerun, spares remaining, and the physical
resource that serves the logical number now, so that it states a change of it (R25). -/
def State.retRecord (s : State) (c : ResClass) (logical phys errors rerun : Nat) : State :=
  let now := match c with
    | .nandBlock => gone
    | _ => (s.phys c logical).getD gone
  s.event 0x0022 (retSource c logical) c0
    (Config.openBody 0x0022 [classNum c, logical, phys, errors, rerun, (s.freeSparesOf c).length, now])

/-- A key row with an uncorrectable error is to be retired, its contents lost (R29, R31). -/
def State.loseRow (s : State) (p : Nat) : State :=
  let s := s.permanent .keyRow p 1
  { s with ret := { s.ret with waiting := s.ret.waiting.map fun r =>
      if r.cls = .keyRow && r.phys = p then { r with lost := true } else r } }

/-- The retirement map goes to both its copies in the code flash's ECC sectors (R30, R306): each class's changed numbers and
retired resources. The spec gives no layout of the sectors (log entry 103). -/
def State.programMap (s : State) : State :=
  let facts := (allClasses.map fun c =>
    let rc := s.ret.get c
    [rc.map.length] ++ (rc.map.map fun e => [e.1, e.2]).flatten ++ [rc.retired.length] ++ rc.retired).flatten
  let image := (Config.mapImage facts).take 131072
  let wiped := [64, 65, 576, 577].foldl (fun f ls => flWipe f (physSector f ls)) s.fls
  { s with fls := flPut (flPut wiped (64 * 65536) image) (576 * 65536) image }

/-- What becomes of a slot whose row has been retired (R31): the spare row holds what it held, or nothing after an
uncorrectable error, until it is written again; with no spare the slot is UNUSABLE. -/
def State.rowMoved (s : State) (n : Nat) (lost : Bool) : State :=
  let r := s.krow n
  if (s.phys .keyRow n).isNone then (s.setKrow n (setKState {} kUnusable)).eraseEnded r.byCmd r.waiter
  else if !lost then s
  else if kState r = kErasing then s.setKrow n (setKState { r with s0 := 0, s1 := 0, attr := 0 } kErasing)
  else s.setKrow n { r with s0 := 0, s1 := 0, attr := 0 }

/-- KEY_CMD_ERASE (R218, R221): the selected slot. -/
def execKeyCmdErase (s : State) : Out :=
  if s.up then .next (s.eraseSlot s.key.slotSel.toNat true none) else .next s

/-- KEY_ERASE (R218). -/
def execKeyErase (r : Req) (s : State) : Out :=
  driner 0x0408 r s fun s =>
    let slot := leAt r.payload 0 2
    if 16384 ≤ slot then s.reply r.party r.tag 0x0408 stRejected []
    else if slot < 8192 then s.reply r.party r.tag 0x0408 stAccess []
    else
      let k := s.krow slot
      if kState k = kErasing && k.waiter.isSome then s.reply r.party r.tag 0x0408 stOk []
      else s.eraseSlot slot false (some (r.party, r.tag))

/-- KEY_ATTR_GET (R218): PF0 sees every word, a VF its own and SHARED slots', a tenant core TENANT slots'. -/
def execKeyAttrGet (r : Req) (s : State) : Out :=
  drinerNow 0x0407 r s fun s =>
    let slot := leAt r.payload 0 2
    if 16384 ≤ slot then (s, stRejected, [])
    else
      let k := s.krow slot
      let sees := match midFn r.party with
        | some 0 => true
        | some fn => att k 21 16 = fn || att k 5 5 = 1
        | none => att k 6 6 = 1
      (s, stOk, le 8 (if sees then k.attr.toNat else 0))

/-! ### Re-split (R220) -/

/-- New shares: both XORed with fresh noise; the upper half of a 128-bit key's shares changes alike (R216). Without noise the
re-split stays due (R525). -/
def State.resplitSlot (s : State) (slot : Nat) : State :=
  let r := s.krow slot
  (s.setKrow slot { r with loads := max r.loads 65536 }).withDraw 4 256 fun n s =>
    let v : BitVec 256 := BitVec.ofNat 256 n
    s.setKrow slot { r with s0 := r.s0 ^^^ v, s1 := r.s1 ^^^ v, loads := 0 }

/-- RESPLIT (R220): after 65,536 key loads from the slot. -/
def execResplit (slot : Fin 16384) (s : State) : Out :=
  let r := s.krow slot.val
  if !s.up || r.loads < 65536 || kState r ≠ kLoaded then .next s else .next (s.resplitSlot slot.val)

/-- KEY_CMD_RESPLIT (R220): the selected slot. -/
def execKeyCmdResplit (s : State) : Out :=
  let slot := s.key.slotSel.toNat
  if !s.up || kState (s.krow slot) ≠ kLoaded then .next s else .next (s.resplitSlot slot)

/-! ### Sealed keys (R222 to R224) -/

/-- The key under which the transport key is wrapped (R447): the KEK, or under SEALED a key that the Locket engine derives from the
OTP secret and the count of blown zeroize fuses. -/
def State.wrapKey (s : State) : Option (BitVec 256) :=
  if s.tmp.policySealed then some (Config.derivedKey (100 + s.tmp.zfuses)) else s.tmp.kek

/-- The wrapped form of a transport key: nonce, ciphertext and tag of AES-256-GCM with the identifier as AAD (log entry 135). -/
def wrapTransport (k : BitVec 256) (nonce : Bytes) (key : BitVec 256) (id : Word) : Bytes :=
  let (ct, tag) := gcmSeal (le 32 k.toNat) nonce (le 4 id.toNat) (le 32 key.toNat)
  nonce ++ ct ++ tag

/-- The Locket engine's decryption of the wrapped form and its tag (R223 step 3): the key, and whether the tag compares. -/
def openWrap (k : BitVec 256) (w : Bytes) (id : Word) : BitVec 256 × Bool :=
  let (pt, tag) := gcmOpen (le 32 k.toNat) (sub w 0 12) (le 4 id.toNat) (sub w 12 32)
  (BitVec.ofNat 256 (ofLe pt), tag == sub w 44 16)

/-- The installed transport key as it opens now, and whether its tag compares. -/
def State.transportKey (s : State) : BitVec 256 × Bool :=
  match s.key.transRow, s.wrapKey with
  | some (w, id), some k => openWrap k w id
  | _, _ => (0, false)

/-- The comparison of the wrapped form's tag (decision code 6 of R441). -/
def State.wrapOpens (s : State) : Bool := s.transportKey.2

/-- The header fields of a sealed key that R224's REJECTED row names. -/
def sealHeaderOk (b : Bytes) : Bool :=
  leAt b 0 1 = 1 && (leAt b 1 1 = 16 || leAt b 1 1 = 32) && leAt b 2 2 < 2 && leAt b 8 1 < 128 && leAt b 9 1 < 64 &&
  leAt b 10 1 < 4 && allZero (sub b 11 5)

/-- The seal unit's decryption: the key and whether the tag compares (R222, R223). -/
def openSeal (serial : BitVec 64) (transport : BitVec 256) (b : Bytes) : Bytes × Bool :=
  let aad := sub b 0 16 ++ sub b 0x4C 4 ++ le 8 serial.toNat
  let (pt, tag) := gcmOpen (le 32 transport.toNat) (sub b 0x10 12) aad (sub b 0x1C 32)
  (pt.take (leAt b 1 1), tag == sub b 0x3C 16)

/-- The slot still stands as step 5 of R223 wants it: EMPTY, or holding its direction's next key, which is replaced (R185). -/
def State.slotAwaits (s : State) (u : Unwrap) : Bool :=
  match u.pa, u.replace with
  | some (n, d), true =>
    let a := s.pa n
    kState (s.krow u.slot) = kLoaded && (if d = 1 then a.rx else a.tx).next == some (u.slot % 4)
  | _, _ => kState (s.krow u.slot) = kEmpty

/-- An unwrap ends (R224): the seal unit and KEY_SEAL0 to KEY_SEAL19 are cleared; KEY_UNWRAP.RESULT and the command. -/
def State.unwrapEnd (s : State) (u : Unwrap) (status : Nat) (payload : Bytes) : State :=
  let s := { s with key := { s.key with unwrap := none, sealW := [],
                                        unResult := if status = stOk then 2 else 3 } }
  s.reply u.party u.tag (if u.pa.isSome then 0x0402 else 0x0406) status payload

/-- An outcome of the UNWRAP_FAIL row, counted toward the throttle. -/
def State.unwrapFail (s : State) (u : Unwrap) : State :=
  let fs := s.now :: s.key.fails.filter fun t => s.now < t + 60 * secC
  let s := { s with key := { s.key with fails := fs,
                                        throttledAt := if 16 ≤ fs.length then some s.now else s.key.throttledAt } }
  (s.keyEvent 3).unwrapEnd u stRejected []

/-- The checks of R224, from the top of its table: the status that decides, or the unwrap goes on. `fieldsOk` says that the
reserved fields of the command or of KEY_UNWRAP are 0; `algOk` is the PA_KEY_LOAD row. -/
def State.unwrapCheck (s : State) (u : Unwrap) (fieldsOk algOk : Bool) : Option Nat :=
  if s.lc.lifecycle = 3 || s.halted || s.tmp.zeroized then some stAborted
  else if s.key.throttledAt.isSome then some stResource
  else if !sealHeaderOk u.sealB || !fieldsOk then some stRejected
  else if (leAt u.sealB 2 2 = 1) ≠ (u.slot < 8192) then some stRejected
  else if !s.slotAwaits u then some stRejected
  else if !algOk then some stRejected
  else none

/-- Step 1 of R223: the sealed key in KEY_SEAL0 to KEY_SEAL19, the slot and the epoch in KEY_UNWRAP. -/
def State.sealWrite (s : State) (u : Unwrap) : State :=
  { s with key := { s.key with
      sealW := (upto 20).foldl (fun t i => tset 0 t i (BitVec.ofNat 32 (leAt u.sealB (4 * i) 4))) []
      unSlot := BitVec.ofNat 14 u.slot, unEpoch := BitVec.ofNat 8 u.epoch } }

/-- An unwrap starts (R223): its checks, the transport key's identifier, then the decision of code 6. -/
def State.unwrapStart (s : State) (u : Unwrap) (fieldsOk algOk : Bool) : State :=
  let s := s.sealWrite u
  match s.unwrapCheck u fieldsOk algOk with
  | some st => s.unwrapEnd u st []
  | none =>
    match s.key.transRow with
    | none => s.unwrapFail u
    | some (_, id) =>
      if leAt u.sealB 0x4C 4 ≠ id.toNat then s.unwrapFail u else
      let ok := s.wrapOpens
      let s := { s with key := { s.key with unwrap := some { u with ok6 := ok }, unResult := 1 } }
      s.decide .kekUnwrap ok

/-- The second evaluation of the decision of code 6 (R223 step 3, R441). -/
def State.unwrapStep6 (s : State) (first second : Bool) : State :=
  match s.key.unwrap with
  | none => s
  | some u =>
    if u.stage ≠ 0 then s
    else if first ≠ second then ((s.keyEvent 4).disagree 6).unwrapEnd u stRejected []
    else if !first then s.unwrapFail u
    else
      let (key, ok) := openSeal s.lc.serial s.transportKey.1 u.sealB
      let ok8 := ok && s.slotAwaits u
      let s := { s with key := { s.key with unwrap := some { u with stage := 1, ok8 := ok, key := key } } }
      s.decide .keyRelease ok8

/-- The attribute word a sealed key gives (R217, R222). -/
def sealAttr (b : Bytes) (slot epoch : Nat) : BitVec 64 :=
  let kl := if leAt b 1 1 = 16 then 1 else 2
  let acc := leAt b 10 1
  BitVec.ofNat 64 (1 + 4 * kl + 16 * b2n (slot < 8192) + 32 * (acc % 2) + 64 * (acc / 2 % 2) + 2 ^ 8 * leAt b 8 1 +
    2 ^ 16 * leAt b 9 1 + 2 ^ 24 * epoch + 2 ^ 32 * leAt b 4 4)

/-- The key is written to its slot as fresh shares, under 256 bits of noise, with its attribute word (R223 step 6, R220). -/
def State.loadSlot (s : State) (u : Unwrap) (n : Nat) : State :=
  let r : BitVec 256 := BitVec.ofNat 256 n
  let k : BitVec 256 := BitVec.ofNat 256 (ofLe u.key)
  s.setKrow u.slot { s0 := r, s1 := r ^^^ k, attr := sealAttr u.sealB u.slot u.epoch }

/-- KEY_UNWRAP (R218, R223): while another unwrap runs, firmware does not take the command. -/
def execKeyUnwrap (r : Req) (s : State) : Out :=
  if s.key.unwrap.isSome && (s.outstanding r.party).length < 16 then .next s else
  driner 0x0406 r s fun s =>
    let slot := leAt r.payload 0 2
    let rep (st : Nat) : State := s.reply r.party r.tag 0x0406 st []
    if 16384 ≤ slot then rep stRejected
    else if slot < 8192 then rep stAccess
    else s.unwrapStart { slot := slot, epoch := 0, sealB := sub r.payload 4 80, party := r.party, tag := r.tag,
                         pa := none, replace := false } (leAt r.payload 2 2 = 0) true

/-- The sealed key of KEY_SEAL0 to KEY_SEAL19. -/
def State.sealRegs (s : State) : Bytes := ((upto 20).map fun i => le 4 (tget 0 s.key.sealW i).toNat).flatten

/-- A write of KEY_UNWRAP (R226): GO while UNWRAP_BUSY is discarded; a nonzero epoch of a general slot is refused. -/
def State.unwrapWrite (s : State) (v : Word) : State :=
  if bit v 31 && s.key.unwrap.isSome then s else
  let s := { s with key := { s.key with unSlot := BitVec.ofNat 14 (fld v 13 0), unEpoch := BitVec.ofNat 8 (fld v 21 14) } }
  if !bit v 31 then s else
  let u : Unwrap := { slot := fld v 13 0, epoch := fld v 21 14, sealB := s.sealRegs, party := 0, tag := 0, pa := none,
                      replace := false }
  s.unwrapStart u (u.slot < 8192 || u.epoch = 0) true

/-- KEY_UNWRAP_GO (R223). -/
def execKeyUnwrapGo (value : BitVec 32) (s : State) : Out :=
  if s.up then .next (s.unwrapWrite (setBit value 31 true)) else .next s

/-- UNWRAP_THROTTLE_END (R224): 60 s after the 16th. -/
def execUnwrapThrottleEnd (s : State) : Out :=
  match s.key.throttledAt with
  | none => .next s
  | some t => if s.now < t + 60 * secC then .next s
              else .next { s with key := { s.key with throttledAt := none, fails := [] } }

/-! ### Registers (R226) -/

/-- Slots LOADED. -/
def State.slotsLoaded (s : State) : Nat := (s.key.rows.filter fun e => kState e.2 = kLoaded).length

def State.keyRead (s : State) (port : Nat) : Word × State :=
  let k := s.key
  match port with
  | 0x0700 => (bf 14 0 s.slotsLoaded ||| bf 22 15 (s.freeSparesOf .keyRow).length ||| bf 23 23 (b2n k.unwrap.isSome) |||
               bf 24 24 (b2n k.throttledAt.isSome), s)
  | 0x0701 => (bf 13 0 k.slotSel.toNat, s)
  | 0x0702 =>
    let a := (s.krow k.slotSel.toNat).attr
    (a.truncate 32, { s with key := { k with attrHi := (a >>> 32).truncate 32 } })
  | 0x0703 => (k.attrHi, s)
  | 0x0705 => (k.events, s)
  | 0x0706 => (bf 13 0 k.unSlot.toNat ||| bf 21 14 k.unEpoch.toNat ||| bf 29 28 k.unResult.toNat, s)
  | 0x0707 => (k.fault, s)
  | _ => (0, s)

def State.keyWrite (s : State) (port : Nat) (v : Word) : State :=
  let k := s.key
  match port with
  | 0x0701 => { s with key := { k with slotSel := BitVec.ofNat 14 (fld v 13 0) } }
  | 0x0704 =>
    let slot := k.slotSel.toNat
    let s := if bit v 0 then s.eraseSlot slot true none else s
    if bit v 1 && kState (s.krow slot) = kLoaded then s.resplitSlot slot else s
  | 0x0705 => { s with key := { k with events := k.events &&& ~~~ v } }
  | 0x0706 => s.unwrapWrite v
  | 0x0707 => if bit v 31 then { s with key := { k with fault := 0 } } else s
  | p => if 0x0710 ≤ p && p ≤ 0x0723 then { s with key := { k with sealW := tset 0 k.sealW (p - 0x0710) v } } else s

end Sys2Proof.Machine
end

