-- ==== Sys2Proof/Machine/Assoc.lean ====
section
/-! DEFINITION. Sys2Proof/Machine/Assoc.lean: protected associations (chapter 7): the commands on them, rolls and grace,
checkpoints, and the writing of an unwrapped key to its slot. -/

namespace Sys2Proof.Machine

/-! ### The table -/

/-- Codes of R170. -/
def paCode : PaState → Nat
  | .free => 0 | .idle => 1 | .active => 2 | .suspended => 3

/-- PROTOCOL of R167: 0 GOOSE, 1 SV, 2 generic. -/
def paProto (a : Pa) : Nat := a.kind.toNat % 4

/-- The role includes transmit, receive (R167). -/
def paTx (a : Pa) : Bool := a.kind.getLsbD 2
def paRx (a : Pa) : Bool := a.kind.getLsbD 3

/-- What an association keeps of a key, by its slot 0 to 3. -/
def paKey (a : Pa) (i : Nat) : PaKey := tget {} a.keys i
def setPaKey (a : Pa) (i : Nat) (k : PaKey) : Pa := { a with keys := tset {} a.keys i k }

def dirOf (a : Pa) (rx : Bool) : Dir := if rx then a.rx else a.tx
def setDir (a : Pa) (rx : Bool) (d : Dir) : Pa := if rx then { a with rx := d } else { a with tx := d }

/-- An event of an association (R195): C1, through Dovetail, with an entry for EVENT_QPN when that is VALID. -/
def State.paEvent (s : State) (n code epoch count : Nat) : State :=
  let q := paEventQ (s.pa n).params
  let result := le 2 (0x100 + n) ++ le 1 code ++ le 1 epoch ++ le 4 count
  s.post { typ := 0x0010, src := 0x100 + n, cls := c1, gts := s.stampAt 5, body := result,
           qpn := if 2 ^ 31 ≤ q then some (q % 2 ^ 20) else none, result := result }

/-- Jobs of an association in the job table. -/
def State.paJobs (s : State) (n : Nat) : List Job :=
  s.qps.jobs.filter fun j => 1 ≤ j.sqe.opcode && j.sqe.opcode ≤ 6 && j.sqe.target == n

/-- A command on an association holds its entry for at most 2 µs (R172). -/
def State.holdPa (s : State) (n : Nat) : State :=
  let a := s.pa n
  if a.state = .free then s else s.setPa n { a with heldUntil := s.now + 2 * usC }

/-! ### Creation (R169) -/

/-- The parameters and kind that R169 refuses, the event queue aside. -/
def paCreateBad (kind : Nat) (p : Bytes) : Bool :=
  let proto := kind % 4
  let role := kind / 4 % 4
  let alg := paAlg p
  let q := paEventQ p
  16 ≤ kind || proto = 3 || role = 0 || (role = 3 && proto ≠ 2) ||
  alg = 0 || 9 < alg || (proto ≠ 2 && 8 ≤ alg) || (proto = 2 && alg < 8) ||
  64 ≤ leAt p 1 1 || 6 < paWindow p ||
  (proto = 2 && (!paReplayIv p || !(paGenTag p = 8 || paGenTag p = 12 || paGenTag p = 16))) ||
  (proto ≠ 2 && (paGenTag p ≠ 0 || paKidOfs p ≠ 0)) ||
  (paReplayIv p && algHmac alg) ||
  q / 2 ^ 20 % 2 ^ 11 ≠ 0

/-- EVENT_QPN is not VALID, or names an event queue of PF0 (R169). -/
def State.paEventQOk (s : State) (p : Bytes) : Bool :=
  let w := s.qw (paEventQ p % 2 ^ 20)
  paEventQ p < 2 ^ 31 || (w.en && w.owner = 0 && w.evq)

/-- A mark seeded from a checkpoint (R183): every count at or below it fails as REPLAY. -/
def seeded (hi : Nat) : Mark := { mode := 2, hi := hi, seen := BitVec.allOnes 64 }

/-- One association's entry of a replay checkpoint: number, PEER_TAG, protocol mark, and key ID and mark of each loaded
receive key. The spec gives the contents and no layout (log entry 31). -/
def checkpointEntry (s : State) (n : Nat) (a : Pa) : Bytes :=
  let slots := [a.rx.cur, a.rx.next, a.rx.prev].filterMap id
  let key (i : Nat) : Bytes :=
    let k := paKey a i
    be 4 k.keyId ++ le 1 k.mark.mode ++ le 3 0 ++ le 8 k.mark.hi
  let loaded := slots.filter fun i => kState (s.krow (4 * n + i)) = kLoaded
  le 2 n ++ sub a.params 0x24 12 ++ le 1 a.mark.mode ++ le 1 loaded.length ++ le 8 a.mark.hi ++
    (loaded.map key).flatten

/-- The body of a replay checkpoint: every ACTIVE association with a receive role. -/
def State.checkpointBody (s : State) : Bytes :=
  ((s.pas.filter fun e => e.2.state == .active && paRx e.2).map fun e => checkpointEntry s e.1 e.2).flatten

/-- The entry of a checkpoint for an association and a peer: protocol mark, and marks by key ID. -/
def checkpointFind (n : Nat) (peer : Bytes) : Nat → Bytes → Option (Option Nat × List (Nat × Mark))
  | 0, _ => none
  | f + 1, b =>
    if b.length < 24 then none else
    let k := leAt b 15 1
    let rest := b.drop 24
    if leAt b 0 2 = n && sub b 2 12 = peer then
      some (if leAt b 14 1 = 0 then none else some (leAt b 16 8),
        ((upto k).filter fun i => leAt rest (16 * i + 4) 1 ≠ 0).map fun i =>
          (ofBe (sub rest (16 * i) 4), seeded (leAt rest (16 * i + 8) 8)))
    else checkpointFind n peer f (rest.drop (16 * k))

/-- The newest committed checkpoint with an entry for the association and peer (R183); unreadable records are skipped. -/
def State.restore (s : State) (n : Nat) (peer : Bytes) : Option (Option Nat × List (Nat × Mark)) :=
  (s.arc.recs.reverse.filter fun r => r.r.typ == 0x0031 && r.committed && !r.unreadable).findSome?
    fun r => checkpointFind n peer 2048 r.r.body

/-- PA_CREATE (R169, R183). -/
def execPaCreate (r : Req) (s : State) : Out :=
  drinerNow 0x0401 r s fun s =>
    let n := leAt r.payload 0 2
    let kind := leAt r.payload 2 1
    let p := sub r.payload 4 48
    if 2048 ≤ n || leAt r.payload 3 1 ≠ 0 || paCreateBad kind p then (s, stRejected, [])
    else
    if !s.paEventQOk p then (s, stRejected, [])
    else if (s.pa n).state ≠ .free then (s, stPaState, [])
    else
      let base : Pa := { state := .idle, kind := BitVec.ofNat 8 kind, params := p, heldUntil := s.now + 2 * usC }
      let a : Pa :=
        if !paRestore p then base
        else match s.restore n (sub p 0x24 12) with
          | none => base
          | some (m, ks) => { base with mark := (match m with | some h => seeded h | none => {}), seeds := ks }
      let s := s.setPa n a
      (s.paEvent n 6 0 1, stOk, [])

/-! ### States (R171) -/

/-- Every receive mark of an association returns to LEARN (R171). -/
def resyncPa (a : Pa) : Pa :=
  let a := { a with mark := {}, seeds := [] }
  setPaKey (setPaKey a 2 { paKey a 2 with mark := {} }) 3 { paKey a 3 with mark := {} }

/-- A state change of an association, with its event (R195). -/
def State.paTo (s : State) (n : Nat) (st : PaState) : State :=
  let a := s.pa n
  (s.setPa n { a with state := st }).paEvent n 6 0 (paCode st)

/-- PA_STATE_SET (R171). FREE refuses later jobs and is answered when the last job in flight has completed. -/
def execPaStateSet (r : Req) (s : State) : Out :=
  driner 0x0404 r s fun s =>
    let n := leAt r.payload 0 2
    let v := leAt r.payload 2 1
    let rep (s : State) (st : Nat) : State := s.reply r.party r.tag 0x0404 st []
    if 2048 ≤ n || leAt r.payload 3 1 ≠ 0 then rep s stRejected else
    let a := s.pa n
    let s := s.holdPa n
    let a := { a with heldUntil := (s.pa n).heldUntil }
    match v with
    | 0x00 =>
      if a.state = .free then rep s stOk
      else if a.freeing.isSome then rep s stPaState
      else s.setPa n { a with freeing := some (r.party, r.tag) }
    | 0x02 =>
      if a.freeing.isSome then rep s stPaState
      else match a.state with
        | .active => rep s stOk
        | .free => rep s stPaState
        | _ =>
          if (paTx a && a.tx.cur.isNone) || (paRx a && a.rx.cur.isNone) then rep s stKeyAbsent
          else rep (s.paTo n .active) stOk
    | 0x03 =>
      if a.freeing.isSome then rep s stPaState
      else match a.state with
        | .suspended => rep s stOk
        | .active => rep (s.paTo n .suspended) stOk
        | _ => rep s stPaState
    | 0x10 =>
      if a.state = .free then rep s stPaState else rep (s.setPa n (resyncPa a)) stOk
    | _ => rep s stRejected

/-- ASSOCIATION_FREED (R171): the last job has completed; the four slots are erased and the entry cleared. -/
def execAssociationFreed (n : Fin 2048) (s : State) : Out :=
  let a := s.pa n.val
  match a.freeing with
  | none => .next s
  | some (party, tag) =>
    if !s.up || !(s.paJobs n.val).isEmpty then .next s else
    let s := s.paEvent n.val 6 0 0
    let s := each (upto 4) (fun i s => s.eraseSlot (4 * n.val + i) false none) s
    .next ((s.setPa n.val {}).reply party tag 0x0404 stOk [])

/-- ZEROIZE (R173): keys erased, rolls cancelled, every created association IDLE; counters and marks are kept. -/
def State.zeroizePas (s : State) : State :=
  each (s.pas.map (·.1)) (fun n s =>
    let a := s.pa n
    if a.state = .free then s else
    let s := s.setPa n { a with tx := {}, rx := {}, keys := [], seeds := [] }
    if a.state = .idle then s else s.paTo n .idle) s

/-! ### The state block (R196) -/

def State.paBlock (s : State) (n : Nat) : Bytes :=
  let a := s.pa n
  let on (o : Option Nat) : Nat := b2n o.isSome
  let txk := match a.tx.cur with
    | some i => paKey a i
    | none => {}
  let rxk := match a.rx.cur with
    | some i => paKey a i
    | none => {}
  let keys := on a.tx.cur + 2 * on a.tx.next + 4 * on a.rx.cur + 8 * on a.rx.next + 16 * on a.rx.prev +
    32 * b2n a.tx.roll.isSome + 64 * b2n a.rx.roll.isSome + 128 * b2n txk.exhausted
  let m := if paReplayIv a.params then rxk.mark else a.mark
  let inv := if a.tx.cur.isSome then s.lc.bootCount * 2 ^ 40 + txk.counter else 0
  if a.state = .free then List.replicate 40 0
  else
    le 1 (paCode a.state) ++ le 1 a.kind.toNat ++ le 1 (paAlg a.params) ++ le 1 keys ++ le 1 txk.epoch ++
    le 1 rxk.epoch ++ le 1 m.mode ++ le 1 0 ++ le 8 inv ++ le 8 m.hi ++ le 4 a.accepted ++ le 4 a.failed ++
    le 4 a.replayed ++ le 4 a.stale

/-- PA_QUERY (R196). -/
def execPaQuery (r : Req) (s : State) : Out :=
  drinerNow 0x0405 r s fun s =>
    let n := leAt r.payload 0 2
    if 2048 ≤ n then (s, stRejected, []) else (s, stOk, s.paBlock n)

/-! ### Keys (R185) -/

/-- The USE byte that an algorithm and direction need: exactly one bit. -/
def paUse (alg : Nat) (rx : Bool) : Nat :=
  if algGmac alg then (if rx then 8 else 4)
  else if algHmac alg then 32
  else (if rx then 2 else 1)

/-- The slot of a direction that its current key does not hold. -/
def otherSlot (d : Dir) (rx : Bool) : Nat :=
  let b := if rx then 2 else 0
  if d.cur = some b then b + 1 else b

/-- PA_KEY_LOAD (R185): checks, then the unwrap. While another unwrap runs, firmware does not take the command. -/
def execPaKeyLoad (r : Req) (s : State) : Out :=
  if s.key.unwrap.isSome && (s.outstanding r.party).length < 16 then .next s else
  driner 0x0402 r s fun s =>
    let n := leAt r.payload 0 2
    let d := leAt r.payload 2 1
    let epoch := leAt r.payload 3 1
    let sealed := sub r.payload 4 80
    let rep (st : Nat) : State := s.reply r.party r.tag 0x0402 st []
    if 2048 ≤ n || 1 < d then rep stRejected else
    let a := s.pa n
    let rx := d = 1
    let dir := dirOf a rx
    if a.state = .free || a.freeing.isSome then rep stPaState
    else if !(if rx then paRx a else paTx a) then rep stPaState
    else if dir.roll.isSome then rep stPaState
    else if rx && dir.prev.isSome then rep stResource
    else if dir.cur.any fun i => (paKey a i).epoch = epoch then rep stRejected
    else
      let i := otherSlot dir rx
      let algOk := leAt sealed 1 1 = algKey (paAlg a.params) && leAt sealed 8 1 = paUse (paAlg a.params) rx
      (s.holdPa n).unwrapStart
        { slot := 4 * n + i, epoch := epoch, sealB := sealed, party := r.party, tag := r.tag, pa := some (n, d),
          replace := dir.next.isSome } true algOk

/-- A key has been unwrapped into its association slot: it is current when the direction has none, otherwise next, with
its counter at 0 and its mark in LEARN or seeded (R178, R182, R183, R185). -/
def State.paLoaded (s : State) (u : Unwrap) (n d : Nat) : State :=
  let a := s.pa n
  let i := u.slot % 4
  let kid := ofBe (sub u.sealB 4 4)
  let mark := if d = 1 then ((a.seeds.find? (·.1 == kid)).map (·.2)).getD {} else {}
  let a := setPaKey a i { epoch := u.epoch, keyId := kid, mark := mark }
  let dir := dirOf a (d = 1)
  let dir := if dir.cur.isNone then { dir with cur := some i } else { dir with next := some i }
  s.setPa n (setDir a (d = 1) dir)

/-- The key goes into its slot and the unwrap ends with OK (R223 step 6, R224). -/
def State.unwrapStore (s : State) (u : Unwrap) : State :=
  ({ s with key := { s.key with unwrap := some { u with stage := 3 } } } : State).withDraw 4 256 fun n s =>
    let s := s.loadSlot u n
    match u.pa with
    | some (p, d) => (s.paLoaded u p d).unwrapEnd u stOk (le 2 u.slot)
    | none => s.unwrapEnd u stOk (le 8 (s.krow u.slot).attr.toNat)

/-- A released key that waits for the noise of its split is stored as soon as the bits are there (R525). -/
def State.storeDue (s : State) : State :=
  match s.key.unwrap with
  | some u => if u.stage = 3 then s.unwrapStore u else s
  | none => s

/-- The second evaluation of the decision of code 8 (R223 steps 5 and 6). A replaced next key is erased first, and the
new key is written when that erase has ended. -/
def State.unwrapStep8 (s : State) (first second : Bool) : State :=
  match s.key.unwrap with
  | none => s
  | some u =>
    if u.stage ≠ 1 then s
    else if first ≠ second then ((s.keyEvent 4).disagree 8).unwrapEnd u stRejected []
    else if !first then
      if s.slotAwaits u then s.unwrapFail u else s.unwrapEnd u stRejected []
    else if u.replace then
      ({ s with key := { s.key with unwrap := some { u with stage := 2 } } } : State).eraseSlot u.slot false none
    else s.unwrapStore u

/-- KEY_ERASE_FINISH (R221): the slot's hold count is 0; zeros are written to the row and read back. A row that does not
read zero is retired: a spare row takes the slot at once, zeroed; without one the slot is UNUSABLE for good. -/
def execKeyEraseFinish (slot : Fin 16384) (readsZero : Bool) (s : State) : Out :=
  let n := slot.val
  let r := s.krow n
  if !s.up || kState r ≠ kErasing || r.holds ≠ 0 then .next s else
  let s1 :=
    if readsZero then s.setKrow n {}
    else
      match s.phys .keyRow n with
      | none => s.setKrow n (setKState {} kUnusable)
      | some p =>
        let s := (s.keyFault n 4).keyEvent 1
        let rc := s.ret.keyRow
        let s := { s with ret := { s.ret with keyRow := { rc with retired := rc.retired ++ [p] } } }
        let (sp, row) : Nat × KRow := match s.freeSparesOf .keyRow with
          | sp :: _ => (sp, {})
          | [] => (gone, setKState {} kUnusable)
        let rc := s.ret.keyRow
        let s := ({ s with ret := { s.ret with keyRow := { rc with map := tset n rc.map n sp } } } : State).setKrow n row
        (s.programMap.retRecord .keyRow n p 1 0).capacityNotice
  let s1 := if n < 8192 then s1.setPa (n / 4) (setPaKey (s1.pa (n / 4)) (n % 4) {}) else s1
  let s2 := s1.eraseEnded r.byCmd r.waiter
  match s2.key.unwrap with
  | some u =>
    if u.stage = 2 && u.slot = n then
      if kState (s2.krow n) = kEmpty then .next (s2.unwrapStore u) else .next (s2.unwrapEnd u stResource [])
    else .next s2
  | none => .next s2

/-! ### Rolls (R186) -/

/-- A due roll fires (R186): the GTS has reached its activation; next becomes current; the old transmit key is erased, the
old receive key becomes previous until the end of grace. -/
def State.fireRoll (s : State) (n : Nat) (rx : Bool) : State :=
  let a := s.pa n
  let d := dirOf a rx
  match d.roll, d.next with
  | some g, some i =>
    if gtsTime s.gts < gtsTime g then s else
    let d' : Dir := { d with
      cur := some i, next := none, roll := none
      prev := if rx then d.cur else none
      graceEnd := if rx then some (unitsGts (gtsUnits g + paGrace a.params * 1000000 * 65536) 0) else none }
    let s1 := s.setPa n (setDir a rx d')
    let s2 := match rx, d.cur with
      | false, some o => s1.eraseSlot (4 * n + o) false none
      | _, _ => s1
    s2.paEvent n 1 (paKey a i).epoch (b2n rx)
  | _, _ => s

/-- PA_ROLL (R186): an activation that has passed fires on acceptance (R197). -/
def execPaRoll (r : Req) (s : State) : Out :=
  drinerNow 0x0403 r s fun s =>
    let n := leAt r.payload 0 2
    let d := leAt r.payload 2 1
    if 2048 ≤ n || 1 < d || leAt r.payload 3 1 ≠ 0 then (s, stRejected, []) else
    let a := s.pa n
    let rx := d = 1
    let dir := dirOf a rx
    if a.state = .free || a.freeing.isSome then (s, stPaState, [])
    else if dir.next.isNone then (s, stKeyAbsent, [])
    else if s.tim.qual = 3 then (s, stTime, [])
    else
      let s := s.holdPa n
      let a := s.pa n
      let s := s.setPa n (setDir a rx { dir with roll := some (BitVec.ofNat 96 (leAt r.payload 4 12)) })
      (s.fireRoll n rx, stOk, [])

/-- ROLL_FIRE (R186). -/
def execRollFire (n : Fin 2048) (rx : Bool) (s : State) : Out :=
  if s.up then .next (s.fireRoll n.val rx) else .next s

/-- A grace that is over (R186): the previous receive key is erased once no job holds it. -/
def State.endGrace (s : State) (n : Nat) : State :=
  let a := s.pa n
  match a.rx.prev, a.rx.graceEnd with
  | some i, some g =>
    if gtsTime s.gts < gtsTime g then s else
    let s := s.setPa n { a with rx := { a.rx with prev := none, graceEnd := none } }
    (s.eraseSlot (4 * n + i) false none).paEvent n 2 (paKey a i).epoch 0
  | _, _ => s

/-- GRACE_END (R186). -/
def execGraceEnd (n : Fin 2048) (s : State) : Out :=
  if s.up then .next (s.endGrace n.val) else .next s

end Sys2Proof.Machine
end

