-- ==== Sys2Proof/Machine/CryptoEc.lean ====
section
/-! DEFINITION. Sys2Proof/Machine/CryptoEc.lean: modular arithmetic and ECDSA over P-521 as R237, R241 and R242 name
them. The curve's constants are FIPS 186-5's (log entry 30). -/

namespace Sys2Proof.Machine

/-- b^e mod m, over the low `n` bits of e. -/
def powMod (m : Nat) : Nat → Nat → Nat → Nat
  | 0, _, _ => 1 % m
  | n + 1, b, e =>
    force (b * b % m) fun b2 => force (e / 2) fun e2 => force (powMod m n b2 e2) fun r =>
    if e % 2 = 1 then r * b % m else r

/-- Extended Euclid: the coefficient of a in gcd(a, m), with fuel; none where the gcd is not 1. -/
def invLoop (m : Nat) : Nat → Int → Int → Int → Int → Option Nat
  | 0, _, _, _, _ => none
  | f + 1, r0, r1, t0, t1 =>
    if r1 = 0 then (if r0 = 1 then some (t0 % m).toNat else none)
    else invLoop m f r1 (r0 % r1) t1 (t0 - r0 / r1 * t1)

/-- The inverse of a modulo m, below 2^`bits`; none where a is not invertible. -/
def invMod (bits m a : Nat) : Option Nat := invLoop m (2 * bits + 2) (m : Int) ((a % m : Nat) : Int) 0 1

/-! ### The curve -/

def ecP : Nat := 2 ^ 521 - 1
def ecN : Nat := 2 ^ 521 - 0x5AE79787C40D069948033FEB708F65A2FC44A36477663B851449048E16EC79BF7
def ecB : Nat :=
  0x0051953EB9618E1C9A1F929A21A0B68540EEA2DA725B99B315F3B8B489918EF109E156193951EC7E937B1652C0BD3BB1BF073573DF883D2C34F1EF451FD46B503F00
def ecGx : Nat :=
  0x00C6858E06B70404E9CD9E3ECB662395B4429C648139053FB521F828AF606B4D3DBAA14B5E77EFE75928FE1DC127A2FFA8DE3348B3C1856A429BF97E7E31C2E5BD66
def ecGy : Nat :=
  0x011839296A789A3BC0045C8A5FB42C7D1BD998F54449579B446817AFBD17273E662C97EE72995EF42640C550B9013FAD0761353C7086A272C24088BE94769FD16650

/-- A point in Jacobian coordinates; z = 0 is the point at infinity. -/
structure EcPt where
  x : Nat
  y : Nat
  z : Nat

def ecInf : EcPt := { x := 1, y := 1, z := 0 }

/-- `f p`, with the coordinates evaluated first. -/
def forceP {α : Type} (p : EcPt) (f : EcPt → α) : α :=
  force p.x fun x => force p.y fun y => force p.z fun z => f { x := x, y := y, z := z }

/-- Difference modulo p. -/
def ecSub (a b : Nat) : Nat := (a + (ecP - b % ecP)) % ecP

def ecDouble (p : EcPt) : EcPt :=
  if p.z = 0 || p.y = 0 then ecInf
  else
    force (p.z * p.z % ecP) fun z2 =>
    force (3 * (ecSub p.x z2) % ecP * ((p.x + z2) % ecP) % ecP) fun m =>
    force (p.y * p.y % ecP) fun y2 =>
    force (4 * p.x % ecP * y2 % ecP) fun s =>
    force (ecSub (m * m % ecP) (2 * s)) fun x =>
    { x := x, y := ecSub (m * ecSub s x % ecP) (8 * (y2 * y2 % ecP)), z := 2 * p.y * p.z % ecP }

def ecAdd (p q : EcPt) : EcPt :=
  if p.z = 0 then q
  else if q.z = 0 then p
  else
    force (p.z * p.z % ecP) fun z1 =>
    force (q.z * q.z % ecP) fun z2 =>
    force (p.x * z2 % ecP) fun u1 =>
    force (q.x * z1 % ecP) fun u2 =>
    force (p.y * z2 % ecP * q.z % ecP) fun s1 =>
    force (q.y * z1 % ecP * p.z % ecP) fun s2 =>
    if u1 = u2 then (if s1 = s2 then ecDouble p else ecInf)
    else
      force (ecSub u2 u1) fun h =>
      force (ecSub s2 s1) fun r =>
      force (h * h % ecP) fun h2 =>
      force (h2 * h % ecP) fun h3 =>
      force (u1 * h2 % ecP) fun v =>
      force (ecSub (ecSub (r * r % ecP) h3) (2 * v)) fun x =>
      { x := x, y := ecSub (r * ecSub v x % ecP) (s1 * h3 % ecP), z := h * p.z % ecP * q.z % ecP }

/-- k times a point, over the low `n` bits of k. -/
def ecMul : Nat → Nat → EcPt → EcPt
  | 0, _, _ => ecInf
  | n + 1, k, p =>
    force (k / 2) fun k2 => forceP (ecDouble p) fun p2 => forceP (ecMul n k2 p2) fun r =>
    if k % 2 = 1 then ecAdd r p else r

/-- Affine coordinates; none at infinity. -/
def ecAffine (p : EcPt) : Option (Nat × Nat) :=
  forceP p fun p =>
  if p.z = 0 then none
  else
    force (powMod ecP 521 p.z (ecP - 2)) fun zi =>
    force (zi * zi % ecP) fun z2 =>
    force (p.x * z2 % ecP) fun x => force (p.y * z2 % ecP * zi % ecP) fun y => some (x, y)

def ecG : EcPt := { x := ecGx, y := ecGy, z := 1 }

def onCurve (x y : Nat) : Bool :=
  x < ecP && y < ecP && y * y % ecP == (x * x % ecP * x + (ecP - 3) * x + ecB) % ecP

/-- The digest as an integer (R241): SHA-512's 512 bits. -/
def ecDigest (d : Bytes) : Nat := ofBe d

/-- ECDSA signing with nonce k (R242): r and s, 0 where the nonce gives neither. -/
def ecdsaSign (d e k : Nat) : Nat × Nat :=
  match ecAffine (ecMul 521 k ecG) with
  | none => (0, 0)
  | some (x, _) =>
    let r := x % ecN
    (r, (powMod ecN 521 k (ecN - 2)) * ((e + r * d) % ecN) % ecN)

/-- ECDSA verification (R242). -/
def ecdsaVerify (qx qy e r s : Nat) : Bool :=
  force qx fun qx => force qy fun qy => force e fun e => force r fun r => force s fun s =>
  if r = 0 || s = 0 || ecN ≤ r || ecN ≤ s || !onCurve qx qy then false
  else
    force (powMod ecN 521 s (ecN - 2)) fun w =>
    force (e * w % ecN) fun u1 => force (r * w % ecN) fun u2 =>
    match ecAffine (ecAdd (ecMul 521 u1 ecG) (ecMul 521 u2 { x := qx, y := qy, z := 1 })) with
    | none => false
    | some (x, _) => x % ecN == r

/-- The public key of a scalar. -/
def ecPublic (d : Nat) : Option (Nat × Nat) := if d = 0 || ecN ≤ d then none else ecAffine (ecMul 521 d ecG)

/-- A signature outside the engine: r then s, each 66 octets in network order (R242). -/
def sigBytes (r s : Nat) : Bytes := be 66 r ++ be 66 s

/-- Verifies a 132-octet signature over a message under a public key given as x then y, each 66 octets. -/
def sigCheck (pub msg sig : Bytes) : Bool :=
  sig.length = 132 &&
  ecdsaVerify (ofBe (sub pub 0 66)) (ofBe (sub pub 66 66)) (ecDigest (sha512 msg)) (ofBe (sub sig 0 66))
    (ofBe (sub sig 66 66))

end Sys2Proof.Machine
end

