-- ==== Sys2Proof/Machine/QueueCmd.lean ====
section
/-! DEFINITION. Sys2Proof/Machine/QueueCmd.lean: the Driner commands on queue pairs (R135, R136, R140, R141), doorbells
(R97, R113, R115, R145), the key sweep (R143) and coalescing (R101). -/

namespace Sys2Proof.Machine

/-- QP_ASSIGN (R135). -/
def execQpAssign (r : Req) (s : State) : Out :=
  drinerNow 0x0301 r s fun s =>
    let fn := leAt r.payload 0 1
    let first := leAt r.payload 4 4
    let count := leAt r.payload 8 4
    let f := s.fun_ fn
    let overlaps := (upto 64).any fun k =>
      let g := s.fun_ k
      k != fn && g.count != 0 && count != 0 && first < g.first + g.count && g.first < first + count
    if 63 < fn || leAt r.payload 1 3 ≠ 0 || overlaps || 2 ^ 20 < first + count || (fn ≠ 0 && 32768 < count) ||
        s.anyEnabled f.first f.count || s.anyEnabled first count then (s, stRejected, [])
    else ((s.setFun fn { f with first := if count = 0 then 0 else first, count := count }).fwReadies, stOk, [])

/-- CTX_TABLE_SET (R136). -/
def execCtxTableSet (r : Req) (s : State) : Out :=
  drinerNow 0x0302 r s fun s =>
    let addr := leAt r.payload 0 8
    let n := leAt r.payload 8 4
    if n < 64 || 2 ^ 20 < n || n % 64 ≠ 0 || addr % 4096 ≠ 0 || s.anyEnabled 0 (2 ^ 20) then (s, stRejected, [])
    else ({ s with qps := { s.qps with table := some (BitVec.ofNat 64 addr, n) } }, stOk, [])

/-- A context image's host fields within the ranges of R139 and R140, for a function. -/
def imageOk (fn : Nat) (b : Bytes) : Bool :=
  let c := ctxOf b
  let vecs := if fn = 0 then 2048 else 64
  c.flags.toNat < 4 && c.cls.toNat < 4 && 4 ≤ c.cqLog.toNat && c.cqLog.toNat ≤ 16 &&
  (if eventQ c then c.sqBase = 0 && c.sqLog = 0 else 4 ≤ c.sqLog.toNat && c.sqLog.toNat ≤ 16) &&
  c.sqBase.toNat % 4096 = 0 && c.cqBase.toNat % 4096 = 0 &&
  2 ≤ c.vector.toNat && c.vector.toNat < vecs &&
  (if c.cls = 0 then c.weight = 0 else c.weight ≠ 0) &&
  1 ≤ c.inflightMax.toNat && c.inflightMax.toNat ≤ min 1024 (cqSize c - 1) &&
  allZero (sub b 0x29 13)

/-- Class-0 queue pairs enabled device-wide. -/
def State.c0Qps (s : State) : Nat := (s.qps.words.filter fun e => e.2.en && e.2.cls == 0).length

/-- QP_CREATE (R140). -/
def execQpCreate (r : Req) (s : State) : Out :=
  drinerNow 0x0303 r s fun s =>
    let q := leAt r.payload 0 4
    let img := sub r.payload 4 64
    let fn := (midFn r.party).getD 0
    let c := ctxOf img
    let covered := match s.qps.table with
      | some (_, n) => n
      | none => 0
    if !s.ownsQp fn q then (s, stAccess, [])
    else if !imageOk fn img || (s.qw q).en || (s.qw q).destroying || covered ≤ q || (c.cls = 0 && 4096 ≤ s.c0Qps) then
      (s, stRejected, [])
    else if !s.mayMove 0 then (s, stAccess, [])
    else
      let w := s.qw q
      let cls : BitVec 2 := BitVec.ofNat 2 c.cls.toNat
      let w' : QpWord := { en := true, cls := cls, owner := BitVec.ofNat 6 fn, gen := s.qps.gen, pinned := cls == 0,
                           destroying := false, seq := w.seq + 1, evq := eventQ c }
      let c' : Ctx := { c with sqHead := 0, cqTail := 0, sqTail := 0, cqHead := 0, ovf := 0, phase := 1 }
      let s := (((s.setQw q w').setQrun q {}).uncache q).writeCtx q c'
      let s := if cls = 0 then s.cacheCtx q c' else s
      (s.sweepCheck q, stOk, le 2 w'.seq.toNat)

/-- QP_DESTROY (R141): it is answered when the entries posted before it have been fetched and their jobs have completed
(R164). -/
def execQpDestroy (r : Req) (s : State) : Out :=
  driner 0x0304 r s fun s =>
    let q := leAt r.payload 0 4
    let fn := (midFn r.party).getD 0
    let w := s.qw q
    if !s.ownsQp fn q then s.reply r.party r.tag 0x0304 stAccess []
    else if !w.en || w.destroying then s.reply r.party r.tag 0x0304 stRejected []
    else (s.setQw q { w with destroying := true }).setQrun q { s.qrun q with destroyBy := some (r.party, r.tag) }

/-- Entries posted before DESTROYING are still to be fetched: a doorbell before it is served (R164). None is where fetch has
stopped for good: HALT, ZEROIZE, or a function that may not move. -/
def State.postedStill (s : State) (q : Nat) : Bool :=
  let r := s.qrun q
  (s.qw q).en && !s.halted && !s.tmp.zeroized && s.mayMove (s.qw q).owner.toNat &&
  (r.posted || match s.ctx? q with
    | some c => s.unfetched q c != 0
    | none => false)

/-- QP_DESTROY_FINISH (R141): the last job has completed. A context held in the cache is written back, unless the queue
pair has been disabled meanwhile. A context fetch under way ends first. -/
def execQpDestroyFinish (qpn : Nat) (s : State) : Out :=
  let w := s.qw qpn
  if !s.up || !w.destroying || s.inFlight qpn ≠ 0 || (s.qrun qpn).fetching || s.postedStill qpn then .next s else
  let r := s.qrun qpn
  let s1 := match w.en, s.ctx? qpn with
    | true, some c => s.writeBack qpn c
    | _, _ => s
  let w1 := s1.qw qpn
  let s2 := ((s1.setQw qpn { w1 with en := false, pinned := false, destroying := false }).uncache qpn).setQrun qpn
    { unsig := r.unsig, due := r.due, vector := r.vector }
  let s2 := s2.leaveOrder qpn
  let s3 := each r.units (fun u s => s.dbErr u.fn qpn 1) s2
  match r.destroyBy with
  | some (p, t) => .next (s3.reply p t 0x0304 stOk [])
  | none => .next s3

/-- What QP_QUERY answers of a context; without one, the last three fields are 0. -/
def State.queryBody (s : State) (q : Nat) (c : Option Ctx) : Bytes :=
  le 4 (s.qw q).word.toNat ++ match c with
    | some c => le 2 c.sqHead.toNat ++ le 2 c.cqTail.toNat ++ le 4 c.ovf.toNat
    | none => List.replicate 8 0

/-- QP_QUERY (R132, R138): an enabled queue pair whose context is not in the cache has it fetched first (log entry 33). -/
def execQpQuery (r : Req) (s : State) : Out :=
  driner 0x0305 r s fun s =>
    let q := leAt r.payload 0 4
    let fn := (midFn r.party).getD 0
    if !s.ownsQp fn q then s.reply r.party r.tag 0x0305 stAccess []
    else match s.ctx? q with
      | some c => s.reply r.party r.tag 0x0305 stOk (s.queryBody q (some c))
      | none =>
        if !(s.qw q).en || s.qps.table.isNone || !s.mayMove 0 then
          s.reply r.party r.tag 0x0305 stOk (s.queryBody q none)
        else
          let k := s.qrun q
          (s.setQrun q { k with queryBy := k.queryBy ++ [(r.party, r.tag)] }).fetchCtx q

/-- Answers the queries that waited on a context fetch. -/
def State.answerQueries (s : State) (q : Nat) : State :=
  let r := s.qrun q
  let s := s.setQrun q { r with queryBy := [] }
  each r.queryBy (fun e s => s.reply e.1 e.2 0x0305 stOk (s.queryBody q (s.ctx? q))) s

/-! ### Doorbells -/

/-- A decoded doorbell unit of a function (R97, R113, R115, R145). DESIGN CHOICE (log entry 125): a badly formed unit has reason 2,
one not owned reason 0, before FW_READY, HALT and ZEROIZE give reason 1. -/
def State.dbUnit (s : State) (fn k : Nat) (tail head : Option (BitVec 16)) : State :=
  let q := if fn = 0 then k else (s.fun_ fn).first + k
  if !s.ownsQp fn q then s.dbErr fn q 0
  else
    let w := s.qw q
    if !(s.fun_ fn).fwReady || s.halted || s.tmp.zeroized || !w.en || w.destroying then s.dbErr fn q 1
    else s.unitArrives q { fn := fn, tail := tail, head := head }

/-- DOORBELL (R97): a write to a doorbell BAR, in aligned 8-byte units, in ascending address order. -/
def execDoorbell (fn : Fin 64) (offset : Nat) (data : List (BitVec 8)) (allBytes : Bool) (s : State) : Out :=
  if !(s.up && s.pci.up && s.fnEnabled fn.val) || (s.fun_ fn.val).d3hot then .next s else
  let n := data.length
  let k := offset / 8
  let w (i : Nat) : BitVec 16 := BitVec.ofNat 16 (leAt data i 2)
  if allBytes && n = 4 && offset % 8 = 0 then .next (s.dbUnit fn.val k (some (w 0)) none)
  else if allBytes && n = 4 && offset % 8 = 4 then .next (s.dbUnit fn.val k none (some (w 0)))
  else if allBytes && offset % 8 = 0 && n % 8 = 0 && 8 ≤ n && n ≤ 512 then
    .next (each (upto (n / 8)) (fun i s =>
      s.dbUnit fn.val (k + i) (some (w (8 * i))) (some (w (8 * i + 4)))) s)
  else
    let base := if fn.val = 0 then 0 else (s.fun_ fn.val).first
    .next (each (upto ((offset + n + 7) / 8 - k)) (fun i s => s.dbErr fn.val (base + k + i) 2) s)

/-- COALESCE_TIMEOUT (R101): the oldest unsignalled entry has been held COAL_TIME µs. -/
def execCoalesceTimeout (qpn : Nat) (s : State) : Out :=
  let r := s.qrun qpn
  if !s.up || r.unsig = 0 || s.now < r.due then .next s
  else .next ((s.setQrun qpn { r with unsig := 0 }).msix (s.qw qpn).owner.toNat r.vector ((s.qw qpn).cls == 0))

/-! ### The key sweep (R143) -/

/-- A queue pair is swept: SEQ 0, GEN flipped, and a context is written under the new key. -/
def State.sweepOne (s : State) (q : Nat) (c : Option Ctx) : State :=
  let w := s.qw q
  let s := s.setQw q { w with seq := 0, gen := s.qps.gen }
  let s := { s with qps := { s.qps with sweepNext := s.qps.sweepNext.filter (· != q) } }
  match c with
  | some c => s.writeCtx q c
  | none => s

/-- A read of the sweep is outstanding or waits for a tag. -/
def State.sweepReading (s : State) : Bool :=
  let isSweep (h : HRead) : Bool := match h.why with
    | .sweep _ => true
    | _ => false
  s.pci.tags.any (fun e => isSweep e.2) || s.pci.waitTag.any isSweep

/-- KEY_SWEEP_STEP (R143): the next queue pair of the walk, or the end of the walk and the erasure of the old key. -/
def execKeySweepStep (s : State) : Out :=
  match s.qps.sweep with
  | none => .next s
  | some next =>
    if !s.up || s.sweepReading then .next s else
    let due := s.qps.words.filter fun e => next ≤ e.1 && e.2.gen != s.qps.gen
    match s.qps.sweepNext.head? <|> (due.head?.map (·.1)) with
    | none =>
      if s.qps.gen then .next { s with qps := { s.qps with sweep := none, key0 := 0 } }
      else .next { s with qps := { s.qps with sweep := none, key1 := 0 } }
    | some q =>
      let w := s.qw q
      let s' := if s.qps.sweepNext.contains q then s else { s with qps := { s.qps with sweep := some q } }
      if !w.en then .next (s'.sweepOne q none)
      else match s.ctx? q with
        | some c => .next (s'.sweepOne q (some c))
        | none =>
          if (s.qrun q).fetching then .next s
          else match s.qps.table with
            | none => .next (s'.ctxFail q 3)
            | some (a, _) =>
              if !s.mayMove 0 then .next (s'.ctxFail q 3)
              else .next (s'.startRead { why := .sweep q, fn := 0, c0 := false, addr := a.toNat + 64 * q, len := 64 })

end Sys2Proof.Machine
end

