-- ==== Sys2Proof/Machine/Jobs.lean ====
section
/-! DEFINITION. Sys2Proof/Machine/Jobs.lean: submission entries (R148 to R150), fetch, admission and dispatch (R155 to
R157), the host's read completions (R104), completion (R154) and event entries (R161, R162). -/

namespace Sys2Proof.Machine

/-! ### Submission entries (R148) -/

/-- The fields of a submission entry's 64 bytes. -/
def sqeOf (b : Bytes) : Sqe :=
  { opcode := leAt b 0 1, flags := BitVec.ofNat 8 (leAt b 1 1), cid := leAt b 2 2, target := leAt b 4 2,
    keysel := leAt b 6 1, tagLen := leAt b 7 1, src := leAt b 8 8, dst := leAt b 0x10 8, length := leAt b 0x18 4,
    aadLen := leAt b 0x1C 2, iv := sub b 0x20 12, tag := sub b 0x2C 16,
    resOk := leAt b 0x1E 2 = 0 && leAt b 0x3C 4 = 0 && leAt b 1 1 < 8 }

def fence (q : Sqe) : Bool := q.flags.getLsbD 0
def quiet (q : Sqe) : Bool := q.flags.getLsbD 1
def archiveFlag (q : Sqe) : Bool := q.flags.getLsbD 2

/-- An association job's direction: receive (R149). -/
def isRx (op : Nat) : Bool := op % 2 = 0

/-- The fields that no job group but its own uses are 0 (R148, R9). -/
def noKeyFields (q : Sqe) : Bool := q.keysel = 0 && q.tagLen = 0 && allZero q.iv && allZero q.tag

/-- TAG_LEN of GCM and GMAC jobs (R208). -/
def tagLenOk (n : Nat) : Bool := n = 8 || n = 12 || n = 16

/-- The USE bit of a job of a general slot (R208, R231). -/
def useBit (op : Nat) : Nat :=
  match op with
  | 0x10 => useGcmEnc | 0x11 => useGcmDec | 0x12 => useGmacGen | 0x13 => useGmacVer | 0x14 => useCtr | _ => useHmac

/-- Steps 3 to 6 of R209 and R232: the slot named. -/
def State.slotCheck (s : State) (fn op slot : Nat) : Option Nat :=
  if 16384 ≤ slot then some stRejected
  else if slot < 8192 then some stAccess
  else if !mayUse (s.krow slot) fn then some stKeyAbsent
  else if !hasUse (s.krow slot) (useBit op) then some stAccess
  else none

/-- The ranges of R208 for a cipher job. -/
def cipherLenOk (q : Sqe) : Bool :=
  match q.opcode with
  | 0x10 | 0x11 => tagLenOk q.tagLen && q.aadLen ≤ 1024 && q.length ≤ 16384
  | 0x12 | 0x13 => tagLenOk q.tagLen && 1 ≤ q.aadLen && q.aadLen ≤ 1024 && q.length = 0
  | _ => q.aadLen = 0 && 1 ≤ q.length && q.length ≤ 16384

/-- Step 1 of R209: KEYSEL, the unused fields, the DST rule. -/
def cipherFieldsOk (q : Sqe) : Bool :=
  q.keysel = 0 &&
  (match q.opcode with
   | 0x11 => allZero (q.tag.drop q.tagLen)
   | 0x13 => allZero (q.tag.drop q.tagLen) && q.dst = 0
   | 0x12 => allZero q.tag && (q.dst ≠ 0 || q.tagLen = 8)
   | 0x14 => allZero q.tag && q.tagLen = 0
   | _ => allZero q.tag)

/-- Archive full, and the overfill band of 1,024 blocks used up (R291, R264). -/
def State.overfillOut (s : State) : Bool := 1024 * 32 ≤ s.arc.overfill

/-- A record of `n` body bytes, padded (R273, R279). -/
def padded (n : Nat) : Nat := (64 + n + 63) / 64 * 64

/-- The staging room a job 0x30 reserves: its padded length, or 1 MiB for a large record (R279). -/
def appendRoom (n : Nat) : Nat := if 1048576 < n then 1048576 else padded n

/-- Staging room reserved by admitted appends that the archive has not yet accepted (R279). -/
def State.reservedRoom (s : State) (c0 : Bool) : Nat :=
  ((s.qps.jobs.filter fun j => j.sqe.opcode == 0x30 && j.stage != .done && !j.waitRec && (j.cls == 0) == c0).map
    fun j => appendRoom j.sqe.length).sum +
  ((s.arc.arrivals.filter fun a => a.reserved && (a.r.cls == 0) == c0).map fun a => appendRoom a.r.body.length).sum

/-- The room left in a class's staging area. -/
def State.roomLeft (s : State) (cls : BitVec 2) : Nat :=
  if cls = 0 then resArea - s.arc.resUsed - s.reservedRoom true else genArea - s.arc.genUsed - s.reservedRoom false

/-- The admission check of a job: the status that ends it, or none (R148, R149, R179, R191, R209, R232, R293). -/
def State.admitCheck (s : State) (fn : Nat) (cls : BitVec 2) (q : Sqe) : Option Nat :=
  if !q.resOk || (quiet q && cls = 0) || (archiveFlag q && !isAssoc q.opcode) then some stRejected
  else if q.opcode = 0 then (if noKeyFields q && q.target = 0 then none else some stRejected)
  else if isAssoc q.opcode then
    let a := s.pa q.target
    let proto := (q.opcode - 1) / 2
    let rx := isRx q.opcode
    if 2048 ≤ q.target || 3 < q.keysel || (q.keysel = 3 && !rx) || q.tagLen ≠ 0 || !allZero q.iv || !allZero q.tag ||
        (proto < 2 && rx && q.dst ≠ 0) then some stRejected
    else if 1024 < q.aadLen || (if proto < 2 then q.aadLen = 0 || q.length ≠ 0 else 16384 < q.length) then some stLength
    else if a.state ≠ .active || a.freeing.isSome || !(if rx then paRx a else paTx a) || paProto a ≠ proto then
      some stPaState
    else none
  else if 0x10 ≤ q.opcode && q.opcode ≤ 0x14 then
    if !cipherFieldsOk q then some stRejected
    else if !cipherLenOk q then some stLength
    else s.slotCheck fn q.opcode q.target
  else if q.opcode = 0x20 || q.opcode = 0x21 || q.opcode = 0x22 then
    if !noKeyFields q || q.aadLen ≠ 0 || (q.opcode ≠ 0x22 && q.target ≠ 0) then some stRejected
    else if 16384 < q.length then some stLength
    else if q.opcode = 0x22 then s.slotCheck fn 0x22 q.target
    else none
  else if q.opcode = 0x30 then
    if !noKeyFields q || q.aadLen ≠ 0 || q.dst ≠ 0 || q.target < 0x8000 || q.target = 0xFFFF then some stRejected
    else if 16777216 < q.length then some stLength
    else if s.arc.full then some stArchiveFull
    else none
  else some stRejected

/-- The keys an association job may use, as they stand at its admission (R187, R188). -/
def State.candidates (s : State) (q : Sqe) : List KeyHold :=
  let n := q.target
  let a := s.pa n
  let d := dirOf a (isRx q.opcode)
  let hold (role : Nat) (o : Option Nat) : List KeyHold :=
    match o with
    | some i => if kState (s.krow (4 * n + i)) = kLoaded then
        [{ role := role, slot := 4 * n + i, epoch := (paKey a i).epoch, keyId := (paKey a i).keyId }] else []
    | none => []
  match q.keysel, isRx q.opcode with
  | 0, true => hold 0 d.cur ++ hold 1 d.next ++ hold 2 d.prev
  | 0, false => hold 0 d.cur
  | 1, _ => hold 0 d.cur
  | 2, _ => hold 1 d.next
  | _, _ => hold 2 d.prev

/-- Payload bytes a job reads from SRC. -/
def srcLen (a : Pa) (q : Sqe) : Nat :=
  if q.opcode = 0 then 0
  else q.aadLen + q.length + (if q.opcode = 6 then paGenTag a.params else 0)

/-- Reads of at most Max Read Request Size, none across a 4 KiB boundary (R102). -/
def readChunks (mrrs : Nat) : Nat → Nat → Nat → List (Nat × Nat)
  | 0, _, _ => []
  | f + 1, a, n =>
    if n = 0 then []
    else
      let k := min (min mrrs (4096 - a % 4096)) n
      (a, k) :: readChunks mrrs f (a + k) (n - k)

/-- Tags free in a pool. -/
def State.tagsFree (s : State) (c0 : Bool) : Nat :=
  let (b, n) := tagPool s.pci.tag10 c0
  n - (s.pci.tags.filter fun e => b ≤ e.1 && e.1 < b + n).length

/-- A job's payload reads are issued together (R103); a class-0 job that waits for a tag carries cause 1 (R160). A job
with nothing to read is ready at once. -/
def State.readPayload (s : State) (j : Job) : State :=
  let len := srcLen (s.pa j.sqe.target) j.sqe
  let parts := readChunks s.pci.maxRead len j.sqe.src len
  if parts.isEmpty then s.putJob { j with stage := .ready, readyAt := s.now }
  else
    let j := if s.tagsFree (j.cls == 0) < parts.length then outsideBy j 1 else j
    let s := s.putJob { j with stage := .reading, need := parts.length }
    each (parts.zip (upto parts.length)) (fun e s => s.startRead
      { why := .payload j.id e.2, fn := j.fn, c0 := j.cls == 0, addr := e.1.1, len := e.1.2 }) s

/-- The bytes a job has read, in order. -/
def jobData (j : Job) : Bytes := ((upto j.need).map fun i => tget [] j.got i).flatten

/-- JOB_ADMIT (R150, R156, R187): the next fetched entry of a queue pair, in ring order. It waits while the job table,
or an append's staging area, has no room. -/
def State.admitNext (s : State) (q : Nat) : State :=
  match (s.qrun q).runs with
  | [] => s
  | run :: rest =>
    match run.data with
    | none => s
    | some data =>
      let w := s.qw q
      let fn := w.owner.toNat
      let sqe := sqeOf (data.take 64)
      let general := (s.qps.jobs.filter (·.cls != 0)).length
      let noEntry := 8192 ≤ s.qps.jobs.length || (w.cls ≠ 0 && 7680 ≤ general)
      let s := if isAssoc sqe.opcode then
        ((s.fireRoll sqe.target false).fireRoll sqe.target true).endGrace sqe.target else s
      let check := if s.halted || s.tmp.zeroized then some stAborted else s.admitCheck fn w.cls sqe
      let noRoom := check.isNone && sqe.opcode = 0x30 && s.roomLeft w.cls < appendRoom sqe.length
      if noEntry || noRoom then s else
      let run' : SqRun := { run with first := run.first + 1, count := run.count - 1, data := some (data.drop 64) }
      let r := s.qrun q
      let s := s.setQrun q { r with runs := if run'.count = 0 then rest else run' :: rest }
      let id := s.qps.nextJob
      let j : Job := { id := id, qpn := q, fn := fn, cls := w.cls, sqe := sqe, admitted := s.stampAt 5, idx := s.freeIndex }
      let covered := isAssoc sqe.opcode && sqe.aadLen + sqe.length ≤ 512
      let a := s.pa sqe.target
      let held := s.now < a.heldUntil
      let away := isAssoc sqe.opcode && (held || a.state ≠ .active)
      let j := if run.waited then outsideBy j 1 else j
      let j := if run.credWait then outsideBy j 7 else j
      let j := if !covered then outsideBy j 6 else j
      let j := if s.c0Withdrawn then outsideBy j 4 else j
      let j := if away then outsideBy j 5 else j
      let j : Job := if isAssoc sqe.opcode && held then { j with heldUntil := a.heldUntil } else j
      let add (s : State) (j : Job) : State :=
        { s with qps := { s.qps with jobs := s.qps.jobs ++ [j], nextJob := id + 1 } }
      match check with
      | some st => (add s j).finishJob j st (noResult sqe.opcode)
      | none =>
        let holds :=
          if isAssoc sqe.opcode then s.candidates sqe
          else if (0x10 ≤ sqe.opcode && sqe.opcode ≤ 0x14) || sqe.opcode = 0x22 then
            [{ role := 0, slot := sqe.target }]
          else []
        let s := each holds (fun h s => s.takeHold h.slot) s
        let j := { j with holds := holds }
        let earlier := !(s.jobsOf q).isEmpty
        if fence sqe && earlier then add s { j with stage := .fenced } else (add s j).readPayload j

/-- JOB_ADMIT. -/
def execJobAdmit (qpn : Nat) (s : State) : Out :=
  if s.up then .next (s.admitNext qpn) else .next s

/-! ### Fetch (R150, R155) -/

/-- Fetch of a class runs: not in HALT; C2 and C3 stop in power-fail prepare and until recovery, under the cap's shed
steps and under the noise throttle (R414 to R416, R420, R257, R433). -/
def State.classFetches (s : State) (cls : Nat) : Bool :=
  !s.halted && !s.tmp.zeroized &&
  match cls with
  | 0 => true
  | 1 => true
  | 2 => !s.pwr.prepare && !s.pwr.recovering && s.pwr.shed < 2 && !s.nh.thrC2
  | _ => !s.pwr.prepare && !s.pwr.recovering && s.pwr.shed < 1 && !s.nh.thrC3

/-- How many entries a queue pair may have fetched now: up to eight, none past the ring's end, within its credit, its
in-flight limit and its free CQ slots. Entries posted before DESTROYING are fetched still: their doorbell is served (R164). -/
def State.fetchable (s : State) (q : Nat) : Nat :=
  let w := s.qw q
  match s.ctx? q with
  | none => 0
  | some c =>
    if !w.en || eventQ c || !s.mayMove w.owner.toNat || !s.classFetches w.cls.toNat then 0
    else
      let f := (s.qrun q).fetch
      let ahead := ringDiff (sqSize c) f c.sqHead.toNat
      let n := min 8 (min (sqSize c - f) (s.unfetched q c))
      min n (min (s.credit q c - ahead) (min (c.inflightMax.toNat - s.inFlight q) (s.cqFree q c)))

/-- A run of entries is read (R150), with requests of at most Max Read Request Size, none across a 4 KiB boundary (R102). -/
def State.askRun (s : State) (q n : Nat) : State :=
  match s.ctx? q with
  | none => s
  | some c =>
    let r := s.qrun q
    let c0 := (s.qw q).cls == 0
    let parts := readChunks s.pci.maxRead (64 * n) (c.sqBase.toNat + 64 * r.fetch) (64 * n)
    let waited := s.tagsFree c0 < parts.length
    let id := s.qps.nextRun
    let s := (s.setQrun q { r with
      runs := r.runs ++ [{ id := id, first := r.fetch, count := n, need := parts.length, waited := waited }]
      fetch := (r.fetch + n) % sqSize c }).touch q
    each (parts.zip (upto parts.length)) (fun e s => s.startRead
      { why := .sqRun q id e.2, fn := (s.qw q).owner.toNat, c0 := c0, addr := e.1.1, len := e.1.2 })
      { s with qps := { s.qps with nextRun := id + 1 } }

/-- The class quanta of a round (R155): in INCIDENT, C3 gets none while any C1 entry waits, fetchable or not. -/
def State.quanta (s : State) : Nat × Nat × Nat :=
  if s.pwr.profile = .incident then
    let c1 (q : Nat) : Bool := (s.qw q).en && (s.qw q).cls == 1
    let c1Waits := (s.qps.cache.any fun e => c1 e.1 && s.unfetched e.1 e.2 != 0) ||
      s.qps.run.any fun e => c1 e.1 && e.2.posted
    (8, 1, if c1Waits then 0 else 1)
  else (8, 4, 1)

/-- Eligible queue pairs of a class, in order of QPN. -/
def State.eligible (s : State) (cls : Nat) : List Nat :=
  (s.qps.cache.map (·.1)).filter fun q => (s.qw q).cls.toNat = cls && 0 < s.fetchable q

/-- A class's turn of the round: the lowest eligible queue pair with deficit left; without one every eligible queue pair
gains its WEIGHT. The order within a class is the model's (log entry 34). -/
def State.classTurn (s : State) (cls quantum : Nat) : State :=
  let es := s.eligible cls
  let s := if es.any fun q => 0 < (s.qrun q).deficit then s
    else each es (fun q s =>
      let w := match s.ctx? q with
        | some c => c.weight.toNat
        | none => 0
      s.setQrun q { s.qrun q with deficit := (s.qrun q).deficit + w }) s
  match es.find? fun q => 0 < (s.qrun q).deficit with
  | none => s
  | some q =>
    let n := min (s.fetchable q) (min quantum (s.qrun q).deficit)
    let s := s.setQrun q { s.qrun q with deficit := (s.qrun q).deficit - n }
    let left := quantum - n
    let s := match cls with
      | 1 => { s with qps := { s.qps with q1 := left } }
      | 2 => { s with qps := { s.qps with q2 := left } }
      | _ => { s with qps := { s.qps with q3 := left } }
    s.askRun q n

/-- Starts the reads of the contexts that are to be fetched: evicted with entries still to fetch, or waiting for a place or
for their write-back. -/
def State.refetch (s : State) : State :=
  each (s.qps.run.filter fun e => e.2.posted && !e.2.fetching && (s.qw e.1).en) (fun e s => s.fetchCtx e.1) s

/-- SQ_FETCH (R155): contexts to be fetched are asked for; then class 0 in order of doorbell arrival, C1 to C3 by deficit round
robin. -/
def execSqFetch (s : State) : Out :=
  if !s.up then .next s else
  let s := s.refetch
  match s.qps.c0Order.find? fun q => 0 < s.fetchable q with
  | some q =>
    let s1 := s.askRun q (s.fetchable q)
    let more : Bool := match s1.ctx? q with
      | some c => s1.unfetched q c != 0
      | none => false
    if more then .next s1
    else .next { s1 with qps := { s1.qps with c0Order := s1.qps.c0Order.filter (· != q) } }
  | none =>
    let has (c : Nat) : Bool := !(s.eligible c).isEmpty
    if !(has 1 || has 2 || has 3) then .next s else
    let k := s.qps
    let live := (has 1 && 0 < k.q1) || (has 2 && 0 < k.q2) || (has 3 && 0 < k.q3)
    let (a, b, c) := if live then (k.q1, k.q2, k.q3) else s.quanta
    let s1 : State := { s with qps := { k with
      q1 := if has 1 then a else 0, q2 := if has 2 then b else 0, q3 := if has 3 then c else 0 } }
    if has 1 && 0 < a then .next (s1.classTurn 1 a)
    else if has 2 && 0 < b then .next (s1.classTurn 2 b)
    else if has 3 && 0 < c then .next (s1.classTurn 3 c)
    else .next s1

/-! ### Read completions (R104) -/

/-- A request of a run has returned. -/
def SqRun.take (x : SqRun) (k : Nat) (data : Bytes) : SqRun :=
  let got := tset [] x.got k data
  if got.length < x.need then { x with got := got }
  else { x with got := [], data := some ((upto x.need).map fun i => tget [] got i).flatten }

/-- A part of a run's entries has been read: SQ_HEAD moves past the runs read in ring order (R150). -/
def State.runRead (s : State) (q id k : Nat) (data : Bytes) : State :=
  let r := s.qrun q
  let runs := r.runs.map fun x => if x.id = id && x.data.isNone then x.take k data else x
  let s := s.setQrun q { r with runs := runs }
  match s.ctx? q with
  | none => s
  | some c =>
    let head := (runs.takeWhile (·.data.isSome)).getLast?.map fun x => (x.first + x.count) % sqSize c
    match head with
    | some h => s.putCtx q { c with sqHead := BitVec.ofNat 16 h }
    | none => s

/-- A run cannot be read (R150): one CQE with CID 0xFFFF and HOST_READ; neither its entries nor later ones are admitted;
the queue pair is disabled. -/
def State.runFail (s : State) (q id : Nat) : State :=
  let r := s.qrun q
  match r.runs.find? (·.id == id) with
  | none => s
  | some x =>
    let s := s.setQrun q { r with runs := r.runs.takeWhile (·.id != id) }
    let s := match s.ctx? q with
      | none => s
      | some c => s.writeCqe q c 0xFFFF stHostRead 0 x.first (s.credit q c) (List.replicate 8 0) (le 12 s.gts.toNat) 0 none
    s.disableQp q

/-- A context has been read (R142): its MAC, then its SEQ; then the units and entries that wait on it. -/
def State.ctxRead (s : State) (q : Nat) (data : Bytes) : State :=
  let w := s.qw q
  let r := s.qrun q
  if !w.en then
    let s := s.setQrun q { r with units := [], fetching := false }
    (each r.units (fun u s => s.dbErr u.fn q 1) s).answerQueries q
  else if ctxMac (s.ctxKey w.gen) q (sub data 0 56) ≠ sub data 56 8 then (s.ctxFail q 1).answerQueries q
  else if leAt data 0x36 2 ≠ w.seq.toNat then (s.ctxFail q 2).answerQueries q
  else
    let c := ctxOf data
    let s := ((s.setQrun q { r with units := [], fetching := false, fetch := c.sqHead.toNat }).putCtx q c).touch q
    let s := each r.units (fun u s => match s.ctx? q with
      | some c => s.applyUnit q c u
      | none => s) s
    s.answerQueries q

/-- A context has been read for the sweep (R143). A queue pair whose context is being fetched meanwhile is taken again
later. -/
def State.sweepRead (s : State) (q : Nat) (data : Bytes) : State :=
  let w := s.qw q
  if !w.en || w.gen = s.qps.gen || (s.qrun q).fetching || (s.ctx? q).isSome then s
  else if ctxMac (s.ctxKey w.gen) q (sub data 0 56) ≠ sub data 56 8 then s.ctxFail q 1
  else if leAt data 0x36 2 ≠ w.seq.toNat then s.ctxFail q 2
  else s.sweepOne q (some (ctxOf data))

/-- A payload chunk has been read: the job is ready once all have. -/
def State.chunkRead (s : State) (id k : Nat) (data : Bytes) : State :=
  match s.job? id with
  | none => s
  | some j =>
    if j.stage ≠ .reading then s else
    let got := tset [] j.got k data
    if got.length = j.need then s.putJob { j with got := got, stage := .ready, readyAt := s.now }
    else s.putJob { j with got := got }

/-- A read fails (R104, R142, R144, R150). -/
def State.readFails (s : State) (h : HRead) : State :=
  match h.why with
  | .context q => (s.ctxFail q 3).answerQueries q
  | .sqRun q id _ => s.runFail q id
  | .payload id _ => match s.job? id with
    | some j => s.finishJob j stHostRead (noResult j.sqe.opcode)
    | none => s
  | .sweep q => if (s.qw q).en && (s.qw q).gen ≠ s.qps.gen then s.ctxFail q 3 else s

/-- The tag of a read returns to its pool, and the oldest read waiting there takes it. -/
def State.freeRead (s : State) (tag : Nat) (h : HRead) : State :=
  ({ s with pci := { s.pci with tags := s.pci.tags.filter (·.1 != tag) } } : State).retryTags h.c0

/-- HOST_READ_COMPLETION (R104, R114). -/
def execHostReadCompletion (tag : Nat) (c : Cpl) (s : State) : Out :=
  if !(s.up && s.pci.up) then .next s else
  match (s.pci.tags.find? (·.1 == tag)).map (·.2) with
  | none => .next (s.aerLog .unexpectedCompletion 0 0)
  | some h =>
    let s := s.freeRead tag h
    match c with
    | .data b =>
      match h.why with
      | .context q => .next (s.ctxRead q b)
      | .sqRun q id k => .next (s.runRead q id k (sub b 0 h.len))
      | .payload id k => .next (s.chunkRead id k (sub b 0 h.len))
      | .sweep q => .next (s.sweepRead q b)
    | .unsupported => .next ((s.aerLog .unsupportedRequest h.fn 0).readFails h)
    | .abort => .next ((s.aerLog .completerAbort h.fn 0).readFails h)
    | .poisoned => .next ((s.aerLog .poisoned h.fn 0).readFails h)
    | .ecrcFail => .next ((s.aerLog .ecrc h.fn 0).readFails h)

/-- COMPLETION_TIMEOUT (R104): measured from the request's first symbol, with an accuracy of +0 / -2 %. -/
def execCompletionTimeout (tag : Nat) (s : State) : Out :=
  match (s.pci.tags.find? (·.1 == tag)).map (·.2) with
  | none => .next s
  | some h =>
    match h.sentAt with
    | none => .next s
    | some t =>
      if !s.up || s.now * 100 < t * 100 + 98 * cplTimeout s.pci.ctv s.pci.ctDisable then .next s
      else .next (((s.freeRead tag h).aerLog .completionTimeout h.fn 0).readFails h)

/-! ### Dispatch (R157, R199, R203, R213, R229, R230) -/

/-- The frame of a GOOSE or SV job, or what the AAD of a generic job carries: key ID, if any, and the frame. -/
inductive Seqd where
  /-- a parse code of R175 -/
  | bad (code : Nat)
  | frame (fr : Frame) (keyId : Nat)
  | generic (invocation : Nat) (keyId : Option Nat)

/-- What the frame sequencer makes of a job's AAD (R174, R175, R190). -/
def State.sequencer (s : State) (j : Job) : Seqd :=
  let p := (s.pa j.sqe.target).params
  let f := (jobData j).take j.sqe.aadLen
  if j.sqe.opcode ≤ 4 then
    match parseFrame f (3 ≤ j.sqe.opcode) p with
    | .error c => .bad c
    | .ok fr => .frame fr (ofBe (sub f fr.kid 4))
  else if f.length < paSeqOfs p + 8 || (paKidOfs p ≠ 0xFFFF && f.length < paKidOfs p + 4) then .bad 7
  else .generic (ofBe (sub f (paSeqOfs p) 8))
    (if paKidOfs p = 0xFFFF then none else some (ofBe (sub f (paKidOfs p) 4)))

/-- The key an association job uses (R188): on receive its ID must be the frame's. -/
def pickKey (j : Job) (q : Seqd) : Option KeyHold :=
  let want := match q with
    | .frame _ k => some k
    | .generic _ k => k
    | .bad _ => none
  if !isRx j.sqe.opcode then j.holds.head?
  else match want with
    | some k => j.holds.find? (·.keyId == k)
    | none => j.holds.find? fun h => h.role == 0 || j.sqe.keysel != 0

/-- What a job runs on: nothing, a gang of lanes under a slot and MODE of R206, or a hash unit. -/
inductive RunOn where
  | nothing
  | lanes (g slot mode : Nat)
  | hash (class0Hmac : Bool)

def cipherMode (op : Nat) : Nat :=
  match op with
  | 0x10 => 0 | 0x11 => 1 | 0x12 => 2 | 0x13 => 3 | _ => 4

/-- The resources a ready job needs (R157, R203, R229). -/
def State.runOn (s : State) (j : Job) : RunOn :=
  let op := j.sqe.opcode
  let g (n : Nat) : Nat := if j.cls = 0 then min n s.activeLanes.length else 1
  if isAssoc op then
    let sq := s.sequencer j
    match sq, pickKey j sq with
    | .bad _, _ => .nothing
    | _, none => .nothing
    | _, some h =>
      let alg := paAlg (s.pa j.sqe.target).params
      if algHmac alg then .hash (j.cls = 0)
      else if algGmac alg then .lanes (g 4) h.slot (if isRx op then 3 else 2)
      else .lanes (g 8) h.slot (if isRx op then 1 else 0)
  else if 0x10 ≤ op && op ≤ 0x14 then
    .lanes (g (if j.sqe.length = 0 then 4 else 8)) j.sqe.target (cipherMode op)
  else if 0x20 ≤ op && op ≤ 0x22 then .hash false
  else .nothing

/-- A lane takes part in an assay: its own, or as the partner of the merge (R215). -/
def State.laneInAssay (s : State) (p : Nat) : Bool := s.assayRuns .lane p || s.ret.partners.any (·.2 == p)

/-- A lane can take a job: it serves a logical number, is idle and in no assay; its physical number. -/
def State.laneFree (s : State) (n : Nat) : Option Nat :=
  match s.phys .lane n with
  | some p => if (s.lane p).job.isNone && !s.laneInAssay p then some p else none
  | none => none

/-- Reserved resources of a list whose assay is due. -/
def State.dueOf (s : State) (c : ResClass) (reserved : List Nat) : Nat :=
  (reserved.filter fun n => match s.phys c n with
    | some p => s.underAssay c p && !s.assayRuns c p
    | none => false).length

/-- The stand-ins of reserved lanes whose assay is due (R215): the lowest-numbered unreserved lanes, which finish their jobs. -/
def State.laneStandIns (s : State) : List Nat :=
  let r := s.reservedLanes
  (s.activeLanes.filter fun n => !r.contains n).take (s.dueOf .lane r)

/-- Unreserved lanes that take new jobs: gated in prepare and until recovery, and in groups of 32 by shed step 3. -/
def State.unreservedLanes (s : State) : List Nat :=
  if s.pwr.prepare || s.pwr.recovering then [] else
  let r := s.reservedLanes
  let u := s.activeLanes.filter fun n => !r.contains n
  u.take (u.length - 32 * s.pwr.shedGroups)

/-- Lanes for a gang: class 0 takes free reserved lanes, the lowest first, then unreserved ones (R203). Stand-ins take no
job, and a single-lane job that failed runs on another lane (R214). -/
def State.pickLanes (s : State) (cls : BitVec 2) (g : Nat) (avoid : Option Nat) : Option (List Nat) :=
  let wait := s.laneStandIns
  let ns := (if cls = 0 then s.reservedLanes else []) ++ s.unreservedLanes.filter fun n => !wait.contains n
  let free := (ns.filterMap s.laneFree).filter fun p => g ≠ 1 || some p != avoid
  let ls := free.take g
  if ls.length = g && 0 < g then some ls else none

/-- A hash unit's logical number that is idle: its physical number. -/
def State.hashFree (s : State) (n : Nat) : Option Nat :=
  match s.phys .hashUnit n with
  | some p => if (s.hunit p).job.isNone && (s.hunit p).workTill ≤ s.now && !s.assayRuns .hashUnit p then some p else none
  | none => none

/-- The four reserved units, stood in for while one is under assay (R227, R234). -/
def State.reservedUnits (s : State) : List Nat :=
  ((s.surviving .hashUnit).filter fun n => match s.phys .hashUnit n with
    | some p => !s.assayRuns .hashUnit p
    | none => false).take 4

/-- The stand-ins of reserved units whose assay is due (R234). -/
def State.unitStandIns (s : State) : List Nat :=
  let r := s.reservedUnits
  ((s.surviving .hashUnit).filter fun n => !r.contains n).take (s.dueOf .hashUnit r)

/-- Cycles of a hash job (R228). -/
def hashCycles (op len : Nat) : Nat :=
  if op = 0x21 then 48 + (len + 17 + 127) / 128 * 80 + 40
  else if op = 0x20 then 48 + (len + 9 + 63) / 64 * 64 + 40
  else 48 + 8 + (1 + (len + 9 + 63) / 64 + 2) * 64 + 40

/-- A class-0 HMAC association job, which the hash island serves before all else (R229). -/
def State.hmacFirst (s : State) (j : Job) : Bool :=
  match s.runOn j with
  | .hash b => b
  | _ => false

/-- A class-0 HMAC association job waits for a unit. -/
def State.c0HmacWaits (s : State) : Bool :=
  s.qps.jobs.any fun j => j.stage == .ready && j.cls == 0 && s.hmacFirst j

/-- A hash unit for a job: class-0 HMAC takes reserved units first; another job takes an unreserved unit, or is lent an
idle reserved one (R229, R230). A rerun takes another unit than the one that failed (R234). The physical unit, and whether
it is lent. -/
def State.pickUnit (s : State) (class0Hmac : Bool) (cycles : Nat) (avoid : Option Nat) : Option (Nat × Bool) :=
  let r := s.reservedUnits
  let wait := s.unitStandIns
  let u := (s.surviving .hashUnit).filter fun n => !r.contains n && !wait.contains n
  let free (ns : List Nat) : Option Nat := (ns.filterMap s.hashFree).find? fun p => some p != avoid
  if class0Hmac then (free (r ++ u)).map fun p => (p, false)
  else match free u with
    | some p => some (p, false)
    | none =>
      if s.hme.lend ≠ 0 && cycles ≤ s.hme.lend && !s.c0HmacWaits then (free r).map fun p => (p, true)
      else none

/-- Hash work of the archive or of firmware: an unreserved unit, or a reserved one lent, works on it for its cycles (R229, R230).
With none free it is done once one is; only its time differs (log entry 139). A unit at which it failed is avoided (R234). -/
def State.hashWork (s : State) (cycles : Nat) (avoid : Option Nat) : State :=
  match s.pickUnit false cycles avoid with
  | none => s
  | some (p, lent) =>
    let s := s.setHunit p { workTill := s.now + cycles, work := cycles, lent := lent, state := 2 }
    if lent then { s with hme := { s.hme with huEvents := setBit s.hme.huEvents 4 true } } else s

/-- SHA-512 or SHA-512/256 over `len` bytes for the archive or firmware. -/
def State.hashes (s : State) (len : Nat) : State := s.hashWork (hashCycles 0x21 len) none

/-- The bytes that a job's hash unit takes in: the message, or the span of a GOOSE or SV frame (R176, R228). -/
def State.hashLen (s : State) (j : Job) : Nat :=
  match s.sequencer j with
  | .frame fr _ => if isAssoc j.sqe.opcode then (frameSpan ((jobData j).take j.sqe.aadLen) (s.pa j.sqe.target).params fr).length
                   else j.sqe.length
  | _ => j.sqe.length

/-- A mask draw for a job: from the reserve pool for class 0, otherwise and when that is empty from the general pool
(R213). The draw and the state without it, or none. -/
def State.takeMask (s : State) (cls : BitVec 2) : Option (BitVec 64 × State) :=
  let b := s.bch
  match cls == 0, b.reserve, b.general with
  | true, m :: r, _ => some (m, { s with bch := { b with reserve := r } })
  | true, [], m :: g => some (m, { s with bch := { b with general := g, events := setBit b.events 3 true } })
  | false, _, m :: g => some (m, { s with bch := { b with general := g } })
  | _, _, _ => none

/-- The throttle of C3 and C2 by the fill of the general pool, with hysteresis (R257). -/
def State.throttle (s : State) : State :=
  let n := s.bch.general.length
  let c3 := if n < 1536 then true else if 2304 < n then false else s.nh.thrC3
  let c2 := if n < 768 then true else if 1536 < n then false else s.nh.thrC2
  if c3 = s.nh.thrC3 && c2 = s.nh.thrC2 then s
  else { s with nh := { s.nh with thrC3 := c3, thrC2 := c2, events := setBit s.nh.events 3 true } }

/-- A key load over a branch of the key bus is two transfers, share 0 and share 1 (R219). -/
def State.keyBranch (s : State) (i : Nat) : State :=
  let n := 0x2000000 + i
  let l := s.link n
  s.setLink n { l with seq := l.seq + 2 }

/-- The message bytes that a job's lanes put through their counter blocks: none under GMAC. -/
def laneBytes (j : Job) : Nat := if isAssoc j.sqe.opcode && j.sqe.opcode ≤ 4 then 0 else j.sqe.length

/-- The AAD bytes that a job's lanes put through GHASH: those of the SQE, or a frame's span. -/
def State.laneAad (s : State) (j : Job) : Nat :=
  if isAssoc j.sqe.opcode && j.sqe.opcode ≤ 4 then s.hashLen j else j.sqe.aadLen

/-- The parts of a job's lanes (R204). -/
def State.jobDeals (s : State) (j : Job) (g : Nat) : List Deal :=
  dealBytes (j.sqe.opcode = 0x14) (laneBytes j) (s.laneAad j) g

/-- A mask draw over a block: byte i carries m(i mod 8) (R199). -/
def maskBlock (m : BitVec 64) : BitVec 128 := m ++ m

/-- The lanes of a gang take their job: request entries with their parts (R204, R206), both key shares over the key bus
(R207, R219), the shared mask draw (R199), and the gang record. -/
def State.startLanes (s : State) (j : Job) (ls : List Nat) (slot mode : Nat) (mask : BitVec 64) : State :=
  let k := s.krow slot
  let gang := ((upto 128).find? fun i => !(s.bch.gangs.any (·.1 == i))).getD 0xFF
  let single := ls.length = 1
  let ds := s.jobDeals j ls.length
  let s := each (ls.zip (upto ls.length)) (fun e s => (s.keyBranch e.1).setLane e.1
    { job := some j.id, slot := slot, mode := mode, cls := j.cls, gang := BitVec.ofNat 8 (if single then 0xFF else gang),
      member := e.2, klen := att k 3 2 = 2, state := 1, key0 := k.s0, key1 := k.s1, mask := mask,
      aes0 := maskBlock mask, aes1 := maskBlock mask, deal := ds.getD e.2 {} }) s
  let s := s.countLoads slot ls.length
  let gs := tset ({ job := 0, g := 0, members := [] } : Gang) s.bch.gangs gang { job := j.id, g := ls.length, members := ls }
  if single then s else { s with bch := { s.bch with gangs := gs } }

/-- A wait above its allowance is cause 2 of R160: 600 ns for lanes, 1,311 ns for a hash unit. -/
def waitCause (j : Job) (now allowance : Nat) : Job := if j.readyAt + allowance < now then outsideBy j 2 else j

/-- The lowest of the 16 frame sequencers that is free (R15). -/
def State.freeSequencer (s : State) : Option Nat := (upto 16).find? fun i => tget 0 s.qps.seqBusy i ≤ s.now

/-- An association job takes a frame sequencer for the 120 ns in which it locates the fields (R15, R159); other jobs take
none. None: all 16 are busy. -/
def State.takeSequencer (s : State) (j : Job) : Option State :=
  if !isAssoc j.sqe.opcode then some s
  else s.freeSequencer.map fun i => { s with qps := { s.qps with seqBusy := tset 0 s.qps.seqBusy i (s.now + 144) } }

/-- A ready job is dispatched, if its resources are free. -/
def State.dispatch (s : State) (j : Job) : Option State :=
  if s.now < j.heldUntil then none else
  match s.takeSequencer j with
  | none => none
  | some s =>
  match s.runOn j with
  | .nothing => some (s.putJob { j with stage := .running, startedAt := s.now })
  | .lanes g slot mode =>
    match s.pickLanes j.cls g j.avoid, s.takeMask j.cls with
    | some ls, some (mask, s1) =>
      let w := waitCause j s.now 720
      let j' : Job := { w with stage := .running, lanes := ls, lanesUsed := ls.length, startedAt := s.now }
      some ((s1.startLanes j ls slot mode mask).putJob j').throttle
    | _, _ => none
  | .hash c0h =>
    match s.pickUnit c0h (hashCycles (if isAssoc j.sqe.opcode then 0x22 else j.sqe.opcode) (s.hashLen j)) j.avoid with
    | none => none
    | some (p, lent) =>
      let hold := if isAssoc j.sqe.opcode || j.sqe.opcode = 0x22 then pickKey j (s.sequencer j) else none
      let key := match hold with
        | some h => (s.krow h.slot).s0 ^^^ (s.krow h.slot).s1
        | none => 0
      let s := match hold with
        | some h => (s.countLoads h.slot 1).keyBranch (544 + p)
        | none => s
      let s := s.setHunit p { job := some j.id, lent := lent, state := if hold.isSome then 1 else 2, key := key }
      let s := if lent then { s with hme := { s.hme with huEvents := setBit s.hme.huEvents 4 true } } else s
      let w := waitCause j s.now 1573
      some (s.putJob { w with stage := .running, hashUnit := some p, startedAt := s.now })

/-- Ready jobs: class by class, in admission order within a class; class-0 HMAC association jobs before the hash jobs of class 0
(R229). -/
def State.readyJobs (s : State) : List Job :=
  let r := s.qps.jobs.filter (·.stage == .ready)
  let c0 := r.filter (·.cls == 0)
  c0.filter s.hmacFirst ++ c0.filter (fun j => !s.hmacFirst j) ++ r.filter (·.cls == 1) ++ r.filter (·.cls == 2) ++ r.filter (·.cls == 3)

/-- A ready job waits for a mask draw only (R213). -/
def State.starved (s : State) (j : Job) : Bool :=
  match s.runOn j with
  | .lanes g _ _ => (s.pickLanes j.cls g j.avoid).isSome && (s.takeMask j.cls).isNone
  | _ => false

/-- BCH_MASK.C0_WAIT: a class-0 job waits for a draw (R226). -/
def State.c0Waits (s : State) : Bool := s.readyJobs.any fun j => j.cls == 0 && s.starved j

/-- A job waits for a draw: BCH_EVENTS.MASK_STARVED. -/
def State.noteStarved (s : State) : State :=
  if s.readyJobs.any s.starved then { s with bch := { s.bch with events := setBit s.bch.events 2 true } } else s

/-- A class-0 job that waits for lanes or for a unit keeps later class-0 jobs from taking them: admission order (R157). -/
def State.kind (s : State) (j : Job) : Option Bool :=
  if j.cls ≠ 0 then none else match s.runOn j with
    | .lanes _ _ _ => some false
    | .hash true => some true
    | _ => none

/-- The first of the jobs that can be dispatched and is not behind one of its kind, listed in `held`. -/
def State.dispatchFirst (s : State) : List Bool → List Job → Option State
  | _, [] => none
  | held, j :: r =>
    let k := s.kind j
    if k.any held.contains then s.dispatchFirst held r
    else match s.dispatch j with
      | some t => some t
      | none => s.dispatchFirst (k.toList ++ held) r

/-- JOB_DISPATCH (R157): the first ready job, by class and admission order, whose resources and mask draw are free; a class-0 job
does not overtake an earlier one that waits for the same. -/
def execJobDispatch (s : State) : Out :=
  if !s.up || s.halted then .next s else
  match s.dispatchFirst [] s.readyJobs with
  | some s' => .next s'
  | none => .next s.noteStarved

/-! ### Completion (R151 to R154, R194) -/

/-- An association job whose outcome is a receive failure (R192). -/
def rxFailure (j : Job) : Bool :=
  isAssoc j.sqe.opcode && isRx j.sqe.opcode &&
  (j.status = stAuthFail || j.status = stReplay || j.status = stStale || j.status = stKeyAbsent ||
   (j.status = stRejected && leAt j.result 2 1 ≠ 0))

/-- The outcome records of R194, and whether the outcome could not be recorded (R291). -/
def State.outcomeRecords (s : State) (j : Job) : State × Bool :=
  if !isAssoc j.sqe.opcode || 2048 ≤ j.sqe.target then (s, false) else
  let body := le 4 j.qpn ++ le 2 j.sqe.cid ++ le 1 j.sqe.opcode ++ le 1 j.status ++ j.result
  let src := 0x100 + j.sqe.target
  let lost := archiveFlag j.sqe && s.arc.full && (j.cls ≠ 0 || s.overfillOut)
  let s := if archiveFlag j.sqe && !(lost && j.cls = 0) then
    s.arrive { typ := 0x0030, src := src, cls := j.cls, gts := j.gts, body := body } .none false else s
  let s := if rxFailure j && paArchiveFail (s.pa j.sqe.target).params then
    s.arrive { typ := 0x0030, src := src, cls := c1, gts := j.gts, body := body ++ (jobData j).take j.sqe.aadLen }
      .none false else s
  (s, lost)

/-- Once a job has completed, the first job of its queue pair that waits behind FENCE may start (R148). -/
def State.unfence (s : State) (q : Nat) : State :=
  match s.jobsOf q with
  | j :: _ => if j.stage = .fenced then s.readPayload j else s
  | [] => s

/-- JOB_COMPLETION (R154): the outcome's records, the CQE, the release of holds. QUIET jobs that end OK write no CQE. -/
def execJobCompletion (job : Nat) (s : State) : Out :=
  match s.job? job with
  | none => .next s
  | some j =>
    if !s.up || j.stage ≠ .done || j.waitRec then .next s else
    let (s1, lost) := s.outcomeRecords j
    let j := if s.c0Withdrawn then outsideBy j 4 else j
    let s2 := s1.dropJob j
    let s3 :=
      if quiet j.sqe && j.status = stOk then s2
      else match s2.ctx? j.qpn with
        | none => s2
        | some c =>
          let flags := 2 * b2n (j.status = stAuthFail) + 4 * b2n (j.cls = 0 && j.outside ≠ 0) + 32 * b2n (lost || j.notArchived)
          let aux := (if j.cls = 0 then j.outside else 0) + 256 * j.lanesUsed
          s2.writeCqe j.qpn c j.sqe.cid j.status flags c.sqHead.toNat (s2.credit j.qpn c) j.result (le 12 j.gts.toNat)
            aux (some j.id)
    .next (s3.unfence j.qpn)

/-! ### Event entries (R161, R162) -/

/-- EVENT_ENTRY (R161, R162): the oldest entry whose queue's context is in the cache, or whose context fetch must begin;
a full queue counts the entry in OVF_COUNT. -/
def execEventEntry (s : State) : Out :=
  if !s.up then .next s else
  match s.qps.events.findIdx? fun e => (s.ctx? e.qpn).isSome || !(s.qrun e.qpn).fetching with
  | none => .next s
  | some i =>
    match s.qps.events[i]? with
    | none => .next s
    | some e =>
      let drop (s : State) : State := { s with qps := { s.qps with events := ldel s.qps.events i } }
      if !(s.qw e.qpn).en || (s.qw e.qpn).destroying then .next (drop s) else
      match s.ctx? e.qpn with
      | none => .next (s.fetchCtx e.qpn)
      | some c =>
        if !eventQ c then .next (drop s)
        else if s.cqFree e.qpn c = 0 then
          .next ((drop s).putCtx e.qpn { c with ovf := BitVec.ofNat 32 (satInc c.ovf.toNat (2 ^ 32 - 1)) })
        else
          let o := c.ovf.toNat
          .next ((drop s).writeCqe e.qpn { c with ovf := 0 } 0xFFFF stOk (8 + 16 * b2n (o ≠ 0)) 0 0 e.result
            (le 12 e.gts.toNat) o none)

end Sys2Proof.Machine
end

