-- ==== Sys2Proof/Machine/JobRun.lean ====
section
/-! DEFINITION. Sys2Proof/Machine/JobRun.lean: what each job type computes and writes: association jobs (R176 to R195),
cipher jobs (R208 to R211), hash jobs (R231 to R233), archive appends (R293). -/

namespace Sys2Proof.Machine

/-- A part of a job's output goes to DST, at an offset. -/
def State.jobWriteAt (s : State) (j : Job) (off : Nat) (data : Bytes) : State :=
  s.hostWrite j.fn (j.sqe.dst + off) data (j.cls == 0) s.pci.relaxed (some j.id)

/-- A job's output goes to DST (R105, R107). -/
def State.jobWrite (s : State) (j : Job) (data : Bytes) : State :=
  s.hostWrite j.fn j.sqe.dst data (j.cls == 0) s.pci.relaxed (some j.id)

/-! ### Output as it is produced (R211) -/

/-- The AAD octets that stand before the message in a job's output. -/
def outPrefix (j : Job) : Nat := if j.sqe.opcode = 5 then j.sqe.aadLen else 0

/-- Where a lane's part of the output lies: its offset, and its bytes. The first one carries the AAD octets too. -/
def laneRun (j : Job) (k : Nat) (d : Deal) : Nat × Nat :=
  let p := outPrefix j
  let n := min (16 * d.count) (j.sqe.length - 16 * d.first)
  if k = 0 then (0, p + n) else (p + 16 * d.first, n)

/-- The lanes of a job with what they have written already. -/
def State.laneRuns (s : State) (j : Job) : List (Nat × Nat × Nat) :=
  let ds := s.jobDeals j j.lanes.length
  (upto ds.length).map fun k =>
    let (o, n) := laneRun j k (ds.getD k {})
    (o, n, tget 0 j.written k)

/-- A job's whole output, less what its lanes have written already: the rest of each lane's part, then what follows the
message. -/
def State.jobOut (s : State) (j : Job) (data : Bytes) : State :=
  if j.written.isEmpty then s.jobWrite j data else
  let s := each (s.laneRuns j) (fun r s =>
    let (o, n, w) := r
    if w < n then s.jobWriteAt j (o + w) (sub data (o + w) (n - w)) else s) s
  let tail := data.drop (outPrefix j + j.sqe.length)
  if tail.isEmpty then s else s.jobWriteAt j (outPrefix j + j.sqe.length) tail

/-- The outcome of a running job of a type; in HALT and after ZEROIZE it is ABORTED (R115). -/
def State.runJob (s : State) (job op : Nat) (body : State → Job → State) : Out :=
  match s.job? job with
  | none => .next s
  | some j =>
    if !s.up || j.stage ≠ .running || j.waitRec || j.sqe.opcode ≠ op then .next s
    else if s.halted || s.tmp.zeroized then .next (s.finishJob j stAborted (noResult op))
    else .next (body s j)

/-- JOB_NOP (R149): no host access but the CQE. -/
def execJobNop (job : Nat) (s : State) : Out :=
  s.runJob job 0 fun s j => s.finishJob j stOk (noResult 0)

/-! ### Association jobs -/

/-- RESULT of R192. -/
def paResult (flags epoch parse count : Nat) : Bytes :=
  le 1 flags ++ le 1 epoch ++ le 1 parse ++ le 1 0 ++ le 4 count

/-- FLAGS of R192 beside KEY. -/
def rLearned : Nat := 4
def rSimulated : Nat := 8
def rNoFresh : Nat := 16
def rRestart : Nat := 32

/-- The key of a hold, while the row still keeps it: a row lost under R31 answers as absent (R197). -/
def State.heldKey (s : State) (h : KeyHold) : Option Bytes :=
  let r := s.krow h.slot
  if kState r = kLoaded || kState r = kErasing then some (slotKey r) else none

/-- A receive failure is counted (R193) and may reach FAIL_LIMIT in this GTS second (R195). -/
def State.countFailure (s : State) (n status : Nat) : State :=
  let a := s.pa n
  let m := 2 ^ 32 - 1
  let a := if status = stReplay then { a with replayed := satInc a.replayed m }
    else if status = stStale then { a with stale := satInc a.stale m }
    else { a with failed := satInc a.failed m }
  let sec := gtsSec s.gts
  let same := a.failSec = sec
  let k := if same then a.failCount + 1 else 1
  let raised := same && a.failRaised
  let hit := paFailLimit a.params ≠ 0 && paFailLimit a.params ≤ k && !raised
  let s := s.setPa n { a with failSec := sec, failCount := k, failRaised := raised || hit }
  if hit then s.paEvent n 3 0 k else s

/-- The end of an association job; a receive failure is counted. -/
def State.paEnd (s : State) (j : Job) (status : Nat) (result : Bytes) : State :=
  let j' := { j with status := status, result := result }
  let s := s.finishJob j status result
  if rxFailure j' then s.countFailure j.sqe.target status else s

/-- A job whose key is not current for R158 carries cause 5 (R160, R188). -/
def keyCause (j : Job) (h : KeyHold) : Job :=
  if h.role = 2 || (h.role = 1 && (j.sqe.keysel = 2 || !isRx j.sqe.opcode)) then outsideBy j 5 else j

/-- A transmit key's invocation value is used (R178): boot count and frame counter; the last one exhausts the key. -/
def State.useCounter (s : State) (n i : Nat) : Nat × State :=
  let a := s.pa n
  let k := paKey a i
  let v := s.lc.bootCount % 2 ^ 24 * 2 ^ 40 + k.counter
  let last := k.counter = 2 ^ 40 - 1
  let s := s.setPa n (setPaKey a i { k with counter := k.counter + 1, exhausted := k.exhausted || last })
  (v, if last then s.paEvent n 4 k.epoch 0 else s)

/-- The invocation value of a job: the one its first output took, or the key's next. -/
def State.invocation (s : State) (j : Job) (i : Nat) : Nat × State :=
  match j.inv with
  | some v => (v, s)
  | none => s.useCounter j.sqe.target i

/-- The AAD of a generic frame with its invocation value and key ID in place (R190). -/
def taggedAad (p aad : Bytes) (keyId v : Nat) : Bytes :=
  let a := patch aad (paSeqOfs p) (be 8 v)
  if paKidOfs p = 0xFFFF then a else patch a (paKidOfs p) (be 4 keyId)

/-- A transmit key that may still be used (R178). -/
def State.txUsable (s : State) (n i : Nat) : Bool :=
  let a := s.pa n
  !(paKey a i).exhausted && (algHmac (paAlg a.params) || s.lc.bootCount ≤ 2 ^ 24 - 1)

/-- A transmit job (R177, R178, R190, R192). -/
def State.assocTx (s : State) (j : Job) : State :=
  let n := j.sqe.target
  let p := (s.pa n).params
  let q := s.sequencer j
  match q with
  | .bad c => s.paEnd j stRejected (paResult 3 0 c 0)
  | _ =>
    match pickKey j q with
    | none => s.paEnd (outsideBy j 5) stKeyAbsent (paResult 3 0 0 0)
    | some h =>
      let i := h.slot % 4
      match j.inv.isSome || s.txUsable n i, s.heldKey h with
      | true, some key =>
        let j := keyCause j h
        let data := jobData j
        let aad := data.take j.sqe.aadLen
        match q with
        | .frame fr _ =>
          if 1024 < (frameSpan aad p fr).length then s.paEnd j stLength (paResult 3 0 0 0) else
          let (v, s) := s.useCounter n i
          let s := s.jobWrite j (tagFrame j.lanes.length aad p fr key h.keyId v)
          s.paEnd j stOk (paResult (h.role + rSimulated * b2n fr.sim) h.epoch 0 v)
        | _ =>
          let (v, s) := s.invocation j i
          let a2 := taggedAad p aad h.keyId v
          let (ct, tag) := gangSeal j.lanes.length key (frameIv h.keyId v) a2 (data.drop j.sqe.aadLen)
          let s := s.jobOut j (a2 ++ ct ++ tag.take (paGenTag p))
          s.paEnd j stOk (paResult h.role h.epoch 0 v)
      | _, _ => s.paEnd (outsideBy j 5) stKeyAbsent (paResult 3 0 0 0)

/-! ### Replay (R181, R182) -/

/-- The count-and-window rule: the mark with the count accepted, or none. `m` is the modulus; 0: no modulus. -/
def windowTest (k : Mark) (m w c : Nat) : Option Mark :=
  if k.mode = 0 then some { mode := 1, hi := c, seen := 1 } else
  let newer := if m = 0 then k.hi < c else
    let d := (c + m - k.hi % m) % m
    1 ≤ d && 2 * d < m
  let d := if m = 0 then c - k.hi else (c + m - k.hi % m) % m
  if newer then some { k with hi := c, seen := if 64 ≤ d then 1 else (k.seen <<< d) ||| 1 }
  else
    let back := if m = 0 then k.hi - c else (k.hi + m - c % m) % m
    if back < 2 ^ w && !k.seen.getLsbD back then some { k with seen := k.seen ||| (1 <<< back) } else none

/-- GOOSE with REPLAY_IV clear (R181): the frame is new. -/
def gooseNew (k : Mark) (st sq : Nat) : Bool :=
  let m := 2 ^ 32
  let dst := (st + m - k.hi % m) % m
  let dsq := (sq + m - k.hi / m % m) % m
  (1 ≤ dst && dst < 2 ^ 31) || (dst = 0 && 1 ≤ dsq && dsq < 2 ^ 31)

/-! ### Freshness (R184) -/

/-- The freshness check: none when it is not made; otherwise whether the frame is fresh. -/
def State.freshness (s : State) (p : Bytes) (sv : Bool) (fr : Frame) : Option Bool :=
  let g := s.gts
  if !paFresh p || s.tim.qual = 3 then none
  else if !sv then
    if !bit s.tim.utc 31 then none
    else
      let t : Int := ((fr.tSec : Int) + toSigned 16 (fld s.tim.utc 15 0)) * 65536000000000 + (fr.tFrac * 3906250 : Nat)
      let now : Int := (gtsUnits g : Nat)
      let ms : Int := 65536000000
      some (!(now + (paFreshFuture p : Nat) * ms < t) && !(fr.sqNum = 0 && t + (paFreshPast p : Nat) * ms < now))
  else
    let m := paSmpRate p
    if m = 0 || fr.smpSynch = 0 then none
    else
      let e := gtsNsec g * m / 1000000000
      let lag := (e + m - fr.smpCnt % m) % m
      some (lag ≤ paFreshPast p || m ≤ lag + paFreshFuture p)

/-- What a frame's replay test answers (R181, R182): the state with the mark, and whether a restart; none: REPLAY. -/
def replayTest (a : Pa) (i : Nat) (sv : Bool) (fr : Frame) (iv : Bytes) (fresh : Option Bool) : Option (Pa × Bool) :=
  let p := a.params
  if paReplayIv p then
    let k := paKey a i
    (windowTest k.mark 0 (paWindow p) (ofBe (sub iv 4 8))).map fun m => (setPaKey a i { k with mark := m }, false)
  else if sv then
    (windowTest a.mark (paModulus p) (paWindow p) fr.smpCnt).map fun m => ({ a with mark := m }, false)
  else
    let hi := fr.stNum + 2 ^ 32 * fr.sqNum
    if a.mark.mode = 0 then some ({ a with mark := { mode := 1, hi := hi } }, false)
    else if gooseNew a.mark fr.stNum fr.sqNum then some ({ a with mark := { a.mark with hi := hi } }, false)
    else if fr.stNum = 1 && fr.sqNum = 0 && fresh = some true then some ({ a with mark := { a.mark with hi := hi } }, true)
    else none

/-- The mark that a frame of an association is tested against stands in LEARN. -/
def learning (a : Pa) (i : Nat) : Bool := if paReplayIv a.params then (paKey a i).mark.mode = 0 else a.mark.mode = 0

/-- Steps 5 to 8 of R179 for a GOOSE or SV frame. -/
def State.verifyFrame (s : State) (j : Job) (fr : Frame) (h : KeyHold) (key aad : Bytes) : State :=
  let n := j.sqe.target
  let a := s.pa n
  let p := a.params
  let sv := 3 ≤ j.sqe.opcode
  let i := h.slot % 4
  let iv := sub aad fr.iv 12
  let count := if sv then fr.smpCnt + 2 ^ 16 * (fr.noAsdu % 256) else fr.stNum
  let tag := spanTag j.lanes.length (paAlg p) key iv (frameSpan aad p fr)
  let fl := h.role + rSimulated * b2n fr.sim
  if sub aad fr.auth (algTag (paAlg p)) ≠ tag then s.paEnd j stAuthFail (paResult fl h.epoch 0 count) else
  let fresh := s.freshness p sv fr
  let fl := fl + rNoFresh * b2n (paFresh p && fresh.isNone)
  match replayTest a i sv fr iv fresh with
  | none => s.paEnd j stReplay (paResult fl h.epoch 0 count)
  | some (a', restart) =>
    if fresh = some false then s.paEnd j stStale (paResult fl h.epoch 0 count) else
    let fl := fl + rLearned * b2n (learning a i) + rRestart * b2n restart
    let s := s.setPa n { a' with accepted := satInc a'.accepted (2 ^ 32 - 1) }
    let s := if restart then s.paEvent n 5 h.epoch fr.stNum else s
    s.paEnd j stOk (paResult fl h.epoch 0 count)

/-- Steps 5 to 8 of R179 for a generic frame (R190): the plaintext is written before the verdict. -/
def State.verifyGeneric (s : State) (j : Job) (inv : Nat) (kid : Option Nat) (h : KeyHold) (key data : Bytes) : State :=
  let n := j.sqe.target
  let a := s.pa n
  let p := a.params
  let i := h.slot % 4
  let iv := frameIv (kid.getD h.keyId) inv
  let body := data.drop j.sqe.aadLen
  let (pt, tag) := gangOpen j.lanes.length key iv (data.take j.sqe.aadLen) (body.take j.sqe.length)
  let s := s.jobOut j pt
  let fl := h.role
  if sub body j.sqe.length (paGenTag p) ≠ tag.take (paGenTag p) then s.paEnd j stAuthFail (paResult fl h.epoch 0 inv) else
  let k := paKey a i
  let fl := fl + rNoFresh * b2n (paFresh p && s.tim.qual = 3)
  match windowTest k.mark 0 (paWindow p) inv with
  | none => s.paEnd j stReplay (paResult fl h.epoch 0 inv)
  | some m =>
    let fl := fl + rLearned * b2n (k.mark.mode = 0)
    let s := s.setPa n { setPaKey a i { k with mark := m } with accepted := satInc a.accepted (2 ^ 32 - 1) }
    s.paEnd j stOk (paResult fl h.epoch 0 inv)

/-- A receive job (R179). -/
def State.assocRx (s : State) (j : Job) : State :=
  let p := (s.pa j.sqe.target).params
  let data := jobData j
  let aad := data.take j.sqe.aadLen
  let q := s.sequencer j
  let part (fr : Frame) : Bytes :=
    paResult (3 + rSimulated * b2n fr.sim) 0 0
      (if 3 ≤ j.sqe.opcode then fr.smpCnt + 2 ^ 16 * (fr.noAsdu % 256) else fr.stNum)
  let key := (pickKey j q).bind fun h => (s.heldKey h).map fun k => (h, k)
  match q, key with
  | .bad c, _ => s.paEnd j stRejected (paResult 3 0 c 0)
  | .frame fr _, none => s.paEnd (outsideBy j 5) stKeyAbsent (part fr)
  | .generic inv _, none => s.paEnd (outsideBy j 5) stKeyAbsent (paResult 3 0 0 inv)
  | .frame fr _, some (h, k) =>
    if 1024 < (frameSpan aad p fr).length then s.paEnd j stLength (part fr)
    else s.verifyFrame (keyCause j h) fr h k aad
  | .generic inv kid, some (h, k) => s.verifyGeneric (keyCause j h) inv kid h k data

/-- GOOSE_TRANSMIT_TAG (R177). -/
def execGooseTransmitTag (job : Nat) (s : State) : Out := s.runJob job 1 State.assocTx

/-- GOOSE_RECEIVE_VERIFY (R179). -/
def execGooseReceiveVerify (job : Nat) (s : State) : Out := s.runJob job 2 State.assocRx

/-- SV_TRANSMIT_TAG (R177). -/
def execSvTransmitTag (job : Nat) (s : State) : Out := s.runJob job 3 State.assocTx

/-- SV_RECEIVE_VERIFY (R179). -/
def execSvReceiveVerify (job : Nat) (s : State) : Out := s.runJob job 4 State.assocRx

/-- GENERIC_FRAME_TRANSMIT (R190). -/
def execGenericFrameTransmit (job : Nat) (s : State) : Out := s.runJob job 5 State.assocTx

/-- GENERIC_FRAME_RECEIVE (R190). -/
def execGenericFrameReceive (job : Nat) (s : State) : Out := s.runJob job 6 State.assocRx

/-! ### Cipher jobs (R208 to R211) -/

/-- A cipher or HMAC job's key; a slot whose row was lost answers as absent (R31). -/
def State.withKey (s : State) (j : Job) (f : Bytes → State) : State :=
  match j.holds.head?.bind s.heldKey with
  | some k => f k
  | none => s.finishJob j stKeyAbsent (noResult j.sqe.opcode)

/-- AES_GCM_ENCRYPT. -/
def execAesGcmEncrypt (job : Nat) (s : State) : Out :=
  s.runJob job 0x10 fun s j => s.withKey j fun key =>
    let d := jobData j
    let (ct, tag) := gangSeal j.lanes.length key j.sqe.iv (d.take j.sqe.aadLen) (d.drop j.sqe.aadLen)
    (s.jobOut j (ct ++ tag.take j.sqe.tagLen)).finishJob j stOk (tag.take 8)

/-- AES_GCM_DECRYPT: the plaintext is written before the tag is compared (R211). -/
def execAesGcmDecrypt (job : Nat) (s : State) : Out :=
  s.runJob job 0x11 fun s j => s.withKey j fun key =>
    let d := jobData j
    let (pt, tag) := gangOpen j.lanes.length key j.sqe.iv (d.take j.sqe.aadLen) (d.drop j.sqe.aadLen)
    let ok := j.sqe.tag.take j.sqe.tagLen == tag.take j.sqe.tagLen
    (s.jobOut j pt).finishJob j (if ok then stOk else stAuthFail) (noResult 0x11)

/-- AES_GMAC_GENERATE. -/
def execAesGmacGenerate (job : Nat) (s : State) : Out :=
  s.runJob job 0x12 fun s j => s.withKey j fun key =>
    let (_, tag) := gangSeal j.lanes.length key j.sqe.iv (jobData j) []
    (if j.sqe.dst = 0 then s else s.jobWrite j (tag.take j.sqe.tagLen)).finishJob j stOk (tag.take 8)

/-- AES_GMAC_VERIFY. -/
def execAesGmacVerify (job : Nat) (s : State) : Out :=
  s.runJob job 0x13 fun s j => s.withKey j fun key =>
    let (_, tag) := gangSeal j.lanes.length key j.sqe.iv (jobData j) []
    let ok := j.sqe.tag.take j.sqe.tagLen == tag.take j.sqe.tagLen
    s.finishJob j (if ok then stOk else stAuthFail) (noResult 0x13)

/-- AES_CTR: the first counter block's low 32 bits are 1, so the last one's are the number of blocks (R208, R210). -/
def execAesCtr (job : Nat) (s : State) : Out :=
  s.runJob job 0x14 fun s j => s.withKey j fun key =>
    let d := jobData j
    (s.jobOut j (gangStream j.lanes.length key j.sqe.iv d)).finishJob j stOk (le 4 ((d.length + 15) / 16) ++ le 4 0)

/-! ### Hash jobs (R231 to R233) -/

/-- The digest or MAC is written in one TLP, unless DST is 0; RESULT is its first 8 bytes. -/
def State.hashEnd (s : State) (j : Job) (digest : Bytes) : State :=
  (if j.sqe.dst = 0 then s else s.jobWrite j digest).finishJob j stOk (digest.take 8)

/-- SHA_256. -/
def execSha256 (job : Nat) (s : State) : Out := s.runJob job 0x20 fun s j => s.hashEnd j (sha256 (jobData j))

/-- SHA_512. -/
def execSha512 (job : Nat) (s : State) : Out := s.runJob job 0x21 fun s j => s.hashEnd j (sha512 (jobData j))

/-- HMAC_SHA256. -/
def execHmacSha256 (job : Nat) (s : State) : Out :=
  s.runJob job 0x22 fun s j => s.withKey j fun key => s.hashEnd j (hmac256 key (jobData j))

/-! ### Archive append (R293) -/

/-- ARCHIVE_APPEND: the record reaches the intake port; the CQE follows its commitment. -/
def execArchiveAppend (job : Nat) (s : State) : Out :=
  s.runJob job 0x30 fun s j =>
    (s.putJob { j with waitRec := true }).arrive
      { typ := j.sqe.target, src := 0x020 + j.fn, cls := j.cls, gts := s.gts, body := jobData j } (.job j.id) true

/-- The record of a job 0x30 is settled: the job ends (R279, R280, R281, R293). -/
def State.jobRecorded (s : State) (id status dseq : Nat) : State :=
  match s.job? id with
  | some j => s.finishJob j status (if status = stOk then le 8 dseq else noResult 0x30)
  | none => s

/-! ### Retirement under a job (R32) -/

/-- The job's AES works under a 256-bit key. -/
def State.key256 (s : State) (j : Job) : Bool := j.lanes.any fun p => (s.lane p).klen

/-- The job's data passes through its lanes' counter blocks to DST: 0x10, 0x11, 0x14 and generic frames. -/
def streams (op : Nat) : Bool := op = 0x10 || op = 0x11 || op = 0x14 || op = 5 || op = 6

/-- Block computations that a lane has ended `e` cycles after its dispatch (R200, R201). -/
def blocksAt (t e : Nat) : Nat := (e - 56) / t

/-- The bytes of its part that a lane may have written by then, `b` block computations done: whole TLPs, and the rest once its run
is complete (R211; what stands in a TLP before that: log entry 35). -/
def readyBytes (mps : Nat) (j : Job) (ctr : Bool) (g k : Nat) (d : Deal) (b : Nat) : Nat :=
  let (_, n) := laneRun j k d
  let done := b - preBlocks ctr g k
  if d.count ≤ done && preBlocks ctr g k ≤ b then n
  else if done = 0 then 0
  else min n (((if k = 0 then outPrefix j else 0) + 16 * done) / mps * mps)

/-- A streaming job's output as far as the message goes, with the invocation value that a transmit job takes for it. -/
def State.streamOut (s : State) (j : Job) : State × Job × Bytes :=
  let d := jobData j
  let aad := d.take j.sqe.aadLen
  let msg := (d.drop j.sqe.aadLen).take j.sqe.length
  let p := (s.pa j.sqe.target).params
  let q := s.sequencer j
  let hold := if isAssoc j.sqe.opcode then pickKey j q else j.holds.head?
  match hold, hold.bind s.heldKey with
  | some h, some key =>
    let ctr := j.sqe.opcode = 0x14
    let stream (iv : Bytes) : Bytes :=
      gangCtr (roundKeys key) (gcmJ0 iv) (if ctr then 0 else 1) msg (s.jobDeals j j.lanes.length)
    match j.sqe.opcode, q with
    | 0x06, .generic inv kid => (s, j, stream (frameIv (kid.getD h.keyId) inv))
    | 0x05, .generic _ _ =>
      if j.inv.isNone && !s.txUsable j.sqe.target (h.slot % 4) then (s, j, []) else
      let (v, s) := s.invocation j (h.slot % 4)
      (s, { j with inv := some v }, taggedAad p aad h.keyId v ++ stream (frameIv h.keyId v))
    | 0x05, _ => (s, j, [])
    | 0x06, _ => (s, j, [])
    | _, _ => (s, j, stream j.sqe.iv)
  | _, _ => (s, j, [])

/-- The first input block of a lane's next computation: zeros for H, J0, or a counter block. -/
def State.laneBlock (s : State) (j : Job) (d : Deal) (done : Nat) : BitVec 128 :=
  let q := s.sequencer j
  let iv := match q with
    | .generic inv kid => frameIv (kid.getD 0) (j.inv.getD inv)
    | _ => j.sqe.iv
  let pre := b2n d.h + b2n d.j0
  if d.h && done = 0 then 0
  else if done < pre then BitVec.ofNat 128 (ofBe (gcmJ0 iv))
  else
    let n := d.first + (done - pre) + (if j.sqe.opcode = 0x14 then 0 else 1)
    BitVec.ofNat 128 (natBe (ctrBlock (natsOf (gcmJ0 iv)) n) 0)

/-- STATE of R206 by the cycles since dispatch: key load, running, merging, writing. -/
def State.laneStage (s : State) (j : Job) (e : Nat) : Nat :=
  let ctr := j.sqe.opcode = 0x14
  let m := ceilDiv (laneBytes j) 16
  let a := ceilDiv (s.laneAad j) 16
  let g := max 1 j.lanes.length
  if e < 56 then 1
  else if e < computeCycles ctr (s.key256 j) m a g then 2
  else if e < laneCycles ctr (s.key256 j) m a g then 3
  else 4

/-- The lanes of a job at the end of block computation `b`: the block now in work, and the bytes that wait in the staging
buffer. -/
def State.stepLanes (s : State) (j : Job) (out : Bytes) (b : Nat) : State :=
  let ds := s.jobDeals j j.lanes.length
  let ctr := j.sqe.opcode = 0x14
  let g := max 1 j.lanes.length
  each (j.lanes.zip (upto ds.length)) (fun e s =>
    let l := s.lane e.1
    let d := ds.getD e.2 {}
    let (o, n) := laneRun j e.2 d
    let w := tget 0 j.written e.2
    let have_ := if b ≤ preBlocks ctr g e.2 then 0
      else min n ((if e.2 = 0 then outPrefix j else 0) + 16 * (b - preBlocks ctr g e.2))
    s.setLane e.1 { l with
      blocks := min b (b2n d.h + b2n d.j0 + d.count), aes0 := maskBlock l.mask
      aes1 := s.laneBlock j d b ^^^ maskBlock l.mask, staged := (sub out (o + w) (have_ - w)).take 2048 }) s

/-- A running job's lanes, one cycle on (R200, R206, R211): at the end of a block computation they write what fills a TLP, and
members that have ended their runs count in the gang record. -/
def State.laneCycle (s : State) (j : Job) : State :=
  let e := s.now - j.startedAt
  let stage := s.laneStage j e
  let s := each j.lanes (fun p s => let l := s.lane p; if l.state = stage then s else s.setLane p { l with state := stage }) s
  let t := blockCycles (s.key256 j)
  if e < 56 || (e - 56) % t ≠ 0 then s else
  let b := blocksAt t e
  let ctr := j.sqe.opcode = 0x14
  let g := max 1 j.lanes.length
  let ds := s.jobDeals j g
  let ended := (upto ds.length).filter fun k => preBlocks ctr g k + (ds.getD k {}).count ≤ b
  let gs := s.bch.gangs.map fun r => if r.2.job = j.id then (r.1, { r.2 with finished := ended.length }) else r
  let s : State := { s with bch := { s.bch with gangs := gs } }
  if !streams j.sqe.opcode then s.stepLanes j [] b else
  let (s, j, out) := s.streamOut j
  if out.isEmpty then s else
  let r := (upto ds.length).foldl (fun (a : State × Job) k =>
    let (s, j) := a
    let d := ds.getD k {}
    let w := tget 0 j.written k
    let r := readyBytes s.pci.maxPayload j ctr g k d b
    let o := (laneRun j k d).1
    if w < r then (s.jobWriteAt j (o + w) (sub out (o + w) (r - w)), { j with written := tset 0 j.written k r }) else (s, j)) (s, j)
  (r.1.putJob r.2).stepLanes r.2 out b

/-- STATE of a hash unit by the cycles since dispatch: key load, running, finishing (R228, R247). -/
def State.unitCycle (s : State) (j : Job) (p : Nat) : State :=
  let e := s.now - j.startedAt
  let u := s.hunit p
  let n := hashCycles (if isAssoc j.sqe.opcode then 0x22 else j.sqe.opcode) (s.hashLen j)
  let keyed := isAssoc j.sqe.opcode || j.sqe.opcode = 0x22
  let st := if keyed && e < 56 then 1 else if e + 40 < n then 2 else 3
  if u.state = st then s else s.setHunit p { u with state := st }

/-- The lanes and hash units of every running job, one cycle on. -/
def State.benchCycle (s : State) : State :=
  each (s.qps.jobs.filter (·.stage == .running)) (fun j s =>
    match j.hashUnit with
    | some p => s.unitCycle j p
    | none => if j.lanes.isEmpty then s else s.laneCycle j) s

/-- A lane, hash unit or key row is retired under a job (R32): the job is rerun once from its start while no output has been
written; otherwise, and at a second retirement, it completes with RETIRED. How many are rerun. -/
def State.retireUnder (s : State) (j : Job) : State × Nat :=
  let j := outsideBy j 3
  if !j.written.isEmpty || j.rerunRet then (s.finishJob j stRetired (noResult j.sqe.opcode), 0)
  else (s.rerunJob { j with rerunRet := true }, 1)

end Sys2Proof.Machine
end

