-- ==== Sys2Proof/Machine/Halt.lean ====
section
/-! DEFINITION. Sys2Proof/Machine/Halt.lean: entering HALT (R433) and what a disturbed lane or hash unit does to the job
it runs (R214, R234); the reservation (R205); the bench and hash registers (R226, R247). -/

namespace Sys2Proof.Machine

/-! ### HALT (R115, R433) -/

/-- Every tenant core's RUN is cleared. -/
def State.stopTenants (s : State) : State :=
  each (upto 12) (fun n s => s.setCore (n + 2) { s.core (n + 2) with run := false }) s

/-- The Uncorrectable Internal Error of HALT and ZEROIZE, raised once (R114). -/
def State.internalError (s : State) : State :=
  if s.pci.uieHalt then s
  else { s with pci := { s.pci with uieHalt := true } }.aerLog .uncorrectableInternal 0 0

/-- Reports that no engine is signing are not signed any more: HALLMARK_GET completes with ABORTED, or with RESOURCE where
no noise is left (R433, R525). -/
def State.abortReports (s : State) : State :=
  let under (r : Report) : Bool := (upto 4).any fun n => (s.eng n).running && (s.eng n).for_ == .hallmark r.party r.tag
  let st := if s.nh.exhausted then stResource else stAborted
  let gone := s.lc.reports.filter fun r => !under r
  each gone (fun r s => s.reply r.party r.tag 0x0601 st []) { s with lc := { s.lc with reports := s.lc.reports.filter under } }

/-- HALT takes force, and stays until module reset (R433): jobs in flight complete with ABORTED, tenant cores stop, ALERT_N
goes low (R439). -/
def State.enterHalt (s : State) : State :=
  if 3 ≤ s.tmp.respInForce then s else
  let s := { s with tmp := { s.tmp with respInForce := 3, alert := true } }
  s.abortJobs.stopTenants.abortReports.endJig.internalError.statusTouch

/-! ### Errors of lanes and hash units under a job -/

/-- A resource waits to be retired. -/
def State.condemned (s : State) (c : ResClass) (p : Nat) : Bool := s.ret.waiting.any fun r => r.cls == c && r.phys == p

/-- A job rerun because of a retirement is counted for its record (R32). -/
def State.countRerun (s : State) (c : ResClass) (p : Nat) : State :=
  { s with ret := { s.ret with waiting := s.ret.waiting.map fun r =>
      if r.cls = c && r.phys = p then { r with rerun := r.rerun + 1 } else r } }

def State.bchEvent (s : State) (b : Nat) : State := { s with bch := { s.bch with events := setBit s.bch.events b true } }
def State.huEvent (s : State) (b : Nat) : State := { s with hme := { s.hme with huEvents := setBit s.hme.huEvents b true } }

/-- An error found in a job by the lane or unit that runs it (R214, R234): rerun from its start, at most twice; a third
failure completes it with RESOURCE. A class-0 job that reruns as its lane or unit is retired carries cause 3 (R32). -/
def State.jobError (s : State) (c : ResClass) (p : Nat) (j : Job) (fail : State → State) : State :=
  if 2 ≤ j.reruns then (fail s).finishJob j stResource (noResult j.sqe.opcode)
  else
    let j : Job := { j with reruns := j.reruns + 1, avoid := some p }
    if s.condemned c p then (s.countRerun c p).rerunJob (outsideBy j 3) else s.rerunJob j

/-- LANE_TRANSIENT_ERROR (R214): the lane runs the job; the error counts against it under R29. -/
def execLaneTransientError (phys : Fin 544) (job : Nat) (s : State) : Out :=
  match s.job? job with
  | none => .next s
  | some j =>
    if !s.up || j.stage ≠ .running || !j.lanes.contains phys.val then .next s
    else .next (((s.bchEvent 0).strike .lane phys.val).jobError .lane phys.val j (·.bchEvent 4))

/-- HASH_UNIT_MISMATCH (R234): under a job, or in the archive's own work, which is computed again on another unit. -/
def execHashUnitMismatch (phys : Fin 68) (job : Option Nat) (s : State) : Out :=
  if !s.up then .next s else
  match job with
  | none =>
    let u := s.hunit phys.val
    if (s.logical .hashUnit phys.val).isNone || u.job.isSome || u.workTill ≤ s.now then .next s
    else .next ((((s.huEvent 0).strike .hashUnit phys.val).setHunit phys.val {}).hashWork u.work (some phys.val))
  | some id =>
    match s.job? id with
    | none => .next s
    | some j =>
      if j.stage ≠ .running || j.hashUnit ≠ some phys.val then .next s
      else .next (((s.huEvent 0).strike .hashUnit phys.val).jobError .hashUnit phys.val j (·.huEvent 2))

/-! ### Assays (R215, R234) -/

/-- Physical resources of a class. -/
def classSize (c : ResClass) : Nat := classActive c + classSpares c

/-- An assay of a class runs. -/
def State.assayBusy (s : State) (c : ResClass) : Bool := s.ret.assays.any fun a => a.1 == c && a.2.2.1

/-- A resource that may be assayed: it exists, is not retired and not under assay. -/
def State.mayAssay (s : State) (c : ResClass) (p : Nat) : Bool :=
  p < classSize c && !(s.ret.get c).retired.contains p && !s.underAssay c p

/-- The assay of a resource is due: it begins once the resource, and a reserved one's stand-in, are idle (R215). -/
def State.startAssay (s : State) (c : ResClass) (p : Nat) (who : Option (Nat × Nat)) : State :=
  { s with ret := { s.ret with assays := s.ret.assays ++ [(c, p, false, who)] } }

/-- A write of BCH_ASSAY: with GO while ASSAY_BUSY it is discarded. -/
def State.laneAssayWrite (s : State) (v : Word) : State :=
  if bit v 31 && s.assayBusy .lane then s else
  let p := fld v 9 0
  let s := { s with bch := { s.bch with assayPhys := BitVec.ofNat 10 p } }
  if bit v 31 && s.mayAssay .lane p then
    { s with bch := { s.bch with assayResult := 1 } }.startAssay .lane p none
  else s

/-- LANE_ASSAY_GO (R215). -/
def execLaneAssayGo (value : BitVec 32) (s : State) : Out :=
  if s.up then .next (s.laneAssayWrite (setBit value 31 true)) else .next s

/-- A write of BCH_HU_ASSAY. -/
def State.hashAssayWrite (s : State) (v : Word) : State :=
  if bit v 31 && s.assayBusy .hashUnit then s else
  let p := fld v 6 0
  let s := { s with hme := { s.hme with huAssay := BitVec.ofNat 7 p } }
  if bit v 31 && s.mayAssay .hashUnit p then
    { s with hme := { s.hme with huResult := 1 } }.startAssay .hashUnit p none
  else s

/-- HASH_ASSAY_GO (R234). -/
def execHashAssayGo (value : BitVec 32) (s : State) : Out :=
  if s.up then .next (s.hashAssayWrite (setBit value 31 true)) else .next s

/-! ### The reservation (R205) -/

/-- A write of BCH_RESERVE: a count outside 32 to 128 discards it. -/
def State.reserveWrite (s : State) (v : Word) : State :=
  let n := fld v 7 0
  if n < 32 || 128 < n then s
  else (({ s with bch := { s.bch with count := BitVec.ofNat 8 n }
                  ret := { s.ret with accept := bit v 8 } } : State).keepDuty s).laneGuard

/-- BCH_RESERVE_WRITE (R205). -/
def execBchReserveWrite (value : BitVec 32) (s : State) : Out :=
  if s.up then .next (s.reserveWrite value) else .next s

/-- C0_RESERVE_SET (R205): the owner's count, or its withdrawal, and the acceptance. -/
def execC0ReserveSet (r : Req) (s : State) : Out :=
  drinerNow 0x0A03 r s fun s =>
    let n := leAt r.payload 0 1
    let a := leAt r.payload 1 1
    if (n ≠ 0 && (n < 32 || 128 < n)) || 1 < a then (s, stRejected, [])
    else
      let s := { s with ret := { s.ret with ownerCount := if n = 0 then none else some n, accept := a = 1 } }
      (s.applyReserve, stOk, [])

/-! ### Registers (R226, R247) -/

/-- Transients of a resource in the current window. -/
def State.recent (s : State) (c : ResClass) (p : Nat) : Nat :=
  ((tget [] (s.ret.get c).transients p).filter fun t => s.now < t + (classRule c).2).length

/-- BCH_LANE_STAT.ROLE. -/
def State.laneRole (s : State) (p : Nat) : Nat :=
  if s.ret.lane.retired.contains p then 4
  else if s.assayRuns .lane p then 5
  else match s.logical .lane p with
    | none => 3
    | some n => s.laneDuty p n

/-- BCH_HU_STAT.ROLE. -/
def State.unitRole (s : State) (p : Nat) : Nat :=
  if s.ret.hashUnit.retired.contains p then 4
  else if s.assayRuns .hashUnit p then 5
  else match s.logical .hashUnit p with
    | none => 3
    | some n =>
      let u := s.hunit p
      let lent := u.lent && (u.job.isSome || s.now < u.workTill)
      if s.reservedUnits.contains n then (if lent then 2 else 1) else 0

/-- The job-table index that a request entry shows; 0 without a job. -/
def State.jobIndex (s : State) (o : Option Nat) : Nat := ((o.bind s.job?).map (·.idx)).getD 0

/-- The bench block as it reads. -/
def State.bchRead (s : State) (port : Nat) : Word :=
  let b := s.bch
  match port with
  | 0x0600 => bf 9 0 s.activeLanes.length ||| bf 15 10 (s.freeSparesOf .lane).length |||
              bf 23 16 s.reservedNow ||| bf 24 24 (b2n s.ret.wLanes) ||| bf 25 25 (b2n (s.assayBusy .lane))
  | 0x0601 => bf 7 0 b.count.toNat ||| bf 8 8 (b2n s.ret.accept)
  | 0x0602 => bf 10 0 b.reserve.length ||| bf 22 11 b.general.length ||| bf 23 23 (b2n s.c0Waits)
  | 0x0603 => b.events
  | 0x0604 => bf 9 0 b.laneSel.toNat
  | 0x0605 =>
    let p := b.laneSel.toNat
    let l := s.lane p
    bf 9 0 ((s.logical .lane p).getD 0x3FF) ||| bf 12 10 (s.laneRole p) ||| bf 16 13 l.state |||
      bf 29 17 (s.jobIndex l.job) ||| bf 31 30 (min 3 (s.recent .lane p))
  | 0x0606 => bf 9 0 b.assayPhys.toNat ||| bf 11 10 b.assayResult.toNat
  | _ => 0

def State.bchWrite (s : State) (port : Nat) (v : Word) : State :=
  match port with
  | 0x0601 => s.reserveWrite v
  | 0x0603 => { s with bch := { s.bch with events := s.bch.events &&& ~~~ v } }
  | 0x0604 => if 544 ≤ fld v 9 0 then s else { s with bch := { s.bch with laneSel := BitVec.ofNat 10 (fld v 9 0) } }
  | 0x0606 => s.laneAssayWrite v
  | _ => s

/-- The hash block as it reads. -/
def State.huRead (s : State) (port : Nat) : Word :=
  let h := s.hme
  match port with
  | 0x0800 => bf 6 0 (s.surviving .hashUnit).length ||| bf 9 7 (s.freeSparesOf .hashUnit).length |||
              bf 10 10 (b2n (s.reservedUnits.length = 4)) ||| bf 11 11 (b2n (s.assayBusy .hashUnit))
  | 0x0801 => h.huEvents
  | 0x0802 => bf 6 0 h.huSel.toNat
  | 0x0803 =>
    let p := h.huSel.toNat
    let u := s.hunit p
    bf 6 0 ((s.logical .hashUnit p).getD 0x7F) ||| bf 9 7 (s.unitRole p) |||
      bf 12 10 (if u.work ≠ 0 && u.workTill ≤ s.now then 0 else u.state) |||
      bf 25 13 (s.jobIndex u.job) ||| bf 27 26 (min 3 (s.recent .hashUnit p))
  | 0x0804 => bf 6 0 h.huAssay.toNat ||| bf 9 8 h.huResult.toNat
  | 0x0805 => bf 9 0 h.lend
  | _ => 0

/-- Writes of the hash block; BCH_HU_LEND at PL0 only. -/
def State.huWrite (s : State) (pl port : Nat) (v : Word) : State :=
  match port with
  | 0x0801 => { s with hme := { s.hme with huEvents := s.hme.huEvents &&& ~~~ v } }
  | 0x0802 => if 68 ≤ fld v 6 0 then s else { s with hme := { s.hme with huSel := BitVec.ofNat 7 (fld v 6 0) } }
  | 0x0804 => s.hashAssayWrite v
  | 0x0805 => if pl ≠ 0 || 720 < fld v 9 0 then s else { s with hme := { s.hme with lend := fld v 9 0 } }
  | _ => s

end Sys2Proof.Machine
end

