-- ==== Sys2Proof/Machine/Engines.lean ====
section
/-! DEFINITION. Sys2Proof/Machine/Engines.lean: the modular engines (R235 to R247): operand memory, the operations of R237,
LOAD, the programs, and the engine block's registers. -/

namespace Sys2Proof.Machine

/-! ### Operand memory (R236) -/

/-- A word of an engine's memory; pages 48 to 63 hold the programs that firmware wrote at start (R236, R241). -/
def engWord (e : Engine) (a : Nat) : Word :=
  if a < 48 * 256 then tget 0 e.mem a
  else match tget none e.written a with
    | some v => v
    | none => if e.loaded then Config.progWord a else 0

/-- Firmware's load of the programs into an engine's pages 48 to 63. -/
def loadProgs (e : Engine) : Engine := { e with loaded := true, written := [] }

/-- The number in `w` words of a page from word `o`. -/
def pageNum (e : Engine) (page o : Nat) : Nat → Nat
  | 0 => 0
  | w + 1 => (engWord e (page * 256 + o)).toNat + 2 ^ 32 * pageNum e page (o + 1) w

/-- `w` words of a number, least significant first. -/
def numWords : Nat → Nat → List Word
  | 0, _ => []
  | w + 1, v => BitVec.ofNat 32 v :: numWords w (v / 2 ^ 32)

/-- A page is erased, and its SECRET bit clears. -/
def erasePage (e : Engine) (page : Nat) : Engine :=
  { e with mem := tclear e.mem (page * 256) 256, secret := e.secret &&& ~~~ (BitVec.ofNat 64 (2 ^ page)) }

/-- The words of a list from a word address. -/
def putWords (e : Engine) (a : Nat) : List Word → Engine
  | [] => e
  | v :: r => putWords { e with mem := tset 0 e.mem a v } (a + 1) r

def isSecret (e : Engine) (page : Nat) : Bool := e.secret.getLsbD page
def markSecret (e : Engine) (page : Nat) : Engine := { e with secret := e.secret ||| BitVec.ofNat 64 (2 ^ page) }

/-- Every page below 48 is erased (R236, R246, R434). -/
def eraseLow (e : Engine) : Engine := { e with mem := [], secret := 0 }

/-! ### Secrets over the key bus (R240) -/

/-- The slots a LOAD of `w` words spans: consecutive general slots that meet the conditions of R240. -/
def State.loadSlots (s : State) (slot w : Nat) : Option (List Nat) :=
  let l := (upto ((32 * w + 255) / 256)).map (slot + ·)
  let f := s.krow slot
  let ok (i : Nat) : Bool :=
    let r := s.krow i
    8192 ≤ i && i < 16384 && kState r = kLoaded && hasUse r useEngine && att r 63 32 = att f 63 32 &&
    att r 21 16 = att f 21 16
  if l.all ok && att f 3 2 = 2 then some l else none

/-- The secret of PARn: a module row, or general slots; with the slots it holds. -/
def State.secretOf (s : State) (par : Word) (w : Nat) : Option (Nat × List Nat) :=
  match fld par 19 16 with
  | 0 => (s.loadSlots (fld par 13 0) w).map fun l =>
      (ofLe (l.map fun i => sub (slotKey (s.krow i)) 0 32).flatten % 2 ^ (32 * w), l)
  | 1 => (s.key.modRows.find? (·.1 == 1)).map fun r => ((r.2.1 ^^^ r.2.2).toNat % 2 ^ (32 * w), [])
  | 2 => (s.key.modRows.find? (·.1 == 2)).map fun r => ((r.2.1 ^^^ r.2.2).toNat % 2 ^ (32 * w), [])
  | _ => none

/-! ### The operations (R237, R239, R241) -/

/-- What an operation will do at its end: the words it writes on the result page, or none: the page is erased; whether
they are secret, and whether the page's SECRET bit clears. -/
structure Result where
  words : Option (List Word)
  secret : Bool := false
  isPublic : Bool := false

/-- Operations with a modulus: ADD, SUB, MMUL, INV, EXP. -/
def modOp (op w a b m : Nat) : Option Nat :=
  if m < 3 || m ≤ a || (m ≤ b && op ≠ 4) || (m % 2 = 0 && 3 ≤ op) then none
  else match op with
    | 1 => some ((a + b) % m)
    | 2 => some ((a + m - b) % m)
    | 3 => (invMod (32 * w + 1) m (2 ^ (32 * w) % m)).map fun i => a * b % m * i % m
    | 4 => invMod (32 * w) m a
    | _ => some (powMod m (32 * w) a b)

/-- The noise of one signature (R242, R524): 521 bits of nonce, the 64-bit j and the 521-bit field element that blind it. -/
def signNoise : Nat := 1106

/-- The r and s of a signature over e under d with nonce k, as 34 words. A key outside 1 to n - 1 gives no words. A nonce that
is 0 or not below n, or that gives r = 0 or s = 0, is none: another is drawn (R242, FIPS 186-5). -/
def signWords (d e k : Nat) : Option (Option (List Word)) :=
  if k = 0 || ecN ≤ k then none
  else if d = 0 || ecN ≤ d then some none
  else
    let (r, sg) := ecdsaSign d e k
    if r = 0 || sg = 0 then none else some (some (numWords 17 r ++ numWords 17 sg))

/-- Nonces are drawn until one serves: what it gives, and the state without the bits drawn; none while the harvest has not
given the bits of the next. -/
def State.drawSign (s : State) (d e : Nat) : Nat → Option (Option (List Word)) × State
  | 0 => (none, s.ask 3 signNoise)
  | f + 1 =>
    if !s.canDraw 3 signNoise then (none, s.ask 3 signNoise) else
    let (k, s) := s.draw 3 521
    let (_, s) := s.draw 3 585
    match signWords d e k with
    | some ws => (some ws, s)
    | none => s.drawSign d e f

/-- A program of R241 on an engine whose registers are set; none: P521_SIGN waits for its draws. -/
def State.runProg (s : State) (e : Engine) (prog : Nat) : Option (Result × List Nat) × State :=
  let a := fld e.ops 5 0
  let b := fld e.ops 13 8
  let m := fld e.ops 21 16
  match prog with
  | 1 =>
    let (d, l) : Nat × List Nat := (s.secretOf e.par 17).getD (0, [])
    let (ws, s) := s.drawSign d (pageNum e a 0 17) (1 + s.nh.b3.length / signNoise)
    (ws.map fun ws => ({ words := ws, isPublic := true }, l), s)
  | 2 =>
    let ok := ecdsaVerify (pageNum e b 0 17) (pageNum e b 17 17) (pageNum e a 0 17) (pageNum e m 0 17) (pageNum e m 17 17)
    (some ({ words := if ok then some [] else none, secret := isSecret e a || isSecret e b || isSecret e m }, []), s)
  | _ => match s.secretOf e.par 17 with
    | none => (some ({ words := none }, []), s)
    | some (d, l) =>
      (some ({ words := (ecPublic d).map fun q => numWords 17 q.1 ++ numWords 17 q.2, isPublic := true }, l), s)

/-- The checks that no operand value decides (R239): they refuse the operation with its result page untouched. -/
def staticBad (s : State) (e : Engine) (op w : Nat) : Bool :=
  let res := fld e.ops 29 24
  op = 0 || 9 ≤ op || w = 0 || 256 < w || 48 ≤ res ||
  (op ≤ 5 && res = fld e.ops 21 16) ||
  (op = 8 && (w ≠ 17 || !s.hme.progs || fld e.par 27 24 = 0 || 3 < fld e.par 27 24)) ||
  (op = 6 && (s.secretOf e.par w).isNone)

/-- The outcome of an operation, computed from its operands as GO finds them, and the slots it holds; noise is drawn before it
starts (R238), and none waits for it. -/
def State.compute (s : State) (e : Engine) (op w : Nat) : Option (Result × List Nat) × State :=
  let a := fld e.ops 5 0
  let b := fld e.ops 13 8
  let m := fld e.ops 21 16
  match op with
  | 6 => match s.secretOf e.par w with
    | some (v, l) => (some ({ words := some (numWords w v), secret := true }, l), s)
    | none => (some ({ words := none }, []), s)
  | 7 => (some ({ words := some [], isPublic := true }, []), s)
  | 8 => s.runProg e (fld e.par 27 24)
  | _ =>
    let sec := isSecret e a || isSecret e m || (isSecret e b && op ≠ 4)
    (some ({ words := (modOp op w (pageNum e a 0 w) (pageNum e b 0 w) (pageNum e m 0 w)).map (numWords w), secret := sec }, []), s)

/-- The physical engine behind a logical one takes commands: it is in service and not under assay. -/
def State.engineReady (s : State) (n : Nat) : Bool :=
  match s.phys .engine n with
  | some p => !s.assayRuns .engine p
  | none => false

/-- An operation starts on an engine that is ready. The result page 64 stands for none: an operation refused by a check
that no operand value decides. While its draws are missing the command waits, and GO takes no effect (R238). -/
def State.startOp (s : State) (n : Nat) (for_ : EngineFor) : State :=
  let e := s.eng n
  let op := fld e.cmd 3 0
  let w := fld e.cmd 12 4
  let run : Engine := { e with
    running := true, op := op, prog := fld e.par 27 24, result := 1, for_ := for_, drop := false, waitsGo := false }
  if staticBad s e op w then s.setEng n { run with out := none, resPage := 64, holds := [] } else
  match s.compute e op w with
  | (none, s) => s.setEng n { e with waitsGo := for_ = .register }
  | (some (r, l), s) =>
    let s := each l (fun i s => (s.takeHold i).countLoads i 1) s
    s.setEng n { run with out := r.words, outSecret := r.secret, resPage := fld e.ops 29 24, holds := l }

/-- An engine runs an operation, or a command on it waits for its draws. -/
def engBusy (e : Engine) : Bool := e.running || e.waitsGo

/-- Commands that waited for their draws start (R238). -/
def State.goDue (s : State) : State :=
  each (upto 4) (fun n s => if (s.eng n).waitsGo && s.engineReady n then s.startOp n .register else s) s

def State.meEvent (s : State) (b : Nat) : State := { s with hme := { s.hme with meEvents := setBit s.hme.meEvents b true } }

/-- A write of KEY_ME_CMDn (R237, R246, R247): GO while the engine is busy, or a command on it waits for its
draws, is discarded with OVERLAP, in HALT and for an engine out of service discarded. -/
def State.cmdWrite (s : State) (n : Nat) (v : Word) : State :=
  let e := s.eng n
  let set := s.setEng n { e with cmd := v &&& 0x1FFF }
  if !bit v 31 then set
  else if engBusy e then s.meEvent 2
  else if (s.phys .engine n).isNone then s
  else if !s.engineReady n then s.meEvent 2
  else if s.halted then s
  else set.startOp n .register

/-- The CMD word of an operation. -/
def cmdWord (op : Nat) (w : BitVec 9) : Word := bf 3 0 op ||| bf 12 4 w.toNat ||| bitW 31

/-- An operation is asked for by a write of KEY_ME_CMDn. -/
def State.engineGo (s : State) (n op : Nat) (w : BitVec 9) : Out :=
  if s.up then .next (s.cmdWrite n (cmdWord op w)) else .next s

/-- RUN of a program, PARn.PROG naming it. -/
def State.engineRun (s : State) (n prog : Nat) (w : BitVec 9) : Out :=
  if !s.up then .next s else
  let e := s.eng n
  .next ((s.setEng n { e with par := setFld e.par 27 24 prog }).cmdWrite n (cmdWord 8 w))

/-- ME_ADD. -/
def execMeAdd (n : Fin 4) (sizeW : BitVec 9) (s : State) : Out := s.engineGo n.val 1 sizeW

/-- ME_SUB. -/
def execMeSub (n : Fin 4) (sizeW : BitVec 9) (s : State) : Out := s.engineGo n.val 2 sizeW

/-- MMUL. -/
def execMmul (n : Fin 4) (sizeW : BitVec 9) (s : State) : Out := s.engineGo n.val 3 sizeW

/-- INV. -/
def execInvM (n : Fin 4) (sizeW : BitVec 9) (s : State) : Out := s.engineGo n.val 4 sizeW

/-- EXP. -/
def execExpM (n : Fin 4) (sizeW : BitVec 9) (s : State) : Out := s.engineGo n.val 5 sizeW

/-- ME_LOAD (R240). -/
def execMeLoad (n : Fin 4) (sizeW : BitVec 9) (s : State) : Out := s.engineGo n.val 6 sizeW

/-- ME_CLEAR. -/
def execMeClear (n : Fin 4) (sizeW : BitVec 9) (s : State) : Out := s.engineGo n.val 7 sizeW

/-- P521_SIGN (R242). -/
def execP521Sign (n : Fin 4) (sizeW : BitVec 9) (s : State) : Out := s.engineRun n.val 1 sizeW

/-- P521_VERIFY (R242). -/
def execP521Verify (n : Fin 4) (sizeW : BitVec 9) (s : State) : Out := s.engineRun n.val 2 sizeW

/-- P521_PUBKEY (R241). -/
def execP521Pubkey (n : Fin 4) (sizeW : BitVec 9) (s : State) : Out := s.engineRun n.val 3 sizeW

/-! ### The end of an operation -/

/-- The page work of an end: the words written, or the page erased; a public output page that was secret is erased first
(R236: SECRET covers every word of a page). -/
def endPage (e : Engine) : Engine :=
  if e.drop then eraseLow e
  else if 48 ≤ e.resPage then e
  else match e.out with
    | none => erasePage e e.resPage
    | some ws =>
      let clears := e.op = 7 || (!ws.isEmpty && e.op = 8 && isSecret e e.resPage)
      let e := if clears then erasePage e e.resPage else e
      let e := putWords e (e.resPage * 256) ws
      if e.outSecret then markSecret e e.resPage else e

/-- An operation ends: its holds are released, its page written or erased, RESULT set. -/
def State.endOp (s : State) (n : Nat) : State :=
  let e := s.eng n
  let s := each e.holds (fun i s => let r := s.krow i; s.setKrow i { r with holds := r.holds - 1 }) s
  let ok := e.drop || (e.out.isSome && e.resPage < 48)
  let e' := endPage e
  s.setEng n { e' with
    running := false, out := none, outSecret := false, holds := [], drop := false, for_ := .register
    result := if ok then 2 else 3
    secretRes := e.resPage < 48 && isSecret e' e.resPage }

/-- P521_SIGN's own check fails (R243): a transient of the engine, its page erased. -/
def State.signFails (s : State) (n : Nat) : State :=
  let s := (s.setEng n { s.eng n with out := none }).meEvent 0
  match s.phys .engine n with
  | some p => s.strike .engine p
  | none => s

/-- The signature of P521_SIGN stands on the running engine. -/
def signing (e : Engine) : Bool := e.running && e.op = 8 && e.prog = 1 && e.out.isSome && !e.drop

/-! ### The module's own signatures (R244) -/

/-- Pages that firmware uses for its own signatures, the digest and the result, and those for a signature, a public key and a
digest that it verifies (log entry 36). -/
def fwDigestPage : Nat := 46
def fwResultPage : Nat := 47
def fwSigPage : Nat := 45
def fwKeyPage : Nat := 44
def fwMsgPage : Nat := 43

/-- An idle engine, the lowest first, other than a physical one to avoid: a rerun is made on another engine (R243), and waits for
one while another is in service. -/
def State.idleEngine (s : State) (avoid : Option Nat) : Option Nat :=
  let ok (n : Nat) : Bool := s.engineReady n && !engBusy (s.eng n)
  let other (n : Nat) : Bool := (s.phys .engine n).isSome && s.phys .engine n != avoid
  if (upto 4).any other then (upto 4).find? fun n => ok n && other n else (upto 4).find? ok

/-- The words of a page that firmware writes: a secret page is erased first (R236). -/
def putPage (e : Engine) (page : Nat) (l : List Word) : Engine :=
  putWords (if isSecret e page then erasePage e page else e) (page * 256) l

/-- Firmware starts a signature over a digest under a module row, once the harvest gives its draws (R238). -/
def State.fwSign (s : State) (n row : Nat) (digest : Bytes) (for_ : EngineFor) (second : Bool) : State :=
  if !s.canDraw 3 signNoise then s.ask 3 signNoise else
  let e := putPage (s.eng n) fwDigestPage (numWords 17 (ecDigest digest))
  (s.setEng n { e with
    ops := bf 5 0 fwDigestPage ||| bf 29 24 fwResultPage
    par := bf 19 16 row ||| bf 27 24 1
    cmd := bf 3 0 8 ||| bf 12 4 17
    second := second }).startOp n for_

/-- No engine is in service. -/
def State.noEngine (s : State) : Bool := (s.surviving .engine).isEmpty

/-- A command that verifies a signature waits for an engine: none is idle, and one is in service (R244). -/
def State.verifyWaits (s : State) : Bool := !s.noEngine && (s.idleEngine none).isNone

/-- The module verifies a signature on an idle engine (R244): digest, key and signature on pages of its own, and P521_VERIFY run
to its end there; its RESULT is what sigCheck says (log entry 141). -/
def State.ranVerify (s : State) (pub msg sig : Bytes) : State :=
  let s := s.hashes msg.length
  match s.idleEngine none with
  | none => s
  | some n =>
    let e := putPage (s.eng n) fwMsgPage (numWords 17 (ecDigest (sha512 msg)))
    let e := putPage e fwKeyPage (numWords 17 (ofBe (sub pub 0 66)) ++ numWords 17 (ofBe (sub pub 66 66)))
    let e := putPage e fwSigPage (numWords 17 (ofBe (sub sig 0 66)) ++ numWords 17 (ofBe (sub sig 66 66)))
    ((s.setEng n { e with
      ops := bf 5 0 fwMsgPage ||| bf 13 8 fwKeyPage ||| bf 21 16 fwSigPage ||| bf 29 24 fwResultPage
      par := bf 27 24 2
      cmd := bf 3 0 8 ||| bf 12 4 17 }).startOp n .register).endOp n

/-- The signature that stands on an engine's result page. -/
def pageSig (e : Engine) : Bytes := sigBytes (pageNum e fwResultPage 0 17) (pageNum e fwResultPage 17 17)

/-! ### Registers (R247) -/

/-- A read of KEY_ME_DATAn: 0 for a secret page and while the engine is busy; ADDR advances. -/
def State.dataRead (s : State) (n : Nat) : Word × State :=
  let e := s.eng n
  let v := if e.running || isSecret e (e.addr.toNat / 256) then 0 else engWord e e.addr.toNat
  (v, s.setEng n { e with addr := e.addr + 1 })

/-- A write of KEY_ME_DATAn: discarded while busy and on locked pages; a secret page is erased first. -/
def State.dataWrite (s : State) (n : Nat) (v : Word) : State :=
  let e := s.eng n
  let page := e.addr.toNat / 256
  let e' :=
    if e.running || (48 ≤ page && s.hme.progLock) then e
    else
      let e := if isSecret e page then erasePage e page else e
      if page < 48 then { e with mem := tset 0 e.mem e.addr.toNat v }
      else { e with written := tset none e.written e.addr.toNat (some v) }
  s.setEng n { e' with addr := e.addr + 1 }

/-- KEY_ME_DATA_READ (R236). -/
def execKeyMeDataRead (n : Fin 4) (s : State) : Out := if s.up then .next (s.dataRead n.val).2 else .next s

/-- KEY_ME_DATA_WRITE (R236). -/
def execKeyMeDataWrite (n : Fin 4) (value : BitVec 32) (s : State) : Out :=
  if s.up then .next (s.dataWrite n.val value) else .next s

/-- KEY_ME_LOCK (R236). -/
def execKeyMeLock (s : State) : Out :=
  if s.up then .next { s with hme := { s.hme with progLock := true } } else .next s

/-- A write of KEY_ME_ASSAY. -/
def State.engineAssayWrite (s : State) (v : Word) : State :=
  let p := fld v 2 0
  if 4 < p || (bit v 31 && s.assayBusy .engine) then s else
  let s := { s with hme := { s.hme with meAssay := BitVec.ofNat 3 p } }
  if bit v 31 && s.mayAssay .engine p then
    { s with hme := { s.hme with meAssayResult := 1 } }.startAssay .engine p none
  else s

/-- ENGINE_ASSAY_GO (R235, R247). -/
def execEngineAssayGo (value : BitVec 32) (s : State) : Out :=
  if s.up then .next (s.engineAssayWrite (setBit value 31 true)) else .next s

/-- The engine block as it reads. -/
def State.meRead (s : State) (port : Nat) : Word × State :=
  let h := s.hme
  match port with
  | 0x08A0 => (bf 2 0 (s.surviving .engine).length ||| bf 3 3 (b2n ((s.freeSparesOf .engine).length = 1)) |||
               bf 4 4 (b2n h.progLock) ||| bf 5 5 (b2n (s.assayBusy .engine)), s)
  | 0x08A1 => (h.meEvents, s)
  | 0x08A2 => (bf 0 0 (b2n h.progLock), s)
  | 0x08A3 => (bf 2 0 h.meAssay.toNat ||| bf 5 4 h.meAssayResult.toNat, s)
  | p =>
    if p < 0x0880 || 0x08A0 ≤ p then (0, s) else
    let n := (p - 0x0880) / 8
    let e := s.eng n
    match p % 8 with
    | 0 => (e.cmd, s)
    | 1 => (e.ops, s)
    | 2 => (e.par, s)
    | 3 => (bf 0 0 (b2n e.running) ||| bf 2 1 e.result.toNat ||| bf 3 3 (b2n e.secretRes), s)
    | 4 => (bf 13 0 e.addr.toNat, s)
    | 5 => s.dataRead n
    | 6 => (e.secret.truncate 32, s)
    | _ => ((e.secret >>> 32).truncate 32, s)

def State.meWrite (s : State) (pl port : Nat) (v : Word) : State :=
  match port with
  | 0x08A1 => { s with hme := { s.hme with meEvents := s.hme.meEvents &&& ~~~ v } }
  | 0x08A2 => if pl = 0 && bit v 0 then { s with hme := { s.hme with progLock := true } } else s
  | 0x08A3 => s.engineAssayWrite v
  | p =>
    if p < 0x0880 || 0x08A0 ≤ p then s else
    let n := (p - 0x0880) / 8
    let e := s.eng n
    match p % 8 with
    | 0 => s.cmdWrite n v
    | 1 => s.setEng n { e with ops := v &&& 0x3F3F3F3F }
    | 2 => s.setEng n { e with par := v &&& 0x0F0F3FFF }
    | 4 => s.setEng n { e with addr := BitVec.ofNat 14 (fld v 13 0) }
    | 5 => s.dataWrite n v
    | _ => s

end Sys2Proof.Machine
end

