-- ==== Sys2Proof/Machine/ArcSeq.lean ====
section
/-! DEFINITION. Sys2Proof/Machine/ArcSeq.lean: the archive behind its intake (chapter 11): segments and stripes, sequencing
and the chain, drawers and their close, gaps and runs, seals, commitment. -/

namespace Sys2Proof.Machine

/-! ### Record layout (R267, R271) -/

/-- Header bytes 0x00 to 0x1F, which the link covers. -/
def recHead (r : Rec) : Bytes :=
  le 2 r.typ ++ le 2 (r.src + r.cls.toNat * 2 ^ 12) ++ le 4 (r.body.length + r.flags.toNat * 2 ^ 25) ++
  le 12 r.gts.toNat ++ le 8 r.dseq ++ le 4 r.aoseq

/-- The link of a record after the previous link. -/
def recLink (last : Bytes) (r : Rec) : Bytes := sha512t (sub last 0 32 ++ recHead r ++ sha512t r.body)

/-- A record as it stands in the stream: header, body, zeros to a multiple of 64 bytes (R273). -/
def recStream (r : Rec) (body : Bytes) : Bytes :=
  let b := recHead r ++ r.link ++ body
  b ++ List.replicate (padded r.body.length - b.length) 0

/-- The bytes of a record's body that stand in the drawer: a large record's second read (R280). -/
def standing (a : ARec) : Bytes := a.second.getD a.r.body

/-! ### Blocks and stripes (R264, R265) -/

/-- A block's number from channel, die and block of the die. -/
def blkNum (ch die b : Nat) : Nat := ch * 163840 + die * 20480 + b

/-- Channels in service. -/
def State.channels (s : State) : List Nat := (upto 8).filter fun c => !(s.nch c).retired && (s.nch c).dies != 0

/-- Dies of a channel in service. -/
def State.diesOf (s : State) (ch : Nat) : List Nat := (upto 8).filter fun d => (s.nch ch).dies.getLsbD d

/-- A block that a pool, an emergency set or the open stripe holds, or whose retirement is decided. -/
def State.heldBlock (s : State) (b : Nat) : Bool :=
  s.ret.waiting.any (fun q => q.cls == .nandBlock && q.phys == b) ||
  s.arc.stripe.contains b || s.arc.ahead.contains b || s.arc.emSets.any (·.contains b) || s.arc.emPend.any (·.contains b)

/-- The lowest-numbered good block of a die that nothing holds (the spec names no order: log entry 37). -/
def State.freeBlock (s : State) (ch die : Nat) (taken : List Nat) : Nat → Option Nat
  | 0 => none
  | f + 1 =>
    let b := blkNum ch die (20480 - (f + 1))
    let k := s.nblk b
    if k.segs.isEmpty && !k.retired && k.erasing.isNone && !taken.contains b && !s.heldBlock b then some b
    else s.freeBlock ch die taken f

/-- Good blocks that hold nothing and stand in no pool, set or stripe. -/
def State.goodFree (s : State) : Nat :=
  let live (b : Nat) : Bool := (s.nch (b / 163840)).dies.getLsbD (b / 20480 % 8)
  let all := (s.channels.map fun c => 20480 * (s.diesOf c).length).sum
  let used := (s.arc.blocks.filter fun e => live e.1 && (e.2.retired || !e.2.segs.isEmpty || e.2.erasing.isSome)).length
  let empty := s.arc.stripe.filter fun b => (s.nblk b).segs.isEmpty
  all - used - (empty.length + s.arc.ahead.length + (s.arc.emSets ++ s.arc.emPend).flatten.length)

/-- Good blocks that R264 keeps available beside user capacity: the directory band, the refresh headroom, the channels' spare, and
until the archive is full the overfill band. -/
def State.keptBlocks (s : State) : Nat :=
  1024 + s.arc.headroom + ((upto 8).map fun c => (s.nch c).spare).sum + (if s.arc.full then 0 else 1024)

/-- A block that an erase frees or readies is marked for it. -/
def State.markErase (s : State) (b : Nat) (f : EraseFor) : State := s.setNblk b { s.nblk b with erasing := some f }

/-- Erase-ahead replaces a block that the open stripe has taken, on the same die, while good blocks beyond those kept are left
(R264, R265). -/
def State.eraseAhead (s : State) (b : Nat) : State :=
  match s.freeBlock (b / 163840) (b / 20480 % 8) [] 20480 with
  | some n => if s.keptBlocks < s.goodFree then s.markErase n .ahead else s
  | none => s

/-- The stripe width of a profile. -/
def stripeW : Profile → Nat
  | .incident => 32
  | .frugal => 8
  | _ => 16

def State.arcEvent (s : State) (b : Nat) : State := { s with arc := { s.arc with events := setBit s.arc.events b true } }

/-- ARC_NOTICE to PF0 (R296). -/
def State.arcNotice (s : State) (code dseq : Nat) : State := s.notice 0 0x0580 (le 2 code ++ le 2 0 ++ le 8 dseq)

/-- Blocks of the open stripe that hold nothing are erased before they are reused (R284). -/
def State.leaveStripe (s : State) : State :=
  let l := s.arc.stripe
  let s := { s with arc := { s.arc with stripe := [] } }
  each l (fun b s => if (s.nblk b).segs.isEmpty then s.markErase b .reuse else s) s

/-- An emergency set: good blocks spread evenly over four dies per channel in service (R284). -/
def State.newSet (s : State) : Option (List Nat) :=
  let chs := s.channels
  (upto 32).foldl (fun acc i => match acc, chs[i % chs.length]? with
    | some l, some ch =>
      let dies := (s.diesOf ch).take 4
      match dies[i / chs.length % dies.length]? with
      | some d => (s.freeBlock ch d l 20480).map fun b => l ++ [b]
      | none => none
    | _, _ => none) (some [])

/-- Emergency sets are chosen until two stand ready or are being erased. -/
def State.fillSets (s : State) : State :=
  each (upto (2 - s.arc.emSets.length - s.arc.emPend.length)) (fun _ s => match s.newSet with
    | some l => { s with arc := { s.arc with emPend := s.arc.emPend ++ [l] } }
    | none => s) s

/-- An emergency set becomes the open stripe, and its replacement is erased (R284). -/
def State.takeEmergency (s : State) : State :=
  match s.arc.emSets with
  | [] => s
  | l :: rest =>
    let s := s.leaveStripe
    ({ s with arc := { s.arc with
        stripe := l, stripeLeft := 32 * l.length, w := 32, emOpen := true, emNotice := true, emSets := rest } } : State).fillSets.arcEvent 3

/-- How many blocks of a die, by channel * 8 + die, have been opened. -/
def State.opened (s : State) (die : Nat) : Nat :=
  (s.arc.blocks.filter fun e => e.1 / 20480 == die && (e.2.retired || !e.2.segs.isEmpty)).length

/-- A list with an element before the first one of a larger key. -/
def insertBy (k : Nat) (x : Nat) : List (Nat × Nat) → List (Nat × Nat)
  | [] => [(k, x)]
  | y :: t => if k < y.1 then (k, x) :: y :: t else y :: insertBy k x t

/-- The dies of a channel in the order in which a stripe takes them: those with the fewest opened blocks first (log entry 37). -/
def State.diesByUse (s : State) (ch : Nat) : List Nat :=
  ((s.diesOf ch).foldl (fun l d => insertBy (s.opened (8 * ch + d)) d l) []).map (·.2)

/-- Erase-ahead blocks for a stripe of `n` dies spread evenly over the channels in service; none when one has none ready. -/
def State.stripeBlocks (s : State) (n : Nat) : Option (List Nat) :=
  let chs := s.channels.map fun c => (c, s.diesByUse c)
  (upto n).foldl (fun acc i => match acc, chs[i % chs.length]? with
    | some l, some (c, dies) =>
      match dies[i / chs.length % dies.length]? with
      | some d => (s.arc.ahead.find? fun b => b / 20480 == 8 * c + d && !l.contains b).map fun b => l ++ [b]
      | none => none
    | _, _ => none) (some [])

/-- A new stripe at the profile's width; an emergency set when erase-ahead has no block for a die of it, and for every program of
prepare (R265, R284, R285). -/
def State.newStripe (s : State) : State :=
  let w := stripeW s.pwr.profile
  let s := { s with arc := { s.arc with stripe := [] } }
  match if s.arc.prepare && !s.arc.emSets.isEmpty then none else s.stripeBlocks w with
  | some l =>
    let s : State := { s with arc := { s.arc with
      stripe := l, stripeLeft := 32 * w, w := w, emOpen := false, ahead := s.arc.ahead.filter fun b => !l.contains b } }
    each l (fun b s => s.eraseAhead b) s
  | none => s.takeEmergency

/-- A segment takes the next page of the open stripe. -/
def State.dealSeg (s : State) (num : Nat) : State :=
  let s := if s.arc.stripeLeft = 0 then s.newStripe else s
  let n := s.arc.stripe.length
  match s.arc.stripe[(32 * n - s.arc.stripeLeft) % n]? with
  | none => s
  | some b =>
    let k := s.nblk b
    let s := s.setNblk b { k with segs := k.segs ++ [num] }
    { s with arc := { s.arc with stripeLeft := s.arc.stripeLeft - 1 } }

/-- The block that holds a segment. -/
def State.blockOf (s : State) (seg : Nat) : Option Nat := (s.arc.blocks.find? fun e => e.2.segs.contains seg).map (·.1)

/-! ### The power governor (R265) -/

/-- Programs at once: by profile, halved by shed step 4 (R420), and in prepare one on every die of the emergency set. -/
def State.govCap (s : State) : Nat :=
  if s.arc.prepare then 32
  else
    let n := match s.pwr.profile with
      | .incident => 24
      | .frugal => 4
      | _ => 10
    if 4 ≤ s.pwr.shed then n / 2 else n

/-- Room under the cap, in thirds of a program: an erase counts as one third. -/
def State.govRoom (s : State) (n : Nat) : Bool := 3 * s.arc.programs.length + s.arc.erases.length + n ≤ 3 * s.govCap

/-- A large record whose second read has not ended stands in a segment: it is not yet programmed whole (R280). -/
def State.largeIn (s : State) (seg : Nat) : Bool :=
  s.arc.large.any fun l => s.arc.recs.any fun a =>
    a.r.dseq == l.1 && a.seg0 ≤ seg && a.off < (seg - a.seg0 + 1) * 65536 && (seg - a.seg0) * 65536 < a.off + padded a.r.body.length

/-- The die of a segment, by channel * 8 + die. -/
def State.dieOf (s : State) (seg : Nat) : Option Nat := (s.blockOf seg).map (· / 20480)

/-- A segment leaves its page for the next one of the open stripe. -/
def State.moveSeg (s : State) (num : Nat) : State :=
  let s := match s.blockOf num with
    | some b => let k := s.nblk b; s.setNblk b { k with segs := k.segs.filter (· != num) }
    | none => s
  ({ s with arc := { s.arc with segs := s.arc.segs.map fun g => if g.num = num then { g with prog := 0 } else g } } : State).dealSeg num

/-- A segment waits for its program: its stream has passed it, or prepare programs what stands. -/
def State.progDue (s : State) (g : Seg) : Bool := (g.closed || s.arc.prepare) && g.prog < g.fill && !s.arc.programs.contains g.num

/-- The governor admits programs in the order of the global sequence, one on a die at a time, and then erases, while there is room
under its cap. A segment that found no stripe open takes its page first; one that prepare programmed in part takes another page,
since a page is programmed once. -/
def State.govern (s : State) : State :=
  let s := each (s.arc.segs.filter fun g => g.prog < g.fill && (s.blockOf g.num).isNone) (fun g s => s.dealSeg g.num) s
  let s := each (s.arc.segs.filter fun g => s.progDue g && 0 < g.prog) (fun g s => s.moveSeg g.num) s
  let s := each (s.arc.segs.filter s.progDue) (fun g s =>
    match s.dieOf g.num with
    | none => s
    | some d =>
      if !s.govRoom 3 || (s.arc.programs.filterMap s.dieOf).contains d then s
      else { s with arc := { s.arc with programs := s.arc.programs ++ [g.num] } }) s
  each (s.arc.blocks.filter fun e => e.2.erasing.isSome && !s.arc.erases.contains e.1) (fun e s =>
    if s.govRoom 1 then { s with arc := { s.arc with erases := s.arc.erases ++ [e.1] } } else s) s

/-- A new segment of the global sequence: user capacity, or the overfill band once the archive is full (R264, R291). -/
def State.newSeg (s : State) : State :=
  let num := s.arc.nextSeg
  let a := s.arc
  let g : Seg := { num := num, fill := 0 }
  let a' : Arc := { a with
    nextSeg := num + 1
    used := if a.full then a.used else a.used + 1
    overfill := if a.full then a.overfill + 1 else a.overfill
    segs := a.segs ++ [g] }
  ({ s with arc := a' } : State).dealSeg num

/-- A segment's size. -/
def segSize : Nat := 65536

/-- A segment is one 16 KiB page in each of the four planes of its die, and each page holds four codewords (R263). -/
def pageSize : Nat := 16384
def cwSize : Nat := 4096

/-- The plane in which a codeword of a segment stands. -/
def cwPlane (cw : Nat) : Nat := cw * cwSize / pageSize

/-- The stream of the open drawer grows from `a` to `b`: its segments fill, and those it has passed close. -/
def State.growStream (s : State) (seg0 a b : Nat) : State :=
  let n := (b + segSize - 1) / segSize
  let m := (a + segSize - 1) / segSize
  let s := each (upto (n - m)) (fun _ s => s.newSeg) s
  { s with arc := { s.arc with segs := s.arc.segs.map fun g =>
      if g.num < seg0 || seg0 + n ≤ g.num then g
      else
        let e := min segSize (b - (g.num - seg0) * segSize)
        { g with fill := max g.fill e, closed := g.closed || e == segSize } } }

/-! ### Answers to those who wait for a record -/

/-- The answer to whoever waits for a record: its DSEQ and header GTS, or a failure status. -/
def State.answer (s : State) (w : Waiter) (status dseq : Nat) (gts : Gts) : State :=
  let pay (g : Gts) : Bytes := if status = stOk then le 8 dseq ++ le 12 g.toNat else []
  match w with
  | .cmdSeq p t => s.reply p t 0x0501 status (pay gts)
  | .cmdCommit p t => s.reply p t 0x0501 status (pay gts)
  | .cmdRepeat p t g => s.reply p t 0x0501 status (pay g)
  | .job id => s.jobRecorded id status dseq
  | .none => s

/-! ### Sequencing (R270, R271, R273) -/

/-- Record types that are no content records (R274). -/
def isContent (typ : Nat) : Bool := typ ≠ 1 && typ ≠ 2 && typ ≠ 3 && typ ≠ 0x31

/-- The notice that a sequenced record of the archive raises (R296). -/
def State.recNotice (s : State) (r : Rec) : State :=
  let s := if s.arc.emNotice then { s with arc := { s.arc with emNotice := false } }.arcNotice 5 r.dseq else s
  match r.typ with
  | 4 => (s.arcNotice 4 r.dseq).arcEvent 0
  | 5 => s.arcEvent 1
  | 6 =>
    let code := leAt r.body 0 2
    if code = 2 || code = 3 || code = 6 || code = 7 || code = 8 then s.arcNotice code r.dseq
    else if code = 0x0C then s.arcNotice code (leAt r.body 12 8)
    else s
  | 0x22 => if r.src = 0x004 then s.arcNotice 0x0A r.dseq else s
  | _ => s

/-- Who waits for a record's commitment. -/
def waitsCommit : Waiter → Bool
  | .cmdCommit _ _ | .cmdRepeat _ _ _ | .job _ => true
  | .cmdSeq _ _ | .none => false

/-- A record is given its DSEQ and LINK and placed in the open drawer. One sequenced in power-fail prepare carries
EMERGENCY (R285). -/
def State.placeRec (s : State) (r : Rec) (w : Waiter) : State :=
  match s.arc.openDrawer with
  | none => s
  | some d =>
    let s := (s.hashes r.body.length).hashes (96 + (recHead r).length)
    let a := s.arc
    let r := { r with flags := if a.prepare then r.flags ||| fEmergency else r.flags, dseq := a.nextDseq, link := [] }
    let r := { r with link := recLink a.lastLink r }
    let len := d.len + padded r.body.length
    let d' := { d with
      len := len
      count := d.count + 1
      content := d.content || isContent r.typ
      gtsFirst := if gtsTime r.gts < gtsTime d.gtsFirst then r.gts else d.gtsFirst
      gtsLast := if gtsTime d.gtsLast < gtsTime r.gts then r.gts else d.gtsLast }
    let isLarge : Bool := 1048576 < r.body.length
    let ar : ARec := { r := r, drawer := d.num, off := d.len, seg0 := d.seg0 }
    let a' : Arc := { a with
      nextDseq := a.nextDseq + 1
      lastLink := r.link
      openDrawer := some d'
      recs := a.recs ++ [ar]
      large := if isLarge then a.large ++ [(r.dseq, w)] else a.large
      waiters := if !isLarge && waitsCommit w then a.waiters ++ [(r.dseq, w)] else a.waiters }
    let s := ({ s with arc := a' } : State).growStream d.seg0 d.len len
    let s := match w with
      | .cmdSeq _ _ => if isLarge then s else s.answer w stOk r.dseq r.gts
      | _ => s
    s.recNotice r

/-- An archive record of its own (R269): source 0x004, stamped now. -/
def State.own (s : State) (typ : Nat) (cls : BitVec 2) (body : Bytes) : Rec :=
  { typ := typ, src := 0x004, cls := cls, gts := s.gts, body := body }

/-! ### Gaps and runs (R281, R282) -/

/-- The body of a GAP record. -/
def gapBody (g : Gap) : Bytes :=
  le 1 g.cls ++ le 1 g.cause ++ le 2 0 ++ le 4 (min g.records (2 ^ 32 - 1)) ++ le 8 g.bytes ++ le 12 g.first.toNat ++
  le 12 g.last.toNat ++ le 8 g.skipped

/-- A gap closes: its GAP record is sequenced. -/
def State.putGap (s : State) (g : Gap) : State :=
  let s := { s with arc := { s.arc with gapsTotal := satInc s.arc.gapsTotal (2 ^ 32 - 1) } }
  s.placeRec (s.own 4 c0 (gapBody g)) .none

/-- Gaps that meet a condition close. -/
def State.closeGaps (s : State) (p : Gap → Bool) : State :=
  if s.arc.openDrawer.isNone then s else
  let l := s.arc.gaps.filter p
  each l (fun g s => s.putGap g) { s with arc := { s.arc with gaps := s.arc.gaps.filter fun g => !p g } }

/-- A record is dropped and counted in the gap of its class and cause. -/
def State.gapDrop (s : State) (cls cause records bytes : Nat) (first last : Gts) : State :=
  let a := s.arc
  match a.gaps.find? fun g => g.cls == cls && g.cause == cause with
  | some _ => { s with arc := { a with gaps := a.gaps.map fun g =>
      if g.cls = cls && g.cause = cause then
        { g with records := g.records + records, bytes := g.bytes + bytes, last := last } else g } }
  | none => { s with arc := { a with gaps := a.gaps ++
      [{ cls := cls, cause := cause, records := records, bytes := bytes, first := first, last := last, openedAt := s.now }] } }

/-- The body of a COUNT record. -/
def runBody (r : Run) : Bytes :=
  le 2 r.typ ++ le 2 r.src ++ le 4 r.repeats ++ le 12 r.first.toNat ++ le 12 r.last.toNat ++ r.digest ++ le 8 (r.orig - 1)

/-- A run ends: its COUNT record is sequenced, and those who wait for its commitment wait for it. -/
def State.putRun (s : State) (r : Run) : State :=
  let dseq := s.arc.nextDseq
  let s := s.placeRec (s.own 5 c1 (runBody r)) .none
  { s with arc := { s.arc with waiters := s.arc.waiters ++ r.waiters.map fun w => (dseq, w) } }

/-- Runs that meet a condition end; a run whose original is not yet sequenced ends once it is. -/
def State.endRuns (s : State) (p : Run → Bool) : State :=
  if s.arc.openDrawer.isNone then s else
  let l := s.arc.runs.filter fun r => p r && r.orig != 0
  let rest := s.arc.runs.filterMap fun r =>
    if !p r then some r else if r.orig = 0 then some { r with ended := true } else none
  each l (fun r s => s.putRun r) { s with arc := { s.arc with runs := rest } }

/-! ### Drawers (R273, R274, R278) -/

/-- The room the open drawer keeps back for its close. -/
def State.backRoom (s : State) (d : Drawer) : Nat :=
  128 + (if d.hasSeal then 0 else 320) + 128 * s.arc.gaps.length + 192 * s.arc.runs.length

/-- A drawer's stream is at most 64 MiB. -/
def drawerMax : Nat := 67108864

/-- A new drawer opens on a fresh segment with its OPEN record. -/
def State.newDrawer (s : State) : State :=
  let a := s.arc
  let n := a.nextDrawer
  let d : Drawer := { num := n, firstDseq := a.nextDseq, seg0 := a.nextSeg, hasSeal := n == 0, openedAt := s.now,
                      gtsFirst := s.gts, gtsLast := s.gts }
  let s := { s with arc := { a with nextDrawer := n + 1, openDrawer := some d, begun := true } }
  s.placeRec (s.own 1 c0 (le 8 n ++ le 1 a.w ++ le 1 s.pwr.profile.code ++ le 6 0)) .none

/-- A closed drawer by number. -/
def State.drawer? (s : State) (n : Nat) : Option Drawer := s.arc.closed.find? (·.num == n)

/-- The previous seal digest of a TRAILER: zeros for drawer 0 and for a drawer closed with SEAL_DEFERRED (R277, R278). -/
def State.prevSeal (s : State) (d : Drawer) : Bytes :=
  if d.num = 0 || !d.hasSeal then List.replicate 32 0
  else match (s.drawer? (d.num - 1)).bind (·.sealB) with
    | some b => sha512t b
    | none => List.replicate 32 0

/-- The open drawer closes now: its gaps and runs close into it, its TRAILER follows, its last segment is zero-filled, and
the next drawer opens. -/
def State.closeDrawer (s : State) (cause : Nat) : State :=
  let s := (s.closeGaps fun _ => true).endRuns fun _ => true
  match s.arc.openDrawer with
  | none => s
  | some d =>
    let deferred := !d.hasSeal
    let c := cause + (if deferred then 32 else 0)
    let dseq := s.arc.nextDseq
    let body := le 8 d.num ++ s.prevSeal d ++ le 8 d.firstDseq ++ le 4 (d.count + 1) ++ le 4 c
    let s := s.placeRec (s.own 3 c0 body) .none
    let d := s.arc.openDrawer.getD d
    let d' : Drawer := { d with trailer := some dseq, cause := c, closeAt := none }
    let segs := s.arc.segs.map fun g => if d.seg0 ≤ g.num then { g with closed := true } else g
    let s := { s with arc := { s.arc with openDrawer := none, closed := d' :: s.arc.closed, segs := segs } }
    let s := if deferred then s.arcNotice 0x0B dseq else s
    s.newDrawer

/-- A close condition arrives (R274): the drawer closes once it holds its predecessor's SEAL, or at once where R278 lets
it close without; otherwise it waits. -/
def State.wantClose (s : State) (cause : Nat) : State :=
  match s.arc.openDrawer with
  | none => s
  | some d =>
    if d.hasSeal || s.halted || s.noEngine then s.closeDrawer (if d.closeAt.isSome then d.cause else cause)
    else if d.closeAt.isSome then s
    else { s with arc := { s.arc with openDrawer := some { d with closeAt := some s.now, cause := cause } } }

/-- A record that the archive sequences itself, or that leaves staging: where it does not fit, the drawer closes FULL
first (R273). -/
def State.seqFit (s : State) (r : Rec) (w : Waiter) : State :=
  match s.arc.openDrawer with
  | none => s
  | some d =>
    if d.len + padded r.body.length + s.backRoom d ≤ drawerMax then s.placeRec r w
    else (s.closeDrawer 2).placeRec r w

/-- The body of an archive event record (R269). -/
def eventBody (code block seg count : Nat) : Bytes :=
  le 2 code ++ le 2 0 ++ le 1 (block / 163840) ++ le 1 (block / 20480 % 8) ++ le 2 0 ++ le 4 (block % 20480) ++ le 8 seg ++
  le 4 count

/-- An archive event record (C1) is sequenced; in a full archive it is dropped into a gap (R291). -/
def State.arcRecord (s : State) (code block seg count : Nat) (extra : Bytes) : State :=
  let r := s.own 6 c1 (eventBody code block seg count ++ extra)
  if s.arc.full then s.gapDrop 1 5 1 (padded r.body.length) r.gts r.gts else s.seqFit r .none

/-- User capacity passes 90 %, 99 %, or the archive becomes full (R291). -/
def State.usage (s : State) : State :=
  let a := s.arc
  let s :=
    if a.notified.toNat < 1 && 9 * a.cap ≤ 10 * a.used then
      { s with arc := { a with notified := 1 } }.arcRecord 6 0 0 a.used []
    else s
  let s :=
    if s.arc.notified.toNat < 2 && 99 * a.cap ≤ 100 * a.used then
      { s with arc := { s.arc with notified := 2 } }.arcRecord 7 0 0 a.used []
    else s
  if !a.full && a.cap < a.used + 1024 then
    let s := s.arcRecord 8 0 0 a.used []
    { s with arc := { s.arc with full := true } }.arcEvent 7
  else s

/-- A record is sequenced, and the use of capacity looked at. -/
def State.seqNow (s : State) (r : Rec) (w : Waiter) : State := (s.seqFit r w).usage

/-! ### Seals (R275 to R278) -/

/-- The stream of a drawer, zero-filled to whole segments. -/
def State.streamOf (s : State) (d : Drawer) : Bytes :=
  let b := ((s.arc.recs.filter (·.drawer == d.num)).map fun a => recStream a.r (standing a)).flatten
  b ++ List.replicate ((d.len + segSize - 1) / segSize * segSize - b.length) 0

/-- What stands in the NAND for a codeword of a drawer's segment (R266): its plaintext under XTS-AES-256, the data unit numbered by the
global segment number times 16 plus the codeword's index; the first half of the archive key is the data key. -/
def State.atRest (s : State) (d : Drawer) (seg cw : Nat) : Bytes :=
  let k := le 64 s.arc.key.toNat
  xtsSeal (sub k 0 32) (sub k 32 32) (16 * seg + cw) (sub (s.streamOf d) (segSize * (seg - d.seg0) + cwSize * cw) cwSize)

/-- One level of the Merkle tree: an unpaired last node is carried up. -/
def merkleLevel : List Bytes → List Bytes
  | a :: b :: t => sha512 (1 :: (a ++ b)) :: merkleLevel t
  | l => l

/-- The root of a level, with fuel for the levels left. -/
def merkleRoot : Nat → List Bytes → Bytes
  | 0, l => l.headD []
  | f + 1, l => match l with
    | [a] => a
    | l => merkleRoot f (merkleLevel l)

/-- The Merkle root of a drawer. -/
def State.rootOf (s : State) (d : Drawer) : Bytes :=
  let b := s.streamOf d
  let n := b.length / segSize
  merkleRoot 11 ((upto n).map fun i => sha512 (0 :: sub b (segSize * i) segSize))

/-- The Merkle nodes of a drawer on a hash unit (R229): its leaves, the nodes above them, and the digest that is signed. -/
def State.merkleWork (s : State) (d : Drawer) : State :=
  let n := (s.streamOf d).length / segSize
  (s.hashWork (n * hashCycles 0x21 (segSize + 1) + (n - 1) * hashCycles 0x21 129) none).hashes 104

/-- The signed message of a drawer (R276). -/
def State.sealMsg (s : State) (d : Drawer) : Bytes :=
  le 8 d.num ++ le 8 s.lc.serial.toNat ++ s.rootOf d ++ le 12 d.gtsFirst.toNat ++ le 12 d.gtsLast.toNat

/-- The oldest closed drawer not yet signed; seals are signed in drawer order. -/
def State.dueSeal (s : State) : Option Drawer := s.arc.closed.reverse.find? (·.sealB.isNone)

/-- The TRAILER of a drawer is committed. -/
def State.trailerDone (s : State) (d : Drawer) : Bool :=
  match d.trailer with
  | some t => s.arc.recs.any fun a => a.r.dseq == t && a.committed
  | none => false

def EngineFor.isSeal : EngineFor → Bool
  | .drawerSeal _ => true
  | _ => false

/-- Firmware asks an engine for the next seal (R276, R277): it waits in HALT, when no engine is in service, and while one
is being signed. -/
def State.seekSeal (s : State) : State :=
  match s.dueSeal with
  | none => { s with arc := { s.arc with sealWait := false } }
  | some d =>
    if !s.trailerDone d || !s.arc.ready || s.lc.fw != .running || (upto 4).any (fun n => (s.eng n).running && (s.eng n).for_.isSeal) then s
    else
      let wait := s.halted || s.noEngine
      let s :=
        if wait && !s.arc.sealWait then { s with arc := { s.arc with sealWait := true } }.arcNotice 0x0B (d.trailer.getD 0)
        else { s with arc := { s.arc with sealWait := wait } }
      if wait then s else
      match s.idleEngine none with
      | none => { s with arc := { s.arc with sealWait := true } }
      | some n =>
        if !s.canDraw 3 signNoise then ({ s with arc := { s.arc with sealWait := true } } : State).ask 3 signNoise else
        (s.merkleWork d).fwSign n 2 (sha512 (s.sealMsg d)) (.drawerSeal d.num) false

/-- A drawer's signature exists (R277): its SEAL record is sequenced in the open drawer, a replay checkpoint follows
(R183), and a close that waited for it proceeds. -/
def State.sealed (s : State) (num : Nat) (sig : Bytes) : State :=
  match s.drawer? num with
  | none => s
  | some d =>
    let sealB := s.rootOf d ++ le 12 d.gtsFirst.toNat ++ le 12 d.gtsLast.toNat ++ sig
    let s := s.arcNotice 1 (d.trailer.getD 0)
    let r := s.own 2 c0 (le 8 num ++ sealB)
    let due := match s.arc.openDrawer with
      | some o => o.num == num + 1 && !o.hasSeal
      | none => false
    let s := if due then s.placeRec r .none else s.seqNow r .none
    let at_ := (s.arc.recs.reverse.find? fun a => a.r.typ == 2 && leAt a.r.body 0 8 == num).map (·.r.dseq)
    let closed := s.arc.closed.map fun c => if c.num = num then { c with sealB := some sealB, sealDseq := at_ } else c
    let opened := s.arc.openDrawer.map fun o => if due then { o with hasSeal := true } else o
    let s := { s with arc := { s.arc with closed := closed, openDrawer := opened } }
    let s := s.fwRec 0x0031 0x000 c0 s.checkpointBody
    match due, s.arc.openDrawer.bind (·.closeAt), s.arc.openDrawer with
    | true, some _, some o => s.closeDrawer o.cause
    | _, _, _ => s

/-! ### Commitment (R270) -/

/-- Whether every segment that holds a byte of a record has programmed with those bytes. -/
def State.programmed (s : State) (a : ARec) : Bool :=
  let e := a.off + padded a.r.body.length
  !(s.arc.large.any (·.1 == a.r.dseq)) &&
  s.arc.segs.all fun g =>
    let base := (g.num - a.seg0) * segSize
    g.num < a.seg0 || e ≤ base || base + segSize ≤ a.off || min segSize (e - base) ≤ g.prog

/-- What the commitment of a record does: the pending action it stands for is popped (R445), and those who wait for it are
answered. -/
def State.onCommit (s : State) (a : ARec) : State :=
  let r := a.r
  let s := match r.typ with
    | 0x12 => if leAt r.body 16 1 = 0xFF then s else { s with tmp := { s.tmp with pend := s.tmp.pend.drop 1 } }
    | _ => s
  let ws := s.arc.waiters.filter (·.1 == r.dseq)
  let s := { s with arc := { s.arc with waiters := s.arc.waiters.filter (·.1 != r.dseq) } }
  let status := if a.second.isSome then stHostRead else stOk
  let dseq := if r.typ = 5 && r.src = 0x004 then leAt r.body 64 8 else r.dseq
  each ws (fun w s => s.answer w.2 status dseq r.gts) s

/-- Records whose bytes have all programmed are committed. -/
def State.commitScan (s : State) : State :=
  let news := s.arc.recs.filter fun a => !a.committed && s.programmed a
  let s := { s with arc := { s.arc with
    recs := s.arc.recs.map fun a => if !a.committed && s.programmed a then { a with committed := true } else a
    committed := news.foldl (fun m a => max m (a.r.dseq + 1)) s.arc.committed
    segs := s.arc.segs.filter fun g => !(g.closed && g.fill ≤ g.prog) } }
  (each news (fun a s => s.onCommit a) s).seekSeal

end Sys2Proof.Machine
end

