-- ==== Sys2Proof/Machine/Flags.lean ====
section
/-! DEFINITION. Sys2Proof/Machine/Flags.lean: the status register of a Lolan core and every flag computation of the
instruction set (R328, R339 to R341, R358). -/

namespace Sys2Proof.Machine

/-! ### SR (R328) -/

def srZ : Nat := 0
def srN : Nat := 1
def srC : Nat := 2
def srV : Nat := 3
def srF : Nat := 4
def srAV : Nat := 5
def srLA : Nat := 6
def srDS : Nat := 7

/-- The current privilege level. -/
def Core.pl (c : Core) : Nat := fld c.sr 13 12

/-- The mask level. -/
def Core.ml (c : Core) : Nat := fld c.sr 11 8

/-- A flag of the live SR. -/
def Core.flag (c : Core) (n : Nat) : Bool := bit c.sr n

def Core.setFlag (c : Core) (n : Nat) (b : Bool) : Core := { c with sr := setBit c.sr n b }

/-- A hardware loop is active. -/
def Core.la (c : Core) : Bool := c.flag srLA

/-! ### Results of the ALU groups (R339) -/

/-- The result of ALU operation `k` on d and s with carry `c`. CMP is SUB and TST is AND that write no result. -/
def aluResult (k : Nat) (d s : Word) (c : Bool) : Word :=
  let n := s.toNat % 32
  match k with
  | 0x0 => s
  | 0x1 => d + s
  | 0x2 => d + s + BitVec.ofNat 32 (b2n c)
  | 0x3 => d - s
  | 0x4 => d - s - BitVec.ofNat 32 (b2n c)
  | 0x5 => d - s
  | 0x6 => d &&& s
  | 0x7 => d ||| s
  | 0x8 => d ^^^ s
  | 0x9 => d &&& s
  | 0xA => d <<< n
  | 0xB => d >>> n
  | 0xC => d.sshiftRight n
  | 0xD => d.rotateLeft n
  | 0xE => d * s
  | _ => BitVec.ofNat 32 (d.toNat * s.toNat / 2 ^ 32)

/-- Whether an ALU operation writes its result (R339). -/
def aluWrites (k : Nat) : Bool := k ≠ 0x5 && k ≠ 0x9

/-- The carry, borrow, or last bit out; none where the operation leaves C unchanged (R339). -/
def aluCarry (k : Nat) (d s : Word) (c : Bool) : Option Bool :=
  let n := s.toNat % 32
  match k with
  | 0x1 => some (2 ^ 32 ≤ d.toNat + s.toNat)
  | 0x2 => some (2 ^ 32 ≤ d.toNat + s.toNat + b2n c)
  | 0x3 => some (d.toNat < s.toNat)
  | 0x4 => some (d.toNat < s.toNat + b2n c)
  | 0x5 => some (d.toNat < s.toNat)
  | 0xA => if n = 0 then none else some (d.getLsbD (32 - n))
  | 0xB => if n = 0 then none else some (d.getLsbD (n - 1))
  | 0xC => if n = 0 then none else some (d.getLsbD (n - 1))
  | 0xD => if n = 0 then none else some (d.getLsbD (32 - n))
  | _ => none

/-- An exact signed result lies outside 32 bits. -/
def overflows (i : Int) : Bool := i < -(2 ^ 31) || 2 ^ 31 ≤ i

/-- Signed overflow; none where the operation leaves V unchanged (R339). -/
def aluOverflow (k : Nat) (d s : Word) (c : Bool) : Option Bool :=
  match k with
  | 0x1 => some (overflows (d.toInt + s.toInt))
  | 0x2 => some (overflows (d.toInt + s.toInt + b2n c))
  | 0x3 => some (overflows (d.toInt - s.toInt))
  | 0x4 => some (overflows (d.toInt - s.toInt - b2n c))
  | 0x5 => some (overflows (d.toInt - s.toInt))
  | _ => none

/-- SR after an optional change of a flag. -/
def optFlag (sr : Word) (n : Nat) (b : Option Bool) : Word :=
  match b with
  | some v => setBit sr n v
  | none => sr

/-- SR with Z and N of a result. -/
def srZN (sr : Word) (r : Word) : Word := setBit (setBit sr srZ (r == 0)) srN (r.getLsbD 31)

/-- SR after ALU operation `k` (R339). -/
def aluSr (k : Nat) (d s sr : Word) : Word :=
  let c := bit sr srC
  if k = 0 then sr
  else optFlag (optFlag (srZN sr (aluResult k d s c)) srC (aluCarry k d s c)) srV (aluOverflow k d s c)

/-! ### The miscellaneous group (R340) -/

/-- Quotient and remainder, truncated toward 0, and whether V is set: division by 0, and the most negative number by -1. -/
def divide (signed : Bool) (d s : Word) : Word × Word × Bool :=
  if s = 0 then (0xFFFFFFFF, d, true)
  else if signed then
    if d = 0x80000000 && s = 0xFFFFFFFF then (0x80000000, 0, true)
    else (BitVec.ofInt 32 (d.toInt.tdiv s.toInt), BitVec.ofInt 32 (d.toInt.tmod s.toInt), false)
  else (BitVec.ofNat 32 (d.toNat / s.toNat), BitVec.ofNat 32 (d.toNat % s.toNat), false)

/-- Leading zeros of a word, 0 to 32. -/
def clz (w : Word) : Nat := 32 - (if w = 0 then 0 else Nat.log2 w.toNat + 1)

/-! ### Conditions (R341) and predicates (R335) -/

def condTrue (code : Nat) (sr : Word) : Bool :=
  let z := bit sr srZ
  let n := bit sr srN
  let c := bit sr srC
  let v := bit sr srV
  let f := bit sr srF
  match code with
  | 0x0 => true
  | 0x1 => z
  | 0x2 => !z
  | 0x3 => c
  | 0x4 => !c
  | 0x5 => !c && !z
  | 0x6 => c || z
  | 0x7 => n != v
  | 0x8 => n == v
  | 0x9 => !z && n == v
  | 0xA => z || n != v
  | 0xB => n
  | 0xC => !n
  | 0xD => v
  | 0xE => f
  | _ => !f

/-- The predicate prefixes 0xFA to 0xFF as condition codes: LO, HS, EQ, NE, FS, FC. -/
def predCode (p : Nat) : Nat :=
  match p with
  | 0xFA => 0x3
  | 0xFB => 0x4
  | 0xFC => 0x1
  | 0xFD => 0x2
  | 0xFE => 0xE
  | _ => 0xF

/-! ### Accumulators (R355, R358) -/

/-- The product that a CTL byte's SGN names: 0 unsigned, 1 signed, 2 signed by unsigned. -/
def macProduct (sgn : Nat) (x y : Word) : Int :=
  match sgn with
  | 0 => (x.toNat : Int) * y.toNat
  | 1 => x.toInt * y.toInt
  | _ => x.toInt * y.toNat

/-- The exact sum of an accumulator and a product, and whether AV is set: outside the signed range in signed modes, a
carry (or a borrow: log entry 22) out of bit 95 in unsigned mode. -/
def macSum (sgn : Nat) (a : BitVec 96) (p : Int) : BitVec 96 × Bool :=
  if sgn = 0 then
    let e := (a.toNat : Int) + p
    (BitVec.ofInt 96 e, e < 0 || 2 ^ 96 ≤ e)
  else
    let e := a.toInt + p
    (BitVec.ofInt 96 e, e < -(2 ^ 95) || 2 ^ 95 ≤ e)

/-- ACSAT: the accumulator shifted right with rounding, saturated to a signed word; V when saturated (R355). -/
def acSat (a : BitVec 96) (sh : Nat) : Word × Bool :=
  let r := if sh = 0 then a.toInt else (a.toInt + 2 ^ (sh - 1)) >>> sh
  if r < -(2 ^ 31) then (0x80000000, true)
  else if 2 ^ 31 ≤ r then (0x7FFFFFFF, true)
  else (BitVec.ofInt 32 r, false)

/-- The post-modify of a MAC pointer (R356): step and modulo length from its modifier. -/
def macStep (p : BitVec 17) (m : Word) : BitVec 17 :=
  let step := toSigned 16 (fld m 15 0 / 4 * 4)
  let len := fld m 31 16 / 4 * 4
  let n := (p.toNat : Int) + step
  if len = 0 then BitVec.ofInt 17 n
  else
    let size := 2 ^ Nat.clog 2 len
    let base : Int := (p.toNat / size * size : Nat)
    let n1 := if base + len ≤ n then n - len else n
    let n2 := if n1 < base then n1 + len else n1
    BitVec.ofInt 17 n2

end Sys2Proof.Machine
end

