-- ==== Sys2Proof/Machine/Operands.lean ====
section
/-! DEFINITION. Sys2Proof/Machine/Operands.lean: the encoding of Lolan-32 (R335 to R342, R350, R355, R359): prefixes,
formats and operand bytes, read from the bytes a core fetches; and which instructions may stand where. -/

namespace Sys2Proof.Machine

/-- A decoded instruction: its prefixes, opcode byte and operand fields. -/
structure Ins where
  /-- operand size in bytes, and whether a size prefix gave it -/
  size : Nat := 4
  sized : Bool := false
  atom : Bool := false
  spi : Bool := false
  spp : Bool := false
  /-- bank prefix: 0 none, 1 X, 2 Y -/
  bank : Nat := 0
  /-- predicate prefix, 0xFA to 0xFF -/
  pred : Option Nat := none
  op : Nat := 0
  /-- fields of the RR byte -/
  d : Nat := 0
  s : Nat := 0
  mode : Nat := 0
  sc : Bool := false
  idx : Nat := 0
  disp : Word := 0
  /-- the immediate, sign-extended from imm8, or the number of a port or special register -/
  imm : Word := 0
  /-- disp16, abs24 -/
  disp16 : Nat := 0
  abs : Nat := 0
  /-- bit addresses: destination, a, b -/
  b0 : Nat := 0
  b1 : Nat := 0
  b2 : Nat := 0
  ctl : Nat := 0
  /-- length in bytes, prefixes included -/
  len : Nat := 0
  deriving DecidableEq, Repr

/-- What reading an instruction gives: the instruction, an encoding R335 to R338 bars, or too few bytes fetched. -/
inductive Dec3 where
  | ok (i : Ins)
  | illegal
  | short
  deriving DecidableEq, Repr

/-- The formats of R336. -/
inductive Fmt where
  | a | r | i8 | i16 | i32 | m | mi | b | j | bb | lr | li | x | x3 | c | rc | bad
  deriving DecidableEq, Repr

/-- The format of an opcode; `bad` for the reserved and the unlisted (R338). BAL has no annulling variant (R343). -/
def fmtOf (op : Nat) : Fmt :=
  if op ≤ 0x0C || op = 0x0F then .a
  else if op < 0x10 then .bad
  else if op < 0x20 then .r
  else if op < 0x30 then .i8
  else if op < 0x40 then .i32
  else if op < 0x60 then .m
  else if op < 0x70 then .mi
  else if op ≤ 0x79 then .r
  else if op ≤ 0x7C then .m
  else if op < 0x80 then .bad
  else if op = 0x90 then .bad
  else if op < 0xA0 then .b
  else if op ≤ 0xA1 then .j
  else if op ≤ 0xA3 then .r
  else if op ≤ 0xA9 then .bb
  else if op = 0xAA then .b
  else if op = 0xAC then .lr
  else if op = 0xAD then .li
  else if op < 0xB0 then .bad
  else if op ≤ 0xBA then .x
  else if op = 0xBB then .x3
  else if op ≤ 0xBF then .r
  else if op ≤ 0xC2 then .m
  else if op < 0xD0 then .bad
  else if op = 0xD0 then .c
  else if op = 0xD1 then .rc
  else if op ≤ 0xD3 then .r
  else if op = 0xD4 then .i8
  else if op = 0xD5 then .r
  else if op < 0xE0 then .bad
  else if op ≤ 0xE1 then .i16
  else if op ≤ 0xE3 then .r
  else if op ≤ 0xE5 then .i8
  else if op = 0xE6 then .r
  else .bad

/-! ### Where instructions may stand -/

/-- Instructions with a delay slot (R343). -/
def hasSlot (op : Nat) : Bool := (0x80 ≤ op && op ≤ 0xAA) || op = 0x05

/-- RETX, SC0 to SC3, MTS to SR (R360). -/
def modeChanging (i : Ins) : Bool := i.op = 0x06 || (0x08 ≤ i.op && i.op ≤ 0x0B) || (i.op = 0xE5 && i.imm = 0)

/-- LOOP, LOOPI and BREAKL. -/
def loopIns (op : Nat) : Bool := op = 0xAC || op = 0xAD || op = 0x0C

/-- Instructions barred from a delay slot (R345). -/
def slotBarred (i : Ins) : Bool :=
  hasSlot i.op || loopIns i.op || modeChanging i || i.op = 0x01 || i.op = 0x03

/-- Instructions barred at the end of an active loop (R348). -/
def leBarred (i : Ins) : Bool :=
  hasSlot i.op || loopIns i.op || modeChanging i || i.op = 0x01 ||
  (i.op = 0xE5 && (i.imm = 2 || i.imm = 3 || i.imm = 4))

/-! ### Prefixes (R335) -/

/-- Reads prefixes: at most `n` more. -/
def readPrefixes : Nat → List Byte → Ins → Option (Ins × List Byte) × Bool
  | _, [], _ => (none, false)
  | n, b :: t, i =>
    let v := b.toNat
    if v < 0xF0 then (some (i, b :: t), true)
    else match n with
      | 0 => (none, true)
      | n + 1 =>
        let i' := { i with len := i.len + 1 }
        match v with
        | 0xF0 => if i.sized then (none, true) else readPrefixes n t { i' with size := 1, sized := true }
        | 0xF1 => if i.sized then (none, true) else readPrefixes n t { i' with size := 2, sized := true }
        | 0xF2 => if i.atom then (none, true) else readPrefixes n t { i' with atom := true }
        | 0xF4 => if i.spi || i.spp || i.bank ≠ 0 then (none, true) else readPrefixes n t { i' with spi := true }
        | 0xF5 => if i.spi || i.spp || i.bank ≠ 0 then (none, true) else readPrefixes n t { i' with spp := true }
        | 0xF8 => if i.spi || i.spp || i.bank ≠ 0 then (none, true) else readPrefixes n t { i' with bank := 1 }
        | 0xF9 => if i.spi || i.spp || i.bank ≠ 0 then (none, true) else readPrefixes n t { i' with bank := 2 }
        | 0xF3 => (none, true)
        | 0xF6 => (none, true)
        | 0xF7 => (none, true)
        | _ => if i.pred.isSome then (none, true) else readPrefixes n t { i' with pred := some v }

/-- Whether the opcode serves the prefixes read (R335); MTS to SR is judged once its number is known. -/
def prefixesServed (i : Ins) : Bool :=
  let op := i.op
  let k := op % 16
  let memAlu := 0x40 ≤ op && op < 0x70
  let dform := memAlu || op = 0x7B || op = 0x7C || (0xC0 ≤ op && op ≤ 0xC2)
  (!i.sized || memAlu) &&
  (!i.atom || (0x50 ≤ op && op < 0x70 && k ≠ 0 && k ≠ 5 && k ≠ 9)) &&
  (!i.spi || (0x40 ≤ op && op < 0x50) || op = 0x7B || op = 0x7C) &&
  (!i.spp || ((op = 0x40 || op = 0x50) && !i.sized)) &&
  (i.bank = 0 || dform) &&
  (i.pred.isNone || !(hasSlot op || loopIns op || modeChanging { i with imm := 1 }))

/-! ### Operand bytes -/

/-- The bytes an M or MI displacement takes (R337). -/
def dispBytes (mode : Nat) : Nat :=
  match mode with
  | 1 => 1
  | 2 => 2
  | 3 => 4
  | 7 => 4
  | _ => 0

/-- A little-endian operand of `n` bytes sign-extended to a word. -/
def sext (n v : Nat) : Word := BitVec.ofInt 32 (toSigned (8 * n) v)

/-- Fields of the RR and MD bytes. -/
def withRR (i : Ins) (b : Byte) : Ins := { i with d := b.toNat / 16, s := b.toNat % 16 }
def withMD (i : Ins) (b : Byte) : Ins :=
  { i with mode := b.toNat / 32, sc := b.toNat / 16 % 2 = 1, idx := b.toNat % 16 }

/-- Length of the operand bytes of a format, given the MD byte where there is one. -/
def operandLen (f : Fmt) (mode : Nat) : Nat :=
  match f with
  | .a => 0 | .r => 1 | .i8 => 2 | .i16 => 3 | .i32 => 5
  | .m => 2 + dispBytes mode
  | .mi => 6 + dispBytes mode
  | .b => 2 | .j => 3 | .bb => 4 | .lr => 3 | .li => 4 | .x => 2 | .x3 => 7 | .c => 1 | .rc => 2 | .bad => 0

/-- Sign-extended displacement of a memory operand; modes 3 and 7 take all 32 bits (R337). -/
def dispOf (mode : Nat) (b : Bytes) : Word :=
  match mode with
  | 1 => sext 1 (leAt b 0 1)
  | 2 => sext 2 (leAt b 0 2)
  | 3 => BitVec.ofNat 32 (leAt b 0 4)
  | 7 => BitVec.ofNat 32 (leAt b 0 4)
  | _ => 0

/-- The operand fields of a format from its bytes (R336). -/
def readOperands (f : Fmt) (i : Ins) (b : Bytes) : Ins :=
  let rr := withRR i (b.getD 0 0)
  match f with
  | .a => i
  | .r => rr
  | .i8 => { rr with imm := if i.op = 0xD4 || i.op = 0xE4 || i.op = 0xE5 then BitVec.ofNat 32 (leAt b 1 1)
                            else sext 1 (leAt b 1 1) }
  | .i16 => { rr with imm := BitVec.ofNat 32 (leAt b 1 2) }
  | .i32 => { rr with imm := BitVec.ofNat 32 (leAt b 1 4) }
  | .m =>
    let m := withMD rr (b.getD 1 0)
    { m with disp := dispOf m.mode (b.drop 2) }
  | .mi =>
    let m := withMD rr (b.getD 1 0)
    { m with disp := dispOf m.mode (b.drop 2), imm := BitVec.ofNat 32 (leAt b (2 + dispBytes m.mode) 4) }
  | .b => { i with disp16 := leAt b 0 2 }
  | .j => { i with abs := leAt b 0 3 }
  | .bb => { i with b0 := leAt b 0 2, disp16 := leAt b 2 2 }
  | .lr => { rr with disp16 := leAt b 1 2 }
  | .li => { i with imm := BitVec.ofNat 32 (leAt b 0 2), disp16 := leAt b 2 2 }
  | .x => { i with b0 := leAt b 0 2 }
  | .x3 => { i with b0 := leAt b 0 2, b1 := leAt b 2 2, b2 := leAt b 4 2, ctl := leAt b 6 1 }
  | .c => { i with ctl := leAt b 0 1 }
  | .rc => { rr with ctl := leAt b 1 1 }
  | .bad => i

/-- The special registers that have a number (R329). -/
def sprExists (n : Nat) : Bool := n ≤ 0x0E || (0x10 ≤ n && n ≤ 0x16)

/-- A CTL byte that R355 allows. -/
def ctlOk (c : Nat) : Bool := c / 2 % 4 ≠ 3 && c < 64

/-- The field rules of R336, R337, R347, R350, R351, R355 and R359. -/
def fieldsOk (f : Fmt) (i : Ins) : Bool :=
  let op := i.op
  match f with
  | .r =>
    if op = 0xA2 || op = 0xA3 || (0xBC ≤ op && op ≤ 0xBF) then i.d = 0
    else if op = 0xD2 || op = 0xD3 then i.s ≤ 1
    else if op = 0xD5 then i.s ≤ 1 && i.d = 0
    else true
  | .i8 =>
    if op = 0xD4 then i.s ≤ 1 && i.imm.toNat ≤ 63
    else if op = 0xE4 then i.s = 0 && sprExists i.imm.toNat
    else if op = 0xE5 then i.d = 0 && sprExists i.imm.toNat && (i.pred.isNone || i.imm ≠ 0)
    else i.s = 0
  | .i16 => i.s = 0
  | .i32 => i.s = 0
  | .m =>
    (i.mode = 4 || (!i.sc && i.idx = 0)) && (i.mode ≠ 7 || i.s = 0) &&
    (op ≠ 0xC0 || i.d = 0) && !((op = 0x7A || op = 0xC1) && (i.mode = 5 || i.mode = 6))
  | .mi =>
    i.d = 0 && (i.mode = 4 || (!i.sc && i.idx = 0)) && i.mode ≠ 2 && i.mode ≠ 3 && i.mode ≠ 7
  | .lr => i.d = 0 && i.disp16 < 0x8000
  | .li => i.disp16 < 0x8000
  | .x3 => i.ctl ≤ 3
  | .c => ctlOk i.ctl
  | .rc => ctlOk i.ctl && i.ctl / 32 % 2 = 0
  | _ => true

/-- Reads one instruction from the bytes a core can fetch at its PC (R335 to R338). -/
def decodeIns (bytes : List Byte) : Dec3 :=
  match readPrefixes 4 bytes {} with
  | (none, false) => .short
  | (none, true) => .illegal
  | (some (_, []), _) => .short
  | (some (i, o :: t), _) =>
    let i := { i with op := o.toNat, len := i.len + 1 }
    let i := { i with size := if i.op = 0x7B || i.op = 0xC0 then 1 else if i.op = 0x7C then 2 else i.size }
    let f := fmtOf i.op
    if f = .bad || !prefixesServed i then .illegal
    else if (f = .m || f = .mi) && t.length < 2 then .short
    else
      let n := operandLen f ((t.getD 1 0).toNat / 32)
      if t.length < n then .short
      else
        let i := readOperands f { i with len := i.len + n } (t.take n)
        if fieldsOk f i then .ok i else .illegal

/-! ### Effective addresses (R337) -/

/-- The address of a memory operand. -/
def effAddr (c : Core) (i : Ins) : Word :=
  let base := tget 0 c.g i.s
  match i.mode with
  | 4 => base + (if i.sc then tget 0 c.g i.idx * BitVec.ofNat 32 i.size else tget 0 c.g i.idx)
  | 5 => base
  | 6 => base - BitVec.ofNat 32 i.size
  | 7 => i.disp
  | _ => base + i.disp

/-- The core with the base register as modes 5 and 6 leave it (R337). -/
def afterBase (c : Core) (i : Ins) : Core :=
  let base := tget 0 c.g i.s
  match i.mode with
  | 5 => { c with g := tset 0 c.g i.s (base + BitVec.ofNat 32 i.size) }
  | 6 => { c with g := tset 0 c.g i.s (base - BitVec.ofNat 32 i.size) }
  | _ => c

end Sys2Proof.Machine
end

