-- ==== Sys2Proof/Machine/LolanMem.lean ====
section
/-! DEFINITION. Sys2Proof/Machine/LolanMem.lean: the spaces of a Lolan core (R330 to R334, R354), the memory protection
units (R399 to R403), instruction fetch, and the checks that every access passes. -/

namespace Sys2Proof.Machine

/-! ### Faults as an access or an instruction raises them -/

/-- A violation as an MPU records it (R403). -/
structure Viol where
  space : Nat
  access : Nat
  level : Nat
  part : Nat
  region : Nat
  addr : Word
  deriving DecidableEq, Repr

/-- A fault with what its frame will hold (R372, R375). -/
structure Flt where
  vec : Nat
  addr : Word := 0
  space : Nat := 0
  access : Nat := 0
  part : Nat := 0
  /-- shadow-stack cause and level concerned -/
  ssCause : Nat := 0
  ssLevel : Nat := 0
  poison : Bool := false
  viol : Option Viol := none
  deriving DecidableEq, Repr

/-- How an access ends: its value, a fault, or held by the flash (R302). -/
inductive Acc (α : Type) where
  | ok (a : α) (s : State)
  | flt (f : Flt) (s : State)
  | wait

def vIllegal : Nat := 1
def vPrivilege : Nat := 2
def vFetch : Nat := 3
def vBus : Nat := 4
def vAlign : Nat := 5
def vMpuData : Nat := 6
def vMpuFetch : Nat := 7
def vBreak : Nat := 8
def vShadow : Nat := 9
def vMemory : Nat := 10

/-! ### The MPU -/

/-- Region sizes are at least 2^5 (R400); the reset value of ATTR is SIZE 5 (R406). -/
def attrReset : Word := 0x28

/-- Address bits of a space: I, D, P, B (R330). -/
def spaceBits (space : Nat) : Nat :=
  match space with
  | 0 => 24
  | 1 => 32
  | _ => 16

/-- A valid region matches an access; one larger than its space covers all of it (R400). -/
def regionMatches (base attr : Word) (space addr : Nat) : Bool :=
  let size := fld attr 8 3
  bit attr 0 && fld attr 2 1 = space && (spaceBits space < size || addr / 2 ^ size = base.toNat / 2 ^ size)

/-- The highest-numbered valid region that matches (R400). -/
def decidingRegion (m : Mpu) (space addr : Nat) : Option Nat :=
  (upto 16).reverse.find? fun r => regionMatches (tget 0 m.base r) (tget attrReset m.attr r) space addr

/-- The region grants level `l` the attributes asked for: R, W, X. -/
def regionGrants (attr : Word) (l : Nat) (r w x : Bool) : Bool :=
  (!r || bit attr (12 + 3 * l)) && (!w || bit attr (13 + 3 * l)) && (!x || bit attr (14 + 3 * l))

/-- The region that refuses an access, if one does; no match allows it (R399, R400). -/
def mpuRefuses (m : Mpu) (space addr l : Nat) (r w x : Bool) : Option Nat :=
  match decidingRegion m space addr with
  | none => none
  | some k => if regionGrants (tget attrReset m.attr k) l r w x then none else some k

/-- The first violation is kept; a later one sets MORE (R403). -/
def State.mpuRecord (s : State) (u mid : Nat) (v : Viol) : State :=
  let m := s.mpu u
  if bit m.violA 31 then s.setMpu u { m with violA := setBit m.violA 30 true }
  else s.setMpu u { m with
    violA := bf 7 0 mid ||| bf 9 8 v.space ||| bf 11 10 v.access ||| bf 13 12 v.level ||| bf 18 14 v.part |||
             bf 22 19 v.region ||| bitW 31
    violB := v.addr }

/-- Attributes that an access code needs (R401): 0 read, 1 write, 2 fetch, 3 read-modify-write. -/
def needR (access : Nat) : Bool := access = 0 || access = 3
def needW (access : Nat) : Bool := access = 1 || access = 3
def needX (access : Nat) : Bool := access = 2

/-- The first part of an access that the MPU refuses (R402). -/
def mpuCheck (m : Mpu) (space access l vec : Nat) : List Nat → Nat → Option Flt
  | [], _ => none
  | a :: t, part =>
    match mpuRefuses m space a l (needR access) (needW access) (needX access) with
    | some r => some { vec := vec, addr := BitVec.ofNat 32 a, space := space, access := access, part := part,
                       viol := some { space := space, access := access, level := l, part := part, region := r,
                                      addr := BitVec.ofNat 32 a } }
    | none => mpuCheck m space access l vec t (part + 1)

/-! ### I-space -/

/-- A byte of I-space that a core decodes (R330): SRAM, or the boot ROM on firmware cores. -/
def State.iByte (s : State) (c a : Nat) : Option Byte :=
  if a < 0x40000 then some (mget (s.cmem c).i a)
  else if 0xFC0000 ≤ a && a < 0x1000000 && c ≤ 1 then some (Config.romByte a)
  else none

/-- A byte as fetched (R333): until ISYNC, a block written since may still be taken as it stood before, whole. -/
def State.fetchByte (s : State) (c a : Nat) : Option Byte :=
  match (s.cmem c).stale.find? (·.1 == a / 16) with
  | some (_, old) =>
    if Config.staleOld s.free (a / 16) then some (old.getD (a % 16) 0) else s.iByte c a
  | none => s.iByte c a

/-- Bytes fetched from `pc` on, at most `n` more, and the fault at which they end, if they do (R330, R401, R402). -/
def State.fetchRun (s : State) (c pc l : Nat) : Nat → Nat → List Byte × Option Flt
  | 0, _ => ([], none)
  | n + 1, k =>
    let a := pc + k
    let second := a / 32 ≠ pc / 32
    let partAddr := if second then (pc / 32 + 1) * 32 else pc
    match mpuCheck (s.mpu c) 0 2 l vMpuFetch [partAddr] (b2n second) with
    | some f => ([], some f)
    | none =>
      match s.fetchByte c a with
      | none => ([], some { vec := vFetch, addr := BitVec.ofNat 32 a, space := 0, access := 2 })
      | some b =>
        let (t, f) := s.fetchRun c pc l n (k + 1)
        (b :: t, f)

/-- The instruction at an address, or the fault its fetch or its encoding raises. -/
def State.insAt (s : State) (c pc : Nat) : Except Flt Ins :=
  let (bytes, f) := s.fetchRun c pc (s.core c).pl 12 0
  match decodeIns bytes with
  | .ok i => .ok i
  | .illegal => .error { vec := vIllegal }
  | .short => .error (f.getD { vec := vIllegal })

/-! ### D-space (R331) -/

/-- Where a D-space address leads. -/
inductive Loc where
  | x (o : Nat) | y (o : Nat) | esc (o : Nat) | shared (o : Nat) | flash (o : Nat) | none
  deriving DecidableEq, Repr

/-- D-space as a core decodes it; the escalation SRAM overlays the top of X while escalation is active (R395). -/
def dLoc (escActive : Bool) (a : Nat) : Loc :=
  if a < 0x20000 then (if escActive && 0x1F000 ≤ a then .esc (a - 0x1F000) else .x a)
  else if a < 0x40000 then .y (a - 0x20000)
  else if 0x10000000 ≤ a && a < 0x10800000 then .shared (a - 0x10000000)
  else if 0xF0000000 ≤ a && a < 0xF8000000 then .flash (a - 0xF0000000)
  else .none

/-- A byte of cluster memory as a core sees it: its own buffered stores first, the youngest before the others (R354). -/
def sharedByte (m : CoreMem) (sh : Mem) (o : Nat) : Byte :=
  match m.stores.reverse.find? (fun e => e.1 ≤ o && o < e.1 + e.2.length) with
  | some (b, d) => d.getD (o - b) 0
  | none => mget sh o

/-- A byte at a location of a core's own memories and of cluster memory. -/
def State.locByte (s : State) (c : Nat) (l : Loc) : Byte :=
  let m := s.cmem c
  match l with
  | .x o => mget m.x o
  | .y o => mget m.y o
  | .esc o => mget m.esc o
  | .shared o => sharedByte m s.lol.shared o
  | .flash o => flByte s.fls (physSector s.fls (o / 65536)) (o % 65536)
  | .none => 0

/-- `n` bytes of D-space from `a` as core `c` sees them, addresses wrapping at 2^32. -/
def State.dBytes (s : State) (c a : Nat) : Nat → Bytes
  | 0 => []
  | n + 1 => s.locByte c (dLoc (s.core c).escActive (a % 2 ^ 32)) :: s.dBytes c (a + 1) n

/-- Reservations of cores other than `by_` on an aligned 32-byte granule are lost (R352). -/
def State.loseRsv (s : State) (by_ : Option Nat) (granule : Nat) : State :=
  each (upto 14) (fun c s =>
    let k := s.core c
    if some c ≠ by_ && k.rsv = some granule then s.setCore c { k with rsv := none } else s) s

/-- A store becomes visible in cluster memory (R354). -/
def State.sharedStore (s : State) (by_ : Option Nat) (o : Nat) (d : Bytes) : State :=
  let s := { s with lol := { s.lol with shared := mwrite s.lol.shared o d } }
  if d.isEmpty then s
  else (s.loseRsv by_ ((0x10000000 + o) / 32)).loseRsv by_ ((0x10000000 + o + d.length - 1) / 32)

/-- 32 cycles of a core, in cycles of D0. -/
def rsvWindow : Nat := 40

/-- Cluster memory holds back core `c` at these bytes: another core's LDR.RS of the granule is less than 32 of its cycles old (R352). -/
def State.heldBack (s : State) (c o n : Nat) : Bool :=
  (upto 14).any fun k =>
    let x := s.core k
    k ≠ c && s.now < x.rsvAt + rsvWindow &&
    (x.rsv == some ((0x10000000 + o) / 32) || x.rsv == some ((0x10000000 + o + n - 1) / 32))

/-- The oldest buffered store of a core becomes visible, unless cluster memory holds it back. -/
def State.drainOne (s : State) (c : Nat) : State :=
  let m := s.cmem c
  match m.stores with
  | [] => s
  | (o, d) :: t => if s.heldBack c o d.length then s else (s.setCmem c { m with stores := t }).sharedStore (some c) o d

/-- Every buffered store of a core becomes visible, at most `n` of them. -/
def State.drain (s : State) (c : Nat) : Nat → State
  | 0 => s
  | n + 1 => (s.drainOne c).drain c n

/-- Stores bytes at a location of a core; cluster memory through the 4-entry buffer (R354). -/
def State.locStore (s : State) (c : Nat) (l : Loc) (d : Bytes) : State :=
  let m := s.cmem c
  match l with
  | .x o => s.setCmem c { m with x := mwrite m.x o d }
  | .y o => s.setCmem c { m with y := mwrite m.y o d }
  | .esc o => s.setCmem c { m with esc := mwrite m.esc o d }
  | .shared o =>
    let s := if 4 ≤ m.stores.length then s.drainOne c else s
    let m := s.cmem c
    s.setCmem c { m with stores := m.stores ++ [(o, d)] }
  | _ => s

/-- The parts of an access (R332): at a 4-byte boundary it is carried out in two. -/
def accessParts (a n : Nat) : List (Nat × Nat) :=
  let k := 4 - a % 4
  if n ≤ k then [(a, n)] else [(a, k), (a + k, n - k)]

/-- An address under a bank prefix: modulo 128 KiB within the bank (R335); otherwise modulo 2^32. -/
def bankAddr (bank a : Nat) : Nat :=
  match bank with
  | 0 => a % 2 ^ 32
  | 1 => a % 0x20000
  | _ => 0x20000 + a % 0x20000

/-- The parts of an access under a bank prefix, as addresses of D-space. -/
def dParts (bank a n : Nat) : List (Nat × Nat) :=
  (accessParts (bankAddr bank a) n).map fun p => (bankAddr bank p.1, p.2)

/-- The first part that D-space does not decode for an access of this kind: nothing is stored to the flash (R301). -/
def busCheck (escActive : Bool) (access : Nat) : List Nat → Nat → Option Flt
  | [], _ => none
  | a :: t, part =>
    let bad := match dLoc escActive a with
      | .none => true
      | .flash _ => access ≠ 0
      | _ => false
    if bad then some { vec := vBus, addr := BitVec.ofNat 32 a, space := 1, access := access, part := part }
    else busCheck escActive access t (part + 1)

/-- The checks of a D-space access, both parts before either takes effect (R332, R401, R402): the MPU, then the bus. -/
def State.dCheck (s : State) (c l access : Nat) (parts : List (Nat × Nat)) : Option Flt :=
  let as := parts.map (·.1)
  match mpuCheck (s.mpu c) 1 access l vMpuData as 0 with
  | some f => some f
  | none => busCheck (s.core c).escActive access as 0

/-- A refused write of the flash window is recorded by the flash controller (R301). -/
def State.flashRefused (s : State) (c : Nat) (f : Flt) : State :=
  match dLoc false f.addr.toNat with
  | .flash o => if f.vec = vBus && c ≤ 1 then { s with fls := flFault s.fls flRefused o } else s
  | _ => s

/-- Bytes of parts already checked. -/
def State.partBytes (s : State) (c : Nat) (parts : List (Nat × Nat)) : Bytes :=
  (parts.map fun p => s.dBytes c p.1 p.2).flatten

/-- A load from D-space at level `l` (R331, R332); the flash window answers by R301 and R313. -/
def State.dLoad (s : State) (c l access bank a n : Nat) : Acc Bytes :=
  let parts := dParts bank a n
  match s.dCheck c l access parts with
  | some f => .flt f (s.flashRefused c f)
  | none =>
    match dLoc (s.core c).escActive (bankAddr bank a) with
    | .flash o =>
      match s.flWindow (coreMid c) (BitVec.ofNat 2 l) o n .clean with
      | .data b s' => .ok b s'
      | .bus s' => .flt { vec := vBus, addr := BitVec.ofNat 32 a, space := 1, access := access } s'
      | .wait => .wait
    | _ => .ok (s.partBytes c parts) s

/-- A store waits for room in the buffer, whose oldest store is held back (R352, R354). -/
def State.storeHeld (s : State) (c : Nat) (parts : List (Nat × Nat)) : Bool :=
  let n := (parts.filter fun p => match dLoc (s.core c).escActive p.1 with
    | .shared _ => true
    | _ => false).length
  0 < n && 4 < ((s.drain c n).cmem c).stores.length + n

/-- Stores bytes over parts already checked. -/
def State.storeParts (s : State) (c : Nat) : List (Nat × Nat) → Bytes → State
  | [], _ => s
  | (a, n) :: t, d => (s.locStore c (dLoc (s.core c).escActive a) (d.take n)).storeParts c t (d.drop n)

/-- Words read one after another from D-space at level `l`, as an entry and a return read them (R374, R388). -/
def State.loadWords (s : State) (c l a : Nat) : Nat → Acc Bytes
  | 0 => .ok [] s
  | n + 1 =>
    match s.dLoad c l 0 0 a 4 with
    | .flt f s => .flt f s
    | .wait => .wait
    | .ok b s =>
      match s.loadWords c l (a + 4) n with
      | .flt f s => .flt f s
      | .wait => .wait
      | .ok t s => .ok (b ++ t) s

/-- The parts of a frame: its eight words (R375). -/
def frameParts (a : Nat) : List (Nat × Nat) := (upto 8).map fun k => ((a + 4 * k) % 2 ^ 32, 4)

/-- The first word of a frame that may not be written at level `l` (R374, R401). -/
def State.frameFlt (s : State) (c l a : Nat) : Option Flt := (frameParts a).findSome? fun p => s.dCheck c l 1 [p]

/-- A load from I-space through SPI (R330, R401): the MPU, then the bytes, which must be decoded. -/
def State.iLoad (s : State) (c l a n : Nat) : Acc Bytes :=
  let a := a % 2 ^ 24
  let parts := accessParts a n
  match mpuCheck (s.mpu c) 0 0 l vMpuData (parts.map (·.1)) 0 with
  | some f => .flt f s
  | none =>
    let bs := (upto n).map fun k => s.iByte c (a + k)
    if bs.all (·.isSome) then .ok (bs.map (·.getD 0)) s
    else .flt { vec := vBus, addr := BitVec.ofNat 32 a, space := 0 } s

/-! ### Buffers of a tenant core (R128) -/

/-- The addresses at which a range's 32-byte-aligned parts begin. -/
def dmaParts (a n : Nat) : List Nat :=
  if n = 0 then [] else (upto ((a + n - 1) / 32 - a / 32 + 1)).map fun k => if k = 0 then a else (a / 32 + k) * 32

/-- A byte as a DMA engine reads it. -/
def State.dmaByte (s : State) (d : DmaEnd) (k : Nat) : Option Byte :=
  if d.space = 0 then s.iByte d.core.val (d.addr + k)
  else match dLoc false (d.addr + k) with
    | .none => none
    | .shared o => some (mget s.lol.shared o)
    | l => some (s.locByte d.core.val l)

/-- A violation of DMA engine 0's MPU is recorded (R402). -/
def State.bufferViolation (s : State) (f : Flt) : State :=
  match f.viol with
  | some v => s.mpuRecord 16 0x60 { v with part := min v.part 31 }
  | none => s

/-- A command reads the buffer that a tenant core names in its D-space, through DMA engine 0 and its MPU; none: refused. -/
def State.readBuffer (s : State) (party addr len : Nat) : State × Option Bytes :=
  match midCore party with
  | some c =>
    if h : c < 14 then
      let d : DmaEnd := { space := 1, core := ⟨c, h⟩, addr := addr % 2 ^ 32 }
      let m := s.mpu 16
      match mpuCheck m 1 0 m.dmaPl.toNat vMpuData (dmaParts d.addr len) 0 with
      | some f => (s.bufferViolation f, none)
      | none =>
        let b := (upto len).map (s.dmaByte d)
        (s, if b.any (·.isNone) then none else some (b.map (·.getD 0)))
    else (s, none)
  | none => (s, none)

end Sys2Proof.Machine
end

