-- ==== Sys2Proof/Machine/Archive.lean ====
section
/-! DEFINITION. Sys2Proof/Machine/Archive.lean: the archive's intake under load (R279 to R283), power-fail prepare's part
(R285), the NAND's upkeep (R286 to R289), its commands and registers (R292 to R298). -/

namespace Sys2Proof.Machine

/-! ### INCIDENT (R283) -/

/-- INCIDENT is the profile in force. -/
def State.inIncident (s : State) : Bool := s.pwr.profile == .incident

/-- When occupancy stands below 25 % with no gap open, and since when. -/
def State.calmCheck (s : State) : State :=
  let calm := 4 * s.arc.genUsed < genArea && s.arc.gaps.isEmpty
  let at_ := if !calm then none else match s.arc.calmAt with
    | some t => some t
    | none => some s.now
  { s with arc := { s.arc with calmAt := at_ } }

/-- Occupancy at 75 % or more enters INCIDENT, unless it is in force already. -/
def State.enterIncident (s : State) : State :=
  if s.inIncident || 4 * s.arc.genUsed < 3 * genArea then s else
  let old := s.pwr.profile
  let s := { s with arc := { s.arc with auto := true }
                    pwr := { s.pwr with returnTo := s.pwr.returnTo.orElse fun _ => some old } }
  ((s.toProfile .incident 1).arcEvent 2).arcRecord 2 0 0 0 []

/-- INCIDENT ends: runs and gaps end with it (R281, R282). -/
def State.leaveIncident (s : State) (p : Profile) (cause : Nat) : State :=
  let s := (s.endRuns fun _ => true).closeGaps fun _ => true
  ({ s with arc := { s.arc with auto := false }, pwr := { s.pwr with returnTo := none } }.toProfile p cause).arcEvent 2

/-- INCIDENT_EXIT (R283): occupancy has stayed below 25 % for 10 s with no gap open. -/
def execIncidentExit (s : State) : Out :=
  match s.arc.calmAt with
  | none => .next s
  | some t =>
    if !s.up || !s.arc.auto || s.now < t + 10 * secC then .next s
    else .next ((s.leaveIncident (s.pwr.returnTo.getD .guard) 2).arcRecord 3 0 0 0 []).calmCheck

/-- A profile is chosen by command (R37, R283): during an automatic INCIDENT it is kept as the one to return to; a commanded
INCIDENT ends at once, and begins again by itself where staging stands at 75 %. -/
def State.chooseProfile (s : State) (p : Profile) (cause : Nat) : State :=
  if s.arc.auto then { s with pwr := { s.pwr with returnTo := some p } }
  else if s.pwr.profile = p then s
  else if s.inIncident then (s.leaveIncident p cause).enterIncident
  else
    let s := s.toProfile p cause
    if p = .incident then s.arcEvent 2 else s

/-! ### Intake (R279 to R281) -/

/-- The path by which a record comes to the port: the module's own, an issuer's, a job's (R270). -/
def pathOf (a : Arrival) : Nat :=
  match a.waiter with
  | .cmdSeq p _ | .cmdCommit p _ | .cmdRepeat p _ _ => 1 + p
  | .job id => 1000 + id
  | .none => 0

/-- A record is a large one (R280). -/
def isLarge (r : Rec) : Bool := 1048576 < r.body.length

/-- A large record of a class is under way. -/
def State.largeBusy (s : State) (cls : BitVec 2) : Bool :=
  (s.arc.staged.any fun x => isLarge x.r && x.r.cls == cls) ||
  s.arc.large.any fun l => s.arc.recs.any fun a => a.r.dseq == l.1 && a.r.cls == cls

/-- A record is held on its path (R279). -/
def State.heldNow (s : State) (a : Arrival) : Bool :=
  let n := appendRoom a.r.body.length
  (isLarge a.r && s.largeBusy a.r.cls) ||
  (if a.r.cls = 0 then !a.reserved && (s.overfillOut || s.roomLeft 0 < n)
   else s.arc.prepare || (a.r.cls == 1 && !a.reserved && !s.arc.full && s.roomLeft 1 < n))

/-- The first arrival that its path does not hold back. -/
def State.nextArrival (s : State) : Nat → List Nat → List Arrival → Option (Nat × Arrival)
  | _, _, [] => none
  | i, blocked, a :: t =>
    if blocked.contains (pathOf a) then s.nextArrival (i + 1) blocked t
    else if s.heldNow a then s.nextArrival (i + 1) (pathOf a :: blocked) t
    else some (i, a)

/-- A repeat (R281): TYPE, source and body digest equal those of the last C1 record accepted from the source. -/
def State.isRepeat (s : State) (r : Rec) : Bool :=
  s.inIncident && r.cls == 1 &&
  match (s.arc.lastC1.find? (·.1 == r.src)).map (·.2) with
  | some (t, d, _) => t == r.typ && d == sha512t r.body &&
      (s.arc.runs.any (fun x => x.src == r.src && !x.ended) || s.arc.runs.length < 256)
  | none => false

/-- A repeat is counted, and not sequenced. -/
def State.countRepeat (s : State) (a : Arrival) : State :=
  let r := a.r
  let orig := match (s.arc.lastC1.find? (·.1 == r.src)).map (·.2) with
    | some (_, _, o) => o
    | none => 0
  let now' := s.arc.runs.find? fun x => x.src == r.src && !x.ended
  let base : Run := now'.getD { typ := r.typ, src := r.src, digest := sha512t r.body, repeats := 0, first := r.gts,
                                last := r.gts, orig := orig, openedAt := s.now }
  let toCommit : Option Waiter := match a.waiter with
    | .cmdCommit p t => some (.cmdRepeat p t r.gts)
    | .cmdSeq p t => if isLarge r then some (.cmdRepeat p t r.gts) else none
    | .job id => some (.job id)
    | _ => none
  let toSeq : Option (Nat × Nat × Gts) := match a.waiter with
    | .cmdSeq p t => if isLarge r || base.orig ≠ 0 then none else some (p, t, r.gts)
    | _ => none
  let run := { base with repeats := base.repeats + 1, last := r.gts
                         waiters := base.waiters ++ toCommit.toList, seqWaiters := base.seqWaiters ++ toSeq.toList }
  let others := s.arc.runs.filter fun x => !(x.src == r.src && !x.ended)
  let s := { s with arc := { s.arc with runs := others ++ [run] } }
  match a.waiter with
  | .cmdSeq _ _ => if isLarge r || base.orig = 0 then s else s.answer a.waiter stOk (base.orig - 1) r.gts
  | _ => s

/-- A record is accepted into staging: a run of its source ends, gaps of its class close (R281, R282). -/
def State.acceptRec (s : State) (a : Arrival) : State :=
  let r := a.r
  let n := appendRoom r.body.length
  let s := s.endRuns fun x => x.src == r.src
  let s := if r.cls = 0 then s else s.closeGaps fun g => g.cls == r.cls.toNat && g.cause != 4
  let last := if r.cls = 1 then tset (0, [], 0) s.arc.lastC1 r.src (r.typ, sha512t r.body, 0) else s.arc.lastC1
  let x : Staged := { r := r, waiter := a.waiter }
  let s := { s with arc := { s.arc with
    staged := s.arc.staged ++ [x]
    lastC1 := last
    genUsed := if r.cls = 0 then s.arc.genUsed else s.arc.genUsed + n
    resUsed := if r.cls = 0 then s.arc.resUsed + n else s.arc.resUsed } }
  s.enterIncident.calmCheck

/-- A record at the head of its path is taken. -/
def State.intake (s : State) (a : Arrival) : State :=
  let r := a.r
  let n := padded r.body.length
  if s.arc.full && (a.waiter != .none) then s.answer a.waiter stArchiveFull 0 r.gts
  else if r.cls = 0 then s.acceptRec a
  else if s.arc.full then (s.gapDrop r.cls.toNat 5 1 n r.gts r.gts).calmCheck
  else if s.isRepeat r then s.countRepeat a
  else if r.cls = 1 || a.reserved then s.acceptRec a
  else if 3 * genArea ≤ 4 * s.arc.genUsed || s.roomLeft r.cls < appendRoom r.body.length then
    ((s.gapDrop r.cls.toNat 1 1 n r.gts r.gts).answer a.waiter stResource 0 r.gts).calmCheck
  else s.acceptRec a

/-- RECORD_INTAKE (R279): the first record that is not held is accepted, coalesced, or dropped into a gap. -/
def execRecordIntake (s : State) : Out :=
  if !s.up || !s.arc.ready then .next s else
  match s.nextArrival 0 [] s.arc.arrivals with
  | none => .next s
  | some (i, a) => .next (({ s with arc := { s.arc with arrivals := ldel s.arc.arrivals i } } : State).intake a)

/-- The original of runs has its DSEQ: repeats that wait for it are answered, and runs that have ended close (R281). -/
def State.originalPlaced (s : State) (r : Rec) (dseq : Nat) : State :=
  let d := sha512t r.body
  let mine (x : Run) : Bool := x.typ == r.typ && x.src == r.src && x.digest == d && x.orig == 0
  let ws := ((s.arc.runs.filter mine).map (·.seqWaiters)).flatten
  let runs := s.arc.runs.map fun x => if mine x then { x with orig := dseq + 1, seqWaiters := [] } else x
  let last := match (s.arc.lastC1.find? (·.1 == r.src)).map (·.2) with
    | some (t, d', 0) => if t = r.typ && d' = d then tset (0, [], 0) s.arc.lastC1 r.src (t, d', dseq + 1) else s.arc.lastC1
    | _ => s.arc.lastC1
  let s := { s with arc := { s.arc with runs := runs, lastC1 := last } }
  (each ws (fun w s => s.reply w.1 w.2.1 0x0501 stOk (le 8 dseq ++ le 12 w.2.2.toNat)) s).endRuns (·.ended)

/-- Segments a record would add. -/
def State.segsFor (s : State) (n : Nat) : Nat :=
  match s.arc.openDrawer with
  | some d => (d.len + n + segSize - 1) / segSize - (d.len + segSize - 1) / segSize
  | none => 0

/-- RECORD_SEQUENCE (R270): the oldest staged record, once the assembler has room for its segments. A large record's
staging is kept until its second read ends. -/
def execRecordSequence (s : State) : Out :=
  if !s.up || !s.arc.ready || s.arc.openDrawer.isNone then .next s else
  match s.arc.staged with
  | [] => .next s
  | x :: t =>
    let n := padded x.r.body.length
    let need := if isLarge x.r then 1 else s.segsFor n
    let live := (s.arc.segs.filter fun g => g.prog < g.fill || !g.closed).length
    if 32 < live + need && s.arc.large.isEmpty then .next s else
    let keep := if isLarge x.r then 0 else n
    let s := { s with arc := { s.arc with
      staged := t
      genUsed := if x.r.cls = 0 then s.arc.genUsed else s.arc.genUsed - keep
      resUsed := if x.r.cls = 0 then s.arc.resUsed - keep else s.arc.resUsed } }
    let s := s.seqNow x.r x.waiter
    let at_ := (s.arc.recs.reverse.find? fun a => a.r.typ == x.r.typ && a.r.src == x.r.src).map (·.r.dseq)
    let s := if x.r.cls = 1 then s.originalPlaced x.r (at_.getD 0) else s
    .next s.calmCheck

/-- LARGE_RECORD_SECOND_READ (R280): the body as the second read finds it; short where the read failed. -/
def execLargeRecordSecondRead (dseq : Nat) (data : Option (List (BitVec 8))) (s : State) : Out :=
  match s.arc.large.find? (·.1 == dseq), s.arc.recs.find? (·.r.dseq == dseq) with
  | some (_, w), some a =>
    if !s.up then .next s else
    let got := data.getD []
    let n := a.r.body.length
    let b := sub got 0 n
    let bad := got.length < n || b ≠ a.r.body
    let room := appendRoom n
    let recs := s.arc.recs.map fun x => if x.r.dseq = dseq && bad then { x with second := some b } else x
    let w' : Waiter := match w with
      | .cmdSeq p t => .cmdCommit p t
      | w => w
    let s := { s with arc := { s.arc with
      large := s.arc.large.filter (·.1 != dseq)
      waiters := s.arc.waiters ++ [(dseq, w')]
      recs := recs
      genUsed := if a.r.cls = 0 then s.arc.genUsed else s.arc.genUsed - room
      resUsed := if a.r.cls = 0 then s.arc.resUsed - room else s.arc.resUsed } }
    let s := if bad then s.arcRecord 0x0C 0 dseq 0 (sha512t a.r.body ++ sha512t b) else s
    .next s.commitScan.calmCheck
  | _, _ => .next s

/-- RUN_TIMEOUT (R281): runs whose first repeat is 1 s old. -/
def execRunTimeout (s : State) : Out :=
  if s.up then .next (s.endRuns fun r => r.openedAt + secC ≤ s.now) else .next s

/-- GAP_TIMEOUT (R282): gaps open for 1 s. -/
def execGapTimeout (s : State) : Out :=
  if s.up && s.arc.ready then .next (s.closeGaps fun g => g.openedAt + secC ≤ s.now).calmCheck else .next s

/-! ### Drawers (R274, R278) -/

/-- The close interval in D0 cycles. -/
def State.closeInt (s : State) : Nat := fld s.arc.ctrl 9 0 * (secC / 10)

/-- CLOSE_INTERVAL_EXPIRY (R274): counted from OPEN, with a content record in the drawer. -/
def execCloseIntervalExpiry (s : State) : Out :=
  match s.arc.openDrawer with
  | some d => if s.up && s.arc.ready && !s.arc.prepare && d.content && d.openedAt + s.closeInt ≤ s.now then .next (s.wantClose 4) else .next s
  | none => .next s

/-- ARC_FORCE_CLOSE (R274). -/
def execArcForceClose (s : State) : Out := if s.up && s.arc.ready then .next (s.wantClose 16) else .next s

/-- SEAL_DEFER_TIMEOUT (R278): 1 s after the close condition. -/
def execSealDeferTimeout (s : State) : Out :=
  match s.arc.openDrawer with
  | none => .next s
  | some d => match d.closeAt with
    | some t => if s.up && t + secC ≤ s.now then .next (s.closeDrawer d.cause) else .next s
    | none => .next s

/-! ### Faults and blocks (R286 to R289) -/

/-- ARC_FAULT takes the first fault; MORE for later ones. -/
def State.arcFault (s : State) (block kind seg : Nat) : State :=
  let f := s.arc.faultA
  if bit f 31 then { s with arc := { s.arc with faultA := setBit f 30 true } }
  else { s with arc := { s.arc with
    faultA := bf 2 0 (block / 163840) ||| bf 5 3 (block / 20480 % 8) ||| bf 20 6 (block % 20480) ||| bf 24 21 kind ||| bitW 31
    faultB := BitVec.ofNat 32 seg } }

/-- User capacity shrinks by 32 blocks (R289). -/
def State.shrink (s : State) : State := { s with arc := { s.arc with cap := s.arc.cap - 1024 } }.usage

/-- A die's blocks leave the pools and the emergency sets, and the stripe takes another die of the channel (R289). -/
def State.leaveDie (s : State) (die : Nat) : State :=
  let on (b : Nat) : Bool := b / 20480 == die
  let ch := die / 8
  let a := s.arc
  let s := ({ s with arc := { a with
    ahead := a.ahead.filter fun b => !on b
    emSets := a.emSets.filter fun l => !l.any on
    emPend := a.emPend.filter fun l => !l.any on } } : State).fillSets
  each (a.stripe.filter on) (fun b s =>
    let sub := (s.arc.ahead.find? fun x => x / 163840 == ch).orElse fun _ => (s.diesOf ch).findSome? fun d => s.freeBlock ch d [b] 20480
    { s with arc := { s.arc with
        stripe := s.arc.stripe.map fun x => if x == b then sub.getD b else x
        ahead := s.arc.ahead.filter fun x => some x != sub } }) s

/-- A die is retired: its segments are refreshed elsewhere, its good blocks leave the channel's spare; a record and the
capacity report follow (R30, R289). -/
def State.retireDie (s : State) (ch d : Nat) : State :=
  let c := s.nch ch
  let base := blkNum ch d 0
  let inDie (b : Nat) : Bool := base ≤ b && b < base + 20480
  let gone := (s.arc.blocks.filter fun e => inDie e.1 && e.2.retired).length
  let s := s.setNch ch { c with dies := c.dies &&& ~~~ (BitVec.ofNat 8 (2 ^ d)), spare := c.spare - (20480 - gone) }
  let s := s.leaveDie (8 * ch + d)
  let due := (s.arc.blocks.filter fun e => inDie e.1 && !e.2.segs.isEmpty).map (·.1)
  let s := each due (fun b s => s.setNblk b { s.nblk b with due := true }) s
  (s.programMap.retRecord .nandBlock (0x8000 + 8 * ch + d) base gone 0).capacityNotice

/-- A die fails a status read (R289): the third failure within 1 s retires it. -/
def State.statusFails (s : State) (b : Nat) : State :=
  let d := b / 20480
  let ts := s.now :: (tget [] s.arc.dieFails d).filter fun t => s.now < t + secC
  let s := ({ s with arc := { s.arc with dieFails := tset [] s.arc.dieFails d ts } } : State).arcFault b 6 0
  if 3 ≤ ts.length && (s.nch (d / 8)).dies.getLsbD (d % 8) then (s.retireDie (d / 8) (d % 8)).arcEvent 6 else s

/-- SEGMENT_PROGRAM_DONE (R265, R270): a program that the governor has admitted ends. A failure retires the block, and the segment
takes the next page of the stripe. After a failed status read the status is read again. -/
def execSegmentProgramDone (seg : Nat) (e : NandEnd) (s : State) : Out :=
  let t := s.govern
  match t.arc.segs.find? (·.num == seg), t.blockOf seg with
  | some g, some b =>
    if !s.up || !t.arc.programs.contains seg || g.fill ≤ g.prog || t.largeIn seg then .next s
    else
      let s := { t with arc := { t.arc with programs := t.arc.programs.filter (· != seg) } }
      match e with
      | .pass =>
        let segs := s.arc.segs.map fun x => if x.num = seg then { x with prog := x.fill } else x
        .next (({ s with arc := { s.arc with segs := segs, scrubbed := tset 0 s.arc.scrubbed seg s.now } } : State).commitScan)
      | .fail =>
        let k := s.nblk b
        let s := (s.setNblk b { k with segs := k.segs.filter (· != seg) }).arcFault b 4 seg
        .next ((s.permanent .nandBlock b 1).dealSeg seg)
      | .noStatus => .next (t.statusFails b)
  | _, _ => .next s

/-- A record stands in part in a codeword, by global segment * 16 + codeword. -/
def inWord (a : ARec) (w : Nat) : Bool :=
  let b := cwSize * w
  segSize * a.seg0 + a.off < b + cwSize && b < segSize * a.seg0 + a.off + padded a.r.body.length

/-- Records that codewords touch become unreadable (R290). -/
def State.loseWords (s : State) (ws : List Nat) : State :=
  { s with arc := { s.arc with
    bad := s.arc.bad ++ ws
    recs := s.arc.recs.map fun a => if ws.any (inWord a) then { a with unreadable := true } else a } }

/-- Unreadable codewords of a segment (R290): the event record and the notice, which names the first record touched. -/
def State.unreadableSeg (s : State) (block seg : Nat) (ws : List Nat) : State :=
  let old := s.arc.recs.find? fun a => ws.any (inWord a)
  let s := ((s.loseWords ws).arcEvent 5).arcFault block 3 seg
  (s.arcRecord 9 block seg ws.length []).arcNotice 9 ((old.map (·.r.dseq)).getD 0)

/-- The codewords of a segment, by global segment * 16 + codeword, that are not known to be unreadable. -/
def State.newWords (s : State) (seg : Nat) (m : BitVec 16) : List Nat :=
  (((upto 16).filter fun i => m.getLsbD i).map fun i => 16 * seg + i).filter fun w => !s.arc.bad.contains w

/-- The scrubber reads a programmed segment (R286): more than 3 shifts or soft decoding makes its block due for a refresh. -/
def State.scrub (s : State) (seg : Nat) (result : ReadEnd) : State :=
  match s.blockOf seg with
  | none => s
  | some b =>
    if !s.up || !s.arc.ready || s.pwr.shed ≠ 0 || s.arc.segs.any (·.num == seg) then s else
    let s := { s with arc := { s.arc with scrubbed := tset 0 s.arc.scrubbed seg s.now } }
    let due (s : State) : State := s.setNblk b { s.nblk b with due := true }
    match result with
    | .hard n => if n ≤ 3 then s else due (s.arcFault b 1 seg)
    | .soft => due (s.arcFault b 2 seg)
    | .unreadable m =>
      let ws := s.newWords seg m
      if ws.isEmpty then s else s.unreadableSeg b seg ws

/-- SCRUB_READ (R286, R287). -/
def execScrubRead (seg : Nat) (result : ReadEnd) (s : State) : Out := .next (s.scrub seg result)

/-- The scrubber's pass has to read a segment by now (R287): within 24 h of the start, and then ARC_CTRL.SCRUB_DAYS days after its
program or its last read. -/
def State.scrubLate (s : State) (seg : Nat) : Bool :=
  match s.arc.scrubbed.find? (·.1 == seg) with
  | some e => e.2 + fld s.arc.ctrl 16 10 * 86400 * secC ≤ s.now
  | none => s.arc.passFrom + 86400 * secC ≤ s.now

/-- What a read finds when no row says it: a free value. -/
def State.freeScrub (s : State) : ReadEnd × State :=
  let (v, s) := s.freeVal 21
  (match v % 4 with
    | 0 => .soft
    | 1 => .unreadable (BitVec.ofNat 16 (v / 32))
    | _ => .hard (v / 4 % 8), s)

/-- The scrubber reads the segments whose time has come. -/
def State.scrubPass (s : State) : State :=
  let live (n : Nat) : Bool := s.arc.segs.any (·.num == n)
  let l := if s.pwr.shed ≠ 0 then [] else ((s.arc.blocks.map (·.2.segs)).flatten).filter fun n => s.scrubLate n && !live n
  each l (fun n s => let (e, s) := s.freeScrub; s.scrub n e) s

/-- BLOCK_REFRESH (R288): the block's segments move to a block of the same channel, drawn from the refresh headroom, or from the
channel's spare where the block is retired; the old one is erased and returns to the headroom. A third refresh within 30 days
retires it. -/
def execBlockRefresh (block : Fin 1310720) (s : State) : Out :=
  let b := block.val
  let k := s.nblk b
  let ch := b / 163840
  if !s.up || !k.due || (!k.retired && s.arc.headroom = 0) then .next s else
  match (s.diesOf ch).findSome? fun d => s.freeBlock ch d [b] 20480 with
  | none => .next s
  | some nb =>
    let recent := s.now :: k.refreshes.filter fun t => s.now < t + 2592000 * secC
    let s := s.setNblk nb { s.nblk nb with segs := k.segs }
    let s := s.setNblk b { k with
      segs := [], due := false, erasing := if k.retired then none else some .headroom
      refreshes := if k.retired then k.refreshes else recent }
    let s := ({ s with arc := { s.arc with headroom := if k.retired then s.arc.headroom else s.arc.headroom - 1 } } : State).arcEvent 4
    .next (if !k.retired && 3 ≤ recent.length then s.permanent .nandBlock b recent.length else s)

/-- BLOCK_ERASE_DONE (R265, R284): an erase that the governor has admitted ends: the block joins the erase-ahead pool, the refresh
headroom, or the good blocks. A failure retires it, and erase-ahead takes another. -/
def execBlockEraseDone (block : Fin 1310720) (e : NandEnd) (s : State) : Out :=
  let b := block.val
  let t := s.govern
  match (t.nblk b).erasing with
  | none => .next s
  | some f =>
    if !s.up || !t.arc.erases.contains b then .next s else
    if e = .noStatus then .next (t.statusFails b) else
    let s := { t with arc := { t.arc with erases := t.arc.erases.filter (· != b) } }
    let s := s.setNblk b { s.nblk b with erasing := none }
    if e = .pass then
      match f with
      | .ahead => .next { s with arc := { s.arc with ahead := s.arc.ahead ++ [b] } }
      | .headroom => .next { s with arc := { s.arc with headroom := s.arc.headroom + 1 } }
      | .reuse => .next s
    else
      let s := (s.arcFault b 5 0).permanent .nandBlock b 1
      .next (if f = .ahead then s.eraseAhead b else s)

/-- EMERGENCY_SET_READY (R284): a replacement set is erased. -/
def execEmergencySetReady (s : State) : Out :=
  match s.arc.emPend with
  | [] => .next s
  | l :: rest => if !s.up then .next s else .next { s with arc := { s.arc with emPend := rest, emSets := s.arc.emSets ++ [l] } }

/-- A block is retired (R289): one block of its channel's spare is consumed, or capacity shrinks; a die with 1,024 retired
blocks goes with it. -/
def State.retireBlock (s : State) (b : Nat) : State :=
  let k := s.nblk b
  let ch := b / 163840
  let d := b / 20480 % 8
  let s := s.setNblk b { k with retired := true, due := !k.segs.isEmpty, erasing := none }
  let sub := ((s.diesOf ch).findSome? fun d => s.freeBlock ch d [b] 20480).getD b
  let s := { s with arc := { s.arc with
    stripe := s.arc.stripe.map fun x => if x = b then sub else x, erases := s.arc.erases.filter (· != b) } }
  let c := s.nch ch
  let s := if c.spare = 0 then s.shrink else s.setNch ch { c with spare := c.spare - 1 }
  let base := blkNum ch d 0
  let n := (s.arc.blocks.filter fun e => base ≤ e.1 && e.1 < base + 20480 && e.2.retired).length
  let s := if n = 1024 && (s.nch ch).dies.getLsbD d then s.retireDie ch d else s
  s.arcEvent 6

/-- A channel is retired (R289): its segments are unreadable, its blocks leave every use. -/
def State.retireChannel (s : State) (ch : Nat) : State :=
  let s := s.setNch ch { s.nch ch with retired := true, dies := 0, spare := 0 }
  let segs := ((s.arc.blocks.filter fun e => e.1 / 163840 == ch).map (·.2.segs)).flatten
  let live (n : Nat) : Bool := s.arc.segs.any (·.num == n)
  let on (b : Nat) : Bool := b / 163840 == ch
  let s : State := { s with arc := { s.arc with
    stripe := s.arc.stripe.filter fun b => !on b, stripeLeft := 0, ahead := s.arc.ahead.filter fun b => !on b
    emSets := s.arc.emSets.filter fun l => !l.any on, emPend := s.arc.emPend.filter fun l => !l.any on
    erases := s.arc.erases.filter fun b => !on b
    programs := s.arc.programs.filter fun n => !segs.contains n } }
  let s := s.fillSets
  let s := each (segs.filter fun n => !live n) (fun n s => s.unreadableSeg (ch * 163840) n (s.newWords n 0xFFFF)) s
  let blocks := s.arc.blocks.map fun e => if e.1 / 163840 = ch then (e.1, { e.2 with segs := e.2.segs.filter fun n => !live n }) else e
  let s := { s with arc := { s.arc with blocks := blocks } }
  let s := each (segs.filter live) (fun n s => s.dealSeg n) s
  ((s.programMap.retRecord .nandBlock (0x10000 + ch) (ch * 163840) (s.nch ch).timeouts.length 0).arcEvent 6).capacityNotice

/-- CHANNEL_TIMEOUT (R289): training fails, or a command times out; the third time-out within 1 s retires the channel. -/
def execChannelTimeout (ch : Fin 8) (training : Bool) (s : State) : Out :=
  let c := s.nch ch.val
  if !s.up || c.retired then .next s else
  let ts := s.now :: c.timeouts.filter fun t => s.now < t + secC
  let s := (s.setNch ch.val { c with timeouts := ts }).arcFault (ch.val * 163840) 7 0
  .next (if training || 3 ≤ ts.length then s.retireChannel ch.val else s)

/-! ### Power-fail prepare (R285) -/

/-- The archive's part of prepare begins: C1 to C3 intake stops, their staged records and admitted appends go into one gap
per class with cause 3, and an emergency set becomes the open stripe. -/
def State.archivePrepare (s : State) : State :=
  if !s.arc.ready then { s with arc := { s.arc with prepare := true } } else
  let lost := s.arc.staged.filter fun x => x.r.cls != 0
  let lostA := s.arc.arrivals.filter fun a => a.reserved && a.r.cls != 0
  let s := { s with arc := { s.arc with
    staged := s.arc.staged.filter fun x => x.r.cls == 0
    arrivals := s.arc.arrivals.filter fun a => !(a.reserved && a.r.cls != 0)
    genUsed := ((s.arc.recs.filter fun a => s.arc.large.any (·.1 == a.r.dseq) && a.r.cls != 0).map
                  fun a => appendRoom a.r.body.length).sum
    prepare := true } }
  let drop (r : Rec) (w : Waiter) (s : State) : State :=
    (s.gapDrop r.cls.toNat 3 1 (padded r.body.length) r.gts r.gts).answer w stResource 0 r.gts
  let s := each lost (fun x s => drop x.r x.waiter s) s
  let s := each lostA (fun a s => drop a.r a.waiter s) s
  let s := if s.arc.emOpen && 128 ≤ s.arc.stripeLeft then s else s.takeEmergency
  let open_ := (s.arc.segs.filter fun g => g.prog < g.fill && !s.arc.programs.contains g.num).map (·.num)
  ((each open_ (fun n s => s.moveSeg n) s).closeGaps fun g => g.cause == 3).calmCheck

/-- Prepare is over: intake of C1 to C3 resumes with recovery. -/
def State.archiveResume (s : State) : State := { s with arc := { s.arc with prepare := false } }

/-! ### Start (R272) -/

/-- A drawer as a start finds it: its stream ends with its last committed record, and its stamps are those of the records
that stand. -/
def reopen (recs : List ARec) (d : Drawer) : Option Drawer :=
  let mine := recs.filter fun x => x.drawer == d.num
  let least (m x : Gts) : Gts := if gtsTime x < gtsTime m then x else m
  let most (m x : Gts) : Gts := if gtsTime m < gtsTime x then x else m
  let stamps := mine.map fun x => x.r.gts
  let ends := mine.map fun x => x.off + padded x.r.body.length
  let holds := mine.any fun x => x.r.typ == 2 && leAt x.r.body 0 8 + 1 == d.num
  if mine.isEmpty then none
  else some { d with len := ends.foldl max 0, count := mine.length, closeAt := none, trailer := none, cause := 0
                     hasSeal := d.num == 0 || holds, content := mine.any fun x => isContent x.r.typ
                     gtsFirst := stamps.tail.foldl least (stamps.headD 0), gtsLast := stamps.tail.foldl most (stamps.headD 0) }

/-- The segment after the last one a record stands in. -/
def nextSegOf (recs : List ARec) : Nat :=
  (recs.map fun x => x.seg0 + (x.off + padded x.r.body.length + segSize - 1) / segSize).foldl max 0

/-- What a module reset leaves of the archive (R270, R272): staged and uncommitted records are lost, and with them the
signature of a SEAL record among them; a drawer without a committed TRAILER stands open. A segment that was still to be
programmed may have been torn: open. The registers return to their reset values. -/
def State.archiveReset (s : State) : State :=
  let a := s.arc
  let (torn, s) := if a.segs.all fun g => g.prog = g.fill then (0, s) else s.freeVal 1
  let recs := a.recs.filter (·.committed)
  let trailed (d : Drawer) : Bool := match d.trailer with
    | some t => recs.any fun x => x.r.dseq == t
    | none => false
  let lost := (a.closed.reverse.find? fun d => !trailed d).orElse fun _ => a.openDrawer
  let stands (d : Drawer) : Bool := match d.sealDseq with
    | some t => recs.any fun x => x.r.dseq == t
    | none => false
  let closed := (a.closed.filter fun d => match lost with
    | some l => d.num < l.num
    | none => true).map fun d => if stands d then d else { d with sealB := none, sealDseq := none }
  let drw := lost.bind (reopen recs)
  let next := match drw with
    | some d => d.num + 1
    | none => (closed.map fun d => d.num + 1).foldl max 0
  let link := ((recs.getLast?).map fun x => x.r.link).getD []
  let seg := nextSegOf recs
  let purge (_ : Nat) (b : NandBlk) : NandBlk :=
    let l := b.segs.filter (· < seg)
    { b with segs := l, erasing := if l.isEmpty && !b.segs.isEmpty then some .reuse else b.erasing }
  let keep : Arc := {
    nextDseq := a.committed, lastLink := link, committed := a.committed, begun := !recs.isEmpty, nextSeg := seg,
    nextDrawer := next, openDrawer := drw, closed := closed, recs := recs, emSets := a.emSets, emPend := a.emPend, ahead := a.ahead, headroom := a.headroom, dieFails := a.dieFails, key := a.key, clean := a.clean && torn = 0,
    used := a.used, cap := a.cap, gapsTotal := a.gapsTotal, full := a.full, overfill := a.overfill, notified := a.notified,
    chans := a.chans, blocks := tmap {} purge a.blocks, bad := a.bad, keyStored := a.keyStored }
  { s with arc := keep }

/-- The GAP of a start (R272): cause 4, the first skipped DSEQ, 0 records or an unknown number. -/
def State.startGap (s : State) : Gap :=
  { cls := 0, cause := 4, records := if s.arc.clean then 0 else 2 ^ 32 - 1, bytes := 0, first := 0, last := 0,
    openedAt := s.now, skipped := s.arc.committed }

/-- Intake opens: sequencing resumes at the last committed DSEQ plus 65,537 behind a GAP, or begins with the OPEN of drawer
0. -/
def State.openIntake (s : State) : State :=
  let s := ({ s with arc := { s.arc with ready := true, calmAt := none, passFrom := s.now } } : State).fillSets
  if !s.arc.begun then s.newDrawer.calmCheck
  else
    let g := s.startGap
    let s := if s.arc.clean then s else s.arcEvent 8
    let s := { s with arc := { s.arc with nextDseq := s.arc.committed + 65536, clean := false } }
    match s.arc.openDrawer with
    | some _ => ((s.putGap g).wantClose 1).calmCheck
    | none => (s.newDrawer.putGap g).calmCheck

/-- ARCHIVE_INTAKE_OPEN (R272, R486): once the start has the archive key in the inline cipher. -/
def execArchiveIntakeOpen (s : State) : Out :=
  if !s.up || s.lc.fw != .running || s.arc.ready || !s.arc.keyLoaded then .next s else .next s.openIntake

/-! ### Commands (R292 to R295) -/

/-- The source numbers an issuer may use (R292): its function's, or within the tenant's ranges. -/
def State.mayUseSource (s : State) (party src : Nat) : Bool :=
  match midFn party with
  | some fn => src == 0x020 + fn
  | none => (tget [] s.dv.ranges (party - 0x54)).any fun r => r.1 ≤ src && src < r.1 + r.2

/-- The module may move bytes for an issuer (R128): a function's conditions; a tenant's are its DMA engine's to check. -/
def State.partyMoves (s : State) (party : Nat) : Bool :=
  match midFn party with
  | some fn => s.mayMove fn
  | none => true

/-- ARC_APPEND (R292): a function's body as the DMA finds it in host memory, none where the read fails; a tenant core's is read
from its D-space (R128). -/
def execArcAppend (r : Req) (body : Option (List (BitVec 8))) (s : State) : Out :=
  driner 0x0501 r s fun s =>
    let p := r.payload
    let typ := leAt p 0 2
    let cls := leAt p 2 1
    let flags := leAt p 3 1
    let src := leAt p 4 2
    let len := leAt p 16 4
    let no (st : Nat) : State := s.reply r.party r.tag 0x0501 st []
    if typ < 0x8000 || typ = 0xFFFF || 3 < cls || 1 < flags || leAt p 6 2 ≠ 0 then no stRejected
    else if 16777216 < len then no stLength
    else if !s.mayUseSource r.party src then no stAccess
    else if s.arc.full then no stArchiveFull
    else if 0 < len && !s.partyMoves r.party then no stAccess
    else
      let host := (midFn r.party).isSome
      let (s, body) := if host || len = 0 then (s, body) else s.readBuffer r.party (leAt p 8 8) len
      match body, decide (len = 0) with
      | none, false => s.reply r.party r.tag 0x0501 (if host then stHostRead else stAccess) []
      | b, _ =>
        let w : Waiter := if flags = 1 then .cmdCommit r.party r.tag else .cmdSeq r.party r.tag
        s.arrive { typ := typ, src := src, cls := BitVec.ofNat 2 cls, gts := s.gts, body := sub (b.getD []) 0 len } w false

/-- ARC_READ's output (R290, R294): records or placeholders, within a count and a size. Answers records, bytes, data and
the next DSEQ. -/
def arcOut : Nat → List ARec → Nat → Nat → Nat → Bytes → Nat → Nat × Nat × Bytes × Nat
  | 0, _, _, _, n, d, nx => (n, d.length, d, nx)
  | _, [], _, _, n, d, nx => (n, d.length, d, nx)
  | f + 1, a :: t, maxN, room, n, d, nx =>
    if maxN ≤ n then (n, d.length, d, nx) else
    let run := if a.unreadable then (a :: t).takeWhile (·.unreadable) else []
    let b := if a.unreadable then
        let r : Rec := { typ := 0xFFFF, src := 0, cls := 0, gts := 0, dseq := a.r.dseq, link := List.replicate 32 0,
                         body := le 8 a.r.dseq ++ le 8 run.length }
        recStream r r.body
      else recStream a.r (standing a)
    if room < d.length + b.length then (n, d.length, d, nx)
    else if a.unreadable then
      arcOut f (t.drop (run.length - 1)) maxN room (n + 1) (d ++ b) (((run.getLast?).map (·.r.dseq + 1)).getD nx)
    else arcOut f t maxN room (n + 1) (d ++ b) (a.r.dseq + 1)

/-- ARC_READ (R294). -/
def execArcRead (r : Req) (s : State) : Out :=
  drinerNow 0x0502 r s fun s =>
    let p := r.payload
    let first := leAt p 0 8
    let room := leAt p 20 4
    let l := (s.arc.recs.dropWhile fun a => a.r.dseq < first).takeWhile (·.committed)
    let (n, bytes, d, nx) := arcOut l.length l (leAt p 8 4) room 0 [] first
    let need := match l with
      | a :: _ => if a.unreadable then 128 else padded a.r.body.length
      | [] => 0
    if !s.mayMove 0 then (s, stAccess, [])
    else if room < need && leAt p 8 4 ≠ 0 then (s, stLength, le 4 need)
    else (s.bufferWrite 0 (leAt p 12 8) d, stOk, le 4 n ++ le 4 bytes ++ le 8 nx)

/-- ARC_SEAL_GET (R295). -/
def execArcSealGet (r : Req) (s : State) : Out :=
  drinerNow 0x0503 r s fun s =>
    let n := leAt r.payload 0 8
    if s.arc.nextDrawer ≤ n then (s, stRejected, [])
    else match (s.drawer? n).bind (·.sealB) with
      | some b => (s, stOk, b)
      | none => (s, stResource, [])

/-- Percent of an area's size. -/
def pct (used area : Nat) : Nat := used * 100 / area

/-- ARC_STATUS (R295). -/
def execArcStatus (r : Req) (s : State) : Out :=
  drinerNow 0x0504 r s fun s =>
    (s, stOk, le 8 (s.arc.used * segSize) ++ le 1 (pct s.arc.genUsed genArea) ++ le 1 (b2n s.inIncident) ++ le 2 0 ++
      le 4 s.arc.gapsTotal)

/-- ARC_CONFIG (R295). -/
def execArcConfig (r : Req) (s : State) : Out :=
  drinerNow 0x0505 r s fun s =>
    let v := leAt r.payload 0 2
    if v < 1 || 600 < v then (s, stRejected, [])
    else ({ s with arc := { s.arc with ctrl := setFld s.arc.ctrl 9 0 v } }, stOk, [])

/-! ### Registers (R298) -/

/-- The archive block as it reads. -/
def State.arcReadReg (s : State) (port : Nat) : Word × State :=
  let a := s.arc
  let last := a.committed - 1
  match port with
  | 0x0A00 =>
    (bf 0 0 (b2n a.ready) ||| bf 1 1 (b2n s.inIncident) ||| bf 2 2 (b2n a.auto) ||| bf 4 3 a.emSets.length |||
     bf 5 5 (b2n a.emOpen) ||| bf 6 6 (b2n a.full) ||| bf 7 7 (b2n s.overfillOut) ||| bf 8 8 (b2n a.prepare) |||
     bf 9 9 (b2n a.sealWait) ||| bf 17 10 ((s.channels.map (2 ^ ·)).sum) ||| bf 23 18 a.w, s)
  | 0x0A01 => (a.ctrl, s)
  | 0x0A02 => (a.events, s)
  | 0x0A03 =>
    let held (c : Bool) : Bool := a.arrivals.any fun x => (x.r.cls == 0) == c && (c || x.r.cls == 1) && s.heldNow x
    (bf 6 0 (pct a.genUsed genArea) ||| bf 13 7 (pct a.resUsed resArea) ||| bf 22 14 a.runs.length |||
     bf 23 23 (b2n (held false)) ||| bf 24 24 (b2n (held true)), s)
  | 0x0A04 => (BitVec.ofNat 32 last, { s with arc := { a with dseqHi := BitVec.ofNat 32 (last / 2 ^ 32) } })
  | 0x0A05 => (a.dseqHi, s)
  | 0x0A06 =>
    let n := (a.openDrawer.map (·.num)).getD 0
    (BitVec.ofNat 32 n, { s with arc := { a with drawerHi := BitVec.ofNat 32 (n / 2 ^ 32) } })
  | 0x0A07 => (a.drawerHi, s)
  | 0x0A08 => (bf 24 0 a.used, s)
  | 0x0A09 => (bf 24 0 a.cap, s)
  | 0x0A0A => (bf 2 0 a.chSel.toNat, s)
  | 0x0A0B =>
    let c := s.nch a.chSel.toNat
    (bf 7 0 c.dies.toNat ||| bf 23 8 c.spare ||| bf 24 24 (b2n c.retired), s)
  | 0x0A0C => (a.faultA, s)
  | 0x0A0D => (a.faultB, s)
  | 0x0A0E => (BitVec.ofNat 32 a.gapsTotal, s)
  | _ => (0, s)

/-- A write of ARC_CTRL: a field outside its range keeps its value. -/
def State.arcCtrlWrite (s : State) (v : Word) : State :=
  let c := s.arc.ctrl
  let i := fld v 9 0
  let d := fld v 16 10
  let c := if 1 ≤ i && i ≤ 600 then setFld c 9 0 i else c
  let c := if 1 ≤ d && d ≤ 90 then setFld c 16 10 d else c
  let s := { s with arc := { s.arc with ctrl := c } }
  if bit v 17 && s.arc.ready then s.wantClose 16 else s

def State.arcWriteReg (s : State) (port : Nat) (v : Word) : State :=
  match port with
  | 0x0A01 => s.arcCtrlWrite v
  | 0x0A02 => { s with arc := { s.arc with events := s.arc.events &&& ~~~ v } }
  | 0x0A0A => { s with arc := { s.arc with chSel := BitVec.ofNat 3 (fld v 2 0) } }
  | 0x0A0C => if bit v 31 then { s with arc := { s.arc with faultA := 0, faultB := 0 } } else s
  | _ => s

end Sys2Proof.Machine
end

