-- ==== Sys2Proof/Machine/Clock.lean ====
section
/-! DEFINITION. Sys2Proof/Machine/Clock.lean: the root, the domain multiplexers and the Loupe counters (R42 to R55). -/

namespace Sys2Proof.Machine

/-- A pin takes its present level as accepted, and a pending change is discarded (R80). -/
def State.pinLevel (s : State) (i : Nat) : State :=
  let p := s.pin i
  s.setPin i { p with accepted := p.raw, pend := none }

/-- ROOT_OK (R43, R80): the start counter has reached 65,536; every domain moves to its division and the GTS starts. -/
def execRootOk (s : State) : Out :=
  if !s.up || s.clk.rootOk || s.clk.startCount < 65536 then .next s
  else .next (each (upto 16) (fun i s => s.pinLevel i)
    { s with
      clk := { s.clk with rootOk := true, domPll := s.clk.domsel, rootAt := s.now }
      tim := { s.tim with sec := 0, acc := 0, qual := 3, inc := 0xD555555555 } })

/-- A queue pair of class C0 is enabled (R16, R48). -/
def State.c0Enabled (s : State) : Bool := s.qps.words.any fun e => e.2.en && e.2.cls == 0

/-- A write that R48 refuses: one that moves D0 to bypass, or D1 or D2 while a queue pair of class C0 is enabled. -/
def State.domselRefused (s : State) (sel : BitVec 5) : Bool :=
  let p := s.clk.domPll
  !sel.getLsbD 0 || (s.c0Enabled && ((!sel.getLsbD 1 && p.getLsbD 1) || (!sel.getLsbD 2 && p.getLsbD 2)))

/-- A write of CLK_DOMSEL by PL0 (R47, R48); `stopped` are the domains whose old clock has stopped. A write that is both
refused and an overlap sets both events. DESIGN CHOICE (log entry 111): DOM_PLL of a domain that hangs with its output low
keeps the old selection's bit. -/
def State.domselWrite (s : State) (v : Word) (stopped : BitVec 5) : State :=
  let sel : BitVec 5 := BitVec.ofNat 5 v.toNat
  let refused := s.domselRefused sel
  let busy := s.clk.switchBusy ≠ 0
  let k := s.clk
  if !k.rootOk then s
  else if refused || busy then
    { s with clk := { k with events := setBit (setBit k.events 0 (bit k.events 0 || refused)) 1 (bit k.events 1 || busy) } }
  else
    let moves := sel ^^^ k.domPll
    { s with clk := { k with domsel := sel, switchBusy := moves &&& stopped,
                             domPll := k.domPll ^^^ (moves &&& ~~~ stopped) } }

/-- CLK_DOMSEL_WRITE (R48): firmware at PL0. -/
def execClkDomselWrite (pl : BitVec 2) (value : BitVec 32) (stopped : BitVec 5) (s : State) : Out :=
  if s.up && pl = 0 then .next (s.domselWrite value stopped) else .next s

/-! ### Loupe (R52 to R54) -/

/-- A quotient that the spec gives as a real number: rounded down or up, freely (log entry 6). -/
def quo (n : Int) (d : Nat) : Int :=
  n.fdiv d + (if n.fmod d ≠ 0 && Config.roundUp n d then 1 else 0)

/-- Channel 0 belongs to the time island while it disciplines from 1PPS (R54). -/
def State.timeOwned (s : State) (ch : Nat) : Bool := ch = 0 && s.tim.src = 1

def lpDone : Nat := 1
def lpOvf : Nat := 2
def lpRefLost : Nat := 3
def lpBadsel : Nat := 4
def lpLost : Nat := 6

/-- CLK_LP_CTRLn takes a value: a measurement under way is aborted; START arms the channel; a reserved code leaves it idle. -/
def State.loupeSet (s : State) (ch : Nat) (v : Word) : State :=
  let l := s.loupe ch
  let bad := 0xA ≤ fld v 3 0 || 0xA ≤ fld v 7 4
  s.setLoupe ch { l with
    ctrl := v &&& 0x3FFFFF
    refs := 0, count := 0, ended := none, refAt := s.now
    busy := bit v 31 && !bad
    stat := if bad then setBit l.stat lpBadsel true else l.stat }

/-- A firmware write of CLK_LP_CTRLn (R54). -/
def State.loupeWrite (s : State) (ch : Nat) (v : Word) : State := if s.timeOwned ch then s else s.loupeSet ch v

/-- LOUPE_START (R53): a write with START set. -/
def execLoupeStart (ch : Fin 8) (value : BitVec 32) (s : State) : Out :=
  if s.up then .next (s.loupeWrite ch.val (setBit value 31 true)) else .next s

/-- LOUPE_ABORT (R53): a write while BUSY. -/
def execLoupeAbort (ch : Fin 8) (value : BitVec 32) (s : State) : Out :=
  if s.up && (s.loupe ch.val).busy then .next (s.loupeWrite ch.val value) else .next s

/-- The measured clock of a channel is the one of a code (R52); `pin` tells EVT pins apart. -/
def lpMeas (ctrl : Word) (code pin : Nat) : Bool := fld ctrl 3 0 = code && (code ≠ 9 || fld ctrl 16 13 = pin)

/-- The reference clock of a channel is the one of a code. -/
def lpRef (ctrl : Word) (code pin : Nat) : Bool := fld ctrl 7 4 = code && (code ≠ 9 || fld ctrl 20 17 = pin)

/-- The time island's 4 s gate on channel 0 has counted `n` cycles of D0 (R54, R67): it seeds f, once. -/
def State.seedPps (s : State) (n : Nat) : State :=
  if s.tim.src ≠ 1 || s.loop.seeded.getLsbD 0 || n = 0 then s else
  { s with loop := { s.loop with
      f := quo ((4800000000 - (n : Int)) * (1000000000 * 2 ^ 31)) n, seeded := s.loop.seeded ||| 1 } }

/-- A gate's count becomes the result (R53): within ±1 of the edges counted, saturated at 2^40 - 1; in continuous mode the
next gate has started. -/
def State.loupeResult (s : State) (ch n : Nat) : State :=
  let (v, s) := s.freeVal 32
  let cnt := n + v % 3 - 1
  let l := s.loupe ch
  let stat := if bit l.stat lpDone then setBit l.stat lpLost true else l.stat
  let stat := if 2 ^ 40 ≤ cnt then setBit stat lpOvf true else stat
  let s := s.setLoupe ch { l with
    busy := bit l.ctrl 21, ended := none
    stat := setBit stat lpDone true
    cnt := BitVec.ofNat 40 (min cnt (2 ^ 40 - 1)) }
  if ch = 0 then s.seedPps cnt else s

/-- A reference edge of a channel: the first after START begins the gate, the 2^GATE_EXP-th after that ends it. -/
def Loupe.refEdge (l : Loupe) (now : Nat) : Loupe :=
  if l.refs = 0 then { l with refs := 1, count := 0, refAt := now }
  else if l.refs < 2 ^ fld l.ctrl 12 8 then { l with refs := l.refs + 1, refAt := now }
  else { l with refs := 1, count := 0, ended := some l.count, refAt := now }

/-- `n` rising edges of a clock of R52 reach one channel. A gate that ended and was not yet taken gives its result first. -/
def State.loupeEdge (s : State) (code pin n ch : Nat) : State :=
  let l := s.loupe ch
  if !l.busy || n = 0 || (l.ended.isSome && !bit l.ctrl 21) then s else
  let s := match l.ended, lpRef l.ctrl code pin with
    | some e, true => s.loupeResult ch e
    | _, _ => s
  let l := s.loupe ch
  let l := if lpMeas l.ctrl code pin && l.refs ≠ 0 then
      { l with count := l.count + n, stat := if 2 ^ 40 ≤ l.count + n then setBit l.stat lpOvf true else l.stat }
    else l
  s.setLoupe ch (if lpRef l.ctrl code pin then l.refEdge s.now else l)

/-- `n` rising edges of a clock of R52 reach the channels. -/
def State.loupeEdges (s : State) (code pin n : Nat) : State := each (s.clk.loupe.map (·.1)) (fun ch s => s.loupeEdge code pin n ch) s

/-- Rising edges of domain k's clock in the D0 cycle that ends now (R44, R46): of its division, or of CLKIN in bypass. -/
def State.domEdges (s : State) (k : Nat) (clkin : Bool) : Nat :=
  let div := [4, 5, 6, 48, 354].getD k 4
  let c := s.now - s.clk.rootAt
  if s.clk.domPll.getLsbD k then 4 * c / div - 4 * (c - 1) / div else b2n clkin

/-- One D0 cycle of the clocks that run in the module: CLKIN and the five domains. -/
def State.loupeTick (s : State) (clkin : Bool) : State :=
  if s.clk.loupe.any fun e => e.2.busy then
    each (upto 5) (fun k s => s.loupeEdges (k + 1) 0 (s.domEdges k clkin)) (s.loupeEdges 0 0 (b2n clkin))
  else s

/-- LOUPE_GATE_END (R53): the gate of 2^GATE_EXP reference edges has ended. `edges` counts the field carrier's edges, which come
from outside; as a reference it ends the gate with this event (log entry 113). -/
def execLoupeGateEnd (ch : Fin 8) (edges : Nat) (s : State) : Out :=
  let l := s.loupe ch.val
  let carrier := fld l.ctrl 7 4 = 8
  if !s.up || !l.busy || !(carrier || l.ended.isSome) then .next s else
  .next (s.loupeResult ch.val (if fld l.ctrl 3 0 = 8 then edges else l.ended.getD l.count))

/-- LOUPE_REF_LOST (R53): no reference edge for 2.0 s. -/
def execLoupeRefLost (ch : Fin 8) (s : State) : Out :=
  let l := s.loupe ch.val
  if !s.up || !l.busy || l.ended.isSome || s.now < l.refAt + 2 * secC then .next s else
  .next (s.setLoupe ch.val { l with busy := false, stat := setBit (setBit l.stat lpDone true) lpRefLost true })

/-! ### Registers (R55) -/

/-- The clock block as it reads. -/
def State.clkRead (s : State) (port : Nat) : Word × State :=
  let k := s.clk
  match port with
  | 0x0400 => (bf 0 0 (b2n k.rootOk) ||| bf 5 1 k.domPll.toNat ||| bf 10 6 k.switchBusy.toNat |||
               bf 31 15 (min k.startCount 65536), s)
  | 0x0401 => (bf 4 0 k.domsel.toNat, s)
  | 0x0402 => (k.events, s)
  | p =>
    if 0x0410 ≤ p && p < 0x0430 then
      let n := (p - 0x0410) / 4
      let l := s.loupe n
      match p % 4 with
      | 0 => (l.ctrl, s)
      | 1 => (l.stat ||| bf 0 0 (b2n l.busy) ||| bf 5 5 (b2n (s.timeOwned n)), s)
      | 2 => (l.cnt.truncate 32, s.setLoupe n { l with hi := (l.cnt >>> 32).truncate 8 })
      | _ => (bf 7 0 l.hi.toNat, s)
    else (0, s)

/-- A write of the clock block by a core at PL0 or PL1. DESIGN CHOICE (log entry 112): a write of CLK_DOMSEL at PL1 is discarded
and sets no event; R55 lets PL1 reach the block and R48 lets only PL0 request a switch. -/
def State.clkWrite (s : State) (pl port : Nat) (v : Word) : State :=
  match port with
  | 0x0401 => if pl = 0 then s.domselWrite v 0 else s
  | 0x0402 => { s with clk := { s.clk with events := s.clk.events &&& ~~~ v } }
  | p =>
    if 0x0410 ≤ p && p < 0x0430 then
      let n := (p - 0x0410) / 4
      let l := s.loupe n
      match p % 4 with
      | 0 => s.loupeWrite n v
      | 1 => s.setLoupe n { l with stat := l.stat &&& ~~~ (v &&& 0x5E) }
      | _ => s
    else s

end Sys2Proof.Machine
end

