-- ==== Sys2Proof/Machine/Time.lean ====
section
/-! DEFINITION. Sys2Proof/Machine/Time.lean: the GTS and its corrections, the references, the discipline loop, quality
and holdover, PPSO, the time shadow and the time commands (R56 to R76, R86 to R91, R109, R526). Offsets are in units of
2^-16 ns; f and s in units of 1 / (10^9 * 2^31), in which the sums of R67 are exact. -/

namespace Sys2Proof.Machine

/-- A nanosecond in units of 2^-16 ns. -/
def nsU : Int := 65536

/-- A time record (R269): TYPE 0x0011, source 0x006. -/
def State.timeRec (s : State) (facts : List Nat) : State :=
  { s with loop := { s.loop with recGts := s.gts } }.event 0x0011 0x006 c1 (Config.openBody 0x0011 facts)

/-! ### Quality (R69, R70) -/

/-- The holdover estimate has passed TIM_HOLD.LIMIT, and the estimate in ns (R70). -/
def State.holdErr (s : State) : Nat := s.loop.eLock + fld s.tim.hold 15 0 * (s.now - s.loop.lossAt) / secC
def State.holdOver (s : State) : Bool :=
  fld s.tim.hold 31 16 * secC < s.loop.eLock * secC + fld s.tim.hold 15 0 * (s.now - s.loop.lossAt)

/-- The estimated error E in ns (R69). -/
def State.estErr (s : State) : Nat :=
  match s.tim.qual.toNat with
  | 0 => if s.tim.src = 2 then 100 else 15
  | 1 =>
    let u := match s.loop.mapNow with
      | some m => m.unc.toNat
      | none => 0
    if 40 < u then u + 60 else 100
  | 2 => s.holdErr
  | _ => 65535

/-- QUAL changes (R69): a time record, TIME_NOTICE, GLB_STATUS; the first lock after the start is the bracket end (R88). -/
def State.setQual (s : State) (q : BitVec 2) : State :=
  let old := s.tim.qual
  if old = q then s else
  let s := { s with tim := { s.tim with qual := q } }
  let s := (s.timeRec [1, old.toNat, q.toNat]).statusTouch
  let s := s.noticeAll 0x0280 (le 12 s.gts.toNat ++ le 1 old.toNat ++ le 1 q.toNat ++ le 1 s.tim.src.toNat ++ le 1 0)
  if s.loop.bracketEnd.isNone && !s.loop.startHold && q.toNat ≤ 1 then
    { s with loop := { s.loop with bracketEnd := some s.gts } }
  else s

/-- INC for f and s (R59, R67): INC_0 (1 + f + s) within 250 ppm of INC_0. -/
def incOf (f sl : Int) : Nat :=
  let i0 : Int := 0xD555555555
  let v := i0 + quo (i0 * (f + sl)) (1000000000 * 2 ^ 31)
  let lo := i0 - i0 * 250 / 1000000
  let hi := i0 + i0 * 250 / 1000000
  (max lo (min hi v)).toNat

def State.applyInc (s : State) : State := { s with tim := { s.tim with inc := incOf s.loop.f s.loop.slew } }

/-- Holdover begins (R69, R70) from the estimate `e` of the lock: f frozen at its mean over the last 64 s, s at 0. DESIGN CHOICE
(log entry 115): with fewer than 64 seconds of history the mean is over those there are. -/
def State.toHoldover (s : State) (e : Nat) : State :=
  let n := s.loop.hist.length
  let f := if n = 0 then s.loop.f else quo s.loop.hist.sum n
  ({ s with loop := { s.loop with f := f, slew := 0, eLock := e, lossAt := s.now } }.applyInc).setQual 2

/-- The disciplining source is lost or dropped (R69): straight to the code of a source that qualifies, otherwise to
holdover when QUAL was 0b00 or 0b01. -/
def State.sourceGone (s : State) (tin : Bool) : State :=
  let e := s.estErr
  let s := { s with tim := { s.tim with src := 0 } }
  let s := if tin then { s with loop := { s.loop with inBound := 0 } } else { s with loop := { s.loop with inBoundPtm := 0 } }
  if 2 ≤ s.tim.qual.toNat then s
  else if tin && s.tim.ptmValid && !s.loop.ptmDropped && 8 ≤ s.loop.inBoundPtm then
    ({ s with tim := { s.tim with src := 3 } }).setQual 1
  else s.toHoldover e

/-- HOLDOVER_LIMIT (R69, R70). -/
def execHoldoverLimit (s : State) : Out :=
  if s.up && s.tim.qual = 2 && s.holdOver then .next (s.setQual 3) else .next s

/-! ### The counter (R58, R72) -/

/-- The GTS in units of 2^-16 ns. -/
def State.units (s : State) : Nat := gtsUnits s.gts

/-- The counter takes a value; the loop and PPSO wait for the next boundary of the new time (R76), and two frames with the
change between them are no seed. -/
def State.setCounter (s : State) (u : Nat) : State :=
  let sec := u / 65536 / 1000000000
  { s with tim := { s.tim with sec := sec, acc := u % (65536 * 1000000000) * 2 ^ 24, irigMark := none },
           loop := { s.loop with lastSec := sec, stepped := true } }

/-- The start hold ends and the shadow copies are armed (R86, R87). The 60 s of R88 count from the load that ends it. DESIGN
CHOICE (log entry 116): where firmware makes no load they count from TIM_CMD.ARM. -/
def State.armTime (s : State) : State :=
  { s with loop := { s.loop with
      startHold := false, armed := true, loadAt := if s.loop.startHold then s.now else s.loop.loadAt } }

def timEvent (s : State) (n : Nat) : State := { s with tim := { s.tim with events := setBit s.tim.events n true } }

/-- A load (R72): only at QUAL 0b11 and only forward; before ROOT_OK there is no counter (R60). -/
def State.loadAllowed (s : State) (u : Nat) : Bool := s.clk.rootOk && s.tim.qual = 3 && s.units < u

def State.timeLoad (s : State) (u : Nat) : State :=
  if s.loadAllowed u then
    let before := s.units
    let s := { s.setCounter u with tim := { (s.setCounter u).tim with loaded := true } }
    (s.armTime).timeRec [2, before, u]
  else timEvent s 6

/-- TIM_CMD_LOAD (R72). -/
def execTimCmdLoad (s : State) : Out := if s.up then .next (s.timeLoad (gtsUnits s.tim.load)) else .next s

/-- TIM_CMD_ARM (R87). -/
def execTimCmdArm (s : State) : Out := if s.up then .next s.armTime else .next s

/-- BRACKET_TIMEOUT (R88): no lock within 60 s of the load. -/
def execBracketTimeout (s : State) : Out :=
  if !s.up || s.loop.startHold || s.loop.bracketEnd.isSome || s.now < s.loop.loadAt + 60 * secC then .next s
  else .next { s with loop := { s.loop with bracketEnd := some s.gts, unsync := true } }

/-- The shadow takes GTS[95:18] (R86). -/
def State.copyShadow (s : State) : State :=
  { s with tim := { s.tim with shadow := (s.gts >>> 18).truncate 78, shadowPresent := true } }

/-- SHADOW_COPY (R86): every 2^20 ns of device time while armed. -/
def execShadowCopy (s : State) : Out :=
  let k := s.units / 65536 / 2 ^ 20
  if !s.up || !s.loop.armed || k = s.loop.shadowIdx then .next s
  else .next ({ s with loop := { s.loop with shadowIdx := k } }.copyShadow)

/-! ### TIME_IN (R61 to R64) -/

/-- A four-phase capture (R526); before ROOT_OK it reads zero with QUAL 0b11 (R60). -/
def State.capture (s : State) (p : Nat) : Gts :=
  if !s.clk.rootOk then gtsOf 0 0 0 3
  else unitsGts ((s.tim.sec * 1000000000 * 2 ^ 40 + s.tim.acc + p * s.tim.inc / 4) / 2 ^ 24) s.tim.qual

def State.tinMode (s : State) : Nat := fld s.tim.ctrl 1 0

/-- A captured TIME_IN edge less the card's path delay, in units (R61). -/
def State.tinStamp (s : State) (g : Gts) : Int := (gtsUnits g : Int) - s.tim.tinDelay.toNat * 16384

/-- The offset of an edge from the nearest second boundary. -/
def phaseTheta (u : Int) : Int :=
  let sec : Int := 1000000000 * nsU
  let r := u.fmod sec
  if 2 * r ≤ sec then -r else sec - r

/-- The offset of a 1PPS edge (R66): once the GTS is loaded, and within 0.4 s of a second boundary. -/
def State.edgeTheta (s : State) (u : Int) : Option Int :=
  let t := phaseTheta u
  if s.tim.loaded && t.natAbs ≤ 400000000 * 65536 then some t else none

/-- A reference edge counts: the reference is valid, and a dropped one comes back after loss (R67). -/
def State.tinGood (s : State) (theta : Option Int) : State :=
  { s with tim := { s.tim with
      tinValid := true, tinLast := some s.now, tinTheta := theta, tinEdge := true
      tinDropped := s.tim.tinDropped && s.tim.tinValid } }

/-- An edge follows the one at `t` by 1 s within 10 us (R62). -/
def State.spaced (s : State) (t : Nat) : Bool := secC ≤ (s.now - t) + 10 * usC && s.now - t ≤ secC + 10 * usC

/-- TIN_EDGE (R61 to R63): a 1PPS pulse is validated. In IRIG-B mode the edge is a reference marker, validated as a 1PPS
pulse is; the first one, and the first after 2.5 s without a valid one, needs no edge before it. TIN_POL says which edge is
the active one; Loupe counts the rising ones (R52). -/
def execTinEdge (phase : Fin 4) (pulse : TinPulse) (s : State) : Out :=
  if !(s.up && s.clk.rootOk) || s.tinMode = 0 || s.tinMode = 3 then .next s else
  let s := if pulse.rising then s.loupeEdges 6 0 1 else s
  if pulse.rising = bit s.tim.ctrl 2 then .next s else
  let g := s.capture phase.val
  let wide := 1000 ≤ pulse.widthNs && pulse.widthNs ≤ 900000000
  match s.tinMode with
  | 1 =>
    let spaced := match s.tim.tinValid, s.tim.tinLast with
      | true, some t => s.spaced t
      | _, _ => true
    if !(wide && spaced) then .next (timEvent s 0)
    else .next (s.tinGood (s.edgeTheta (s.tinStamp g)))
  | 2 =>
    let spaced := match s.tim.markAt with
      | some t => s.spaced t || t + 3000000000 ≤ s.now
      | none => true
    if !(wide && spaced) then .next (timEvent s 0)
    else .next { s with tim := { s.tim with mark := some g, markAt := some s.now } }
  | _ => .next s

/-- Days from 1970-01-01 to the first of January of a year. -/
def yearDays (y : Nat) : Nat := (y - 1970) * 365 + ((y - 1969) / 4) - ((y - 1901) / 100) + ((y - 1601) / 400)

/-- The year of a count of UTC seconds: at most `n` years later than `y`. -/
def yearOf : Nat → Nat → Nat → Nat
  | 0, y, _ => y
  | n + 1, y, d => if yearDays (y + 1) ≤ d then yearOf n (y + 1) d else y

/-- TAI-UTC in seconds. -/
def State.taiUtc (s : State) : Int := toSigned 16 (fld s.tim.utc 15 0)

/-- The UTC second that a frame spells (R63); a year it lacks is the GTS's at its on-time point. -/
def irigUtc (s : State) (f : Irig) : Int :=
  let ieee := bit s.tim.ctrl 3
  let sec := match s.tim.mark with
    | some m => gtsUnits m / (1000000000 * 65536)
    | none => s.tim.sec
  let here := yearOf 300 1970 (((sec : Int) - s.taiUtc).toNat / 86400)
  let year := if ieee then (f.cfYear.or f.year).getD here else f.year.getD here
  let day := match f.sbs with
    | some b => b
    | none => f.hour * 3600 + f.min * 60 + f.sec
  let local_ : Int := ((yearDays year + (f.day - 1)) * 86400 + day : Nat)
  if ieee then local_ - f.offset * 1800 else local_

/-- The announced leap is taken at its frame (R64): TAI-UTC moves by the announced sign. -/
def State.leap (s : State) (delete : Bool) : State :=
  let t := s.taiUtc + (if delete then -1 else 1)
  timEvent { s with tim := { s.tim with utc := setFld (setFld s.tim.utc 15 0 (ofSigned 16 t)) 17 16 0 } } 9

/-- The decoded time is one second after that of the previous valid frame, in UTC: second 60 comes between 23:59:59 and
00:00:00, and a skipped second leaves 23:59:58 before 00:00:00, whether announced or not (R63, R64). -/
def State.irigFollows (s : State) (utc : Int) : Bool :=
  match s.tim.irigPrev with
  | none => true
  | some (p, leap) => if leap then utc == p else utc == p + 1 || (utc == p + 2 && utc.emod 86400 == 0)

/-- f as two frames 1 s apart give it (R67): the rate in force times the second over what the GTS counted between their
markers. -/
def State.frameSeed (s : State) : Option Int :=
  match s.tim.irigMark, s.tim.mark with
  | some a, some b =>
    let u : Int := 1000000000 * 2 ^ 31
    if gtsUnits a < gtsUnits b then
      some (quo ((u + s.loop.f + s.loop.slew) * (1000000000 * nsU)) (gtsUnits b - gtsUnits a) - u)
    else none
  | _, _ => none

/-- A frame is invalid: TIN_BAD, and the succession begins anew. -/
def State.irigBad (s : State) : State :=
  timEvent { s with tim := { s.tim with irigPrev := none, irigMark := none, irigRun := 0, mark := none } } 0

/-- IRIG_FRAME (R63, R64): a frame takes its reference marker's stamp. Without a year, while the GTS has never been loaded, it
gives the offset from the nearest second boundary. -/
def execIrigFrame (frame : Irig) (s : State) : Out :=
  if !(s.up && s.clk.rootOk) || s.tinMode ≠ 2 then .next s else
  let ieee := bit s.tim.ctrl 3
  let pend := bit s.tim.utc 16
  let del := bit s.tim.utc 17
  let utc := irigUtc s frame
  if !frame.markersOk || (ieee && !frame.parityOk) || !s.irigFollows utc then .next s.irigBad
  else
    let skip := ieee && pend && del && s.tim.irigPrev.any fun p => utc = p.1 + 2
    let s1 := if skip then s.leap true else s
    let tai := utc + s1.taiUtc
    let ins := ieee && pend && !del && frame.sec = 60
    let s2 : State := { s1 with tim := { s1.tim with
      irigPrev := some (utc, frame.sec == 60)
      irigMark := s1.tim.mark
      irigSeed := s1.frameSeed
      irigRun := s1.tim.irigRun + 1
      mark := none
      irigQuality := if ieee then frame.quality else s1.tim.irigQuality
      utc := if ieee && !skip then setFld s1.tim.utc 17 16 (b2n frame.lsp + 2 * b2n frame.lsDelete) else s1.tim.utc } }
    let s3 := if ins then s2.leap false else s2
    let phaseOnly : Bool := !bit s.tim.utc 31 || (frame.year.isNone && !(ieee && frame.cfYear.isSome) && !s.tim.loaded)
    let theta := s.tim.mark.map fun m =>
      let u := s.tinStamp m
      if phaseOnly then phaseTheta u else tai * 1000000000 * nsU - u
    .next (if s3.tim.irigRun < 2 then s3 else s3.tinGood theta)

/-- TIN_LOST (R62): no valid edge for 2.5 s. -/
def execTinLost (s : State) : Out :=
  match s.tim.tinValid, s.tim.tinLast with
  | true, some t =>
    if !s.up || s.now < t + 3000000000 then .next s
    else
      let was := s.tim.src = 1 || s.tim.src = 2
      let s := timEvent { s with tim := { s.tim with
        tinValid := false, tinTheta := none, irigRun := 0, irigPrev := none, irigMark := none, markAt := none } } 1
      .next (if was then s.sourceGone true else s)
  | _, _ => .next s

/-! ### PTM (R65, R109) -/

/-- PTM_REQUEST: the interval has expired and no dialog is under way; the Request goes to the priority queue (R105), and t1 is
stamped as it leaves. -/
def execPtmRequest (s : State) : Out :=
  let due := s.loop.ptmAt + fld s.tim.loop 17 8 * msC ≤ s.now
  if !(s.up && s.clk.rootOk && s.pci.up && s.pci.ptmEn && bit s.tim.ctrl 4) || (s.fun_ 0).d3hot || s.loop.ptmQueued ||
      s.loop.ptmT1.isSome || !due then .next s
  else .next (State.place { s with loop := { s.loop with ptmQueued := true, ptmAt := s.now } } true
    { id := 0, fn := 0, kind := .ptm, addr := 0, data := [] })

/-- A dialog is abandoned: it and the one after it yield no offset (R109). A Request still in the queue is not sent. -/
def State.ptmAbandon (s : State) : State :=
  State.creditWait { s with
    loop := { s.loop with ptmT1 := none, ptmPrev := none, ptmQueued := false }
    pci := { s.pci with prio := s.pci.prio.filter fun t => t.kind != .ptm } }

/-- The map is absent, or its anchor is more than 2 s older than the current Master Time (R65). DESIGN CHOICE (log entry 117):
before any dialog has completed the Master Time is 0 plus the GTS. -/
def State.mapOld (s : State) : Bool :=
  match s.loop.mapNow with
  | none => true
  | some m =>
    let master : Int := (s.loop.master : Int) + ((s.units : Int) - s.loop.masterT1) / nsU
    2000000000 < master - m.p0.toNat

/-- The offset of a dialog (R65). -/
def ptmTheta (m : PtmMap) (t1 rttPrev t2 p : Int) : Int :=
  let t0 : Int := ((m.t0Sec.toNat * 1000000000 + m.t0Nsec.toNat : Nat) : Int) * nsU
  let e := (t2 - m.p0.toNat) * nsU
  let d := quo (rttPrev - p * nsU) 2
  t0 + e + quo (e * m.rate.toInt) 1000000000 - d - t1

/-- PTM_RESPONSE: t4 is stamped and the dialog's offset taken; a Response without data abandons the dialog. -/
def execPtmResponse (t2 : Option (BitVec 64)) (prop : BitVec 32) (s : State) : Out :=
  match s.loop.ptmT1 with
  | none => .next s
  | some t1 =>
    match t2 with
    | none => .next s.ptmAbandon
    | some m2 =>
      let t4 := s.units
      let dlg := match s.loop.ptmPrev, s.loop.mapNow with
        | some (a, b), some m => [(ptmTheta m t1 ((b : Int) - a) m2.toNat prop.toNat, t4 - t1, t1)]
        | _, _ => []
      .next { s with loop := { s.loop with
        ptmT1 := none, ptmPrev := some (t1, t4), dialogs := s.loop.dialogs ++ dlg, master := m2.toNat, masterT1 := t1 } }

/-- PTM_TIMEOUT: no answer within 1 ms. -/
def execPtmTimeout (s : State) : Out :=
  if s.up && s.loop.ptmT1.isSome && s.loop.ptmSent + msC ≤ s.now then .next s.ptmAbandon else .next s

/-- The dialogs of a second within 20 ns of its shortest round trip (R65). -/
def keptDialogs (l : List (Int × Nat × Nat)) : List (Int × Nat × Nat) :=
  match l with
  | [] => []
  | (_, r, _) :: _ =>
    let shortest := l.foldl (fun m e => min m e.2.1) r
    l.filter fun e => e.2.1 ≤ shortest + 20 * 65536

/-- The second's PTM offset (R65): the mean over the dialogs kept. -/
def ptmOffset (l : List (Int × Nat × Nat)) : Option Int :=
  let kept := (keptDialogs l).map (·.1)
  if kept.isEmpty then none else some (quo kept.sum kept.length)

/-- f as the slope of one second of offsets gives it (R67), from the first to the last dialog kept. DESIGN CHOICE (log entry
48): the spec names no fit. -/
def State.slopeSeed (s : State) (l : List (Int × Nat × Nat)) : Option Int :=
  match (keptDialogs l).head?, (keptDialogs l).getLast? with
  | some (a, _, ta), some (b, _, tb) =>
    if ta < tb then some (s.loop.f + s.loop.slew + quo ((b - a) * (1000000000 * 2 ^ 31)) (tb - ta)) else none
  | _, _ => none

/-! ### The loop (R66 to R72) -/

/-- A clamp to plus and minus `m`. -/
def clampI (m v : Int) : Int := max (-m) (min m v)

/-- Theta in TIM_OFFSET's units of 2^-8 ns, saturating. -/
def thetaReg (t : Int) : Word := BitVec.ofInt 32 (max (-(2 ^ 31)) (min (2 ^ 31 - 1) (quo t 256)))

/-- f and s after an accepted offset (R67); `seed` replaces f at a source's first acquisition. -/
def State.discipline (s : State) (theta : Int) (seed : Option Int) : State :=
  let ki := fld s.tim.loop 7 4
  let kp := fld s.tim.loop 3 0
  let f0 := seed.getD s.loop.f
  let f := clampI (200000 * 2 ^ 31) (f0 + theta * 2 ^ (15 - ki))
  let sl := clampI (50000 * 2 ^ 31) (theta * 2 ^ (15 - kp))
  ({ s with loop := { s.loop with f := f, slew := sl } }).applyInc

/-- A second without a correction: the slew of the last one has had its second (R67: held for the next second). -/
def State.noSlew (s : State) : State := ({ s with loop := { s.loop with slew := 0 } }).applyInc

/-- The second's offset of the disciplining source `src` is accepted (R67, R72). IRIG-B and PTM seed f at their first
acquisition; 1PPS does when the gate of R54 has ended. -/
def State.acceptOffset (s : State) (src : Nat) (theta : Int) (seed : Option Int) : State :=
  let s := { s with loop := { s.loop with rejected := 0 } }
  let free := 2 ≤ s.tim.qual.toNat
  let s := if src = 1 then s else { s with tim := { s.tim with loaded := true } }
  if free && theta < -(10000000 * nsU) then { s with tim := { s.tim with backPend := true } }.noSlew
  else
    let seed := if src = 1 || s.loop.seeded.getLsbD (src - 1) then none else seed
    let s := { s with tim := { s.tim with backPend := false }
                      loop := { s.loop with
                        seeded := s.loop.seeded ||| (if seed.isSome then BitVec.ofNat 3 (2 ^ (src - 1)) else 0) } }
    let s := s.discipline theta seed
    if free && 10000 * nsU ≤ theta then
      let before : Nat := s.units
      let after : Nat := (Int.ofNat before + theta).toNat
      let s := s.setCounter after
      (timEvent { s with tim := { s.tim with loaded := true } } 5).timeRec [3, before, after]
    else s

/-- A source is dropped (R67): it is reconsidered only after it has been lost and regained. -/
def State.dropSource (s : State) (src : Nat) : State :=
  let s := (timEvent s 3).timeRec [7, src]
  let s := if src = 3 then { s with loop := { s.loop with ptmDropped := true, rejected := 0 } }
    else { s with tim := { s.tim with tinDropped := true }, loop := { s.loop with rejected := 0 } }
  s.sourceGone (src ≠ 3)

/-- Seconds in a row with an offset below a bound in ns. -/
def inRow (n : Nat) (bound : Int) (theta : Option Int) : Nat :=
  match theta with
  | some t => if -(bound * nsU) < t && t < bound * nsU then satInc n 8 else 0
  | none => 0

/-- QUAL after the second (R69). -/
def State.lockQual (s : State) (src : Nat) : State :=
  if (src = 1 || src = 2) && 8 ≤ s.loop.inBound then s.setQual 0
  else if src = 3 && 8 ≤ s.loop.inBoundPtm then s.setQual 1
  else s

/-- The cross-check of R68: TIME_IN disciplines, PTM is valid, and their offsets differ for the third second running. -/
def State.xcheck (s : State) (tin ptm : Option Int) : State × Bool :=
  let lim : Int := (fld s.tim.ctrl 15 8 : Nat)
  match tin, ptm with
  | some a, some b =>
    if lim = 0 || (a - b).natAbs ≤ (lim * 1000 * nsU).toNat then ({ s with loop := { s.loop with xchkRun := 0 } }, false)
    else if s.loop.xchkRun < 2 then ({ s with loop := { s.loop with xchkRun := s.loop.xchkRun + 1 } }, false)
    else
      let s := { s with loop := { s.loop with xchkRun := 0, xchkAt := s.now }, tim := { s.tim with xchkHold := true } }
      (((timEvent s 4).timeRec [4]).sourceGone true, true)
  | _, _ => ({ s with loop := { s.loop with xchkRun := 0 } }, false)

/-- What a second begins with: the new map, the second's PTM offset, validity and staleness. -/
def State.secondStart (s : State) : State × Option Int × Option Int × Option Int :=
  let s := match s.loop.mapNext with
    | some m => { s with loop := { s.loop with mapNow := some m, mapNext := none } }
    | none => s
  let stale := s.mapOld
  let s := if stale && !s.tim.mapStale then timEvent s 7 else s
  let ptm := if stale || !s.pci.ptmEn || !bit s.tim.ctrl 4 then none else ptmOffset s.loop.dialogs
  let tin := if s.tim.tinValid && !s.tim.tinDropped && !s.tim.xchkHold then s.tim.tinTheta else none
  ({ s with tim := { s.tim with mapStale := stale, ptmValid := ptm.isSome, tinTheta := none }
            loop := { s.loop with dialogs := [], lastSec := s.tim.sec
                                  ptmDropped := s.loop.ptmDropped && ptm.isSome } }, tin, ptm, s.slopeSeed s.loop.dialogs)

/-- The time island takes Loupe channel 0 when 1PPS begins to discipline and f has no seed from it: D0 over a gate of 4 s at
TIME_IN (R54, R67). -/
def State.takeGate (s : State) (src : Nat) : State :=
  if src = 1 && !s.loop.seeded.getLsbD 0 && (s.tim.src ≠ 1 || !(s.loupe 0).busy) then s.loupeSet 0 0x80000261 else s

/-- The disciplining source's second (R66, R67, R69): `src` 1 1PPS, 2 IRIG-B, 3 PTM. DESIGN CHOICE (log entry 118): the count
of rejected samples stays when the source changes. -/
def State.runSource (s : State) (src : Nat) (theta : Int) (seed : Option Int) : State :=
  let s := s.takeGate src
  let s := { s with tim := { s.tim with src := BitVec.ofNat 2 src, theta := thetaReg theta } }
  if theta.natAbs ≥ 10000 * 65536 && s.tim.qual.toNat ≤ 1 then
    let s := (timEvent { s with loop := { s.loop with rejected := s.loop.rejected + 1 } } 2).timeRec [6, src]
    if 3 ≤ s.loop.rejected then s.dropSource src else s
  else (s.acceptOffset src theta seed).lockQual src

/-- LOOP_SECOND (R66 to R72, R87): at each GTS second boundary, which the event names by the second that begins there. PTM disciplines in the place of a valid TIME_IN only where its
edge gave no offset; a second of TIME_IN without an edge has no sample (R66). -/
def execLoopSecond (boundary : Nat) (s : State) : Out :=
  if !(s.up && s.clk.rootOk) || boundary ≠ s.tim.sec || s.tim.sec ≤ s.loop.lastSec then .next s else
  let edge := s.tim.tinEdge
  let (s, tin, ptm, slope) := s.secondStart
  let s := { s with tim := { s.tim with tinEdge := false } }
  let tinSrc := if s.tinMode = 2 then 2 else 1
  if s.loop.startHold then
    match tin.or ptm with
    | some t => .next { s with tim := { s.tim with theta := thetaReg t } }
    | none => .next s
  else
    let s := { s with loop := { s.loop with
      inBound := inRow s.loop.inBound (if tinSrc = 2 then 200 else 50) tin
      inBoundPtm := inRow s.loop.inBoundPtm 200 ptm } }
    let (s, tin) := match s.xcheck tin ptm with
      | (s, true) => (s, none)
      | (s, false) => (s, tin)
    let tinHolds := s.tim.tinValid && !s.tim.tinDropped && !s.tim.xchkHold
    let s := match tin, ptm with
      | some t, _ => s.runSource tinSrc t s.tim.irigSeed
      | none, some t =>
        if s.loop.ptmDropped || (tinHolds && !edge && s.tim.src ≠ 3) then s.noSlew else s.runSource 3 t slope
      | none, none => if s.tim.src = 3 then (s.sourceGone false).noSlew else s.noSlew
    .next { s with loop := { s.loop with hist := (s.loop.f :: s.loop.hist).take 64 } }

/-- XCHK_HOLD_END (R68). -/
def execXchkHoldEnd (s : State) : Out :=
  if s.up && s.tim.xchkHold && s.loop.xchkAt + 60 * secC ≤ s.now then
    .next { s with tim := { s.tim with xchkHold := false } }
  else .next s

/-! ### PPSO (R75, R76) -/

def State.ppsoWidth (s : State) : Nat := fld s.tim.ppsoCtrl 22 4 * usC

/-- The phase of the D0 cycle now open that PPSO's next edge falls in: R526 in reverse, for a second boundary plus
TIM_PPSO_OFS. -/
def State.ppsoPhase (s : State) : Option (BitVec 2) :=
  let w : Int := 1000000000 * 2 ^ 40
  let r := ((s.tim.ppsoOfs.toInt * 2 ^ 40 - (s.tim.acc : Int)).emod w).toNat
  if r < s.tim.inc then some (BitVec.ofNat 2 (4 * r / s.tim.inc)) else none

/-- The level of PPSO (R75): active high where POL is 0. -/
def State.ppsoLevel (s : State) : Bool := s.loop.ppsoOn != bit s.tim.ppsoCtrl 1

/-- PPSO goes active or inactive; Loupe counts its rising edges (R52). -/
def State.setPpso (s : State) (on : Bool) : State :=
  let was := s.ppsoLevel
  let s := { s with loop := { s.loop with ppsoOn := on } }
  if !was && s.ppsoLevel then s.loupeEdges 7 0 1 else s

/-- PPSO_PULSE: a second boundary plus the offset falls in this cycle of D0, and the quality allows. -/
def execPpsoPulse (s : State) : Out :=
  let clear := !s.loop.stepped || s.loop.ppsoEnd = 0 || s.loop.ppsoEnd + s.ppsoWidth ≤ s.now
  if !(s.up && s.clk.rootOk && bit s.tim.ppsoCtrl 0) || s.loop.ppsoOn || !clear || fld s.tim.ppsoCtrl 3 2 < s.tim.qual.toNat then
    .next s
  else match s.ppsoPhase with
    | some p =>
      .next ({ s with loop := { s.loop with stepped := false, ppsoEnd := s.now + s.ppsoWidth, ppsoPhase := p } }.setPpso true)
    | none => .next s

/-- PPSO_PULSE_END: the width has passed. -/
def execPpsoPulseEnd (s : State) : Out :=
  if s.up && s.loop.ppsoOn && s.loop.ppsoEnd ≤ s.now then .next (s.setPpso false) else .next s

/-! ### Registers (R89) and commands (R90, R91) -/

def State.timStatus (s : State) : Word :=
  bf 1 0 s.tim.qual.toNat ||| bf 3 2 s.tim.src.toNat ||| bf 4 4 (b2n s.tim.tinValid) ||| bf 5 5 (b2n s.tim.ptmValid) |||
  bf 6 6 (b2n s.tim.mapStale) ||| bf 7 7 (b2n s.tim.backPend) ||| bf 8 8 (b2n s.tim.loaded) |||
  bf 9 9 (b2n s.tim.xchkHold) ||| bf 31 16 (min s.estErr 65535)

/-- A new TIN_MODE drops the TIME_IN reference (R91); the reserved one acts as off. -/
def State.ctrlTime (s : State) (v : Word) : State :=
  let was := s.tim.src = 1 || s.tim.src = 2
  let changed := fld v 1 0 ≠ s.tinMode
  let s := { s with tim := { s.tim with ctrl := v &&& 0xFF1F } }
  let s := if fld v 1 0 = 3 then timEvent s 8 else s
  if !changed then s
  else
    let s := { s with tim := { s.tim with tinValid := false, tinTheta := none, tinLast := none, tinDropped := false,
                                          irigPrev := none, irigMark := none, irigRun := 0, mark := none, markAt := none } }
    if was then s.sourceGone true else s

/-- TIM_MAP0 to TIM_MAP6 as one map, from the next second on (R91). -/
def State.mapCommit (s : State) : State := { s with loop := { s.loop with mapNext := some s.tim.map } }

/-- TIM_MAP_COMMIT (R65). -/
def execTimMapCommit (s : State) : Out := if s.up then .next s.mapCommit else .next s

/-- The time block as it reads, but for the event pins' registers. -/
def State.timRead (s : State) (port : Nat) : Word × State :=
  let t := s.tim
  let g := s.gts
  match port with
  | 0x0500 => (g.truncate 32, { s with tim := { t with latch := (g >>> 32).truncate 64 } })
  | 0x0501 => (t.latch.truncate 32, s)
  | 0x0502 => ((t.latch >>> 32).truncate 32, s)
  | 0x0503 => (s.timStatus, s)
  | 0x0504 => (t.ctrl, s)
  | 0x0505 => (BitVec.ofNat 32 t.inc, { s with tim := { t with incHi := BitVec.ofNat 8 (t.inc / 2 ^ 32) } })
  | 0x0506 => (bf 7 0 t.incHi.toNat, s)
  | 0x0507 => (t.loop, s)
  | 0x0508 => (t.theta, s)
  | 0x0509 => (bf 19 0 t.tinDelay.toNat, s)
  | 0x050A => (t.hold, s)
  | 0x050B => (t.events, s)
  | 0x050C => (t.load.truncate 32, s)
  | 0x050D => ((t.load >>> 32).truncate 32, s)
  | 0x050E => ((t.load >>> 64).truncate 32, s)
  | 0x0510 => (t.utc, s)
  | 0x0511 => (t.map.p0.truncate 32, s)
  | 0x0512 => ((t.map.p0 >>> 32).truncate 32, s)
  | 0x0513 => (bf 29 0 t.map.t0Nsec.toNat, s)
  | 0x0514 => (t.map.t0Sec.truncate 32, s)
  | 0x0515 => (bf 15 0 (t.map.t0Sec.toNat / 2 ^ 32), s)
  | 0x0516 => (t.map.rate, s)
  | 0x0517 => (bf 15 0 t.map.unc.toNat, s)
  | 0x0518 => (t.ppsoCtrl, s)
  | 0x0519 => (t.ppsoOfs, s)
  | 0x051A => (bf 5 0 s.dv.window.toNat, s)
  | 0x051B => (bf 13 0 s.dv.store.length ||| bf 14 14 (b2n (6144 < s.dv.store.length)) ||| bf 31 16 s.dv.lateCount,
               { s with dv := { s.dv with lateCount := 0 } })
  | 0x051C => (bf 29 0 t.shadow.toNat ||| bf 31 31 (b2n t.shadowPresent), s)
  | 0x051D => ((t.shadow >>> 30).truncate 32, s)
  | 0x051E => (bf 15 0 (t.shadow.toNat / 2 ^ 62), s)
  | _ => (0, s)

/-- TIM_LOAD with one of its words replaced. -/
def loadWord (l : BitVec 96) (n : Nat) (v : Word) : BitVec 96 :=
  (l &&& ~~~ ((0xFFFFFFFF : BitVec 96) <<< (32 * n))) ||| (v.zeroExtend 96 <<< (32 * n))

/-- A field write is in PPSO's ranges. -/
def ppsoWidthOk (w : Nat) : Bool := 1 ≤ w && w ≤ 500000
def ppsoOfsOk (v : Word) : Bool := v.toInt.natAbs ≤ 499999999

/-- A write of the time block, but for the event pins and a rebase. -/
def State.timWrite (s : State) (port : Nat) (v : Word) : State :=
  let t := s.tim
  match port with
  | 0x0504 => s.ctrlTime v
  | 0x0507 => if 1 ≤ fld v 17 8 && fld v 17 8 ≤ 1000 then { s with tim := { t with loop := v &&& 0x3FFFF } } else s
  | 0x0509 => { s with tim := { t with tinDelay := BitVec.ofNat 20 v.toNat } }
  | 0x050A => { s with tim := { t with hold := v } }
  | 0x050B => { s with tim := { t with events := t.events &&& ~~~ v } }
  | 0x050C => { s with tim := { t with load := loadWord t.load 0 v } }
  | 0x050D => { s with tim := { t with load := loadWord t.load 1 v } }
  | 0x050E => { s with tim := { t with load := loadWord t.load 2 v } }
  | 0x050F =>
    let s := if bit v 0 then s.timeLoad (gtsUnits t.load) else s
    if bit v 2 then s.armTime else s
  | 0x0510 => { s with tim := { t with utc := (t.utc &&& 0x30000) ||| (v &&& 0x8000FFFF) } }
  | 0x0511 => { s with tim := { t with map := { t.map with p0 := BitVec.ofNat 64 (t.map.p0.toNat / 2 ^ 32 * 2 ^ 32 + v.toNat) } } }
  | 0x0512 => { s with tim := { t with map := { t.map with p0 := BitVec.ofNat 64 (v.toNat * 2 ^ 32 + t.map.p0.toNat % 2 ^ 32) } } }
  | 0x0513 => { s with tim := { t with map := { t.map with t0Nsec := BitVec.ofNat 30 v.toNat } } }
  | 0x0514 => { s with tim := { t with map := { t.map with t0Sec := BitVec.ofNat 48 (t.map.t0Sec.toNat / 2 ^ 32 * 2 ^ 32 + v.toNat) } } }
  | 0x0515 => { s with tim := { t with map := { t.map with t0Sec := BitVec.ofNat 48 (v.toNat % 65536 * 2 ^ 32 + t.map.t0Sec.toNat % 2 ^ 32) } } }
  | 0x0516 => { s with tim := { t with map := { t.map with rate := v } } }
  | 0x0517 =>
    let s := { s with tim := { t with map := { t.map with unc := BitVec.ofNat 16 v.toNat } } }
    if bit v 31 then s.mapCommit else s
  | 0x0518 =>
    if ppsoWidthOk (fld v 22 4) then { s with tim := { t with ppsoCtrl := v &&& 0x7FFFFF } } else s
  | 0x0519 => if ppsoOfsOk v then { s with tim := { t with ppsoOfs := v } } else s
  | 0x051A => { s with dv := { s.dv with window := BitVec.ofNat 6 v.toNat } }
  | _ => s

/-- The GTS that TIME_GET answers (R91): latched when firmware took the command from its channel, or now where a time
record has been written since. -/
def State.takenGts (s : State) (r : Req) : Gts :=
  match s.drn.taken.find? (fun t => t.party == r.party && t.opcode == 0x0201 && t.tag == r.tag) with
  | some t => if gtsTime t.gts < gtsTime s.loop.recGts then s.gts else t.gts
  | none => s.gts

/-- TIME_GET (R90, R91). -/
def execTimeGet (r : Req) (s : State) : Out :=
  let g := s.takenGts r
  drinerNow 0x0201 r s fun s => (s, stOk, le 12 g.toNat ++ le 4 (min s.estErr 65535) ++ le 1 s.tim.src.toNat)

/-- TIME_STATUS (R90). -/
def execTimeStatus (r : Req) (s : State) : Out := drinerNow 0x0202 r s fun s =>
  (s, stOk, le 4 s.timStatus.toNat ++ le 4 s.tim.theta.toNat ++ le 8 s.tim.inc ++ le 4 s.tim.utc.toNat ++
            le 4 s.tim.events.toNat)

/-- TIME_CONFIG (R90, R91): a field out of range gives REJECTED. -/
def execTimeConfig (r : Req) (s : State) : Out := drinerNow 0x0203 r s fun s =>
  let p := r.payload
  let b (i : Nat) := leAt p i 1
  let int := leAt p 8 2
  let delay := leAt p 12 4
  if 2 < b 0 || 1 < b 1 || 1 < b 2 || 1 < b 3 || 15 < b 5 || 15 < b 6 || b 7 ≠ 0 || int < 1 || 1000 < int ||
     leAt p 10 2 ≠ 0 || 2 ^ 20 ≤ delay then (s, stRejected, [])
  else
    let s := s.ctrlTime (bf 1 0 (b 0) ||| bf 2 2 (b 1) ||| bf 3 3 (b 2) ||| bf 4 4 (b 3) ||| bf 15 8 (b 4))
    ({ s with tim := { s.tim with
        loop := bf 3 0 (b 5) ||| bf 7 4 (b 6) ||| bf 17 8 int
        tinDelay := BitVec.ofNat 20 delay
        hold := bf 15 0 (leAt p 16 2) ||| bf 31 16 (leAt p 18 2) } }, stOk, [])

/-- TIME_SET_MAP (R90, R91): from the next second of the loop. -/
def execTimeSetMap (r : Req) (s : State) : Out := drinerNow 0x0204 r s fun s =>
  let p := r.payload
  let t0 : Gts := BitVec.ofNat 96 (leAt p 8 12)
  if 999999999 < gtsNsec t0 || 65535 < leAt p 24 4 then (s, stRejected, [])
  else
    let m : PtmMap := { p0 := BitVec.ofNat 64 (leAt p 0 8), t0Nsec := BitVec.ofNat 30 (gtsNsec t0),
                        t0Sec := BitVec.ofNat 48 (gtsSec t0), rate := BitVec.ofNat 32 (leAt p 20 4),
                        unc := BitVec.ofNat 16 (leAt p 24 4) }
    (({ s with tim := { s.tim with map := m } }).mapCommit, stOk, [])

/-- TIME_SET_UTC (R90). -/
def execTimeSetUtc (r : Req) (s : State) : Out := drinerNow 0x0205 r s fun s =>
  let p := r.payload
  if 1 < leAt p 2 2 then (s, stRejected, [])
  else (s.timWrite 0x0510 (bf 15 0 (leAt p 0 2) ||| bf 31 31 (leAt p 2 2)), stOk, [])

/-- TIME_LOAD (R72, R90). -/
def execTimeLoad (r : Req) (s : State) : Out := drinerNow 0x0206 r s fun s =>
  let g : Gts := BitVec.ofNat 96 (leAt r.payload 0 12)
  if 999999999 < gtsNsec g then (s, stRejected, [])
  else
    let ok := s.loadAllowed (gtsUnits g)
    let s := ({ s with tim := { s.tim with load := g } }).timeLoad (gtsUnits g)
    if ok then (s, stOk, le 12 s.gts.toNat) else (s, stRejected, [])

/-- PPSO_CONFIG (R90). -/
def execPpsoConfig (r : Req) (s : State) : Out := drinerNow 0x0208 r s fun s =>
  let p := r.payload
  let b (i : Nat) := leAt p i 1
  let ofs : Word := BitVec.ofNat 32 (leAt p 8 4)
  if 1 < b 0 || 1 < b 1 || 3 < b 2 || b 3 ≠ 0 || !ppsoWidthOk (leAt p 4 4) || !ppsoOfsOk ofs then (s, stRejected, [])
  else ({ s with tim := { s.tim with
      ppsoCtrl := bf 0 0 (b 0) ||| bf 1 1 (b 1) ||| bf 3 2 (b 2) ||| bf 22 4 (leAt p 4 4)
      ppsoOfs := ofs } }, stOk, [])

end Sys2Proof.Machine
end

