-- ==== Sys2Proof/Machine/Dovetail.lean ====
section
/-! DEFINITION. Sys2Proof/Machine/Dovetail.lean: event pins, the Dovetail store and its release order, rebase, and owner
authorization (R73, R77 to R85, R89, R90, R501). -/

namespace Sys2Proof.Machine

/-! ### Event pins (R77 to R80) -/

/-- FILT_LEN times its unit, in D0 cycles. -/
def pinLen (ctrl : Word) : Nat :=
  fld ctrl 14 3 * (match fld ctrl 16 15 with
    | 0 => 1
    | 1 => usC
    | _ => msC)

/-- The stamp of a pending change (R78), less TRIM. DESIGN CHOICE (log entry 119): a TRIM above the stamp itself gives 0. -/
def pinStamp (ctrl : Word) (d : PinPend) : Gts :=
  let g := if bit ctrl 17 then d.run else d.first
  unitsGts (gtsUnits g - fld ctrl 31 21 * 32768) (gtsQual g)

/-- Events of a pin that wait for Dovetail. -/
def State.pinQueue (s : State) (n : Nat) : Nat := (s.dv.inbox.filter fun e => e.src == 0x010 + n).length

/-- A change is accepted (R78, R79): an event of a selected kind, lost where the pin's queue holds 32. -/
def State.pinAccept (s : State) (n : Nat) (d : PinPend) : State :=
  let p := s.pin n
  let level := p.raw
  let s1 := s.setPin n { p with accepted := level, pend := none }
  if !bit p.ctrl (if level then 1 else 2) then s1
  else if 32 ≤ s.pinQueue n then
    s1.setPin n { p with accepted := level, pend := none, lost := satInc p.lost 65535, overflow := true }
  else
    let facts := [b2n level, min d.bounces 255, p.excSince, p.lost]
    let result := le 2 (0x010 + n) ++ le 1 (b2n level) ++ le 1 (min d.bounces 255) ++ le 2 p.excSince ++ le 2 p.lost
    let s2 := s1.setPin n { p with accepted := level, pend := none, excSince := 0, lost := 0 }
    s2.post { typ := 0x0010, src := 0x010 + n, cls := BitVec.ofNat 2 (fld p.ctrl 19 18), gts := pinStamp p.ctrl d,
              body := Config.openBody 0x0010 facts, result := result
              qpn := if bit p.ctrl 20 then some p.qpn else none }

/-- EVT_EDGE (R77, R78): a raw edge starts a pending change, returns from it, or begins a new run. -/
def execEvtEdge (pin : Fin 16) (phase : Fin 4) (level : Bool) (s : State) : Out :=
  let n := pin.val
  let p := s.pin n
  if p.raw = level then .next s else
  let p := { p with raw := level }
  let s1 := if level && s.up then (s.setPin n p).loupeEdges 9 n 1 else s.setPin n p
  if !(s.up && s.clk.rootOk && bit p.ctrl 0) then .next s1
  else
    let g := s.capture phase.val
    let d : PinPend := match p.pend with
      | none => { first := g, run := g, runAt := s.now, bounces := 0 }
      | some d =>
        if level = p.accepted then { d with runAt := s.now, bounces := d.bounces + 1 }
        else { d with run := g, runAt := s.now }
    if level ≠ p.accepted && pinLen p.ctrl = 0 then .next (s1.pinAccept n d)
    else .next (s1.setPin n { p with pend := some d })

/-- EVT_FILTER_DONE (R77, R79): the level has held for the filter length; the change is accepted or abandoned. -/
def execEvtFilterDone (pin : Fin 16) (s : State) : Out :=
  let n := pin.val
  let p := s.pin n
  match p.pend with
  | none => .next s
  | some d =>
    if !s.up || s.now < d.runAt + pinLen p.ctrl then .next s
    else if p.raw ≠ p.accepted then .next (s.pinAccept n d)
    else .next (s.setPin n { p with pend := none, excursions := satInc p.excursions 65535,
                                    excSince := satInc p.excSince 65535 })

/-- A write of TIM_EVT_CTRLn (R80, R89). -/
def State.pinCtrl (s : State) (n : Nat) (v : Word) : State :=
  if fld v 16 15 = 3 then s
  else
    let p := s.pin n
    s.setPin n { p with ctrl := v, accepted := p.raw, pend := none }

/-- EVT_CTRL_WRITE (R80). -/
def execEvtCtrlWrite (pin : Fin 16) (value : BitVec 32) (s : State) : Out :=
  if s.up then .next (s.pinCtrl pin.val value) else .next s

/-- TIM_EVT_STATn, whose read clears EXCURSIONS. -/
def State.pinStat (s : State) (n : Nat) : Word × State :=
  let p := s.pin n
  (bf 0 0 (b2n p.accepted) ||| bf 1 1 (b2n p.raw) ||| bf 7 2 (s.pinQueue n) ||| bf 8 8 (b2n p.overflow) |||
   bf 31 16 p.excursions, s.setPin n { p with excursions := 0 })

/-! ### The store and the release order (R83 to R85) -/

def dvStore : Nat := 8192
def dvRefuse : Nat := 6144

/-- Class 0, and the tamper, power and clock sources (R83). -/
def dvReserved (e : DvEv) : Bool := e.cls == 0 || (1 ≤ e.src && e.src ≤ 3)

/-- The window W in units (R83). -/
def State.dvWindow (s : State) : Nat := (s.dv.window.toNat + 1) * 1000 * 65536

/-- The release horizon in units (R83, R85). -/
def State.horizon (s : State) : Int :=
  let h : Int := (s.units : Int) - s.dvWindow
  if dvStore ≤ s.dv.store.length then h
  else s.dv.pins.foldl (fun h e => match e.2.pend with
    | some d => min h (gtsUnits (pinStamp e.2.ctrl d) : Int)
    | none => h) h

/-- Event a comes before event b (R27): time, then source. -/
def dvBefore (a b : DvEv) : Bool :=
  gtsTime a.gts < gtsTime b.gts || (gtsTime a.gts = gtsTime b.gts && a.src < b.src)

/-- An event of a self-timed island waits for those of a lower AO sequence number, whatever its arrival stamp (R28). -/
def dvBlocked (l : List DvEv) (e : DvEv) : Bool := e.aoseq.any fun a => l.any fun x => x.aoseq.any fun b => b < a

/-- The number of the first of the entries that `ok` admits, in the order of R27; equal ones stand in their order of
arrival. -/
def dvFirst (ok : DvEv → Bool) : Nat → Option (Nat × DvEv) → List DvEv → Option (Nat × DvEv)
  | _, best, [] => best
  | i, none, e :: t => dvFirst ok (i + 1) (if ok e then some (i, e) else none) t
  | i, some b, e :: t => dvFirst ok (i + 1) (if ok e && dvBefore e b.2 then some (i, e) else some b) t

/-- The entry of the store that leaves it next. -/
def State.dvHead (s : State) : Option (Nat × DvEv) := dvFirst (fun e => !dvBlocked s.dv.store e) 0 none s.dv.store

/-- An event goes to the archive's intake and, with NOTIFY, to its event queue. -/
def State.dvOut (s : State) (e : DvEv) (late : Bool) : State :=
  let flags := (if late then fLate else 0) ||| (if e.jig then fJig else 0) |||
               (if e.aoseq.isSome then fAo else 0)
  let r : Rec := { typ := e.typ, src := e.src, cls := e.cls, flags := flags, gts := e.gts,
                   aoseq := e.aoseq.getD 0, body := e.body }
  let ev : List EvEnt := match e.qpn with
    | some q => [{ qpn := q, gts := e.gts, result := e.result }]
    | none => []
  let t := gtsTime e.gts
  let last := match s.dv.lastRel with
    | some l => max l t
    | none => t
  { s with arc := { s.arc with arrivals := s.arc.arrivals ++ [{ r := r }] }
           qps := { s.qps with events := s.qps.events ++ ev }
           dv := { s.dv with lastRel := some last, lateCount := if late then satInc s.dv.lateCount 65535 else s.dv.lateCount } }

/-- DOVETAIL_ARRIVAL (R84, R85): event `i` of those on their links, the first of its source. -/
def execDovetailArrival (i : Nat) (s : State) : Out :=
  match s.dv.inbox[i]? with
  | none => .next s
  | some e =>
    if !s.up || (s.dv.inbox.take i).any (·.src == e.src) || dvStore ≤ s.dv.store.length then .next s else
    let s1 := { s with dv := { s.dv with inbox := ldel s.dv.inbox i } }
    let isLate : Bool := match s.dv.lastRel with
      | some l => gtsTime e.gts < l
      | none => false
    if isLate then .next (s1.dvOut e true)
    else if dvReserved e || s.dv.store.length ≤ dvRefuse then
      .next { s1 with dv := { s1.dv with store := s1.dv.store ++ [e] } }
    else if 2 ≤ e.cls.toNat then
      .next (s1.gapDrop e.cls.toNat 2 1 (padded e.body.length) e.gts e.gts)
    else .next s

/-- DOVETAIL_RELEASE (R83): the first held event, once it lies below the horizon. -/
def execDovetailRelease (s : State) : Out :=
  match s.dvHead with
  | none => .next s
  | some (i, e) =>
    if !s.up || s.horizon ≤ (gtsUnits e.gts : Int) then .next s
    else .next ({ s with dv := { s.dv with store := ldel s.dv.store i } }.dvOut e false)

/-- Every held event is released in order (R73 step 1). -/
def State.dvFlush : Nat → State → State
  | 0, s => s
  | n + 1, s => match s.dvHead with
    | none => s
    | some (i, e) => State.dvFlush n ({ s with dv := { s.dv with store := ldel s.dv.store i } }.dvOut e false)

/-! ### Rebase (R72, R73) -/

/-- The next state of a meaning that always answers one. -/
def nextOr (s : State) : Out → State
  | .next t => t
  | _ => s

/-- What has reached the intake port is taken and sequenced as far as the archive's bounds let it, so that it stands
before the rebase record. -/
def State.drainIntake (s : State) : State :=
  let s := (upto s.arc.arrivals.length).foldl (fun s _ => nextOr s (execRecordIntake s)) s
  (upto s.arc.staged.length).foldl (fun s _ => nextOr s (execRecordSequence s)) s

/-- A rebase to a count of units (R72, R73). -/
def State.rebase (s : State) (u : Nat) : State :=
  if !s.clk.rootOk then s else
  let s := (State.dvFlush s.dv.store.length s).drainIntake
  let before := s.units
  let s := s.closeDrawer 8
  let s := s.setCounter u
  let s := { s with tim := { s.tim with backPend := false, loaded := true }, dv := { s.dv with lastRel := none } }
  let s := s.setQual 3
  let r : Rec := { typ := 0x0011, src := 0x006, cls := c0, gts := s.gts, body := Config.openBody 0x0011 [5, before, u]
                   flags := if s.jigOn then fJig else 0 }
  if s.arc.openDrawer.isSome then s.placeRec r .none else s.arrive r .none false

/-- TIM_CMD_REBASE (R73, R89): the value is TIM_LOAD's. -/
def execTimCmdRebase (s : State) : Out := if s.up then .next (s.rebase (gtsUnits s.tim.load)) else .next s

/-! ### Owner authorization (R501) -/

/-- The Auth of a request: its last 144 bytes. -/
def authOf (payload : Bytes) : Bytes := payload.drop (payload.length - 144)

/-- What an Auth signs. -/
def State.authMsg (s : State) (op : Nat) (payload : Bytes) : Bytes :=
  [0x47, 0x4C, 0x41, 0x55] ++ le 8 s.lc.serial.toNat ++ le 2 op ++ le 8 (leAt (authOf payload) 4 8) ++
    sha512 (payload.take (payload.length - 144))

/-- An Auth's signature is verified on an engine (R244). -/
def State.authRun (s : State) (op : Nat) (payload : Bytes) : State :=
  match s.lc.ownerKey with
  | some key => s.ranVerify key (s.authMsg op payload) (sub (authOf payload) 12 132)
  | none => s

/-- The Auth at the end of a request: none where it fails; otherwise its AUTH_SEQ is the last one accepted. -/
def State.ownerAuth (s : State) (op : Nat) (payload : Bytes) : Option State :=
  let a := authOf payload
  let sq := leAt a 4 8
  let msg := s.authMsg op payload
  match s.lc.ownerKey with
  | none => none
  | some key =>
    if leAt a 0 1 = 1 && leAt a 1 3 = 0 && s.lc.authSeq < sq && sigCheck key msg (sub a 12 132) then
      some { s with lc := { s.lc with authSeq := sq } }
    else none

/-- TIME_REBASE (R73, R90): answered with the GTS before and after. -/
def execTimeRebase (r : Req) (s : State) : Out := if s.verifyWaits then .next s else drinerNow 0x0207 r s fun s =>
  let s := s.authRun 0x0207 r.payload
  let g : Gts := BitVec.ofNat 96 (leAt r.payload 0 12)
  match s.ownerAuth 0x0207 r.payload with
  | none => (s, stAccess, [])
  | some s =>
    if 999999999 < gtsNsec g then (s, stRejected, [])
    else
      let before := s.gts
      let s := ({ s with tim := { s.tim with load := g } }).rebase (gtsUnits g)
      (s, stOk, le 12 before.toNat ++ le 12 s.gts.toNat)

/-! ### Event pins: commands and registers (R89, R90) -/

/-- EVT_CONFIG (R90). -/
def execEvtConfig (r : Req) (s : State) : Out := drinerNow 0x0209 r s fun s =>
  let n := leAt r.payload 0 1
  let v : Word := BitVec.ofNat 32 (leAt r.payload 1 4)
  let q := leAt r.payload 5 4
  if 15 < n || fld v 16 15 = 3 then (s, stRejected, [])
  else
    let named := (s.qw q).en && s.ownsQp 0 q
    if bit v 20 && !(named && (s.qw q).evq) then (s, stRejected, [])
    else
      let s := s.pinCtrl n v
      (s.setPin n { s.pin n with qpn := q }, stOk, [])

/-- EVT_READ (R90). -/
def execEvtRead (r : Req) (s : State) : Out := drinerNow 0x020A r s fun s =>
  let n := leAt r.payload 0 1
  if 15 < n then (s, stRejected, [])
  else
    let (w, s) := s.pinStat n
    (s, stOk, le 4 w.toNat)

/-- The whole time block as it reads (R89). -/
def State.timeRead (s : State) (port : Nat) : Word × State :=
  if 0x0520 ≤ port && port < 0x0540 then
    let n := (port - 0x0520) / 2
    if port % 2 = 0 then ((s.pin n).ctrl, s) else s.pinStat n
  else s.timRead port

/-- A write of the time block (R89). -/
def State.timeWrite (s : State) (port : Nat) (v : Word) : State :=
  if 0x0520 ≤ port && port < 0x0540 then
    let n := (port - 0x0520) / 2
    if port % 2 = 0 then s.pinCtrl n v
    else if bit v 8 then s.setPin n { s.pin n with overflow := false } else s
  else
    let s := s.timWrite port v
    if port = 0x050F && bit v 1 then s.rebase (gtsUnits s.tim.load) else s

end Sys2Proof.Machine
end

