-- ==== Sys2Proof/Machine/Host.lean ====
section
/-! DEFINITION. Sys2Proof/Machine/Host.lean: link start and training, host configuration writes, host resets and resets of
one function (R92, R108, R109, R111 to R113, R125). -/

namespace Sys2Proof.Machine

/-- Jobs in flight of the functions `ok` admits (R150, R155): those of the job table, and entries of runs fetched or being
fetched. -/
def State.flying (s : State) (fn : Nat) : Nat :=
  (s.qps.jobs.filter (·.fn == fn)).length +
  ((s.qps.run.filter fun e => (s.qw e.1).owner.toNat == fn).map fun e => (e.2.runs.map (·.count)).sum).sum

/-- The jobs in flight of some functions leave without a completion, each counted in its function's GLB_HOST_ERR.DROPPED_JOBS;
their appends not yet accepted by the archive are dropped with them (R111, R112). -/
def State.dropJobs (s : State) (ok : Nat → Bool) : State :=
  let js := s.qps.jobs.filter fun j => ok j.fn
  let s := each (upto 64) (fun fn s =>
    let f := s.fun_ fn
    if ok fn then s.setFun fn { f with dropped := min 65535 (f.dropped + s.flying fn) } else s) s
  let s := each js (fun j s => s.dropJob j) s
  let run := s.qps.run.map fun e => if ok (s.qw e.1).owner.toNat then (e.1, { e.2 with runs := [] }) else e
  let s : State := { s with qps := { s.qps with run := run.filter fun e => e.2 != {} } }
  let gone (a : Arrival) : Bool := match a.waiter with
    | .job id => js.any (·.id == id)
    | _ => false
  { s with arc := { s.arc with arrivals := s.arc.arrivals.filter fun a => !gone a } }

/-- The function keeps its range of queue pairs (R135); everything else of its block and configuration space is at its
reset value. -/
def State.resetFun (s : State) (fn : Nat) : State :=
  let f := s.fun_ fn
  let s := s.setFun fn { first := f.first, count := f.count }
  s.setFun fn { s.fun_ fn with seen := s.glbStatus fn }

def hostResetNum : HostResetCause → Nat
  | .perst => 1 | .hotReset => 2 | .linkDown => 3 | .flrPf0 => 4

/-- What a host reset does (R111), without its record. An FLR leaves the link up. -/
def State.hostResetBody (s : State) (linkStays : Bool) : State :=
  let p := s.pci
  let p' : Pci := { up := linkStays && p.up, speed := if linkStays then p.speed else 0,
                    width := if linkStays then p.width else 0, fns := p.fns, nextId := p.nextId, wire := p.wire,
                    credit := if linkStays then p.credit else {}, aer := p.aer, uieHalt := p.uieHalt, beatAt := p.beatAt }
  let s := ({ s with pci := p' } : State).ptmAbandon
  let s := each (upto 64) (fun fn s => s.resetFun fn) s
  let s := s.dropJobs fun _ => true
  let words := tmap {} (fun _ w => { w with en := false, pinned := false, destroying := false }) s.qps.words
  let s := { s with qps := { s.qps with words := words, cache := [], lru := [], run := [], table := none, c0Order := [] } }
  each (upto 64) (fun fn s => s.flushFn fn) s

/-- A host reset, with its record under source 0x020 (R111). -/
def State.hostReset (s : State) (cause : HostResetCause) : State :=
  (s.hostResetBody (cause == .flrPf0)).hostRec 0 [2, hostResetNum cause]

/-- HOST_RESET (R111). -/
def execHostReset (cause : HostResetCause) (s : State) : Out :=
  let needsLink : Bool := cause != .perst
  let s := if cause = .perst then { s with pwr := { s.pwr with perstN := false } } else s
  if !s.up || (needsLink && !s.pci.up) then .next s
  else .next ((s.hostReset cause).fwReadies)

/-- Reads of a function are given up: their tags are free, and a context read that PF0 may no longer make fails (R112,
R144). -/
def State.giveUpReads (s : State) (fn : Nat) : State :=
  let mine := (s.pci.tags.map (·.2) ++ s.pci.waitTag).filter (·.fn == fn)
  let tags := s.pci.tags.filter fun e => e.2.fn != fn
  let waitTag := s.pci.waitTag.filter fun h => h.fn != fn
  let s := { s with pci := { s.pci with tags := tags, waitTag := waitTag } }
  let s := each mine (fun h s => match h.why with
    | .context q => (s.ctxFail q 3).answerQueries q
    | .sweep q => if (s.qw q).en then s.ctxFail q 3 else s
    | _ => s) s
  each mine (fun h s => s.retryTags h.c0) s

/-- One function stops (R112, R125): no request of it leaves any more, its jobs are dropped, its queue pairs disabled and
its channels emptied. -/
def State.stopFn (s : State) (fn : Nat) : State :=
  let keep (t : Tlp) : Bool := t.fn != fn || t.kind == .completion
  let s := { s with pci := { s.pci with prio := s.pci.prio.filter keep, gen := s.pci.gen.filter keep } }
  let s := (s.dropJobs fun n => n == fn).creditWait
  let s := if fn = 0 then s.ptmAbandon else s
  let qs := (s.qps.words.filter fun e => e.2.en && e.2.owner.toNat == fn).map (·.1)
  let s := each qs (fun q s =>
    let w := s.qw q
    ((s.uncache q).setQrun q {}).setQw q { w with en := false, pinned := false, destroying := false }) s
  let s := { s with qps := { s.qps with c0Order := s.qps.c0Order.filter fun q => !qs.contains q } }
  (s.giveUpReads fn).flushFn fn

/-- A VF FLR, or the same by a clear of VF Enable (R112, R131). -/
def State.flrVf (s : State) (fn : Nat) : State := (s.resetFun fn).stopFn fn

/-- Bus Master Enable is cleared. -/
def State.busMasterClear (s : State) (fn : Nat) : State :=
  let f := s.fun_ fn
  if !f.bme then s else (s.setFun fn { f with bme := false }).stopFn fn

/-- The function moves to D3hot. -/
def State.toD3 (s : State) (fn : Nat) : State :=
  let f := s.fun_ fn
  if f.d3hot then s else (s.setFun fn { f with d3hot := true }).stopFn fn

/-- FUNCTION_RESET (R112); an FLR of PF0 is a host reset (R111). -/
def execFunctionReset (fn : Fin 64) (cause : FnResetCause) (s : State) : Out :=
  if !(s.up && s.pci.up && s.fnEnabled fn.val) then .next s else
  match cause with
  | .flr => if fn.val = 0 then .next (s.hostReset .flrPf0).fwReadies else .next (s.flrVf fn.val).fwReadies
  | .vfDisable => if fn.val = 0 then .next s else .next (s.flrVf fn.val)
  | .busMasterClear => .next (s.busMasterClear fn.val)
  | .d3hot => .next (s.toD3 fn.val)

/-- The link meets or misses the class-0 floor (R34, R108). -/
def State.linkFloor (s : State) : State := s.setCause 2 (!linkOk s.pci.speed s.pci.width) s.pci.width

def rateOk (speed width : Nat) : Bool := 1 ≤ speed && speed ≤ 4 && [1, 2, 4, 8, 16].contains width

/-- LINK_UP (R113): after PERST_N is high and ROOT_OK has come. -/
def execLinkUp (speed width : Nat) (s : State) : Out :=
  if !(s.up && s.clk.rootOk) || s.pci.up || !rateOk speed width then .next s
  else
    let s := { s with pci := { s.pci with up := true, speed := speed, width := width },
                      pwr := { s.pwr with perstN := true } }
    .next s.linkFloor.fwReadies

/-- LINK_RETRAIN (R108): the link passes through Recovery, which abandons a PTM dialog under way (R109). -/
def execLinkRetrain (speed width : Nat) (s : State) : Out :=
  if !(s.up && s.pci.up) || !rateOk speed width then .next s
  else
    let s := if s.loop.ptmT1.isSome then s.ptmAbandon else s
    .next ({ s with pci := { s.pci with speed := speed, width := width } } : State).linkFloor

/-- A write of one control of configuration space. A payload or read size that the endpoint does not support, and a count
of VFs above 63 or one written while VF Enable stands, change nothing. -/
def State.config (s : State) : Cfg → State
  | .maxPayload b => if [128, 256, 512].contains b then { s with pci := { s.pci with maxPayload := b } } else s
  | .maxRead b =>
    if [128, 256, 512, 1024, 2048, 4096].contains b then { s with pci := { s.pci with maxRead := b } } else s
  | .tag10 on => each s.pci.waitTag (fun h s => s.retryTags h.c0) ({ s with pci := { s.pci with tag10 := on } } : State)
  | .ptmEnable on =>
    let s := if on then s else s.ptmAbandon
    { s with pci := { s.pci with ptmEn := on } }
  | .relaxed on => { s with pci := { s.pci with relaxed := on } }
  | .cplTimeout v d => { s with pci := { s.pci with ctv := v, ctDisable := d } }
  | .ecrc g c => { s with pci := { s.pci with ecrcGen := g, ecrcChk := c } }
  | .vfEnable on n =>
    if !on then
      let s := if s.pci.vfEnable then each ((upto s.pci.numVFs).map (· + 1)) (fun fn s => s.flrVf fn) s else s
      let num := if s.pci.vfEnable || 63 < n then s.pci.numVFs else n
      { s with pci := { s.pci with vfEnable := false, numVFs := num } }
    else if s.pci.vfEnable || 63 < n then s
    else
      let s : State := { s with pci := { s.pci with vfEnable := true, numVFs := n } }
      let see (fn : Nat) (s : State) : State := s.setFun fn { s.fun_ fn with seen := s.glbStatus fn }
      (each ((upto n).map (· + 1)) see s).fwReadies
  | .busMaster fn on =>
    if !s.fnEnabled fn.val then s
    else if on then s.setFun fn.val { s.fun_ fn.val with bme := true }
    else s.busMasterClear fn.val
  | .d3hot fn on =>
    if !s.fnEnabled fn.val then s
    else if on then s.toD3 fn.val
    else s.setFun fn.val { s.fun_ fn.val with d3hot := false }
  | .fnMask fn on =>
    if !s.fnEnabled fn.val then s
    else (s.setFun fn.val { s.fun_ fn.val with fnMask := on }).unmaskFn fn.val
  | .msixEnable fn on =>
    if !s.fnEnabled fn.val then s
    else (s.setFun fn.val { s.fun_ fn.val with msixEn := on }).unmaskFn fn.val
  | .bar n v => { s with pci := { s.pci with bars := tset 0 s.pci.bars n.val v } }
  | .vfBar n v => { s with pci := { s.pci with vfBars := tset 0 s.pci.vfBars n.val v } }
  | .severity e fatal =>
    let l := s.pci.sevSet.filter (· != e)
    let changed := (aerSeverity e = 1 && fatal) || (aerSeverity e = 2 && !fatal)
    { s with pci := { s.pci with sevSet := if changed then l ++ [e] else l } }
  | .margin l v => { s with pci := { s.pci with margin := tset 0 s.pci.margin l.val v } }

/-- CONFIG_WRITE (R92, R113): served while the link is up. -/
def execConfigWrite (c : Cfg) (s : State) : Out := if s.up && s.pci.up then .next (s.config c) else .next s

end Sys2Proof.Machine
end

