-- ==== Sys2Proof/Machine/Journal.lean ====
section
/-! DEFINITION. Sys2Proof/Machine/Journal.lean: the seal journal of sectors 2,046 and 2,047 (R469 to R473), and the end of a
Clasp session (R443, R465, R477). -/

namespace Sys2Proof.Machine

/-! ### Entries (R469, R470) -/

/-- The byte address of entry `i`. -/
def jrnAddr (i : Nat) : Nat := 0x7FE0000 + 256 * i

/-- The 256 bytes of an entry as stored. -/
def jrnBytes (f : Fls) (i : Nat) : Bytes := flBytes f (jrnAddr i) 256

/-- STATUS of an entry. -/
def jrnStatus (f : Fls) (i : Nat) : Word := BitVec.ofNat 32 (ofLe (flBytes f (jrnAddr i) 4))

/-- The sector of an entry stands ERASE_INCOMPLETE (R475). -/
def jrnLost (f : Fls) (i : Nat) : Bool := f.incomplete.contains (physSector f (2046 + i / 256))

/-- 0 free, 1 valid, 2 torn. -/
def jrnState (f : Fls) (i : Nat) : Nat :=
  let w := jrnStatus f i
  let c := flCount f (jrnAddr i)
  if jrnLost f i then 2
  else if w = 0xFFFFFFFF && c = 3 then 0
  else if fld w 3 0 = 0 && fld w 31 28 = 0 && c = 0 then 1
  else 2

/-- The newest entry and its JSEQ: the highest JSEQ among entries whose INTENT reads 0. -/
def jrnNewest (f : Fls) : Option (Nat × Nat) :=
  (upto 512).foldl (fun best i =>
    let w := jrnStatus f i
    if fld w 3 0 ≠ 0 || jrnLost f i then best
    else match best with
      | some (_, j) => if j < fld w 27 4 then some (i, fld w 27 4) else best
      | none => some (i, fld w 27 4)) none

/-- The entry that the next MARK takes, in ring order after the newest. -/
def jrnNext (f : Fls) : Option Nat :=
  let start := match jrnNewest f with
    | some (i, _) => i + 1
    | none => 0
  ((upto 512).map fun k => (start + k) % 512).find? fun i => jrnState f i == 0

/-- Entries in a state. -/
def jrnCount (f : Fls) (st : Nat) : Nat := ((upto 512).filter fun i => jrnState f i == st).length

/-- The JSEQ of the next entry; none when it would pass 24 bits. -/
def jrnSeq (f : Fls) : Option Nat :=
  match jrnNewest f with
  | some (_, j) => if j < 0xFFFFFF then some (j + 1) else none
  | none => some 0

/-- The journal key's MAC over an entry's bytes 0x04 to 0xEF. -/
def State.jrnMac (s : State) (i : Nat) (e : Bytes) : Bytes :=
  cmac (be 32 s.lc.journalKey.toNat) (le 8 s.lc.serial.toNat ++ le 2 i ++ sub e 4 0xEC)

/-- Program `k` of the 65 that write an entry (R471): INTENT, words 1 to 63, COMMIT; `spare`: bits it does not reach (R472). -/
def jrnProgram (f : Fls) (m : MarkOp) (k : Nat) (spare : Nat := 0) : Fls :=
  let w := if k = 0 then 0xF0000000 + m.jseq * 16 else if k = 64 then m.jseq * 16 else leAt m.entry (4 * k) 4
  let a := jrnAddr m.index + (if k = 64 then 0 else 4 * k)
  flPut (flCountDown f a) a (le 4 (w ||| spare))

def State.clEvent (s : State) (b : Nat) : State := { s with cl := { s.cl with events := setBit s.cl.events b true } }

/-- The programs of the MARK under way are carried on until `n` of them are made. -/
def State.markTo (s : State) (n : Nat) : State :=
  match s.cl.mark with
  | none => s
  | some m =>
    let f := (upto (n - m.made)).foldl (fun f k => jrnProgram f m (m.made + k)) s.fls
    { s with fls := f, cl := { s.cl with mark := some { m with made := max m.made n } } }

/-- The power for an entry under way is gone (R472): the program that runs is torn, its count cleared and its word a mix of
old and new; the entry stays as it is. -/
def State.tearMark (s : State) : State :=
  match s.cl.mark with
  | none => s
  | some m =>
    let s : State := { s with cl := { s.cl with mark := none } }
    if !m.begun || 65 ≤ m.made then s else
    let (w, s) := s.freeVal 32
    { s with fls := jrnProgram s.fls m m.made w }

/-- The body of a custody-mark record of a valid entry (R474): index, MAC_BAD, the entry. -/
def State.markBody (s : State) (i : Nat) : Bytes :=
  let e := jrnBytes s.fls i
  le 2 i ++ le 2 (b2n (s.jrnMac i e != sub e 0xF0 16)) ++ e

/-- The record of an entry written in MAIN, with the GTS of the entry (R474). -/
def State.markMain (s : State) (i : Nat) : State :=
  let e := jrnBytes s.fls i
  s.arrive { typ := 0x0040, src := 5, cls := c0, flags := fAo, gts := BitVec.ofNat 96 (leAt e 0x18 12), aoseq := leAt e 0x14 4,
             body := s.markBody i } .none false

/-- The record of a mark as it is written in MAIN: an event of the Locket engine on its way to Dovetail, in the order of its AO
sequence number (R28, R474). -/
def State.markEvent (s : State) (i : Nat) : State :=
  let e := jrnBytes s.fls i
  s.post { typ := 0x0040, src := 5, cls := c0, gts := BitVec.ofNat 96 (leAt e 0x18 12), aoseq := some (leAt e 0x14 4),
           body := s.markBody i }

/-- A mark has committed: CL_EVENTS.MARK, and its record at once in MAIN (R474). -/
def State.markCommitted (s : State) (m : MarkOp) : State :=
  let s := s.clEvent 5
  let s := if m.paused then s.flUnpause else s
  if s.up && s.lc.fw = .running then
    let s := s.markEvent m.index
    { s with cl := { s.cl with atOnce := some (s.cl.atOnce.getD m.jseq) } }
  else s

/-- An entry whose INTENT has begun is completed (R443, R477); one that has not leaves nothing written. -/
def State.finishMark (s : State) : State :=
  match s.cl.mark with
  | none => s
  | some m =>
    let s := if m.begun then (s.markTo 65).markCommitted m else s
    { s with cl := { s.cl with mark := none } }

/-! ### The end of a session -/

/-- A Clasp exchange leaves no state (R465). -/
def State.dropClasp (s : State) : State :=
  let open_ : Bool := match s.cl.clasp with
    | some c => c.isOpen
    | none => false
  let s := { s with cl := { s.cl with clasp := none, wtx := false, toSend := [], chain := [] } }
  if open_ then s.clEvent 3 else s

/-- The session ends once an entry being written has committed. -/
def State.endClasp (s : State) : State := s.finishMark.dropClasp

end Sys2Proof.Machine
end

