-- ==== Sys2Proof/Machine/LolanExc.lean ====
section
/-! DEFINITION. Sys2Proof/Machine/LolanExc.lean: taking a fault, an interrupt and an escalation on a Lolan core, and
returning from them (R368 to R397). -/

namespace Sys2Proof.Machine

/-- The most privileged level a core can reach (R369). -/
def ceiling (c : Nat) : Nat := if c ≤ 1 then 0 else 2

/-- The source number of a core identity (R25): its leading core's. -/
def coreSrc (c : Nat) : Nat := if c = 0 then 0x060 else if c = 1 then 0x062 else 0x062 + c

/-- A core fetches: module up, RUN (pair A from reset, pair B once stage 1 has released it: R482), not locked. -/
def State.coreRuns (s : State) (c : Nat) : Bool :=
  s.up && !(s.core c).lockup &&
  (if c = 0 then true else if c = 1 then s.lc.fw == .running else (s.core c).run)

/-! ### Shadow stacks (R383, R384) -/

/-- A record: kind 0 call, 1 exception, 2 system call. -/
def ssRec (pc : BitVec 24) (kind pl ml : Nat) (la : Bool) : SsRec :=
  { w0 := bf 23 0 pc.toNat ||| bf 25 24 kind ||| bf 27 26 pl ||| bf 31 28 ml, w1 := bf 0 0 (b2n la) }

def SsRec.pc (r : SsRec) : BitVec 24 := BitVec.ofNat 24 (fld r.w0 23 0)
def SsRec.kind (r : SsRec) : Nat := fld r.w0 25 24
def SsRec.pl (r : SsRec) : Nat := fld r.w0 27 26
def SsRec.ml (r : SsRec) : Nat := fld r.w0 31 28
def SsRec.la (r : SsRec) : Bool := bit r.w1 0

/-- The stack of a level, the top first, and its spilled count. -/
def Core.stack (c : Core) (l : Nat) : List SsRec := tget [] c.ss l
def Core.spills (c : Core) (l : Nat) : Nat := tget 0 c.spilled l
def Core.setStack (c : Core) (l : Nat) (k : List SsRec) : Core := { c with ss := tset [] c.ss l k }

/-- The stack that CALL and RET use: of the current level, or the escalation stack of 32 while escalation is active
(R395). -/
def Core.callStack (c : Core) : List SsRec := if c.escActive then c.escSs else c.stack c.pl
def Core.callDepth (c : Core) : Nat := if c.escActive then 32 else 256
def Core.setCallStack (c : Core) (k : List SsRec) : Core :=
  if c.escActive then { c with escSs := k } else c.setStack c.pl k

/-! ### Images of SR -/

/-- SR with level, mask level, LA; DS reads 0 in the live SR. -/
def srMode (sr : Word) (pl ml : Nat) (la : Bool) : Word :=
  setBit (setBit (setFld (setFld sr 13 12 pl) 11 8 ml) srLA la) srDS false

/-- SR as saved: DS set when the fault struck a delay slot (R328, R380). -/
def Core.savedSr (c : Core) : Word := setBit c.sr srDS c.slot.isSome

/-- Where a fault resumes: the branch when it struck a delay slot (R379, R380). -/
def Core.resumePc (c : Core) : BitVec 24 :=
  match c.slot with
  | some t => t.branch
  | none => c.pc

/-- The CAUSE word of a frame (R375). -/
def Flt.causeWord (f : Flt) : Word :=
  bf 5 0 f.vec ||| bf 7 6 f.space ||| bf 9 8 f.access ||| bf 10 10 f.part ||| bf 11 11 f.ssCause |||
  bf 13 12 f.ssLevel ||| bf 14 14 (b2n f.poison)

/-- The 32 bytes of a frame (R375). -/
def frameBytes (savedPc : BitVec 24) (savedSr prevSp : Word) (f : Flt) (faultPc : BitVec 24) (lc : Word) : Bytes :=
  le 4 savedPc.toNat ++ le 4 savedSr.toNat ++ le 4 prevSp.toNat ++ le 4 f.causeWord.toNat ++ le 4 faultPc.toNat ++
  le 4 f.addr.toNat ++ le 4 lc.toNat ++ le 4 0

/-! ### Lockup and escalation (R394 to R397) -/

/-- The core locks (R397): it stops fetching and raises the core-lockup source, the core's MID in its detail. -/
def State.lockCore (s : State) (c : Nat) : State :=
  (s.setCore c { s.core c with lockup := true, slot := none }).raise srcLockup 0 (coreMid c)

/-- Escalation (R395): causes 1 entry, 2 masked, 3 return integrity, 4 disagreement. While escalation is active, and
without a valid handler address, the core locks instead (R397). -/
def State.escalate (s : State) (c cause : Nat) (f : Flt) : State :=
  let k := s.core c
  if k.escActive || !k.hndlValid then s.lockCore c
  else
    let m := s.cmem c
    let g15 := tget 0 k.g 15
    let frame := frameBytes k.resumePc k.savedSr g15 f k.pc k.lc
    let s := s.setCmem c { m with esc := mwrite m.esc 0xFE0 frame }
    s.setCore c { k with
      escPc := k.resumePc, escSr := k.savedSr, escSp := g15, escResume := k.resumePc, escClear := false
      escActive := true, escCause := BitVec.ofNat 3 cause
      escVector := if cause = 3 then 0 else BitVec.ofNat 6 f.vec
      escLevel := BitVec.ofNat 2 k.pl
      escCount := satInc k.escCount 255, escSs := [], rsv := none, slot := none, waiting := false
      g := tset 0 k.g 15 0x1FFE0
      sr := srMode k.sr (ceiling c) 15 false
      pc := k.hndl }

/-! ### Entry through the descriptor table (R372 to R374) -/

/-- The violation of a fault is recorded in the core's MPU (R403). -/
def State.recordFlt (s : State) (c : Nat) (f : Flt) : State :=
  match f.viol with
  | some v => s.mpuRecord c (coreMid c) v
  | none => s

/-- A descriptor (R373). -/
structure Desc where
  handler : BitVec 24
  sp : Word
  target : Nat
  newMl : Nat
  faultLevel : Nat
  ok : Bool

/-- A descriptor from its 16 bytes: in use, and its reserved bits 0. -/
def descOf (b : Bytes) : Desc :=
  let w0 := leAt b 0 4
  let w2 : Word := BitVec.ofNat 32 (leAt b 8 4)
  { handler := BitVec.ofNat 24 w0, sp := BitVec.ofNat 32 (leAt b 4 4), target := fld w2 1 0, newMl := fld w2 5 2,
    faultLevel := fld w2 9 6, ok := bit w2 10 && w0 < 2 ^ 24 && fld w2 31 11 = 0 && leAt b 12 4 = 0 }

/-- The 16 bytes of a vector's descriptor, read at the ceiling level (R372, R374, R401). -/
def State.readDesc (s : State) (c v : Nat) : Acc Bytes := s.loadWords c (ceiling c) ((s.core c).edtb.toNat + 16 * v) 4

/-- Entry of a fault or of an interrupt (R374): `irq` is the interrupt's level. A descriptor that the code flash holds
(R302) leaves the core at its boundary. -/
def State.enter (s : State) (c : Nat) (f : Flt) (irq : Option Nat) : State :=
  let k := s.core c
  let l := k.pl
  match s.readDesc c f.vec with
  | .wait => s
  | .flt e s => (s.recordFlt c e).escalate c 1 f
  | .ok b s =>
    let d := descOf b
    if !d.ok || d.target < ceiling c then s.escalate c 1 f
    else if irq.isNone && d.faultLevel ≤ k.ml then s.escalate c 2 f
    else
      let e := min d.target l
      if f.vec = vShadow && f.ssLevel ≤ e then s.escalate c 1 f
      else
        let g15 := tget 0 k.g 15
        let frame := (if e = l then g15 else d.sp) - 32
        if frame.toNat % 8 ≠ 0 then s.escalate c 1 f
        else if 256 ≤ (k.stack e).length then s.escalate c 1 f
        else match s.frameFlt c e frame.toNat with
          | some w => ((s.flashRefused c w).recordFlt c w).escalate c 1 f
          | none =>
            let s := s.storeParts c (frameParts frame.toNat) (frameBytes k.resumePc k.savedSr g15 f k.pc k.lc)
            let ml' := match irq with
              | some n => max d.newMl n
              | none => d.newMl
            s.setCore c ({ k with
              g := tset 0 k.g 15 frame, pc := d.handler, sr := srMode k.sr e ml' false
              rsv := none, slot := none, waiting := false
              irqPend := match irq with
                | some n => setBit k.irqPend n false
                | none => k.irqPend }.setStack e (ssRec k.resumePc 1 l k.ml k.la :: k.stack e))

/-- The code flash holds the descriptor of a fault (R302): the fault is met again at the next try. -/
def State.descHeld (s : State) (c v : Nat) : Bool :=
  match s.readDesc c v with
  | .wait => true
  | _ => false

/-- A fault is taken (R374, R378, R397): its violation is recorded; during escalation the core locks. A tenant's last
fault and their count are kept for TP_STATUS. -/
def State.takeFault (s : State) (c : Nat) (f : Flt) : State :=
  if !(s.core c).escActive && s.descHeld c f.vec then s else
  let s := s.recordFlt c f
  let x := s.tenant (c - 2)
  let s := if 2 ≤ c then s.setTenant (c - 2) { x with lastFault := f.vec, faults := satInc x.faults 0xFFFFFFFF } else s
  if (s.core c).escActive then s.lockCore c else s.enter c f none

/-! ### Interrupts (R376, R377) -/

/-- The level of the interrupt a core takes at its next boundary, if any: the highest pending above ML, not in a delay
slot and not during escalation. -/
def Core.dueIrq (k : Core) : Option Nat :=
  if k.escActive || k.slot.isSome then none
  else (upto 16).reverse.find? fun n => 0 < n && bit k.irqPend n && k.ml < n

/-- A fetch or an encoding fault is due at the core's boundary: it is taken before an interrupt (R377). -/
def State.faultDue (s : State) (c : Nat) : Bool :=
  !(s.core c).waiting && match s.insAt c (s.core c).pc.toNat with
    | .error _ => true
    | .ok _ => false

/-- INTERRUPT_ENTRY (R376, R377, R381): through vector 32 + n; the pending bit clears on entry. -/
def execInterruptEntry (c : Fin 14) (s : State) : Out :=
  if !s.coreRuns c.val || s.faultDue c.val then .next s else
  match (s.core c.val).dueIrq with
  | none => .next s
  | some n => .next (s.enter c.val { vec := 32 + n } (some n))

/-! ### Returning (R387 to R393, R396) -/


/-- The two decisions of a return (R389): both pass, both fail, or they disagree. The delay between them is drawn from the
harvest, and is the longest when it is exhausted; until the harvest gives the byte, the core waits with its return (R525). -/
def State.twice (s : State) (c : Nat) (first upset : Bool) (ok : State → State) : State :=
  if !s.nh.exhausted && !s.canDraw 1 8 then s.ask 1 8 else
  let s := if s.nh.exhausted then s else (s.draw 1 8).2
  let second := first != upset
  if first && second then ok s
  else if first != second then
    let s := s.disagree 7
    if (s.core c).escActive then s.lockCore c else s.escalate c 4 { vec := 0 }
  else s.escalate c 3 { vec := 0 }

/-- The words of a frame that a return reads: SAVED_PC, SAVED_SR and PREV_SP (R388), and LC, which R381 restores as saved
(log entry 92). -/
def State.frameWords (s : State) (c a : Nat) : Acc Bytes :=
  let l := (s.core c).pl
  match s.loadWords c l a 3 with
  | .flt f s => .flt f s
  | .wait => .wait
  | .ok b s =>
    match s.loadWords c l (a + 0x18) 1 with
    | .flt f s => .flt f s
    | .wait => .wait
    | .ok t s => .ok (b ++ t) s

/-- A return from a frame (R381, R388). -/
def State.returnFrame (s : State) (c : Nat) (r : SsRec) (rest : List SsRec) (upset : Bool) : State :=
  let k := s.core c
  match s.frameWords c (tget 0 k.g 15).toNat with
  | .flt f s => (s.recordFlt c f).escalate c 3 { vec := 0 }
  | .wait => s
  | .ok b s =>
    let pc := leAt b 0 4
    let sr : Word := BitVec.ofNat 32 (leAt b 4 4)
    let sp : Word := BitVec.ofNat 32 (leAt b 8 4)
    let pass := pc = r.pc.toNat && r.pl ≤ fld sr 13 12 && ceiling c ≤ fld sr 13 12
    s.twice c pass upset fun s =>
      let k := s.core c
      s.setCore c ({ k with
        sr := srMode (sr &&& 0x3FFF) (fld sr 13 12) (fld sr 11 8) r.la, lc := BitVec.ofNat 32 (leAt b 12 4)
        g := tset 0 k.g 15 sp, pc := BitVec.ofNat 24 pc, rsv := none }.setStack k.pl rest)

/-- A return from a system call (R393). -/
def State.returnCall (s : State) (c : Nat) (r : SsRec) (rest : List SsRec) (upset : Bool) : State :=
  let k := s.core c
  let l := k.pl
  s.twice c (k.lk = r.pc && ceiling c ≤ r.pl) upset fun s =>
    let k := s.core c
    s.setCore c ({ k with sr := srMode k.sr r.pl r.ml r.la, pc := k.lk, rsv := none }.setStack l rest)

/-- A return from escalation (R396): with CLEAR_SS, the stacks of the saved level and below are emptied first. -/
def State.returnEsc (s : State) (c : Nat) (upset : Bool) : State :=
  let k := s.core c
  let l := fld k.escSr 13 12
  s.twice c (k.escLevel.toNat ≤ l) upset fun s =>
    let k := s.core c
    let k := if k.escClear then
        { k with ss := k.ss.filter (·.1 < l), spilled := k.spilled.filter (·.1 < l) } else k
    s.setCore c { k with
      sr := srMode (k.escSr &&& 0x3FFF) l (fld k.escSr 11 8) (bit k.escSr srLA)
      g := tset 0 k.g 15 k.escSp, pc := k.escResume, escActive := false, rsv := none }

/-- RETX's effect (R387, R396). -/
def State.retx (s : State) (c : Nat) (upset : Bool) : State :=
  let k := s.core c
  if k.escActive then s.returnEsc c upset
  else
    let l := k.pl
    match k.stack l with
    | r :: rest =>
      if r.kind = 1 then s.returnFrame c r rest upset
      else if r.kind = 2 then s.returnCall c r rest upset
      else s.escalate c 3 { vec := 0 }
    | [] =>
      if 0 < k.spills l then s.takeFault c { vec := vShadow, ssCause := 1, ssLevel := l }
      else s.escalate c 3 { vec := 0 }

/-- A fast system call through SCEn (R391, R392). -/
def State.sysCall (s : State) (c n len : Nat) : State :=
  let k := s.core c
  let e := match n with
    | 0 => k.sce0 | 1 => k.sce1 | 2 => k.sce2 | _ => k.sce3
  let t := fld e 25 24
  let l := k.pl
  if !bit e 31 || (l = 3 && !bit e 30) || l < t || t < ceiling c then s.takeFault c { vec := vPrivilege }
  else if 256 ≤ (k.stack t).length then s.takeFault c { vec := vShadow, ssCause := 0, ssLevel := t }
  else
    let ret := k.pc + BitVec.ofNat 24 len
    s.setCore c ({ k with
      lk := ret, sr := srMode k.sr t (fld e 29 26) false, pc := BitVec.ofNat 24 (fld e 23 0)
      }.setStack t (ssRec ret 2 l k.ml k.la :: k.stack t))

/-! ### The local block: spill, fill, redirect (R386, R390, R405) -/

/-- Spill (R386): the oldest record of the selected stack leaves it. None: the level is not allowed. -/
def State.spill (s : State) (c : Nat) : Option (Word × State) :=
  let k := s.core c
  let l := k.ssSel.toNat
  if l ≤ k.pl then none
  else match (k.stack l).getLast? with
    | none => some (0, s)
    | some r => some (r.w0, s.setCore c ({ k with
        spill1 := r.w1, spilled := tset 0 k.spilled l (satInc (k.spills l) 65535) }.setStack l (k.stack l).dropLast))

/-- Fill (R386): a record is inserted at the bottom of the selected stack; a full one discards it. -/
def State.fill (s : State) (c : Nat) (w0 : Word) : Option State :=
  let k := s.core c
  let l := k.ssSel.toNat
  if l ≤ k.pl then none
  else if 256 ≤ (k.stack l).length then some s
  else some (s.setCore c ({ k with spilled := tset 0 k.spilled l (k.spills l - 1) }.setStack l
    (k.stack l ++ [({ w0 := w0, w1 := k.spill1 } : SsRec)])))

/-- Redirect (R390): the PC of the top record of the current level's stack, an exception or system-call record. -/
def State.redirect (s : State) (c : Nat) (v : Word) : Option State :=
  let k := s.core c
  match k.stack k.pl with
  | r :: rest =>
    if r.kind = 1 || r.kind = 2 then
      some (s.setCore c (k.setStack k.pl ({ r with w0 := setFld r.w0 23 0 (fld v 23 0) } :: rest)))
    else none
  | [] => none

/-- The privilege fault of a port access (R371, R372). -/
def portFault (port access : Nat) : Flt := { vec := vPrivilege, addr := BitVec.ofNat 32 port, space := 2, access := access }

/-- SS_SPILL (R386): a read of GLB_SS_SPILL0 into gd; the privilege fault where the level is not allowed. -/
def execSsSpill (c : Fin 14) (d : Fin 16) (s : State) : Out :=
  if !s.coreRuns c.val then .next s else
  match s.spill c.val with
  | some (w, s) =>
    let k := s.core c.val
    .next (s.setCore c.val { k with g := tset 0 k.g d.val w })
  | none => .next (s.takeFault c.val (portFault 0x0104 0))

/-- SS_FILL (R386). -/
def execSsFill (c : Fin 14) (value : BitVec 32) (s : State) : Out :=
  if !s.coreRuns c.val then .next s else
  match s.fill c.val value with
  | some s => .next s
  | none => .next (s.takeFault c.val (portFault 0x0104 1))

/-- SS_REDIRECT (R390). -/
def execSsRedirect (c : Fin 14) (value : BitVec 32) (s : State) : Out :=
  if !s.coreRuns c.val then .next s else
  match s.redirect c.val value with
  | some s => .next s
  | none => .next (s.takeFault c.val (portFault 0x0106 1))

/-- Interrupt levels requested by software (R376). -/
def State.swset (s : State) (c : Nat) (v : Word) : State :=
  let k := s.core c
  s.setCore c { k with irqPend := k.irqPend ||| (v &&& 0xFFFE) }

/-- IRQ_SWSET (R376). -/
def execIrqSwset (c : Fin 14) (value : BitVec 32) (s : State) : Out :=
  if s.coreRuns c.val then .next (s.swset c.val value) else .next s

/-- A core's local block as it reads (R405): none where the level is not allowed. -/
def State.localRead (s : State) (c port : Nat) : Option (Word × State) :=
  let k := s.core c
  let l := k.pl
  if port ≤ 0x0106 then
    match port with
    | 0x0100 => some (k.irqPend, s)
    | 0x0102 => some (bf 1 0 k.ssSel.toNat, s)
    | 0x0103 =>
      let v := k.ssSel.toNat
      some (if v < l then 0 else bf 8 0 (k.stack v).length ||| bf 24 9 (k.spills v), s)
    | 0x0104 => s.spill c
    | 0x0105 => if k.ssSel.toNat ≤ l then none else some (k.spill1, s)
    | _ => some (0, s)
  else if port < 0x0108 then some (0, s)
  else if l ≠ ceiling c then none
  else match port with
    | 0x0108 => some (bf 0 0 (b2n k.escActive) ||| bf 3 1 k.escCause.toNat ||| bf 9 4 k.escVector.toNat |||
                      bf 11 10 k.escLevel.toNat, s)
    | 0x0109 => some (bf 23 0 k.escPc.toNat, s)
    | 0x010A => some (k.escSr, s)
    | 0x010B => some (bf 23 0 k.escResume.toNat ||| bf 31 31 (b2n k.escClear), s)
    | 0x010C => some (k.escSp, s)
    | _ => some (0, s)

/-- A write of a core's local block (R405): none where the level is not allowed. -/
def State.localWrite (s : State) (c port : Nat) (v : Word) : Option State :=
  let k := s.core c
  if port ≤ 0x0106 then
    match port with
    | 0x0100 => some (s.setCore c { k with irqPend := k.irqPend &&& ~~~ v })
    | 0x0101 => some (s.swset c v)
    | 0x0102 => some (s.setCore c { k with ssSel := BitVec.ofNat 2 v.toNat })
    | 0x0104 => s.fill c v
    | 0x0105 => if k.ssSel.toNat ≤ k.pl then none else some (s.setCore c { k with spill1 := v })
    | 0x0106 => s.redirect c v
    | _ => some s
  else if port < 0x0108 then some s
  else if k.pl ≠ ceiling c then none
  else match port with
    | 0x010B =>
      if k.escActive then
        some (s.setCore c { k with escResume := BitVec.ofNat 24 (fld v 23 0), escClear := bit v 31 })
      else some s
    | _ => some s

/-! ### The core control block (R399, R406) -/

/-- What GLB_CORE_SEL selects: a core, a DMA engine, or nothing. -/
def selUnit (sel : Nat) : Option (Nat ⊕ Nat) :=
  match midCore sel with
  | some c => some (.inl c)
  | none => if 0x60 ≤ sel && sel ≤ 0x67 then some (.inr (sel - 0x60)) else none

/-- RUN of a tenant core (R369, R406): 1 starts it at PL2, 0 stops it at the next boundary. HALT keeps it clear (R433). -/
def State.setRun (s : State) (c : Nat) (on : Bool) : State :=
  if c < 2 || (s.phys .tenantCore (c - 2)).isNone then s else
  let k := s.core c
  if on then
    if k.run || s.halted then s else s.setCore c { k with run := true, sr := setFld k.sr 13 12 2 }
  else s.setCore c { k with run := false }

/-- RESET of a tenant core (R406): registers, shadow stacks, reservation, escalation and lockup; RUN and ESC_LOCK clear;
EDTB, SCEn and GLB_ESC_PC are registers of the core and return to 0; SRAM and MPU are kept (log entry 24). -/
def State.resetCore (s : State) (c : Nat) : State := if c < 2 then s else s.setCore c {}

def State.setEscLock (s : State) (c : Nat) : State := s.setCore c { s.core c with escLock := true }

/-- CORE_RUN (R369, R406). -/
def execCoreRun (mid : Nat) (on : Bool) (s : State) : Out :=
  match s.up, midCore mid with
  | true, some c => .next (s.setRun c on)
  | _, _ => .next s

/-- CORE_RESET (R406). -/
def execCoreReset (mid : Nat) (s : State) : Out :=
  match s.up, midCore mid with
  | true, some c => .next (s.resetCore c)
  | _, _ => .next s

/-- ESC_LOCK (R406). -/
def execEscLock (mid : Nat) (s : State) : Out :=
  match s.up, midCore mid with
  | true, some c => .next (s.setEscLock c)
  | _, _ => .next s

/-- MPU number of a selected unit. -/
def unitMpu : Nat ⊕ Nat → Nat
  | .inl c => c
  | .inr e => 16 + e

/-- The core control block as it reads (R406); a read of GLB_CORE_CTRL clears ESC_COUNT. -/
def State.ctrlRead (s : State) (port : Nat) : Word × State :=
  if port = 0x0300 then (bf 7 0 s.lol.sel.toNat, s) else
  match selUnit s.lol.sel.toNat with
  | none => (0, s)
  | some u =>
    let m := s.mpu (unitMpu u)
    if 0x0310 ≤ port && port < 0x0330 then
      let r := (port - 0x0310) / 2
      if port % 2 = 0 then
        (tget 0 m.base r &&& ~~~ (BitVec.ofNat 32 (2 ^ (fld (tget attrReset m.attr r) 8 3) - 1)), s)
      else (tget attrReset m.attr r, s)
    else if port = 0x0330 then (m.violA, s)
    else if port = 0x0331 then (m.violB, s)
    else match u with
      | .inr _ => (if port = 0x0301 then bf 6 5 m.dmaPl.toNat else 0, s)
      | .inl c =>
        let k := s.core c
        match port with
        | 0x0301 => (bf 0 0 (b2n (c < 2 || k.run)) ||| bf 2 2 (b2n k.escLock) ||| bf 3 3 (b2n k.lockup) |||
                     bf 4 4 (b2n k.escActive) ||| bf 15 8 k.escCount, s.setCore c { k with escCount := 0 })
        | 0x0302 => (if c < 2 then 0 else k.edtb, s)
        | 0x0303 => (if c < 2 then 0 else k.sce0, s)
        | 0x0304 => (if c < 2 then 0 else k.sce1, s)
        | 0x0305 => (if c < 2 then 0 else k.sce2, s)
        | 0x0306 => (if c < 2 then 0 else k.sce3, s)
        | 0x0307 => (bf 23 0 k.hndl.toNat ||| bf 24 24 (b2n k.hndlValid), s)
        | _ => (0, s)

/-- A write of the core control block (R399, R406). -/
def State.ctrlWrite (s : State) (port : Nat) (v : Word) : State :=
  if port = 0x0300 then { s with lol := { s.lol with sel := BitVec.ofNat 8 v.toNat } } else
  match selUnit s.lol.sel.toNat with
  | none => s
  | some u =>
    let m := s.mpu (unitMpu u)
    if 0x0310 ≤ port && port < 0x0330 then
      let r := (port - 0x0310) / 2
      if port % 2 = 0 then s.setMpu (unitMpu u) { m with base := tset 0 m.base r v }
      else if fld v 8 3 < 5 || 32 < fld v 8 3 then s
      else s.setMpu (unitMpu u) { m with attr := tset attrReset m.attr r (v &&& 0x00FFF1FF) }
    else if port = 0x0330 then
      if bit v 31 then s.setMpu (unitMpu u) { m with violA := 0, violB := 0 } else s
    else match u with
      | .inr _ =>
        if port = 0x0301 then s.setMpu (unitMpu u) { m with dmaPl := BitVec.ofNat 2 (fld v 6 5) } else s
      | .inl c =>
        let k := s.core c
        let free := 2 ≤ c && !k.run
        match port with
        | 0x0301 =>
          if 2 ≤ c && bit v 1 then s.resetCore c
          else
            let s := if 2 ≤ c && bit v 0 ≠ k.run then s.setRun c (bit v 0) else s
            if bit v 2 then s.setEscLock c else s
        | 0x0302 => if free then s.setCore c { k with edtb := v &&& 0xFFFFFC00 } else s
        | 0x0303 => if free then s.setCore c { k with sce0 := v } else s
        | 0x0304 => if free then s.setCore c { k with sce1 := v } else s
        | 0x0305 => if free then s.setCore c { k with sce2 := v } else s
        | 0x0306 => if free then s.setCore c { k with sce3 := v } else s
        | 0x0307 =>
          if k.escLock then s
          else s.setCore c { k with hndl := BitVec.ofNat 24 (fld v 23 0), hndlValid := bit v 24 }
        | _ => s

end Sys2Proof.Machine
end

