-- ==== Sys2Proof/Machine/Noise.lean ====
section
/-! DEFINITION. Sys2Proof/Machine/Noise.lean: the noise harvest (chapter 10): cells and their health tests, the conditioner,
the order of consumers, software reads, the factory test pattern. -/

namespace Sys2Proof.Machine

/-! ### Health tests (R250) -/

/-- `n` raw bits of a cell in time order, bit 0 first. -/
def rawBits {w : Nat} (v : BitVec w) (n : Nat) : List Bool := (upto n).map fun i => v.getLsbD i

/-- The factory test pattern in place of a cell's output, least significant bit first (R261). -/
def patternBits (p : Word) (n : Nat) : List Bool := (upto n).map fun i => bit p (i % 32)

/-- The bits that a cell gives. -/
def State.cellBits (s : State) (b : List Bool) : List Bool :=
  if s.nh.testEn then patternBits s.nh.pattern b.length else b

/-- The repetition-count test over bits, from the last bit and its run: whether 41 identical bits came in a row, the last
bit and its run. -/
def rct : List Bool → Bool → Nat → Bool → Bool × Bool × Nat
  | [], l, r, bad => (bad, l, r)
  | b :: t, l, r, bad =>
    let r' := if r ≠ 0 && b == l then r + 1 else 1
    rct t b r' (bad || 41 ≤ r')

/-- The adaptive-proportion test of a 1,024-bit window: 795 bits equal to its first. -/
def aptBad (w : List Bool) : Bool :=
  match w with
  | [] => false
  | b :: _ => 795 ≤ w.countP (· == b)

/-- The windows of a start-up test. -/
def windowsOf (b : List Bool) : List (List Bool) := (upto (b.length / 1024)).map fun i => (b.drop (1024 * i)).take 1024

/-! ### Cells in service -/

def State.nhEvent (s : State) (b : Nat) : State := { s with nh := { s.nh with events := setBit s.nh.events b true } }

/-- A physical cell that serves a logical number and is not waiting to be retired. -/
def State.cellServes (s : State) (p : Nat) : Bool := (s.logical .noiseCell p).isSome && !s.condemned .noiseCell p

/-- Physical cells in service: they serve, and have passed their start-up test. -/
def State.cellsPassed (s : State) : List Nat :=
  ((s.surviving .noiseCell).filterMap fun n => s.phys .noiseCell n).filter fun p =>
    (s.cell p).passed && !s.condemned .noiseCell p

/-- Output begins (R252): 128 cells have passed; with fewer than 128 in service, all of them have. -/
def State.noiseStart (s : State) : State :=
  let n := (s.surviving .noiseCell).length
  let p := s.cellsPassed.length
  if 128 ≤ p || (n < 128 && p = n && 0 < p) then { s with nh := { s.nh with started := true } } else s

/-- A cell's failure: a repetition-count failure retires it, an adaptive-proportion failure is a transient and begins the
start-up test again (R250, R252). -/
def State.cellFails (s : State) (p : Nat) (rep : Bool) : State :=
  let s := s.setCell p { s.cell p with passed := false }
  if rep then (s.nhEvent 1).permanent .noiseCell p 1 else (s.nhEvent 0).strike .noiseCell p

/-- WINDOW_RELEASE (R251): a cell in service completes a window; it is released, or discarded whole. -/
def execWindowRelease (cell : Fin 272) (bits : BitVec 1024) (s : State) : Out :=
  let p := cell.val
  let c := s.cell p
  if !s.up || !s.clk.rootOk || !s.cellServes p || !c.passed then .next s else
  let b := s.cellBits (rawBits bits 1024)
  let (rep, l, r) := rct b c.last c.run false
  let s := s.setCell p { c with last := l, run := r, ones := b.countP id }
  if rep then .next (s.cellFails p true)
  else if aptBad b then .next (s.cellFails p false)
  else .next { s with nh := { s.nh with windows := s.nh.windows ++ b } }

/-! ### The conditioner (R253 to R255, R524) -/

/-- Eight bits, the first the most significant. -/
def byteOf (b : List Bool) : Byte := BitVec.ofNat 8 (bitNum b)

/-- Bytes of a bit string in order. -/
def packBits (b : List Bool) : Bytes := (upto (b.length / 8)).map fun i => byteOf ((b.drop (8 * i)).take 8)

/-- Bits of bytes in order, the most significant first. -/
def bitsOf (b : Bytes) : List Bool := (b.map fun x => (upto 8).map fun i => x.getLsbD (7 - i)).flatten

/-- A draw of 64 bits. -/
def drawOf (b : List Bool) : BitVec 64 := BitVec.ofNat 64 (bitNum b)

/-- Fills a pool of draws of `k` bits up to `cap` from a stream: the pool and what is left. -/
def fillPool {α : Type} (k cap : Nat) (mk : List Bool → α) : Nat → List α → List Bool → List α × List Bool
  | 0, pool, b => (pool, b)
  | f + 1, pool, b =>
    if cap ≤ pool.length || b.length < k then (pool, b) else fillPool k cap mk f (pool ++ [mk (b.take k)]) (b.drop k)

/-- Some consumer takes bits: a draw that waits, or a pool not full; in prepare precedences 1 and 2 only (R260). -/
def State.noiseWanted (s : State) : Bool :=
  0 < s.nh.w1 || s.bch.reserve.length < 1024 ||
  (!s.pwr.prepare && (0 < s.nh.w3 || 0 < s.nh.w4 || s.bch.general.length < 3072 || s.nh.soft.length < 512))

/-- Bits that waiting draws of a precedence take from a stream: what they take, what they still want, and what is left. -/
def grant (w : Nat) (b : List Bool) : List Bool × Nat × List Bool := (b.take w, w - b.length, b.drop w)

/-- Conditioned bits are handed out in the order of R255: precedence 1, the reserve pool, precedences 3 and 4, the general pool,
the software pool; in prepare the first two alone (R260). -/
def State.handOut (s : State) (b : List Bool) : State :=
  let (g1, w1, b) := grant s.nh.w1 b
  let (res, b) := fillPool 64 1024 drawOf 16 s.bch.reserve b
  let s : State := { s with bch := { s.bch with reserve := res }, nh := { s.nh with b1 := s.nh.b1 ++ g1, w1 := w1, left := b } }
  let s : State :=
    if s.pwr.prepare then s else
    let (g3, w3, b) := grant s.nh.w3 b
    let (g4, w4, b) := grant s.nh.w4 b
    let (gen, b) := fillPool 64 3072 drawOf 16 s.bch.general b
    let (soft, b) := fillPool 32 512 (fun x => (drawOf x).truncate 32) 32 s.nh.soft b
    { s with bch := { s.bch with general := gen }
             nh := { s.nh with b3 := s.nh.b3 ++ g3, w3 := w3, b4 := s.nh.b4 ++ g4, w4 := w4, soft := soft, left := b } }
  s.fillDecisions.throttle

/-- CONDITIONER_BLOCK (R253): 1,152 bits of released windows give a block of 512. -/
def execConditionerBlock (s : State) : Out :=
  if !s.up || !s.nh.started || !s.noiseWanted || s.nh.windows.length < 1152 then .next s else
  let block := bitsOf (sha512 (packBits (s.nh.windows.take 1152)))
  .next ({ s with nh := { s.nh with windows := s.nh.windows.drop 1152 } }.handOut (s.nh.left ++ block))

/-- Every pool is emptied, with the bits handed out and not drawn yet, which their draws want again (R260, R261). -/
def State.emptyPools (s : State) : State :=
  let h := s.nh
  ({ s with bch := { s.bch with reserve := [], general := [] }
            nh := { h with
              soft := [], left := [], b1 := [], b3 := [], b4 := []
              w1 := h.w1 + h.b1.length, w3 := h.w3 + h.b3.length, w4 := h.w4 + h.b4.length } } : State).throttle

/-! ### Software reads (R259) -/

/-- A read of KEY_NH_RAND by a core: a word; or 0 with UNDERRUN once its wait has passed or the harvest is exhausted; none:
it waits. -/
def State.randRead (s : State) (mid : Nat) : Option (Word × State) :=
  let rest := s.nh.waits.filter (·.1 != mid)
  let under (s : State) : State :=
    { s with nh := { s.nh with waits := rest, underrun := tset false s.nh.underrun mid true } }.nhEvent 4
  match s.nh.soft, s.nh.waits.find? (·.1 == mid) with
  | _, some (_, _, true) => some (0, under s)
  | w :: t, _ => some (w, { s with nh := { s.nh with soft := t, waits := rest } })
  | [], _ => if s.nh.exhausted then some (0, under s) else none

/-- A read begins to wait. -/
def State.randWait (s : State) (mid : Nat) : State :=
  if s.nh.waits.any (·.1 == mid) then s
  else { s with nh := { s.nh with waits := s.nh.waits ++ [(mid, s.now, false)] } }

/-- KEY_NH_RAND_READ (R259). -/
def execKeyNhRandRead (mid : Nat) (s : State) : Out :=
  if !s.up || (midCore mid).isNone then .next s else
  match s.randRead mid with
  | some (_, s') => .next s'
  | none => .next (s.randWait mid)

/-- NH_RAND_TIMEOUT (R259): a read has waited 10 µs; it will return 0 and set UNDERRUN. -/
def execNhRandTimeout (mid : Nat) (s : State) : Out :=
  if !s.up then .next s else
  .next { s with nh := { s.nh with waits := s.nh.waits.map fun w =>
    if w.1 = mid && w.2.1 + 10 * usC ≤ s.now then (w.1, w.2.1, true) else w } }

/-! ### The factory test pattern (R261) -/

/-- The Factory state of the lifecycle (R498). -/
def State.factory (s : State) : Bool := s.lc.lifecycle == 0

/-- TEST_EN is set or cleared; every pool is emptied when it clears. -/
def State.setTestEn (s : State) (on : Bool) : State :=
  if s.nh.testEn = on then s
  else
    let s := { s with nh := { s.nh with testEn := on } }
    if on then s else s.emptyPools

/-- TEST_EN_WRITE (R261). -/
def execTestEnWrite (on : Bool) (s : State) : Out :=
  if s.up && s.factory then .next (s.setTestEn on) else .next s

/-! ### Registers (R262) -/

/-- KEY_NH_CELL_STAT.ROLE. -/
def State.cellRole (s : State) (p : Nat) : Nat :=
  if s.ret.noiseCell.retired.contains p then 2
  else if s.assayRuns .noiseCell p then 3
  else match s.logical .noiseCell p with
    | none => 1
    | some _ => if (s.cell p).passed then 0 else 3

/-- The harvest block as a core reads it; none: the read of KEY_NH_RAND waits. -/
def State.nhRead (s : State) (mid port : Nat) : Option (Word × State) :=
  let h := s.nh
  match port with
  | 0x0900 => some (bf 8 0 s.cellsPassed.length ||| bf 13 9 (s.freeSparesOf .noiseCell).length |||
      bf 14 14 (b2n h.started) ||| bf 15 15 (b2n h.thrC3) ||| bf 16 16 (b2n h.thrC2) ||| bf 17 17 (b2n h.testEn) |||
      bf 18 18 (b2n s.ret.wNoise) ||| bf 19 19 (b2n h.exhausted), s)
  | 0x0901 => some (bf 0 0 (b2n h.testEn), s)
  | 0x0902 => some (h.events, s)
  | 0x0903 => some (bf 8 0 h.cellSel.toNat, s)
  | 0x0904 =>
    let p := h.cellSel.toNat
    some (bf 8 0 ((s.logical .noiseCell p).getD 0x1FF) ||| bf 10 9 (s.cellRole p) |||
      bf 12 11 (min 3 (s.recent .noiseCell p)) ||| bf 23 13 (s.cell p).ones, s)
  | 0x0905 => some (h.pattern, s)
  | 0x0908 => s.randRead mid
  | 0x0909 => some (bf 9 0 h.soft.length ||| bf 10 10 (b2n (tget false h.underrun mid)), s)
  | _ => some (0, s)

/-- Writes of the harvest block. -/
def State.nhWrite (s : State) (mid port : Nat) (v : Word) : State :=
  match port with
  | 0x0901 => if s.factory then s.setTestEn (bit v 0) else s
  | 0x0902 => { s with nh := { s.nh with events := s.nh.events &&& ~~~ v } }
  | 0x0903 => if 272 ≤ fld v 8 0 then s else { s with nh := { s.nh with cellSel := BitVec.ofNat 9 (fld v 8 0) } }
  | 0x0905 => if s.factory then { s with nh := { s.nh with pattern := v } } else s
  | 0x0909 => if bit v 10 then { s with nh := { s.nh with underrun := tset false s.nh.underrun mid false } } else s
  | _ => s

end Sys2Proof.Machine
end

