-- ==== Sys2Proof/Machine/Reset.lean ====
section
/-! DEFINITION. Sys2Proof/Machine/Reset.lean: module reset, what it keeps and what it clears, and the power states of R2
and R410. -/

namespace Sys2Proof.Machine

/-- ALERT_N (R439): driven in MAIN only, while a flag of a source that fired with NOTIFY or stronger stands, or in HALT. -/
def State.alertTouch (s : State) : State :=
  let noted := s.tmp.srcs.any fun e => e.2.notified && bit s.tmp.flags e.1
  { s with tmp := { s.tmp with alert := s.pwr.state == .main && (s.halted || noted) } }

/-- A retirement class through a module reset: the map and what is retired (R31). -/
def RetClass.kept (r : RetClass) : RetClass := { map := r.map, retired := r.retired }

/-- Retirement state through a module reset (R5, R31, R34). DESIGN CHOICE (log entry 104): a permanent decision that waits and
a bring-in under way are dropped, and a logical number left without a resource stays so; the spec is silent. -/
def resetRet (r : Ret) : Ret :=
  { lane := r.lane.kept, hashUnit := r.hashUnit.kept, engine := r.engine.kept, tenantCore := r.tenantCore.kept,
    noiseCell := r.noiseCell.kept, nandBlock := r.nandBlock.kept, keyRow := r.keyRow.kept, norSector := r.norSector.kept,
    dmaEngine := r.dmaEngine.kept, fwPair := r.fwPair.kept }

/-- The tamper block through a module reset (R428 to R431, R444, R450): flags, configuration and pending entries stay, and
so do the decisions that the always-on island is taking on a response. -/
def resetTmp (t : Tmp) : Tmp :=
  let keep (d : Dec) : Bool := match d.what with
    | .respond _ _ _ => true
    | .lifecycle dest party _ => dest == 3 && party == 0
    | _ => false
  { t with
    clearMask := 0, pendDone := false, result := 0, srcSel := 0, respInForce := 0, zeroized := false, pendSeq := 0
    srcs := tmap {} (fun _ x => { filt := x.filt, resp := x.resp, notified := x.notified }) t.srcs
    decisions := t.decisions.filter keep }

/-- The tamper block with the firings that the always-on island had not yet delivered, kept in its pending-action register
(R21, R444). -/
def keepFirings (t : Tmp) (l : List DvEv) : Tmp :=
  l.foldl (fun t e =>
    if !e.firing then t
    else if 16 ≤ t.pend.length then { t with overflow := satInc t.overflow 255 }
    else { t with pend := t.pend ++
      [{ index := leAt e.body 0 1, resp := leAt e.body 2 1, state := leAt e.body 3 1, seq := e.aoseq.getD 0 }] }) t

/-- The power block through a module reset: levels, sensors and what the next start has to record. -/
def resetPwr (p : Pwr) : Pwr :=
  { state := p.state, inReset := true, vin := p.vin, rails := p.rails, vbat := p.vbat, field := p.field, temp := p.temp,
    vinMin := p.vinMin, tempMax := p.tempMax, backupSeen := p.backupSeen, fieldSeen := p.fieldSeen, offSeen := p.offSeen,
    dueHost := true, dueLost := p.dueLost, dueRail := p.dueRail, dueMrst := p.dueMrst, mrstN := p.mrstN,
    perstN := p.perstN, clkin := p.clkin, okSince := p.okSince }

/-- The contactless block through a module reset (R481): the field's comparators, what the always-on island keeps, the
key block in flash. -/
def resetCl (c : Cl) : Cl :=
  { fieldTag := c.fieldTag, fieldWrite := c.fieldWrite, vfield := c.vfield, authFails := c.authFails,
    snapSlot := c.snapSlot, snapValid := c.snapValid, keys := c.keys, sent := c.sent }

/-- Lifecycle, keys and images in flash stand; what runs and what was measured does not (R486, R488, R504). -/
def resetLc (l : Lc) : Lc :=
  { l with fw := .rom, fwReady := false, testPort := false, meas := [], composite := List.replicate 64 0, tenants := [],
           jig := none, jigSince := false, snapDue := none, snapBody := none, snapFailedOn := none, lastSnap := [],
           reports := [], retiredHalt := false, resetDue := false }

/-- Engines through a module reset (R236): pages below 48 are erased. -/
def resetEngine (e : Engine) : Engine :=
  let l := eraseLow e
  { mem := l.mem, secret := l.secret, loaded := l.loaded, written := l.written }

/-- Module reset is asserted; every link returns to phase 0 (R21, R51, R111, R125, R138, R173, R217, R236, R260, R317, R328): every main-domain register
is at its reset value. A MARK past its INTENT is completed by the Locket engine (R477); the session ends. Functions take
what GLB_STATUS reads now as last seen. It includes a host reset, whose record the next start writes (R111). -/
def State.assertReset (s : State) : State :=
  let s := s.flReset.archiveReset
  let s := ({ s with pwr := { s.pwr with inReset := true } } : State).endClasp
  let t : State := {
    now := s.now, free := s.free, pending := s.pending
    clk := { mcArmed := s.clk.mcArmed, sub := s.clk.sub }
    tim := { shadow := s.tim.shadow, shadowPresent := s.tim.shadowPresent }
    dv := { pins := tmap {} (fun _ p => { raw := p.raw }) s.dv.pins, inbox := s.dv.inbox.filter fun e => e.src = 1 && e.aoseq.isSome && !e.firing }
    pci := { nextId := s.pci.nextId, wire := s.pci.wire, aer := s.pci.aer }
    mbx := { chans := tmap {} (fun _ c => { flushed := !c.fifo.isEmpty }) s.mbx.chans }
    hme := { engines := tmap {} (fun _ e => resetEngine e) s.hme.engines }
    arc := s.arc, fls := s.fls
    pwr := resetPwr s.pwr, tmp := keepFirings (resetTmp s.tmp) s.dv.inbox, ret := resetRet s.ret, lnk := {}
    cl := resetCl s.cl, lc := resetLc s.lc }
  let drop (fn : Nat) (u : State) : State := u.setFun fn { u.fun_ fn with dropped := min 65535 (s.flying fn) }
  (each (upto 64) (fun fn u => drop fn (u.resetFun fn)) t).alertTouch

/-! ### Power states (R2, R410, R430) -/

/-- The always-on island loses its supply: its contents are lost, and it reports so (R430, R443, R446, R447, R481). -/
def State.aoLoss (s : State) : State :=
  { s with
    tmp := { s.tmp with flags := 0x20, aoLost := true, aoNoiseFail := false, aoCells := 0, pend := [], overflow := 0,
                        aoseq := 0, pendSeq := 0, srcs := [], kek := none, heldZ := 0, heldRetire := false,
                        decisions := [], veneer := [] }
    tim := { s.tim with shadow := 0, shadowPresent := false }
    cl := { s.cl with authFails := 0, snapSlot := 0, snapValid := false } }

/-- A power state is entered; the states visited since the last MAIN are kept. -/
def State.enterPower (s : State) (p : PowerState) : State :=
  if s.pwr.state = p then s else
  let w : Pwr := { s.pwr with
    state := p
    fieldSeen := s.pwr.fieldSeen || p == PowerState.field
    backupSeen := s.pwr.backupSeen || p == PowerState.backup
    offSeen := s.pwr.offSeen || p == PowerState.off }
  let s : State := { s with pwr := w }
  (if p = PowerState.off then s.aoLoss else s).alertTouch

def State.vbatOk (s : State) : Bool := 2000 ≤ s.pwr.vbat && s.pwr.vbat ≤ 3600

/-- Without card power: FIELD, BACKUP or OFF, in the precedence of R2. -/
def State.settle (s : State) : State :=
  if s.pwr.state = .main then s
  else s.enterPower (if s.cl.fieldTag then .field else if s.vbatOk then .backup else .off)

/-- MAIN ends (R410, R417): what the next start records begins anew. A field that stands is no new activation (R480). -/
def State.leaveMain (s : State) : State :=
  let w : Pwr := { s.pwr with backupSeen := false, fieldSeen := false, offSeen := false }
  let s : State := { s with pwr := w, clk := { s.clk with mcArmed := false }, cl := { s.cl with silent := s.cl.fieldTag } }
  s.enterPower (if s.cl.fieldTag then .field else if s.vbatOk then .backup else .off)

end Sys2Proof.Machine
end

