-- ==== Sys2Proof/Machine/Tamper.lean ====
section
/-! DEFINITION. Sys2Proof/Machine/Tamper.lean: tamper sources, their filters, firing and responses (R425 to R451). -/

namespace Sys2Proof.Machine

/-! ### Sources (R425) -/

/-- A row of R425: an event source, the states it runs in (0 MAIN with the main-domain logic running, 1 MAIN, 2 MAIN and
FIELD, 3 all but OFF), and its default filter, default response and minimum response. -/
structure SrcRow where
  isEvent : Bool
  runs : Nat
  filt : Nat
  resp : Nat
  least : Nat

/-- The table of R425; VBAT_LOSS depends on the battery-loss policy (R447). None: a reserved index. -/
def srcRow (sealedPolicy : Bool) : Nat → Option SrcRow
  | 0 => some ⟨true, 1, 16, 1, 1⟩
  | 1 => some ⟨true, 1, 4, 3, 2⟩
  | 2 => some ⟨false, 1, 8, 2, 1⟩
  | 3 => some ⟨false, 1, 1, 1, 1⟩
  | 4 => some ⟨false, 3, 4, 2, 1⟩
  | 5 => some (if sealedPolicy then ⟨false, 2, 16, 1, 1⟩ else ⟨false, 2, 16, 2, 2⟩)
  | 6 => some ⟨false, 3, 16, 3, 2⟩
  | 7 => some ⟨false, 3, 16, 3, 2⟩
  | 8 => some ⟨false, 3, 2, 4, 3⟩
  | 9 => some ⟨false, 3, 2, 4, 3⟩
  | 10 => some ⟨false, 3, 2, 4, 3⟩
  | 11 => some ⟨false, 3, 2, 4, 3⟩
  | 12 => some ⟨true, 1, 1, 2, 1⟩
  | 16 => some ⟨false, 0, 4, 3, 2⟩
  | 17 => some ⟨false, 0, 4, 3, 2⟩
  | 18 => some ⟨true, 0, 2, 3, 2⟩
  | 19 => some ⟨true, 3, 1, 4, 3⟩
  | 20 => some ⟨true, 0, 1, 2, 2⟩
  | 21 => some ⟨true, 0, 1, 3, 3⟩
  | 22 => some ⟨true, 0, 4, 2, 1⟩
  | 31 => some ⟨true, 0, 1, 4, 4⟩
  | _ => none

def State.srcRow (s : State) (i : Nat) : Option SrcRow := Machine.srcRow s.tmp.policySealed i

/-- Sources whose samples and events come from outside the modelled logic; Veneer's come by VENEER_CHECK. -/
def sensed (i : Nat) : Bool := i < 8 || (16 ≤ i && i ≤ 18)

/-- The filter length in force (R429); those of sources 12 and 31 are fixed. -/
def State.srcFilt (s : State) (i : Nat) : Nat :=
  let d := ((s.srcRow i).map (·.filt)).getD 1
  if i = 12 || i = 31 || (s.src i).filt = 0 then d else (s.src i).filt

/-- The response configured (R429); that of source 31 is fixed. -/
def State.srcResp (s : State) (i : Nat) : Nat :=
  let d := ((s.srcRow i).map (·.resp)).getD 1
  if i = 31 || (s.src i).resp = 0 then d else (s.src i).resp

/-- The source runs in the present power state. -/
def State.srcRuns (s : State) (i : Nat) : Bool :=
  match s.srcRow i with
  | none => false
  | some r => match s.pwr.state with
    | .main => r.runs ≠ 0 || s.up
    | .field => 2 ≤ r.runs
    | .backup => r.runs = 3
    | .off => false

/-! ### Filters (R428) -/

/-- A sample of a level source. -/
def Src.level (x : Src) (f : Nat) (active : Bool) : Src :=
  if active then
    if x.armed then { x with count := min f (x.count + 1) } else { x with quiet := 0 }
  else if x.armed then { x with count := 0, live := false }
  else if x.quiet + 1 < f then { x with quiet := x.quiet + 1, live := false }
  else { x with armed := true, count := 0, quiet := 0, live := false }

/-- TAMPER_SAMPLE (R428): a sample that does not bring the counter to the filter length. -/
def execTamperSample (index : BitVec 5) (active : Bool) (s : State) : Out :=
  let i := index.toNat
  let x := s.src i
  if !s.srcRuns i || !sensed i then .next s else
  match s.srcRow i with
  | none => .next s
  | some r =>
    if active && x.armed && s.srcFilt i ≤ x.count + 1 then .next s
    else if r.isEvent then
      if active then .next (s.setSrc i { x with count := if x.armed then x.count + 1 else x.count, lastAt := s.now })
      else .next s
    else .next (s.setSrc i (x.level (s.srcFilt i) active))

/-- TAMPER_COUNTER_TIMEOUT (R428): 1 s without an event; ±30 % outside MAIN. -/
def execTamperCounterTimeout (index : BitVec 5) (s : State) : Out :=
  let i := index.toNat
  let x := s.src i
  let wait := if s.pwr.state = .main then secC else secC * 7 / 10
  match s.srcRow i with
  | none => .next s
  | some r =>
    if !r.isEvent || s.pwr.state = .off || s.now < x.lastAt + wait || (x.armed && x.count = 0) then .next s
    else .next (s.setSrc i { x with count := 0, armed := true })

/-! ### Responses (R432 to R437, R443, R448) -/

/-- Fuses are blown from main power, VBAT, or a field of 3.0 A/m (R443). -/
def State.fusePower (s : State) : Bool := s.pwr.state = .main || s.vbatOk || s.cl.fieldWrite

/-- The next zeroize fuse blows, or the blow is held (R443, R448). -/
def State.blowNext (s : State) : State :=
  if s.fusePower then { s with tmp := { s.tmp with zfuses := min 32 (s.tmp.zfuses + 1) } }
  else { s with tmp := { s.tmp with heldZ := s.tmp.heldZ + 1 } }

/-- Under SEALED a ZEROIZE that finds no fuse left is carried out as RETIRE (R448). -/
def State.strength (s : State) (resp : Nat) : Nat :=
  if resp = 4 && s.tmp.policySealed && 32 ≤ s.tmp.zfuses + s.tmp.heldZ then 5 else resp

/-- What the always-on island does alone for ZEROIZE and RETIRE (R443): the KEK, the fuse of R448, the session's end; for
RETIRE, the decision on the retire fuse begins (R435). -/
def State.islandErase (s : State) (resp : Nat) : State :=
  let s := { s with tmp := { s.tmp with kek := none } }
  let s := (if s.tmp.policySealed then s.blowNext else s).endClasp
  if resp = 5 then s.decide (.lifecycle 3 0 0) true else s

/-- The rest of the erasures of R434: unwraps, slots, associations, context keys, engine pages, noise pools, tenant cores. -/
def State.mainErase (s : State) : State :=
  let s := match s.key.unwrap with
    | some u => s.unwrapEnd u stAborted []
    | none => s
  let s := each s.key.rows (fun e s => if kState e.2 = kErasing then s.eraseEnded e.2.byCmd e.2.waiter else s) s
  let rows := tmap {} (fun _ r => if kState r = kUnusable then setKState {} kUnusable else {}) s.key.rows
  let lanes := tmap {} (fun _ l => { l with key0 := 0, key1 := 0 }) s.bch.lanes
  let units := tmap {} (fun _ u => { u with key := 0 }) s.hme.units
  let engines := tmap {} (fun _ e => { eraseLow e with drop := e.running }) s.hme.engines
  let s : State := { s with
    key := { s.key with rows := rows }
    qps := { s.qps with key0 := 0, key1 := 0 }
    bch := { s.bch with lanes := lanes }
    hme := { s.hme with
      units := units, engines := engines, away := tmap {} (fun _ e => { eraseLow e with drop := e.running }) s.hme.away } }
  let s := s.zeroizePas.emptyPools
  let s := each (upto 12) (fun n s => (s.resetCore (n + 2)).setCmem (n + 2) {}) s
  let meas := s.lc.meas.filter fun m => m.kind ≠ 3
  { s with lol := { s.lol with shared := [] }, lc := { s.lc with tenants := [], meas := meas } }

/-- ZEROIZE in the main domain (R434): the erasures, GLB_STATUS.ZEROIZED, the error of R114. -/
def State.zeroizeMain (s : State) : State :=
  let s := s.mainErase
  { s with tmp := { s.tmp with zeroized := true } }.internalError.statusTouch

/-- The state byte of tamper and power records (R421). -/
def PowerState.code : PowerState → Nat
  | .main => 0 | .field => 1 | .backup => 2 | .off => 3

/-- A firmware core's lockup is carried out at no less than HALT (R425). -/
def State.carriedAs (s : State) (i resp : Nat) : Nat :=
  let m := (s.src i).detail
  if i = srcLockup && 0x50 ≤ m && m ≤ 0x53 then max 3 resp else resp

/-- The strongest response among those still being carried out (R437). -/
def State.strongest (s : State) (resp : Nat) : Nat :=
  s.tmp.decisions.foldl (fun a d => match d.what with
    | .respond _ r _ => max a r
    | _ => a) resp

/-- The source number of a tamper record (R438, R397): the locked core's under LOCKUP. -/
def State.tamperSource (s : State) (i : Nat) : Nat :=
  if i = srcLockup then ((midCore (s.src i).detail).map coreSrc).getD 1 else 1

/-- The body of R438. -/
def tamperBody (index configured carried state count decision detail : Nat) : Bytes :=
  le 1 index ++ le 1 configured ++ le 1 carried ++ le 1 state ++ le 1 count ++ le 1 decision ++ le 2 0 ++ le 8 detail

/-- The tamper record of a firing: no second one within the same second (R428). -/
def State.tamperRecord (s : State) (i carried seq : Nat) : State :=
  let x := s.src i
  let soon : Bool := match x.recAt with
    | some t => s.now < t + secC
    | none => false
  if soon then s else
  let body := tamperBody i (s.srcResp i) carried s.pwr.state.code (s.srcFilt i)
    (if i = srcDisagree then x.decision else 0) x.detail
  let s := s.post { typ := 0x0020, src := s.tamperSource i, cls := c0, gts := s.gts, aoseq := some seq, body := body, firing := true }
  s.setSrc i { s.src i with recAt := some s.now }

/-- TAMPER_NOTICE to every function (R432, R438). -/
def State.tamperNotice (s : State) (i carried : Nat) : State :=
  s.noticeAll 0x0880 (le 1 i ++ le 1 carried ++ le 2 0 ++ le 12 s.gts.toNat)

/-- A firing's response where the main domain runs (R432). -/
def State.respondMain (s : State) (i resp seq : Nat) : State :=
  let carried := s.strongest resp
  let cause := s.gts
  let s := s.tamperRecord i carried seq
  let s := if 2 ≤ resp then s.tamperNotice i carried else s
  let s := s.consequences cause fun s =>
    let s := if 3 ≤ resp then s.enterHalt else s
    if 4 ≤ resp then (s.islandErase resp).zeroizeMain else s
  let s := if 3 ≤ resp then { s with tmp := { s.tmp with respInForce := max s.tmp.respInForce resp } } else s
  let s := if i = srcCommanded then
      each (s.drn.out.filter fun o => o.2.2 == 0x0804) (fun o s => s.reply o.1 o.2.1 0x0804 stOk []) s
    else s
  s.alertTouch

/-- A firing's response outside the main domain (R443, R444): the island's part of it, and a pending entry. DESIGN CHOICE (log
entry 106): the entry of a firing in MAIN under module reset has power state 0; TMP_PEND.STATE lists only FIELD and BACKUP. -/
def State.respondAlone (s : State) (i resp seq : Nat) : State :=
  let s := if 4 ≤ resp then s.islandErase resp else s
  let t := s.tmp
  let e : Pend := { index := i, resp := resp, state := s.pwr.state.code, seq := seq }
  if 16 ≤ t.pend.length then { s with tmp := { t with overflow := satInc t.overflow 255 } }
  else { s with tmp := { t with pend := t.pend ++ [e] } }

/-- A response is carried out (R432, R437, R443). -/
def State.carryOut (s : State) (i resp seq : Nat) : State :=
  let r := s.strength resp
  if s.up then s.respondMain i r seq else s.respondAlone i r seq

/-- A source fires (R428, R430, R446): flag, counters, the AO sequence number, and its response; ZEROIZE and RETIRE after
the decision of code 1 (R441). -/
def State.fire (s : State) (i : Nat) : State :=
  let x := s.src i
  let resp := s.carriedAs i (s.srcResp i)
  let lvl := ((s.srcRow i).map (fun r => !r.isEvent)).getD false
  let s := s.setSrc i { x with count := s.srcFilt i, fires := satInc x.fires 255, armed := false, live := lvl,
                               lastAt := s.now, quiet := 0, notified := x.notified || 2 ≤ resp }
  let seq := s.tmp.aoseq
  let s := { s with tmp := { s.tmp with flags := setBit s.tmp.flags i true, aoseq := (seq + 1) % 2 ^ 32 } }
  if 4 ≤ resp then s.alertTouch.decide (.respond i resp seq) true else (s.carryOut i resp seq).alertTouch

/-- TAMPER_FIRE (R428, R436): the counter of an armed source reaches its filter length, with this sample where the sample
comes from outside. -/
def execTamperFire (index : BitVec 5) (s : State) : Out :=
  let i := index.toNat
  let x := s.src i
  let n := if sensed i then x.count + 1 else x.count
  if s.srcRuns i && x.armed && s.srcFilt i ≤ n then .next (s.fire i) else .next s

/-! ### Veneer, always-on noise, fuses -/

/-- VENEER_CHECK (R426, R442): a fresh pattern is driven, or an alternating one when both cells have failed; the net
passes when the pattern arrives in the delay window. -/
def execVeneerCheck (net : Fin 4) (drawn arrived : BitVec 32) (inTime : Bool) (s : State) : Out :=
  let i := 8 + net.val
  if !s.srcRuns i then .next s else
  let last := tget 0 s.tmp.veneer net.val
  let p := if s.tmp.aoNoiseFail then ~~~ last else drawn
  let bad := p ^^^ arrived
  let fails := bad ≠ 0 || !inTime
  let s := { s with tmp := { s.tmp with veneer := tset 0 s.tmp.veneer net.val p } }
  let x := (s.src i).level (s.srcFilt i) fails
  .next (s.setSrc i (if fails then { x with detail := bad.toNat } else x))

/-- AO_NOISE_FAIL (R442): when both cells have failed, the fall-back is recorded, under the next AO sequence number, which it
does not use up (R28, R446; log entry 105). -/
def execAoNoiseFail (cell : Fin 2) (s : State) : Out :=
  if s.pwr.state = .off then .next s else
  let c := s.tmp.aoCells ||| BitVec.ofNat 2 (2 ^ cell.val)
  let s1 : State := { s with tmp := { s.tmp with aoCells := c, aoNoiseFail := s.tmp.aoNoiseFail || c == 3 } }
  if c == 3 && !s.tmp.aoNoiseFail && s.up then
    .next (s1.post { typ := 0x0020, src := 1, cls := c0, gts := s.gts, aoseq := some s.tmp.aoseq, body := Config.openBody 0x0020 [3] })
  else .next s1

/-- FUSE_BLOW (R443): held blows are carried out once VBAT or a field of 3.0 A/m is there. -/
def execFuseBlow (vbatOk : Bool) (s : State) : Out :=
  let t := s.tmp
  let supply := if vbatOk then s.vbatOk else s.cl.fieldWrite || s.pwr.state = .main
  if s.pwr.state = .off || !supply then .next s
  else .next { s with tmp := { t with zfuses := min 32 (t.zfuses + t.heldZ), heldZ := 0,
                                      retireFuse := t.retireFuse || t.heldRetire, heldRetire := false } }

/-! ### Flag clear (R431, R449) -/

def State.clearBusy (s : State) : Bool := s.tmp.decisions.any fun d => match d.what with
  | .flagClear _ _ _ => true
  | _ => false

/-- A clear of masked flags is asked for: its double decision begins. -/
def State.askClear (s : State) (mask : Word) (who : Option (Nat × Nat)) : State :=
  let s := { s with tmp := { s.tmp with result := 1 } }
  s.decide (.flagClear mask (who.map (·.1)) (who.map (·.2))) true

/-- One flag is cleared, with its clear record (R438). -/
def State.clearFlag (s : State) (mask : Word) (i : Nat) : State :=
  let x := s.src i
  if !bit mask i || !bit s.tmp.flags i || x.live then s else
  let lost := s.tmp.aoLost && i ≠ 5
  let s := ({ s with tmp := { s.tmp with flags := setBit s.tmp.flags i false, aoLost := lost } } : State).setSrc i
    { x with notified := false }
  s.event 0x0020 1 c0 (tamperBody (0x80 + i) (s.srcResp i) 0 0 0 0 mask.toNat)

/-- The second evaluation of a flag clear (R431, R441). -/
def State.endClear (s : State) (mask : Word) (party tag : Option Nat) (agree : Bool) : State :=
  let answer (s : State) (st : Nat) : State := match party, tag with
    | some p, some t => s.reply p t 0x0803 st []
    | _, _ => s
  if agree then
    let s := each (upto 32) (fun i s => s.clearFlag mask i) s
    answer ({ s with tmp := { s.tmp with result := 2 } } : State).alertTouch stOk
  else answer (({ s with tmp := { s.tmp with result := 3 } } : State).disagree 4) stRejected

/-- TMP_CMD_CLEAR (R431): discarded while a clear is being decided. -/
def execTmpCmdClear (s : State) : Out :=
  if !s.up || s.clearBusy then .next s else .next (s.askClear s.tmp.clearMask none)

/-- TMP_FLAG_CLEAR (R449): taken once no other clear is being decided. -/
def execTmpFlagClear (r : Req) (s : State) : Out :=
  if s.clearBusy || s.verifyWaits then .next s else
  driner 0x0803 r s fun s =>
    let s := s.authRun 0x0803 r.payload
    let m := leAt r.payload 0 8
    match s.ownerAuth 0x0803 r.payload with
    | none => s.reply r.party r.tag 0x0803 stAccess []
    | some s =>
      if 2 ^ 32 ≤ m then s.reply r.party r.tag 0x0803 stRejected []
      else s.askClear (BitVec.ofNat 32 m) (some (r.party, r.tag))

/-! ### Source 31, pending actions, configuration -/

/-- ZEROIZE is commanded (R449, R451): source 31 counts it, and fires when armed; not yet re-armed, the firing is only
counted. -/
def State.commandZeroize (s : State) : State :=
  let x := s.src srcCommanded
  if x.armed then (s.raise srcCommanded 0 0).fire srcCommanded
  else s.setSrc srcCommanded { x with fires := satInc x.fires 255, lastAt := s.now }

/-- TMP_CMD_ZEROIZE (R451). -/
def execTmpCmdZeroize (s : State) : Out := if s.up then .next s.commandZeroize else .next s

/-- ZEROIZE (R449): the response follows the erasure. -/
def execZeroize (r : Req) (s : State) : Out :=
  if s.verifyWaits then .next s else
  driner 0x0804 r s fun s =>
    let s := s.authRun 0x0804 r.payload
    match s.ownerAuth 0x0804 r.payload with
    | none => s.reply r.party r.tag 0x0804 stAccess []
    | some s =>
      let s := s.commandZeroize
      let awaits := s.tmp.decisions.any fun d => match d.what with
        | .respond i _ _ => i == srcCommanded
        | _ => false
      if awaits then s else s.reply r.party r.tag 0x0804 stOk []

/-- TMP_CMD_POP (R445). -/
def execTmpCmdPop (s : State) : Out :=
  if s.up then .next { s with tmp := { s.tmp with pend := s.tmp.pend.drop 1 } } else .next s

/-- Whether a filter or a response may be written (R429). -/
def filtOk (i f : Nat) : Bool := f ≠ 0 && i ≠ 12 && i ≠ 31
def respOk (row : SrcRow) (i p : Nat) : Bool := row.least ≤ p && 1 ≤ p && p ≤ 5 && i ≠ 31

/-- A write of TMP_SRC_CFG (R429): each field that is not discarded is taken, and the counter restarts. -/
def State.srcCfgWrite (s : State) (i : Nat) (v : Word) : State :=
  match s.srcRow i with
  | none => s
  | some row =>
    let x := s.src i
    let f := fld v 7 0
    let p := fld v 10 8
    s.setSrc i { x with count := 0, filt := if filtOk i f then f else x.filt, resp := if respOk row i p then p else x.resp }

/-- TMP_SRC_CFG_WRITE (R429). -/
def execTmpSrcCfgWrite (value : BitVec 32) (s : State) : Out :=
  if s.up then .next (s.srcCfgWrite s.tmp.srcSel.toNat value) else .next s

/-- TMP_CONFIG (R449): the values are stored in code flash for later starts (R429). -/
def execTmpConfig (r : Req) (s : State) : Out :=
  if s.verifyWaits then .next s else
  drinerNow 0x0802 r s fun s =>
    let s := s.authRun 0x0802 r.payload
    let i := leAt r.payload 0 1
    let f := leAt r.payload 1 1
    let p := leAt r.payload 2 1
    match s.ownerAuth 0x0802 r.payload with
    | none => (s, stAccess, [])
    | some s =>
      match s.srcRow i with
      | none => (s, stRejected, [])
      | some row =>
        let fixedBad := i = 31 || (i = 12 && f ≠ 1)
        if 31 < i || f = 0 || p < row.least || 5 < p || p = 0 || fixedBad || leAt r.payload 3 1 ≠ 0 then
          (s, stRejected, [])
        else
          let s := s.srcCfgWrite i (bf 7 0 f ||| bf 10 8 p)
          ({ s with lc := { s.lc with tmpCfg := tset (0, 0) s.lc.tmpCfg i (f, p) } }, stOk, [])

/-- TMP_STATUS (R449). -/
def execTmpStatus (r : Req) (s : State) : Out :=
  drinerNow 0x0801 r s fun s =>
    (s, stOk, le 8 s.tmp.flags.toNat ++ le 1 s.tmp.pend.length ++ le 1 s.tmp.overflow ++ le 1 s.tmp.respInForce ++ le 1 0)

/-! ### Pending actions at start (R445) -/

/-- A record of the bracket (R88): stamped with the bracket start, QUAL 0b11. -/
def State.bracketRec (s : State) (typ src : Nat) (ao : Option Nat) (body : Bytes) : State :=
  let g := unitsGts (gtsUnits s.loop.bracketStart) 3
  let fl := fBracketed ||| (if s.loop.unsync then fUnsync else 0) ||| (if ao.isSome then fAo else 0)
  s.arrive { typ := typ, src := src, cls := c0, flags := fl, gts := g, aoseq := ao.getD 0, body := body } .none false

/-- The body of R445. -/
def State.pendBody (s : State) (seq index resp state : Nat) : Bytes :=
  le 12 (s.loop.bracketEnd.getD 0).toNat ++ le 4 seq ++ le 1 index ++ le 1 resp ++ le 1 state ++ le 1 0

/-- The body of a power record (R421). -/
def powerBody (kind old new mv us count : Nat) : Bytes :=
  le 1 kind ++ le 1 old ++ le 1 new ++ le 1 0 ++ le 2 mv ++ le 2 0 ++ le 4 us ++ le 4 count

/-- A ZEROIZE or RETIRE entry: the start enters that response (R445). -/
def State.pendingRespond (s : State) : State :=
  let r := s.tmp.pend.foldl (fun a e => max a e.resp) 0
  if r < 4 || s.tmp.zeroized then s else
  let s := s.enterHalt.zeroizeMain
  { s with tmp := { s.tmp with respInForce := max s.tmp.respInForce r } }.alertTouch

/-- PENDING_ACTIONS_ARCHIVE (R445, R417): once the bracket end is known, the bracketed records of this start. The head
entries are removed by TMP_CMD_POP. -/
def execPendingActionsArchive (s : State) : Out :=
  if !s.up || s.lc.fw ≠ .running then .next s else
  let s := s.pendingRespond
  if s.loop.bracketEnd.isNone || s.tmp.pendDone then .next s else
  let s := match s.pwr.dueLost with
    | some (mv, st, sq) => s.bracketRec 0x0021 2 (some sq) (powerBody 3 0 st mv 0
        (b2n s.pwr.backupSeen + 2 * b2n s.pwr.fieldSeen + 4 * b2n s.pwr.offSeen) ++
        le 12 (s.loop.bracketEnd.getD 0).toNat ++ le 4 sq)
    | none => s
  let s := each s.tmp.pend (fun e s =>
    let s := s.bracketRec 0x0012 1 (some e.seq) (s.pendBody e.seq e.index e.resp e.state)
    if 2 ≤ e.resp then s.tamperNotice e.index e.resp else s) s
  let s := if s.tmp.overflow = 0 then s
    else s.bracketRec 0x0012 1 (some s.tmp.aoseq) (s.pendBody s.tmp.aoseq 0xFF s.tmp.overflow 0)
  .next { s with tmp := { s.tmp with pendDone := true }, pwr := { s.pwr with dueLost := none } }

/-! ### The missing clock (R49, R50) -/

/-- MISSING_CLOCK (R49, R50): an armed detector, while a watched clock had been running: the evidence flag, the source, which
fires by its fixed filter of 1 when it is armed, and module reset; the start then waits for a CLKIN edge. -/
def execMissingClock (s : State) : Out :=
  if s.pwr.state ≠ .main || !s.clk.mcArmed || !s.pwr.clkin then .next s else
  let s := { s with pwr := { s.pwr with clkin := false } }
  let s := s.assertReset
  let x := s.src 12
  let s := if x.armed then (s.raise 12 0 0).fire 12
    else ({ s with tmp := { s.tmp with flags := setBit s.tmp.flags 12 true } } : State).setSrc 12
      { x with fires := satInc x.fires 255, lastAt := s.now }
  .next s

/-! ### Registers (R451) -/

def State.tmpRead (s : State) (port : Nat) : Word × State :=
  let t := s.tmp
  let i := t.srcSel.toNat
  let x := s.src i
  match port with
  | 0x0F00 => (bf 2 0 t.respInForce ||| bf 3 3 (b2n t.alert) ||| bf 4 4 (b2n t.aoLost) ||| bf 5 5 (b2n t.aoNoiseFail) |||
      bf 10 6 t.pend.length ||| bf 18 11 t.overflow ||| bf 24 19 (if t.policySealed then 32 - t.zfuses else 0) |||
      bf 25 25 (b2n s.clearBusy), s)
  | 0x0F01 => (t.flags, s)
  | 0x0F02 => ((upto 32).foldl (fun a n => if (s.src n).live then setBit a n true else a) 0, s)
  | 0x0F03 => (bf 4 0 i, s)
  | 0x0F04 => match s.srcRow i with
    | none => (0, s)
    | some row => (bf 7 0 (s.srcFilt i) ||| bf 10 8 (s.srcResp i) ||| bf 13 11 row.least |||
        bf 14 14 (b2n (i = 12 || i = 31)), s)
  | 0x0F05 => match s.srcRow i with
    | none => (0, s)
    | some _ => (bf 7 0 x.count ||| bf 15 8 x.fires ||| bf 16 16 (b2n x.armed), s.setSrc i { x with fires := 0 })
  | 0x0F07 => (bf 4 3 t.result.toNat, s)
  | 0x0F08 => match t.pend with
    | e :: _ => (bf 4 0 e.index ||| bf 7 5 e.resp ||| bf 9 8 e.state ||| bitW 10,
        { s with tmp := { t with pendSeq := BitVec.ofNat 32 e.seq } })
    | [] => (0, s)
  | 0x0F09 => (t.pendSeq, s)
  | 0x0F0A => (BitVec.ofNat 32 t.aoseq, s)
  | 0x0F0B => (bf 0 0 (b2n t.policySealed) ||| bf 1 1 (b2n t.policyFused.isSome) ||| bf 2 2 (b2n t.retireFuse), s)
  | _ => (0, s)

def State.tmpWrite (s : State) (port : Nat) (v : Word) : State :=
  match port with
  | 0x0F03 => { s with tmp := { s.tmp with srcSel := BitVec.ofNat 5 (fld v 4 0) } }
  | 0x0F04 => s.srcCfgWrite s.tmp.srcSel.toNat v
  | 0x0F06 => { s with tmp := { s.tmp with clearMask := v } }
  | 0x0F07 =>
    let s := if bit v 0 && !s.clearBusy then s.askClear s.tmp.clearMask none else s
    let s := if bit v 1 then s.commandZeroize else s
    if bit v 2 then { s with tmp := { s.tmp with pend := s.tmp.pend.drop 1 } } else s
  | _ => s

end Sys2Proof.Machine
end

