-- ==== Sys2Proof/Machine/Power.lean ====
section
/-! DEFINITION. Sys2Proof/Machine/Power.lean: the supplies, power-fail prepare, power caps and module reset (R407 to R424,
R519). -/

namespace Sys2Proof.Machine

/-- A power record (R421): source 0x002, class C0. -/
def State.powerRec (s : State) (body : Bytes) : State := s.event 0x0021 2 c0 body

def State.pwrEvent (s : State) (b : Nat) : State := { s with pwr := { s.pwr with events := setBit s.pwr.events b true } }

/-- VIN_3V3 as the supervisor reads it now. -/
def State.setVin (s : State) (mv : Nat) : State := { s with pwr := { s.pwr with vin := mv, vinMin := min s.pwr.vinMin mv } }

/-! ### Entry and release (R408, R410, R412) -/

/-- MAIN_ENTRY (R40, R408, R412): CLKIN runs in MAIN; VIN_3V3 passes 2.85 V rising; module reset is held, a Locket entry in progress completes and
its session ends. -/
def execMainEntry (vin : Nat) (s : State) : Out :=
  if s.pwr.state = .main || vin ≤ 2850 then .next s else
  let w : Pwr := { s.pwr with inReset := true, vin := vin, vinMin := vin, rails := 0, clkin := true, okSince := s.now }
  let s := s.endClasp
  .next (({ s with pwr := w, cl := resetCl s.cl } : State).enterPower .main)

/-- RESET_RELEASE (R408, R450): VIN_3V3 and the rails have held for 1 ms, MRST_N is high, a CLKIN edge is seen, and no
decision of the always-on island is open. A VIN_3V3 last read below 3.10 V now reads an open value of 3.10 V or more. -/
def execResetRelease (s : State) : Out :=
  let p := s.pwr
  if p.state ≠ .main || !p.inReset || !p.mrstN || s.now < p.okSince + msC || !s.tmp.decisions.isEmpty then .next s else
  let (v, s) := if 3100 ≤ p.vin then (p.vin, s) else
    let (v, s) := s.freeVal 9
    (3100 + v, s)
  let w : Pwr := { s.pwr with inReset := false, rails := 0xF, clkin := true, vin := v }
  .next { s with pwr := w }.alertTouch

/-! ### Power-fail prepare (R413 to R416, R422) -/

/-- Prepare starts (R414). -/
def State.startPrepare (s : State) (mv : Nat) : State :=
  let p := s.pwr
  let w : Pwr := { p with
    prepare := true, recovering := false, recoverMet := false, prepAt := s.now, warnings := 0
    warnAt := if p.recovering then p.warnAt else s.now
    dipMin := if p.recovering then min p.dipMin mv else mv
    dips := satInc p.dips 65535 }
  let s : State := { s with pwr := w, arc := { s.arc with clean := false } }
  let s := if s.loop.armed then s.copyShadow else s
  (s.flWarn.archivePrepare).pwrEvent 0

/-- POWER_WARNING (R413, R414, R422): VIN_3V3 below 3.05 V. While prepare runs it is counted. -/
def execPowerWarning (mv : Nat) (s : State) : Out :=
  if !s.up || 3050 ≤ mv || mv < 2850 then .next s else
  let s := s.setVin mv
  if s.pwr.prepare then
    let w : Pwr := { s.pwr with warnings := s.pwr.warnings + 1, recoverMet := false, dipMin := min s.pwr.dipMin mv }
    .next ({ s with pwr := w }.pwrEvent 3)
  else .next (s.startPrepare mv)

/-- Everything in the emergency set is programmed (R414). -/
def State.programAll (s : State) : State :=
  let done (n : Nat) : Bool := !s.largeIn n
  let segs := s.arc.segs.map fun g => if done g.num then { g with prog := g.fill } else g
  { s with arc := { s.arc with segs := segs, programs := s.arc.programs.filter fun n => !done n } }.commitScan

/-- The dip record (R414, R421): committed in the emergency set, or posted to be written once intake opens (R422). -/
def State.dipRecord (s : State) : State :=
  let p := s.pwr
  let body := powerBody 1 0 0 p.dipMin ((s.now - p.prepAt) / usC) p.warnings
  if s.arc.ready then
    let flags := if s.jigOn then fJig else 0
    (s.seqNow { typ := 0x0021, src := 2, cls := c0, flags := flags, gts := s.gts, body := body } .none).programAll
  else s.powerRec body

/-- The dip ends (R416): intake, fetch, lanes and code-flash commands resume; a profile change held takes effect (R415). -/
def State.recover (s : State) : State :=
  let p := s.pwr
  let s := (s.archiveResume).flRecover
  let w : Pwr := { s.pwr with recovering := false, recoverMet := false, heldProfile := none }
  let s : State := { s with pwr := w, arc := { s.arc with clean := false } }
  let s := (s.pwrEvent 2).powerRec (powerBody 2 0 0 p.dipMin ((s.now - p.warnAt) / usC) 0)
  match p.heldProfile with
  | some q => s.consequences s.lastStamp fun s => s.chooseProfile q 3
  | none => s

/-- PREPARE_END (R414, R416): prepare runs until the C0 records staged are sequenced; it ends with the dip record. -/
def execPrepareEnd (s : State) : Out :=
  if !s.up || !s.pwr.prepare || (s.arc.ready && !s.arc.staged.isEmpty) then .next s else
  let met := s.pwr.recoverMet
  let s := (s.dipRecord).pwrEvent 1
  let w : Pwr := { s.pwr with prepare := false, recovering := true, lastUs := (s.now - s.pwr.prepAt) / usC % 4096 }
  let s : State := { s with pwr := w, arc := { s.arc with clean := true } }
  .next (if met then s.recover else s)

/-- RECOVERY (R413, R416): VIN_3V3 above 3.10 V for 1 ms; while prepare runs, recovery waits for its end. -/
def execRecovery (mv : Nat) (s : State) : Out :=
  if !s.up || mv ≤ 3100 then .next s else
  if s.pwr.prepare then .next { s with pwr := { s.pwr with vin := mv, recoverMet := true } }
  else if s.pwr.recovering then .next ({ s with pwr := { s.pwr with vin := mv } } : State).recover
  else .next { s with pwr := { s.pwr with vin := mv } }

/-! ### Reset by supply and by MRST_N (R409, R417, R519) -/

/-- POWER_RESET (R413, R417): VIN_3V3 below 2.85 V; module reset, and MAIN ends. An entry under way is torn unless the
field carries it on (R477). -/
def execPowerReset (mv : Nat) (s : State) : Out :=
  if s.pwr.state ≠ .main || 2850 ≤ mv then .next s else
  let low := min s.pwr.dipMin mv
  let s := if s.cl.fieldWrite then s else s.tearMark
  let s := if s.pwr.inReset then s else s.assertReset
  let s := ({ s with pwr := { s.pwr with vin := mv, inReset := true } } : State).leaveMain
  .next { s with pwr := { s.pwr with dueLost := some (low, s.pwr.state.code, s.tmp.aoseq) } }

/-- RAIL_FAULT (R409): a derived rail leaves its window; module reset at once, without prepare. -/
def execRailFault (rails : BitVec 4) (s : State) : Out :=
  if s.pwr.state ≠ .main || rails = 0xF || s.pwr.vin ≤ 2850 then .next s else
  let s := if s.pwr.inReset then s else s.assertReset
  let w : Pwr := { s.pwr with rails := rails, okSince := s.now,
                              dueRail := s.pwr.dueRail ||| (15 - rails.toNat) }
  .next { s with pwr := w }

/-- MRST (R519): MRST_N low asserts module reset, with a host reset; high again, the release condition runs anew. -/
def execMrst (low : Bool) (s : State) : Out :=
  if low then
    if s.pwr.state ≠ .main || s.pwr.vin < 2850 then .next { s with pwr := { s.pwr with mrstN := false } } else
    let s := if s.pwr.inReset then s else s.assertReset
    .next { s with pwr := { s.pwr with mrstN := false, dueMrst := true } }
  else if s.pwr.mrstN then .next s
  else .next { s with pwr := { s.pwr with mrstN := true, okSince := s.now } }

/-- VBAT_CHANGE (R410, R419): events and the VBAT record in MAIN; the power state follows outside it. -/
def execVbatChange (mv : Nat) (s : State) : Out :=
  let was := s.vbatOk
  let wasLow := s.pwr.vbat < 2200
  let s := { s with pwr := { s.pwr with vbat := mv } }
  if s.up then
    let s := if s.vbatOk ≠ was then
        (s.pwrEvent 6).powerRec (powerBody 6 0 0 s.pwr.vinMin 0 (b2n s.vbatOk)) else s
    .next (if mv < 2200 && !wasLow then s.pwrEvent 7 else s)
  else .next s.settle

/-! ### Power caps (R420) -/

/-- The cap in force, in mW: the lower of the profile's and a nonzero PWR_CTRL.CAP_W. -/
def State.powerCap (s : State) : Nat :=
  let p := profileCap s.pwr.profile
  if s.pwr.capW = 0 then p * 1000 else min p s.pwr.capW.toNat * 1000

/-- The die's temperature is measured (R423): no row says it, so it is a free value; the highest since the last read is kept. -/
def State.senseTemp (s : State) : State :=
  let (v, s) := s.freeVal 16
  let t := toSigned 16 v
  { s with pwr := { s.pwr with temp := t, tempMax := max s.pwr.tempMax t } }

/-- POWER_ESTIMATE (R420): every 10 µs; the register reads the average of the last millisecond. The monitors measure the die's
temperature too. -/
def execPowerEstimate (mw : Nat) (s : State) : Out :=
  if !s.up then .next s else
  let s := s.senseTemp
  let est := (mw :: s.pwr.est).take 100
  let avg := est.sum / est.length
  let under : Option Nat := if avg * 100 < s.powerCap * 95 then
      (match s.pwr.underAt with
       | some t => some t
       | none => some s.now)
    else none
  .next { s with pwr := { s.pwr with est := est, mw := avg, underAt := under } }

/-- A change of the cap's enforcement, with its record, at most one a second. -/
def State.capChange (s : State) (on : Bool) : State :=
  let s := ({ s with pwr := { s.pwr with capActive := on } } : State).pwrEvent (if on then 4 else 5)
  let soon : Bool := match s.pwr.capRecAt with
    | some t => s.now < t + secC
    | none => false
  if soon then s else
  ({ s with pwr := { s.pwr with capRecAt := some s.now } } : State).powerRec (powerBody 5 0 0 s.pwr.vinMin 0 s.pwr.shed)

/-- Groups of 32 unreserved lanes. -/
def State.laneGroups (s : State) : Nat := (s.activeLanes.length - s.reservedLanes.length + 31) / 32

/-- CAP_SHED_STEP (R420, R422): one more step; step 3 takes the lanes group by group. -/
def execCapShedStep (s : State) : Out :=
  let p := s.pwr
  if !s.up || p.prepare || p.recovering || p.mw ≤ s.powerCap || s.now < p.shedAt + 100 * usC || 4 ≤ p.shed then .next s
  else
    let (shed, groups) :=
      if p.shed < 2 then (p.shed + 1, 0)
      else if p.shedGroups < s.laneGroups then (3, p.shedGroups + 1)
      else (4, p.shedGroups)
    let s := { s with pwr := { p with shed := shed, shedGroups := groups, shedAt := s.now } }
    .next (if p.shed = 0 then s.capChange true else s)

/-- CAP_UNSHED_STEP (R420): one step undone, in reverse order. -/
def execCapUnshedStep (s : State) : Out :=
  let p := s.pwr
  let long : Bool := match p.underAt with
    | some t => t + 10 * msC ≤ s.now
    | none => false
  if !s.up || p.prepare || p.recovering || p.shed = 0 || !long || s.now < p.shedAt + 10 * msC then .next s
  else
    let (shed, groups) :=
      if p.shed = 4 then (if p.shedGroups = 0 then 2 else 3, p.shedGroups)
      else if p.shed = 3 then (if p.shedGroups ≤ 1 then 2 else 3, p.shedGroups - 1)
      else (p.shed - 1, 0)
    let s := { s with pwr := { p with shed := shed, shedGroups := groups, shedAt := s.now } }
    .next (if shed = 0 then s.capChange false else s)

/-! ### What a start records (R409, R519), and POWER_STATUS -/

/-- The host-reset record of the last module reset (R111), cause 5, and the power records of kinds RAIL_FAULT and MRST, which a
start owes; POWER_LOST is bracketed (R417). -/
def State.duePower (s : State) : State :=
  let p := s.pwr
  let s := { s with pwr := { p with dueRail := 0, dueMrst := false, dueHost := false } }
  let s := if p.dueHost then s.hostRec 0 [2, 5] else s
  let s := if p.dueRail = 0 then s else s.powerRec (powerBody 4 0 0 p.vinMin 0 p.dueRail)
  if p.dueMrst then s.powerRec (powerBody 7 0 0 p.vinMin 0 0) else s

def State.vbatLow (s : State) : Bool := s.pwr.vbat < 2200

/-- POWER_STATUS (R424). -/
def execPowerStatus (r : Req) (s : State) : Out :=
  drinerNow 0x0A04 r s fun s =>
    let s := s.senseTemp
    let p := s.pwr
    let st := 4 * b2n p.prepare + 8 * b2n p.recovering + 16 * b2n s.vbatOk + 32 * b2n s.vbatLow + 64 * b2n p.capActive
    (s, stOk, le 2 p.vin ++ le 2 (ofSigned 16 p.temp) ++ le 4 p.mw ++ le 1 st)

/-! ### Registers (R423) -/

def State.pwrRead (s : State) (port : Nat) : Word × State :=
  let s := if port = 0x0E84 then s.senseTemp else s
  let p := s.pwr
  match port with
  | 0x0E80 => (bf 0 0 (b2n p.prepare) ||| bf 1 1 (b2n p.recovering) ||| bf 2 2 (b2n (p.vin < 3050)) |||
      bf 6 3 p.rails.toNat ||| bf 7 7 (b2n s.vbatOk) ||| bf 8 8 (b2n s.vbatLow) ||| bf 9 9 (b2n s.cl.fieldTag) |||
      bf 12 10 p.shed ||| bf 13 13 (b2n p.capActive) ||| bf 14 14 (b2n p.backupSeen) ||| bf 15 15 (b2n p.fieldSeen) |||
      bf 16 16 (b2n p.offSeen), s)
  | 0x0E81 => (bf 5 0 p.capW.toNat, s)
  | 0x0E82 => (p.events, s)
  | 0x0E83 => (bf 15 0 p.vin ||| bf 31 16 p.vinMin, { s with pwr := { p with vinMin := p.vin } })
  | 0x0E84 => (bf 15 0 (ofSigned 16 p.temp) ||| bf 31 16 (ofSigned 16 p.tempMax), { s with pwr := { p with tempMax := p.temp } })
  | 0x0E85 => (bf 16 0 p.mw, s)
  | 0x0E86 => (bf 15 0 p.dips ||| bf 27 16 p.lastUs, { s with pwr := { p with dips := 0 } })
  | _ => (0, s)

def State.pwrWrite (s : State) (port : Nat) (v : Word) : State :=
  let n := fld v 5 0
  match port with
  | 0x0E81 => if n = 0 || (10 ≤ n && n ≤ 48) then { s with pwr := { s.pwr with capW := BitVec.ofNat 6 n } } else s
  | 0x0E82 => { s with pwr := { s.pwr with events := s.pwr.events &&& ~~~ v } }
  | _ => s

end Sys2Proof.Machine
end

