-- ==== Sys2Proof/Machine/Links.lean ====
section
/-! DEFINITION. Sys2Proof/Machine/Links.lean: transfers on the handshake links (R17 to R23), the jig's injections (R503),
and the DMA engines (R402) with the buffers that commands write (R128). -/

namespace Sys2Proof.Machine

/-! ### Handshake links. Numbers (log entry 9): 0 to 4 the links that a jig token names (R502); 0x100000 * (1 + row of R29)
+ physical index, the link to that resource; 0x2000000 + receiver, a branch of the key bus (R219); any other number, any
other link. -/

/-- A master identity that appears (R22, R23); the boot ROM has not handed over while its loader runs (R484, R485). -/
def State.midAppears (s : State) (m : Nat) : Bool :=
  (1 ≤ m && m ≤ 0x40) || m = 0x50 || m = 0x52 || (0x54 ≤ m && m ≤ 0x5F) || (0x60 ≤ m && m ≤ 0x67) || m = 0x70 ||
  m = 0x71 || (m = 0x7E && s.jigOn) || (m = 0x7F && (s.lc.fw == .rom || s.lc.fw == .loader))

/-- The receiver at the end of a branch of the key bus (R219): 544 lanes, 68 hash units, 5 engines, the context MAC unit. -/
def keyBus (n : Nat) : Option Nat := if 0x2000000 ≤ n && n < 0x2000000 + 618 then some (n - 0x2000000) else none

/-- The resource of R29 at a link's receiving end, if it is one: by its own link, or by its branch of the key bus. -/
def linkResource (n : Nat) : Option (ResClass × Nat) :=
  match keyBus n with
  | some r =>
    if r < 544 then some (.lane, r)
    else if r < 612 then some (.hashUnit, r - 544)
    else if r < 617 then some (.engine, r - 612)
    else none
  | none =>
    if 0x100000 ≤ n && n < 0x2000000 then (allClasses[n / 0x100000 - 1]?).map fun c => (c, n % 0x100000) else none

/-- The gate of a link to a retired resource is closed (R20). -/
def State.gateShut (s : State) (n : Nat) : Bool :=
  match linkResource n with
  | some (c, p) => (s.ret.get c).retired.contains p
  | none => false

/-- The island that owns a class (R15), by its bit in Clk.gated. -/
def classIsland : ResClass → Nat
  | .lane => 2 | .hashUnit => 4 | .engine => 5 | .tenantCore => 7 | .noiseCell => 6 | .nandBlock => 10 | .keyRow => 3
  | .norSector => 11 | .dmaEngine => 7 | .fwPair => 7

/-- The island at a link's receiving end, by its bit in Clk.gated: of the links that a jig token names (R502), the job island
takes fetched entries, the host island completions, the archive staged records, the core cluster mailbox deliveries, and the
code flash controller its reads; the context MAC unit is the host island's (log entry 101). -/
def linkIsland (n : Nat) : Option Nat :=
  match linkResource n with
  | some (c, _) => some (classIsland c)
  | none => if n = 0 then some 1 else if n = 1 then some 0 else if n = 2 then some 10 else if n = 3 then some 7
    else if n = 4 then some 11 else if (keyBus n).isSome then some 0 else none

/-- A request wakes a gated island, which completes the handshake within 16 cycles of its own clock (R16). -/
def State.wake (s : State) (n : Nat) : State :=
  match linkIsland n with
  | some i => { s with clk := { s.clk with gated := s.clk.gated &&& ~~~ (BitVec.ofNat 13 (2 ^ i)) } }
  | none => s

/-- The receiver takes a word (R17, R18); one held back by the jig follows it. -/
def Link.take (l : Link) (mid : Nat) (word : BitVec 256) : Link :=
  { l with taken := l.taken ++ [(mid, word)] ++ l.late.toList, late := none, seq := l.seq + 1, phase := 0 }

/-- A transfer whose repeat fails too (R19, R219): the tamper source and RESOURCE, or JIG. -/
def State.linkFails (s : State) (n : Nat) (op : OpRef) : State :=
  match s.jigMode n, keyBus n with
  | some _, _ => s.failOp op stJig
  | none, some rx => (s.raise srcKeybus 0 rx).failOp op stResource
  | none, none => (s.raise srcLink 0 n).failOp op stResource

/-- The row of a key load as its check bits find it (R29, R31, R216): a single-bit error is corrected, the row rewritten and
the correction counted; an uncorrectable error retires the row, whose contents are lost, and no share goes out. -/
def State.readRow (s : State) (op : OpRef) : State × Bool :=
  match op with
  | .keyLoad slot ecc _ =>
    match ecc, s.phys .keyRow slot with
    | .corrected, some p => (((s.keyFault slot 1).keyEvent 0).strike .keyRow p, true)
    | .uncorrectable, some p => ((s.keyFault slot 2).loseRow p, false)
    | _, _ => (s, true)
  | _ => (s, true)

/-- A parity error of the key bus that the repeat repairs is kept in KEY_EVENTS and KEY_FAULT (R219, R226). -/
def State.busRepeat (s : State) (n : Nat) (op : OpRef) : State :=
  match keyBus n, op with
  | some _, .keyLoad slot _ _ => (s.keyFault slot 3).keyEvent 2
  | some _, _ => s.keyEvent 2
  | none, _ => s

/-- A word is taken at the end of a link; a branch of the key bus keeps no key share (R198). -/
def State.deliver (s : State) (link mid : Nat) (word : BitVec 256) : State :=
  let l := s.link link
  s.setLink link (if (keyBus link).isSome then { l with seq := l.seq + 1, phase := 0 } else l.take mid word)

/-- TRANSFER (R16, R17, R19, R20, R219, R503). A repeat that succeeds is a Corrected Internal Error (R114). -/
def execTransfer (link mid : Nat) (word : BitVec 256) (first second : Try) (op : OpRef) (s : State) : Out :=
  let l := s.link link
  if !s.up || !s.midAppears mid || l.phase ≠ 0 then .next s
  else if s.gateShut link then .next (s.failOp op stRetired)
  else
    let rate := ((s.jigMode link).map (·.2)).getD 0
    if !s.canDraw 4 rate then .next (s.ask 4 rate) else
    let s := s.wake link
    let (s, ok) := if (keyBus link).isSome then s.readRow op else (s, true)
    if !ok then .next (s.failOp op stKeyAbsent) else
    let (hit, s) : Option Nat × State := match s.jigMode link with
      | none => (none, s)
      | some (m, rate) =>
        let (v, s) := s.draw 4 rate
        (if v = 0 then some m else none, s)
    let clean (t : Try) : Bool := t.parityOk && t.seqOk
    match hit with
    | some 0 => .next (s.setLink link { l with phase := 1 })
    | some 2 =>
      if l.late.isNone then .next (s.setLink link { l with late := some (mid, word), seq := l.seq + 1 })
      else .next (s.deliver link mid word)
    | _ =>
      if clean first && hit.isNone then .next (s.deliver link mid word)
      else if clean second then .next (((s.busRepeat link op).aerLog .correctedInternal 0 0).deliver link mid word)
      else .next (s.linkFails link op)

/-- LINK_ACK_TIMEOUT (R20): 4,096 cycles without an acknowledgement; a transfer that the jig dropped ends with JIG. A gated
receiver is not hung: the request has woken it (R16). -/
def execLinkAckTimeout (link mid : Nat) (op : OpRef) (s : State) : Out :=
  let l := s.link link
  if !s.up || !s.midAppears mid || s.gateShut link then .next s else
  let s := s.wake link
  if l.phase = 1 then .next ((s.setLink link { l with phase := 0 }).failOp op stJig)
  else .next ((s.raise srcLink 0 link).failOp op stResource)

/-! ### DMA engines (R402) -/

/-- Bytes of I-space before a block is written, kept until ISYNC (R333). -/
def staleBlocks (m : CoreMem) (a n : Nat) : Tab Bytes :=
  if n = 0 then m.stale else
  (upto ((a + n - 1) / 16 - a / 16 + 1)).foldl (fun t k =>
    let b := a / 16 + k
    if t.any (·.1 == b) then t else tset [] t b (mread m.i (16 * b) 16)) m.stale

/-- A DMA engine's store, byte by byte, seen by every core at once; reservations on it are lost (R352). -/
def State.dmaPut (s : State) (d : DmaEnd) : Nat → Bytes → State
  | _, [] => s
  | k, b :: t =>
    let c := d.core.val
    let m := s.cmem c
    let a := d.addr + k
    let s1 :=
      if d.space = 0 then s.setCmem c { m with i := mset m.i a b }
      else match dLoc false a with
        | .x o => s.setCmem c { m with x := mset m.x o b }
        | .y o => s.setCmem c { m with y := mset m.y o b }
        | .shared o => s.sharedStore none o [b]
        | _ => s
    s1.dmaPut d (k + 1) t

/-- A destination that every byte of a range can be stored to. -/
def State.dmaWritable (d : DmaEnd) (n : Nat) : Bool :=
  if d.space = 0 then d.addr + n ≤ 0x40000
  else (upto n).all fun k => match dLoc false (d.addr + k) with
    | .x _ => true
    | .y _ => true
    | .shared _ => true
    | _ => false

/-- The first part of a descriptor's ranges that the engine's MPU refuses: source R, destination W. -/
def dmaRefused (m : Mpu) (src dst : DmaEnd) (n : Nat) : Option Flt :=
  match mpuCheck m src.space 0 m.dmaPl.toNat vMpuData (dmaParts src.addr n) 0 with
  | some f => some f
  | none => mpuCheck m dst.space 1 m.dmaPl.toNat vMpuData (dmaParts dst.addr n) 0

/-- A descriptor's parity errors (R29): each is counted against the engine and the descriptor is run again, until the third
within 1 s retires the engine. -/
def State.dmaParity (s : State) (e : Nat) : Nat → State
  | 0 => s
  | n + 1 => if s.condemned .dmaEngine e then s else (s.strike .dmaEngine e).dmaParity e n

/-- DMA_DESCRIPTOR (R29, R402): every part is checked before a byte moves; a refusal is recorded, and the operation that asked
completes with ACCESS. On an engine whose parity errors retire it the operation completes with RETIRED (log entry 102). -/
def execDmaDescriptor (e : Fin 8) (d : DmaDesc) (s : State) : Out :=
  let m := s.mpu (16 + e.val)
  if !s.up then .next s
  else if (s.phys .dmaEngine e.val).isNone then .next (s.failOp d.op stRetired) else
  let s := s.dmaParity e.val d.parityErrors
  if s.condemned .dmaEngine e.val then .next (s.failOp d.op stRetired)
  else match dmaRefused m d.src d.dst d.len with
    | some f =>
      let s := match f.viol with
        | some v => s.mpuRecord (16 + e.val) (0x60 + e.val) { v with part := min v.part 31 }
        | none => s
      .next (s.failOp d.op stAccess)
    | none =>
      let b := (upto d.len).map (s.dmaByte d.src)
      if b.any (·.isNone) || !State.dmaWritable d.dst d.len then .next (s.failOp d.op stAccess)
      else
        let c := d.dst.core.val
        let k := s.cmem c
        let s := if d.dst.space = 0 then s.setCmem c { k with stale := staleBlocks k d.dst.addr d.len } else s
        .next (s.dmaPut d.dst 0 (b.map (·.getD 0)))

/-! ### Buffers (R128) -/

/-- A command writes the buffer its issuer names: by host writes for a function, through DMA engine 0 and its MPU for a
tenant core. Too small: LENGTH with the size; a move that may not be made: ACCESS. -/
def State.writeBuffer (s : State) (party addr room : Nat) (data : Bytes) : State × Nat × Bytes :=
  if room < data.length then (s, stLength, le 4 data.length) else
  match midFn party, midCore party with
  | some fn, _ => if s.mayMove fn then (s.bufferWrite fn addr data, stOk, []) else (s, stAccess, [])
  | none, some c =>
    if h : c < 14 then
      let d : DmaEnd := { space := 1, core := ⟨c, h⟩, addr := addr % 2 ^ 32 }
      let m := s.mpu 16
      match mpuCheck m 1 1 m.dmaPl.toNat vMpuData (dmaParts d.addr data.length) 0 with
      | some f => (s.bufferViolation f, stAccess, [])
      | none => if State.dmaWritable d data.length then (s.dmaPut d 0 data, stOk, []) else (s, stAccess, [])
    else (s, stAccess, [])
  | none, none => (s, stAccess, [])

end Sys2Proof.Machine
end

