-- ==== Sys2Proof/Machine/Contactless.lean ====
section
/-! DEFINITION. Sys2Proof/Machine/Contactless.lean: the field, tag mode, Clasp and the Locket commands (R452 to R458, R462
to R474, R478). -/

namespace Sys2Proof.Machine

/-! ### Modes and activations (R453, R454, R457) -/

/-- The mode asked for and the mode in force: 0 off, 1 tag, 2 reader, 3 tag with reader mode inside BADGE_READ. -/
def State.clAsked (s : State) : BitVec 2 := BitVec.ofNat 2 (fld s.cl.ctrl 1 0)

/-- Tag mode is in force: in FIELD, and in MAIN under modes 1 and 3 while no BADGE_READ runs. -/
def State.tagMode (s : State) : Bool :=
  s.pwr.state == .field || (s.up && (s.cl.mode == 1 || s.cl.mode == 3) && s.cl.badge.isNone)

/-- The module answers as a tag: an activation with its UID. -/
def State.tagLive (s : State) : Bool := s.tagMode && s.cl.fieldTag && s.cl.uid.isSome && !s.cl.silent

/-- A tag's state as it stands without an activation. -/
def idleTag (c : Cl) : Cl :=
  { c with uid := none, tagState := 0, star := false, proto := false, rate := if c.badge.isSome then c.rate else 0, fsd := 256, chain := [], toSend := [],
           lastBlock := [], actFails := 0, scanned := none, silent := false }

/-- A UID: 0x08, then 24 random bits, byte 0 lowest (R456). -/
def uidOf (n : Nat) : BitVec 32 := BitVec.ofNat 32 (8 + 256 * n)

/-- In MAIN, tag mode begins to answer in a field once it has a UID from the noise harvest (R457, R525). -/
def State.mainUid (s : State) : State :=
  if s.up && s.tagMode && s.cl.fieldTag && s.cl.uid.isNone && !s.cl.silent then
    s.withDraw 4 24 fun n s => { s with cl := { s.cl with uid := some (uidOf n) } }
  else s

/-- A mode change takes effect once no session and no BADGE_READ stands in its way (R479). -/
def State.modeTouch (s : State) : State :=
  if !s.up || s.cl.clasp.isSome || s.cl.badge.isSome || s.cl.mode = s.clAsked then s else
  let was := s.tagMode
  let s := { s with cl := { s.cl with mode := s.clAsked } }
  (if was && !s.tagMode then { s with cl := idleTag s.cl } else s).mainUid

/-- A session ends, and a mode change that waited for it takes effect. -/
def State.endSession (s : State) : State := s.endClasp.modeTouch

/-- VFIELD is supplied (R455): by the field's level, but not during a seal-journal write in FIELD. -/
def State.vfieldOn (s : State) : Bool :=
  s.cl.vfield && !(s.pwr.state == .field && (s.cl.mark.map (·.begun)).getD false)

/-- FIELD_RISE (R454, R457): thresholds passed rising. -/
def execFieldRise (field : Nat) (s : State) : Out :=
  let c := s.cl
  let began := !c.fieldTag && 15 ≤ field
  let c1 : Cl := { c with fieldTag := c.fieldTag || 15 ≤ field, fieldWrite := c.fieldWrite || 30 ≤ field,
                          vfield := c.vfield || 45 ≤ field }
  let s : State := { s with pwr := { s.pwr with field := field }, cl := c1 }
  if began then
    let s : State := { s with cl := { idleTag s.cl with cellsFailed := 0 } }
    .next ((s.clEvent 0).settle.mainUid)
  else .next s

/-- FIELD_FALL (R454, R457, R471, R472): below 1.3 A/m the activation ends; in FIELD an entry under way stays torn. -/
def execFieldFall (field : Nat) (s : State) : Out :=
  let c := s.cl
  let ended := c.fieldTag && field < 13
  let c1 : Cl := { c with fieldTag := c.fieldTag && 13 ≤ field, fieldWrite := c.fieldWrite && 27 ≤ field,
                          vfield := c.vfield && 40 ≤ field }
  let s : State := { s with pwr := { s.pwr with field := field }, cl := c1 }
  if ended then
    let s := if s.pwr.state = .field then s.tearMark else s.finishMark
    let s := if s.cl.badge.isNone then s.dropClasp else s
    let s : State := { s with cl := idleTag s.cl }
    .next ((s.clEvent 1).settle.modeTouch)
  else .next s

/-- LOCKET_NOISE_READY (R458, R478): in FIELD the UID comes from a Locket cell that passed; without one the tag stays
silent. -/
def execLocketNoiseReady (pass : BitVec 2) (s : State) : Out :=
  if s.pwr.state ≠ .field || !s.cl.fieldTag || s.cl.uid.isSome || s.cl.silent then .next s
  else if pass = 0 then
    .next (({ s with cl := { s.cl with cellsFailed := 3, silent := true, noiseFail := true } } : State).clEvent 8)
  else
    let (n, s) := s.drawAo 24
    .next { s with cl := { s.cl with uid := some (uidOf n), cellsFailed := ~~~ pass, noiseFail := false } }

/-- LOCKET_NOISE_CELL_FAIL (R478). -/
def execLocketNoiseCellFail (cell : Fin 2) (s : State) : Out :=
  if s.pwr.state ≠ .field || !s.cl.fieldTag then .next s else
  let c := s.cl.cellsFailed ||| BitVec.ofNat 2 (2 ^ cell.val)
  let s := { s with cl := { s.cl with cellsFailed := c } }
  if c = 3 && !s.cl.silent then
    .next (({ s with cl := { s.cl with silent := true, noiseFail := true } } : State).endSession.clEvent 8)
  else .next s

/-! ### ISO/IEC 14443-3 and -4 (R452, R456, R458) -/

/-- A frame leaves the module. -/
def State.emit (s : State) (b : Bytes) : State := { s with cl := { s.cl with sent := s.cl.sent ++ [b] } }

/-- The state a card falls back to: IDLE, or HALT when it was woken from HALT. -/
def State.tagBack (s : State) : State :=
  { s with cl := { s.cl with tagState := if s.cl.star then 3 else 0, star := false } }

def State.tagReady (s : State) (star : Bool) : State :=
  ({ s with cl := { s.cl with tagState := 1, star := star } } : State).emit [0x04, 0x00]

/-- REQA (R458): IDLE to READY; not accepted where READY or ACTIVE stands. -/
def execReqa (s : State) : Out :=
  if !s.tagLive || s.cl.proto || s.cl.tagState = 3 then .next s
  else if s.cl.tagState = 0 then .next (s.tagReady false)
  else .next s.tagBack

/-- WUPA (R458): as REQA, and from HALT too. -/
def execWupa (s : State) : Out :=
  if !s.tagLive || s.cl.proto then .next s
  else if s.cl.tagState = 0 then .next (s.tagReady false)
  else if s.cl.tagState = 3 then .next (s.tagReady true)
  else .next s.tagBack

/-- BCC: the exclusive-or of the UID's bytes (R456). -/
def bccOf (u : BitVec 32) : BitVec 8 := u.truncate 8 ^^^ (u >>> 8).truncate 8 ^^^ (u >>> 16).truncate 8 ^^^ (u >>> 24).truncate 8

/-- ANTICOLLISION (R456, R458): a tag whose UID begins with the bits sent answers with the rest and BCC. -/
def execAnticollision (level nbits : Nat) (bits : BitVec 32) (s : State) : Out :=
  match s.cl.uid with
  | none => .next s
  | some u =>
    if !s.tagLive || s.cl.tagState ≠ 1 || level ≠ 1 || 32 < nbits || bits.toNat % 2 ^ nbits ≠ u.toNat % 2 ^ nbits then .next s
    else .next (s.emit (le ((47 - nbits) / 8) ((u.toNat + 2 ^ 32 * (bccOf u).toNat) / 2 ^ nbits)))

/-- SELECT (R456): ACTIVE, with SAK 0x20. -/
def execSelectI (level : Nat) (uid : BitVec 32) (bcc : BitVec 8) (s : State) : Out :=
  if !s.tagLive || s.cl.tagState ≠ 1 then .next s
  else if level = 1 && s.cl.uid = some uid && bcc = bccOf uid then
    .next (({ s with cl := { s.cl with tagState := 2 } } : State).emit [0x20])
  else .next s.tagBack

/-- HALT, and the end of the session and of the protocol (R458). -/
def State.tagHalt (s : State) : State :=
  let s := s.endSession
  { s with cl := { s.cl with tagState := 3, star := false, proto := false, rate := 0, chain := [], toSend := [], lastBlock := [] } }

/-- HLTA (R458). -/
def execHlta (s : State) : Out := if s.tagLive && s.cl.tagState = 2 then .next s.tagHalt else .next s

/-- TA(1) (R456): in FIELD 106 and 212 kbit/s; in MAIN from the rate mask, with the same divisor both ways. -/
def State.ta1 (s : State) : Nat :=
  if s.pwr.state = .field then 0x91
  else
    let m := fld s.cl.ctrl 5 2 / 2
    0x80 + m + 16 * m

/-- FSD by FSDI. -/
def fsdOf (i : Nat) : Nat := [16, 24, 32, 40, 48, 64, 96, 128].getD i 256

/-- RATS (R456, R458): opens the protocol; a second one meets a protocol already open. -/
def execRats (fsdi _cid : BitVec 4) (s : State) : Out :=
  if !s.tagLive || s.cl.tagState ≠ 2 || s.cl.proto then .next s
  else .next (({ s with cl := { s.cl with proto := true, fsd := fsdOf fsdi.toNat } } : State).emit
    [0x05, 0x78, BitVec.ofNat 8 s.ta1, 0x20, 0x00])

/-- The protocol is open to the PCD. -/
def State.tagOpen (s : State) : Bool := s.tagLive && s.cl.tagState == 2 && s.cl.proto

/-- PPS (R452): a rate that TA(1) offers, the same both ways. -/
def execPps (dri dsi : BitVec 2) (s : State) : Out :=
  let d := dri.toNat
  if !s.tagOpen || dri ≠ dsi || (d ≠ 0 && s.ta1 / 2 ^ (d - 1) % 2 = 0) then .next s
  else .next (({ s with cl := { s.cl with rate := dri.zeroExtend 4 } } : State).emit [0xD0])

/-- S_DESELECT (R458). -/
def execSDeselect (s : State) : Out := if s.tagOpen then .next (s.emit [0xC2]).tagHalt else .next s

/-- A message cut into blocks of a size. -/
def blocksOf : Nat → Nat → Bytes → List Bytes
  | 0, _, b => [b]
  | f + 1, n, b => if b.length ≤ n || n = 0 then [b] else b.take n :: blocksOf f n (b.drop n)

/-- A Clasp message leaves in I-blocks, chained where it is long; each block but the first waits for the PCD's R(ACK). -/
def State.sendMsg (s : State) (m : Bytes) : State :=
  match blocksOf m.length (s.cl.fsd - 3) m with
  | [] => s
  | b :: t => ({ s with cl := { s.cl with toSend := t, lastBlock := b, chain := [] } } : State).emit b

/-- CHAINED_I_BLOCK (R452): a block that is not the last is kept and acknowledged. -/
def execChainedIBlock (inf : List (BitVec 8)) (s : State) : Out :=
  if !s.tagOpen || s.cl.wtx then .next s
  else .next (({ s with cl := { s.cl with chain := (s.cl.chain ++ inf).take 1025 } } : State).emit [0xA2])

/-- R_BLOCK (R452): the next block of a chained response; `number`: the block carries the number of the module's last
block, which is then sent again. -/
def execRBlock (ack number : Bool) (s : State) : Out :=
  if !s.tagOpen then .next s
  else if number then .next (s.emit s.cl.lastBlock)
  else match ack, s.cl.toSend with
    | true, b :: t => .next (({ s with cl := { s.cl with toSend := t, lastBlock := b } } : State).emit b)
    | _, _ => .next (s.emit [0xA2])

/-! ### Clasp (R463 to R466) -/

/-- The counter-mode KDF of R463. -/
def kdf (key label ctx : Bytes) : Bytes :=
  let part (n : Byte) : Bytes := cmac key (n :: label ++ [0] ++ ctx ++ [1, 0])
  part 1 ++ part 2

def claspKey (m uid : Bytes) : Bytes := kdf m [0x43, 0x4C, 0x53, 0x50] (BitVec.ofNat 8 uid.length :: uid)
def sessionKey (k na nb : Bytes) : Bytes := kdf k [0x53, 0x45, 0x53, 0x53] (na ++ nb)

/-- T_A and T_B (R464). -/
def tagA (k na nb uid : Bytes) : Bytes := cmac k (0x41 :: nb ++ na ++ uid)
def tagB (k na nb uid : Bytes) : Bytes := cmac k (0x42 :: na ++ nb ++ uid)

/-- A master key's 32 bytes, in network order. -/
def masterKey (k : ClaspKey) : Bytes := be 32 k.key.toNat

/-- A nonce: from the harvest in MAIN, from the Locket cells in FIELD (R478); without its bits what needs it waits (R525). -/
def State.withNonce (s : State) (f : Bytes → State → State) : State :=
  if s.up then s.withDraw 4 128 fun n s => f (be 16 n) s else f (be 16 (s.drawAo 128).1) (s.drawAo 128).2

/-- A frame of either party's side of a session (R465): direction 1 from the PCD, 2 from the PICC. -/
def secureFrame (ks : Bytes) (dir ctr : Nat) (plain : Bytes) : Bytes :=
  let head := (0x10 : Byte) :: be 4 ctr
  let (ct, tag) := gcmSeal ks (be 4 dir ++ be 8 ctr) head plain
  head ++ ct ++ tag.take 12

/-- What a SECURE frame carries, when its CTR is the one expected and its tag holds. -/
def openFrame (ks : Bytes) (dir ctr : Nat) (msg : Bytes) : Option Bytes :=
  if msg.length < 17 || sub msg 0 5 ≠ (0x10 : Byte) :: be 4 ctr then none else
  let ct := sub msg 5 (msg.length - 17)
  let (pt, tag) := gcmOpen ks (be 4 dir ++ be 8 ctr) (sub msg 0 5) ct
  if tag.take 12 = msg.drop (msg.length - 12) then some pt else none

/-- A failed authentication is counted (R466). -/
def State.authFail (s : State) : State :=
  ({ s with cl := { s.cl with authFails := satInc s.cl.authFails 65535, actFails := s.cl.actFails + 1 } } : State).clEvent 4

/-- An ERROR frame ends an attempt (R464). -/
def State.claspError (s : State) (code : Byte) : State := s.endSession.sendMsg [0x7F, code]

/-- The module's SECURE frame as PICC, and the end of a session whose CTR runs out (R465). -/
def State.sendSecure (s : State) (c : Clasp) (plain : Bytes) : State :=
  let s := s.sendMsg (secureFrame c.ks 2 c.txCtr plain)
  let s := { s with cl := { s.cl with clasp := some { c with txCtr := c.txCtr + 1, lastAt := s.now } } }
  if 0xFFFFFFFF ≤ c.txCtr + 1 then s.endSession else s

/-- The whole message that a last block completes. -/
def State.message (s : State) (inf : Bytes) : Bytes := s.cl.chain ++ inf

/-- AUTH1 (R464, R466). -/
def execAuth1 (inf : List (BitVec 8)) (s : State) : Out :=
  if !s.tagOpen || s.cl.wtx then .next s else
  let m := s.message inf
  let s0 := s
  let s := s.endSession
  let ulen := leAt m 18 1
  let key := tget { role := 0, key := 0 } s.cl.keys (leAt m 1 1)
  if 8 ≤ s.cl.actFails then .next (s.claspError 5)
  else if 1024 < m.length || m.length ≠ 19 + ulen || leAt m 0 1 ≠ 1 || !(ulen = 4 || ulen = 7 || ulen = 10) then
    .next (s.authFail.claspError 3)
  else if 7 < leAt m 1 1 || key.role.toNat % 4 = 0 then .next (s.authFail.claspError 1)
  else
    if s0.up && !s0.canDraw 4 128 then .next (s0.ask 4 128) else
    .next (s.withNonce fun nb s =>
      let na := sub m 2 16
      let uid := sub m 19 ulen
      let k := claspKey (masterKey key) uid
      let c : Clasp := { isOpen := false, keyNo := leAt m 1 1, role := key.role, credUid := uid, na := na, nb := nb, k := k,
                         lastAt := s.now }
      ({ s with cl := { s.cl with clasp := some c } } : State).sendMsg ((0x02 : Byte) :: nb ++ tagB k na nb uid))

/-- AUTH3 (R464): the session opens, and the first SECURE frame carries status OK. -/
def execAuth3 (inf : List (BitVec 8)) (s : State) : Out :=
  if !s.tagOpen || s.cl.wtx then .next s else
  let m := s.message inf
  match s.cl.clasp with
  | none => .next (s.claspError 4)
  | some c =>
    if c.isOpen then .next (s.claspError 4)
    else if m.length ≠ 17 || leAt m 0 1 ≠ 3 then .next (s.authFail.claspError 3)
    else if m.drop 1 ≠ tagA c.k c.na c.nb c.credUid then .next (s.authFail.claspError 2)
    else .next ((s.sendSecure { c with isOpen := true, ks := sessionKey c.k c.na c.nb } [0]).clEvent 2)

/-- SESSION_TIMEOUT (R465): 30 s without a frame. -/
def execSessionTimeout (s : State) : Out :=
  match s.cl.clasp with
  | none => .next s
  | some c => if s.now < c.lastAt + 30 * secC || s.cl.badge.isSome then .next s else .next s.endSession

/-! ### Locket commands (R467 to R471) -/

/-- Zeroize fuses left; 0 under TAMPER (R451). -/
def State.fusesLeft (s : State) : Nat := if s.tmp.policySealed then 32 - s.tmp.zfuses else 0

/-- The byte address of a slot of the snapshot ring (R306). -/
def slotAddr (n : Nat) : Nat := 1918 * 65536 + 2048 * n

/-- A granule may not decode: a torn program left it, or an erase of its sector stands abandoned (R304, R317). -/
def suspect (f : Fls) (a : Nat) : Bool :=
  f.checks.any (·.1 == flGranule f a) || f.torn.any (·.1 == physSector f (a / 65536))

/-- The slot with the highest snapshot sequence among those whose granule decodes; bit n of `bad` says of a suspect one that it
does not (R468). -/
def State.scanRing (s : State) (bad : Nat) : Option Nat :=
  ((upto 4096).foldl (fun (best : Option (Nat × Nat)) n =>
    let q := ofLe (flBytes s.fls (slotAddr n) 8)
    if q = 2 ^ 64 - 1 || (suspect s.fls (slotAddr n) && bad.testBit n) then best
    else match best with
      | some (_, b) => if b < q then some (n, q) else best
      | none => some (n, q)) none).map (·.1)

/-- The current snapshot slot: CL_SNAP, or the activation's one scan (R468). -/
def State.currentSlot (s : State) : Option Nat × State :=
  if s.cl.snapValid then (some s.cl.snapSlot.toNat, s)
  else match s.cl.scanned with
    | some r => (r, s)
    | none =>
      let (bad, s) := s.freeVal 4096
      let r := s.scanRing bad
      (r, { s with cl := { s.cl with scanned := some r } })

/-- READ_SNAPSHOT's answer (R468): the bytes as read, with REJECTED where a granule cannot be corrected; whether a suspect one
can is open. -/
def State.readSlot (s : State) (a n : Nat) : State × Nat × Bytes :=
  let data := flBytes s.fls a n
  let first := a / 8
  if (upto ((a + n + 7) / 8 - first)).any fun k => suspect s.fls (8 * (first + k)) then
    let (b, s) := s.freeVal 1
    (s, if b = 0 then stOk else stRejected, data)
  else (s, stOk, data)

/-- Where the next MARK looks first when the journal has no free entry. -/
def jrnStart (f : Fls) : Nat :=
  match jrnNewest f with
  | some (i, _) => (i + 1) % 512
  | none => 0

def State.locketInfo (s : State) : Bytes :=
  let flags := b2n s.tmp.aoLost + 2 * b2n s.cl.snapValid + 4 * b2n s.cl.noiseFail
  le 8 s.lc.serial.toNat ++ le 1 (b2n s.tmp.policySealed) ++ le 1 s.fusesLeft ++ le 1 s.pwr.state.code ++ le 1 flags ++
  le 2 ((jrnNext s.fls).getD (jrnStart s.fls)) ++ le 2 (jrnCount s.fls 0)

def State.locketEvidence (s : State) : Bytes :=
  let t := s.tmp
  le 4 t.flags.toNat ++ le 1 t.pend.length ++ le 1 t.overflow ++ le 2 0 ++ le 4 t.aoseq ++ le 2 s.cl.authFails ++
  le 1 (b2n s.tim.shadowPresent) ++ le 1 0 ++ le 6 (s.tim.shadow.toNat / 2 ^ 30) ++ le 4 (s.tim.shadow.toNat % 2 ^ 30) ++
  (t.pend.map fun e => le 1 e.index ++ le 1 e.resp ++ le 1 e.state ++ le 1 0 ++ le 4 e.seq).flatten

/-- An entry of the journal as a MARK forms it (R469). -/
def State.markEntry (s : State) (c : Clasp) (i jseq aoseq kind : Nat) (text : Bytes) : Bytes :=
  let main := s.up
  let gts : Nat := if main then s.gts.toNat else 3
  let flags := 0xFC + b2n s.tmp.aoLost + 2 * b2n main
  let pad (n : Nat) (b : Bytes) : Bytes := b ++ List.replicate (n - b.length) 0xFF
  let body := le 4 (jseq * 16) ++ le 1 1 ++ le 1 flags ++ le 1 c.keyNo ++ le 1 c.credUid.length ++ pad 10 c.credUid ++
    le 2 0xFFFF ++ le 4 aoseq ++ le 12 gts ++ le 2 kind ++ le 2 text.length ++ pad 200 text
  body ++ s.jrnMac i body

/-- MARK's checks in the order of R471, then S(WTX), the AO sequence number and the entry. Otherwise a status. -/
def State.mark (s : State) (c : Clasp) (arg : Bytes) : State ⊕ Nat :=
  let kind := leAt arg 0 2
  let n := leAt arg 2 2
  let kindOk := (1 ≤ kind && kind ≤ 5) || 0x8000 ≤ kind
  if !c.role.getLsbD 1 then .inr stAccess
  else if arg.length < 4 || 200 < n || arg.length ≠ 4 + n || !kindOk then .inr stRejected
  else match jrnNext s.fls, jrnSeq s.fls with
    | some i, some q =>
      if s.pwr.state = .field && !s.cl.fieldWrite then .inr stResource
      else
        let a := s.tmp.aoseq
        let e := s.markEntry c i q a kind (arg.drop 4)
        let m : MarkOp := { index := i, jseq := q, aoseq := a, entry := e, made := 0 }
        let s := ({ s with tmp := { s.tmp with aoseq := (a + 1) % 2 ^ 32 }
                           cl := { s.cl with mark := some m, wtx := true, chain := [] } } : State)
        .inl (s.emit [0xF2, 3])
    | _, _ => .inr stArchiveFull

/-- A Locket command (R467): status and response, and whether the session ends with it. -/
def State.locket (s : State) (c : Clasp) (p : Bytes) : State × Nat × Bytes × Bool :=
  let arg := p.drop 1
  let reads := c.role.toNat % 4 ≠ 0
  match leAt p 0 1, p.length with
  | 6, 1 => (s, stOk, [], true)
  | 1, n => if !reads then (s, stAccess, [], false) else if n ≠ 1 then (s, stRejected, [], false)
    else (s, stOk, s.locketInfo, false)
  | 2, n => if !reads then (s, stAccess, [], false) else if n ≠ 1 then (s, stRejected, [], false)
    else (s, stOk, s.locketEvidence, false)
  | 3, n =>
    let o := leAt arg 0 2
    let l := leAt arg 2 2
    if !reads then (s, stAccess, [], false)
    else if n ≠ 5 || l = 0 || 1024 < l || 2048 < o + l then (s, stRejected, [], false)
    else match s.currentSlot with
      | (some k, s) => match s.readSlot (slotAddr k + o) l with
        | (s, st, b) => (s, st, b, false)
      | (none, s) => (s, stRejected, [], false)
  | 4, n =>
    let i := leAt arg 0 2
    if !reads then (s, stAccess, [], false)
    else if n ≠ 3 || 511 < i then (s, stRejected, [], false)
    else (s, stOk, le 1 (jrnState s.fls i) ++ le 1 0 ++ jrnBytes s.fls i, false)
  | _, _ => (s, stRejected, [], false)

/-- A SECURE frame that arrives in tag mode. -/
def State.secureTag (s : State) (inf : Bytes) : State :=
  match s.cl.clasp with
  | none => s
  | some c =>
    if !c.isOpen then s.claspError 4 else
    match openFrame c.ks 1 c.rxCtr (s.message inf) with
    | none => s.endSession
    | some p =>
      let c := { c with rxCtr := c.rxCtr + 1, lastAt := s.now }
      let s : State := { s with cl := { s.cl with clasp := some c } }
      if leAt p 0 1 = 5 then
        match s.mark c (p.drop 1) with
        | .inl s' => s'
        | .inr st =>
          let s := if st = stArchiveFull && (jrnNext s.fls).isNone then s.clEvent 6 else s
          s.sendSecure c [BitVec.ofNat 8 st]
      else
        let (s, st, r, last) := s.locket c p
        let s := s.sendSecure c (BitVec.ofNat 8 st :: r)
        if last then s.endSession else s

/-- A custody-mark record of a valid entry (R474): bracketed unless its MAIN flag is set. -/
def State.markRecord (s : State) (i : Nat) : State :=
  let e := jrnBytes s.fls i
  if leAt e 5 1 / 2 % 2 = 1 then s.markMain i else s.bracketRec 0x0040 5 (some (leAt e 0x14 4)) (s.markBody i)

/-- A MARK whose 65 programs are made: CL_EVENTS.MARK, its record in MAIN, and the response (R471, R474). -/
def State.markDone (s : State) (m : MarkOp) : State :=
  let s := ({ s with cl := { s.cl with mark := none, wtx := false } } : State).markCommitted m
  match s.cl.clasp with
  | some c => s.sendSecure c (0 :: (le 2 m.index ++ le 4 m.jseq ++ le 4 m.aoseq))
  | none => s

/-- Step 3 begins (R471): in MAIN an erase that runs in bank 3 is suspended by the controller (R476). -/
def State.markBegin (s : State) (m : MarkOp) : State :=
  if m.begun then s else
  let erases : Bool := match s.fls.running with
    | some (.erase ls) => ls / 512 == 3
    | _ => false
  let p := s.up && erases
  let s := if p then s.flPause (some 3) else s
  { s with cl := { s.cl with mark := some { m with begun := true, paused := p } } }

/-- S_WTX_RESPONSE (R471, R476): the entry's programs proceed, `made` of them so far; before the first, a field fallen
below the write threshold ends the MARK with RESOURCE, and a hold of R318 keeps it waiting. -/
def execSWtxResponse (made : Nat) (s : State) : Out :=
  match s.cl.mark with
  | none => .next s
  | some m =>
    if !s.tagOpen || !s.cl.wtx then .next s
    else if !m.begun && s.pwr.state = .field && !s.cl.fieldWrite then
      let s : State := { s with cl := { s.cl with mark := none, wtx := false } }
      match s.cl.clasp with
      | some c => .next (s.sendSecure c [BitVec.ofNat 8 stResource])
      | none => .next s
    else if !m.begun && s.up && s.fls.heldOff then .next (s.emit [0xF2, 3])
    else
      let s := s.markBegin m
      let s := s.markTo (min made 65)
      if 65 ≤ max m.made made then .next (s.markDone { m with paused := ((s.cl.mark.map (·.paused)).getD false) }) else .next (s.emit [0xF2, 3])

/-! ### Archiving the journal (R474) -/

/-- Entries in ring order from `start`, up to and including `stop`. -/
def ringWalk (start stop : Nat) : List Nat := (upto ((stop + 512 - start) % 512 + 1)).map fun k => (start + k) % 512

/-- The JSEQ of the newest custody mark that is present in the archive (R474). -/
def State.jrnPresent (s : State) : Option Nat :=
  s.arc.recs.foldl (fun m a =>
    if a.committed && a.r.typ = 0x40 && 260 ≤ a.r.body.length then
      some (max (m.getD 0) (leAt a.r.body 4 4 / 16 % 2 ^ 24))
    else m) none

/-- JOURNAL_ARCHIVE (R474): once in a start, from the entry after the newest one in the archive, up to the newest; the marks
that this start has archived at once are not walked again. -/
def execJournalArchive (s : State) : Out :=
  if !s.up || s.lc.fw ≠ .running || !s.arc.ready || s.cl.walked then .next s else
  let done (s : State) : State := { s with cl := { s.cl with walked := true } }
  match jrnNewest s.fls with
  | none => .next (done s)
  | some (stop, q) =>
    let present := s.jrnPresent
    if present.any (q ≤ ·) then .next (done s) else
    let old := (upto 512).find? fun i => let w := jrnStatus s.fls i
      fld w 3 0 = 0 && some (fld w 27 4) = present && !jrnLost s.fls i
    let walk := ringWalk (((old.map fun i => (i + 1) % 512)).getD ((stop + 1) % 512)) stop
    let valid := walk.filter fun i => jrnState s.fls i == 1 && s.cl.atOnce.all (fld (jrnStatus s.fls i) 27 4 < ·)
    let torn := walk.filter fun i => jrnState s.fls i == 2
    let needs := valid.any fun i => leAt (jrnBytes s.fls i) 5 1 / 2 % 2 == 0
    if needs && s.loop.bracketEnd.isNone then .next s else
    let s := each valid (fun i s => s.markRecord i) s
    let s := match torn.head?, torn.getLast? with
      | some a, some b => s.event 0x0040 5 c0 (le 2 0xFFFF ++ le 2 0 ++ le 4 torn.length ++ le 2 a ++ le 2 b)
      | _, _ => s
    .next (done s)

end Sys2Proof.Machine
end

