-- ==== Sys2Proof/Machine/Badge.lean ====
section
/-! DEFINITION. Sys2Proof/Machine/Badge.lean: reader mode (R459 to R461), the commands of group 0x09 (R479) and the
registers of the contactless block (R481). -/

namespace Sys2Proof.Machine

/-! ### The end of a BADGE_READ -/

/-- BADGE_READ ends (R459, R479): the carrier goes off; UID and identity are given for result 0 only. -/
def State.endBadge (s : State) (b : Badge) (result : Nat) (identity : Bytes) : State :=
  let ok := result = 0
  let uid := if ok then b.uid else []
  let s : State := { s with cl := { s.cl with badge := none, clasp := none, carrier := false, carrierOffAt := s.now } }
  let s := s.clEvent 7
  (s.reply b.party b.tag 0x0902 stOk
    (le 1 result ++ le 1 uid.length ++ sub uid 0 10 ++ (if ok then sub identity 0 16 else List.replicate 16 0))).modeTouch

/-- Reader mode has its carrier: D4 runs from its division (R46, R453). -/
def State.readerOk (s : State) : Bool := s.clk.domPll.getLsbD 4

/-- A BADGE_READ whose carrier is lost, since D4 has moved to bypass, ends as one that finds no reader (R46; log entry 114). -/
def State.carrierCheck (s : State) : State :=
  match s.cl.badge with
  | some b => if s.readerOk then s else s.endBadge b 5 []
  | none => s

/-- What was found when no card authenticated (R479). -/
def badgeResult (b : Badge) : Nat := if b.cards = 0 then 1 else if b.capable then 2 else 3

def State.setBadge (s : State) (b : Badge) : State := { s with cl := { s.cl with badge := some b } }

/-- REQA leaves. -/
def State.poll (s : State) (b : Badge) : State :=
  (s.setBadge { b with stage := .polling, reqaAt := s.now, uid := [] }).emit [0x26]

/-- The card at hand is served: HLTA, then REQA for the next one; eight cards end the operation (R459, R460). -/
def State.nextCard (s : State) (b : Badge) : State :=
  let s := ({ s with cl := { s.cl with clasp := none } } : State).emit [0x50, 0x00]
  if 8 ≤ b.cards then s.endBadge b (badgeResult b) [] else s.poll b

/-- A card that fails its authentication is counted and halted (R461). -/
def State.cardFails (s : State) (b : Badge) : State := (s.authFail).nextCard b

/-- An exchange with a card goes wrong: before its session is open its authentication has failed; an open session ends, and the
card is halted (R461, R465). -/
def State.badAnswer (s : State) (b : Badge) : State :=
  if b.stage = .identity then (s.nextCard b).clEvent 3 else s.cardFails b

/-- The reader's own side of the session ended without an answer, or with an ERROR frame of its own. -/
def State.cardError (s : State) (b : Badge) (code : Byte) : State := (s.emit [0x7F, code]).cardFails b

/-! ### Anticollision and selection (R460) -/

/-- SEL of a cascade level. -/
def selByte (level : Nat) : Byte := if level = 1 then 0x93 else if level = 2 then 0x95 else 0x97

/-- Bits as bytes, the first bit lowest. -/
def packLow (b : List Bool) : Bytes := le ((b.length + 7) / 8) (b.foldr (fun x a => b2n x + 2 * a) 0)

/-- An anticollision frame with the bits resolved so far: SEL, NVB, the bits. -/
def anticolFrame (level : Nat) (bits : List Bool) : Bytes :=
  selByte level :: BitVec.ofNat 8 ((2 + bits.length / 8) * 16 + bits.length % 8) :: packLow bits

/-- The UID bytes that a cascade level's four bytes give: the cascade tag 0x88 is none of them. -/
def levelUid (b : Bytes) : Bytes := if b.headD 0 = 0x88 then (b.drop 1).take 3 else b.take 4

/-- Bits of an anticollision answer: at a collision the branch with 1 comes first. -/
def State.onUidBits (s : State) (b : Badge) (level : Nat) (known bits : List Bool) (collision : Bool) : State :=
  let all := (known ++ bits).take 40
  if collision && all.length < 40 then
    let all := all ++ [true]
    (s.setBadge { b with stage := .anticol level all }).emit (anticolFrame level all)
  else
    let p := packLow all
    let bcc := (p.take 4).foldl (· ^^^ ·) 0
    if all.length = 40 && p.drop 4 = [bcc] then
      (s.setBadge { b with stage := .select level, uid := b.uid ++ levelUid p }).emit (selByte level :: 0x70 :: p)
    else s.poll b

/-- SAK (R460, R461): the next cascade level, RATS, or a card that is not Clasp-capable. -/
def State.onSak (s : State) (b : Badge) (level : Nat) (cascade iso4 : Bool) : State :=
  if cascade && level < 3 then
    (s.setBadge { b with stage := .anticol (level + 1) [] }).emit (anticolFrame (level + 1) [])
  else
    let b := { b with cards := b.cards + 1 }
    if iso4 then (s.setBadge { b with stage := .rats }).emit [0xE0, 0x80] else s.nextCard b

/-- The highest rate that the card's TA(1) and the rate mask allow both ways (R461): 0 to 3. -/
def State.bestRate (s : State) (ta : BitVec 8) : Nat :=
  let ok (k : Nat) : Bool := ta.getLsbD (k - 1) && ta.getLsbD (k + 3) && bit s.cl.ctrl (2 + k)
  if ok 3 then 3 else if ok 2 then 2 else if ok 1 then 1 else 0

/-- The first Clasp pass (R464): the lowest-numbered key with role BADGE, and the UID that anticollision resolved. -/
def State.startAuth (s : State) (b : Badge) : State :=
  match s.cl.keys.find? fun e => e.2.role.getLsbD 2 with
  | none => s.cardFails b
  | some (n, key) =>
    (s.setBadge { b with stage := .nonce }).withNonce fun na s =>
      let c : Clasp := { isOpen := false, keyNo := n, role := key.role, credUid := b.uid, na := na, nb := [],
                         k := claspKey (masterKey key) b.uid, lastAt := s.now }
      let s : State := { s with cl := { s.cl with clasp := some c } }
      (s.setBadge { b with stage := .auth }).emit
        ((0x01 : Byte) :: BitVec.ofNat 8 n :: na ++ [BitVec.ofNat 8 b.uid.length] ++ b.uid)

/-- A Clasp pass that waits for its nonce begins once the harvest gives the bits (R525). -/
def State.badgeDue (s : State) : State :=
  match s.cl.badge with
  | some b => if s.up && b.stage == .nonce then s.startAuth b else s
  | none => s

/-- CARD_ANSWER (R460, R461): an answer that does not belong to the stage changes nothing. -/
def execCardAnswer (frame : CardFrame) (s : State) : Out :=
  match s.cl.badge with
  | none => .next s
  | some b =>
    if !(s.up && s.readerOk) then .next s else
    match b.stage, frame with
    | .polling, .atqa _ => .next ((s.setBadge { b with stage := .anticol 1 [], uid := [] }).emit (anticolFrame 1 []))
    | .anticol l known, .uidBits bits coll => .next (s.onUidBits b l known bits coll)
    | .select l, .sak cascade iso4 => .next (s.onSak b l cascade iso4)
    | .rats, .ats ta =>
      let r := s.bestRate ta
      let s : State := { s with cl := { s.cl with rate := BitVec.ofNat 4 r } }
      .next ((s.setBadge { b with stage := .pps, capable := true }).emit [0xD0, 0x11, BitVec.ofNat 8 (5 * r)])
    | .pps, .pps => .next (s.startAuth b)
    | _, _ => .next s

/-- CARD_RESPONSE_TIMEOUT (R461). -/
def execCardResponseTimeout (s : State) : Out :=
  match s.cl.badge with
  | none => .next s
  | some b =>
    if !s.up then .next s else
    match b.stage with
    | .rats => .next (s.nextCard b)
    | .pps => .next (s.startAuth b)
    | .auth => .next (s.cardFails b)
    | .session => .next (s.cardFails b)
    | .identity => .next (s.badAnswer b)
    | .anticol _ _ => .next (s.poll b)
    | .select _ => .next (s.poll b)
    | _ => .next s

/-! ### Clasp as PCD (R464, R465) -/

/-- AUTH2 (R464): the card's answer is checked, and AUTH3 sent. -/
def execAuth2 (inf : List (BitVec 8)) (s : State) : Out :=
  match s.cl.badge, s.cl.clasp with
  | some b, some c =>
    let m := s.message inf
    if !(s.up && s.readerOk) || b.stage ≠ .auth then .next s
    else if m.length ≠ 33 || leAt m 0 1 ≠ 2 then .next (s.cardError b 3)
    else
      let nb := sub m 1 16
      if m.drop 17 ≠ tagB c.k c.na nb c.credUid then .next (s.cardError b 2)
      else
        let c : Clasp := { c with nb := nb, ks := sessionKey c.k c.na nb, lastAt := s.now }
        let s : State := { s with cl := { s.cl with clasp := some c, chain := [] } }
        .next ((s.setBadge { b with stage := .session }).emit ((0x03 : Byte) :: tagA c.k c.na c.nb c.credUid))
  | _, _ => .next s

/-- A SECURE frame that arrives in reader mode: the card's status OK opens the session, and GET_IDENTITY follows; its
answer gives the badge identity (R461). -/
def State.secureReader (s : State) (b : Badge) (c : Clasp) (inf : Bytes) : State :=
  match openFrame c.ks 2 c.rxCtr (s.message inf) with
  | none => s.badAnswer b
  | some p =>
    let c := { c with rxCtr := c.rxCtr + 1, lastAt := s.now }
    match b.stage with
    | .session =>
      if p ≠ [0] then s.cardFails b
      else
        let f := secureFrame c.ks 1 c.txCtr (Config.openText 3)
        let s : State := { s with cl := { s.cl with clasp := some { c with isOpen := true, txCtr := c.txCtr + 1 }, chain := [] } }
        ((s.setBadge { b with stage := .identity }).emit f).clEvent 2
    | .identity => if p.headD 1 = 0 then (s.endBadge b 0 (p.drop 1)).clEvent 3 else s.badAnswer b
    | _ => s

/-- SECURE_FRAME (R465): in tag mode a Locket command, in reader mode the card's. -/
def execSecureFrame (inf : List (BitVec 8)) (s : State) : Out :=
  match s.cl.badge, s.cl.clasp with
  | some b, some c => if s.up && s.readerOk then .next (s.secureReader b c inf) else .next s
  | none, some _ => if s.tagOpen && !s.cl.wtx then .next (s.secureTag inf) else .next s
  | _, none => .next s

/-- ERROR_FRAME (R464): only the end of the exchange; a card's counts as its failure. -/
def execErrorFrame (inf : List (BitVec 8)) (s : State) : Out :=
  if inf.headD 0 ≠ 0x7F then .next s else
  match s.cl.badge with
  | some b => if s.up && s.cl.clasp.isSome then .next (s.badAnswer b) else .next s
  | none => if s.tagOpen then .next s.endSession else .next s

/-! ### BADGE_READ and its timers (R459) -/

/-- The carrier is off for at least 5.1 ms before it comes on again. -/
def carrierGap : Nat := 51 * msC / 10

/-- BADGE_READ (R459, R479): not taken while another one runs. -/
def execBadgeRead (r : Req) (s : State) : Out :=
  if s.cl.badge.isSome then .next s else
  driner 0x0902 r s fun s =>
    let t := leAt r.payload 0 2
    let none_ (code : Nat) : State := s.reply r.party r.tag 0x0902 stOk (le 1 code ++ List.replicate 27 0)
    let session : Bool := match s.cl.clasp with
      | some c => c.isOpen
      | none => false
    if t = 0 || 10000 < t then s.reply r.party r.tag 0x0902 stRejected []
    else if s.cl.mode.toNat < 2 || !s.readerOk || session then none_ 5
    else if 5 ≤ s.pwr.field then none_ 4
    else
      let at_ := if s.cl.carrierOffAt = 0 then s.now else max s.now (s.cl.carrierOffAt + carrierGap)
      let b : Badge := { party := r.party, tag := r.tag, timeout := t, begun := s.now, reqaAt := at_ }
      { s with cl := { s.cl with badge := some b, carrier := true, clasp := none, chain := [] } }

/-- READER_GUARD_EXPIRY (R459). -/
def execReaderGuardExpiry (s : State) : Out :=
  match s.cl.badge with
  | none => .next s
  | some b =>
    if !(s.up && s.readerOk) || b.stage ≠ .guard || s.now < b.reqaAt + fld s.cl.ctrl 15 8 * (msC / 10) then .next s else .next (s.poll b)

/-- REQA_RETRY (R459): every 10 ms. -/
def execReqaRetry (s : State) : Out :=
  match s.cl.badge with
  | none => .next s
  | some b => if !(s.up && s.readerOk) || b.stage ≠ .polling || s.now < b.reqaAt + 10 * msC then .next s else .next (s.poll b)

/-- BADGE_TIMEOUT (R459). -/
def execBadgeTimeout (s : State) : Out :=
  match s.cl.badge with
  | none => .next s
  | some b => if !s.up || s.now < b.begun + b.timeout * msC then .next s else .next (s.endBadge b (badgeResult b) [])

/-! ### CL_CONFIG, JOURNAL_READ, registers (R479, R481) -/

/-- A write of CL_CTRL: RATES bit 0 always set; a guard time out of range is discarded. -/
def State.clCtrlWrite (s : State) (v : Word) : State :=
  let g := fld v 15 8
  let c := bf 1 0 (fld v 1 0) ||| bf 5 2 (fld v 5 2 / 2 * 2 + 1) |||
    bf 15 8 (if 51 ≤ g && g ≤ 200 then g else fld s.cl.ctrl 15 8)
  ({ s with cl := { s.cl with ctrl := c } } : State).modeTouch

/-- CL_CONFIG (R479). -/
def execClConfig (r : Req) (s : State) : Out :=
  drinerNow 0x0901 r s fun s =>
    let m := leAt r.payload 0 1
    let k := leAt r.payload 1 1
    let g := leAt r.payload 2 2
    if 3 < m || k % 2 = 0 || 15 < k || g < 51 || 200 < g then (s, stRejected, [])
    else (s.clCtrlWrite (bf 1 0 m ||| bf 5 2 k ||| bf 15 8 g), stOk, [])

/-- JOURNAL_READ (R479). -/
def execJournalRead (r : Req) (s : State) : Out :=
  drinerNow 0x0903 r s fun s =>
    let first := leAt r.payload 0 2
    let n := leAt r.payload 2 2
    if 511 < first || n = 0 || 512 < n then (s, stRejected, []) else
    let l := (upto n).map fun k => (first + k) % 512
    let data := (l.map fun i => le 2 i ++ le 1 (jrnState s.fls i) ++ le 1 0 ++ jrnBytes s.fls i).flatten
    let torn := (l.filter fun i => jrnState s.fls i == 2).length
    match s.writeBuffer r.party (leAt r.payload 4 8) (leAt r.payload 12 4) data with
    | (s, st, p) => (s, st, if st = stOk then le 2 n ++ le 2 torn else p)

def State.clRead (s : State) (port : Nat) : Word × State :=
  let c := s.cl
  let session : Bool := match c.clasp with
    | some x => x.isOpen
    | none => false
  match port with
  | 0x0F40 => (bf 1 0 c.mode.toNat ||| bf 2 2 (b2n c.fieldTag) ||| bf 3 3 (b2n c.fieldWrite) |||
      bf 4 4 (b2n s.vfieldOn) ||| bf 5 5 (b2n session) ||| bf 7 6 c.tagState.toNat |||
      bf 8 8 (b2n c.badge.isSome) ||| bf 9 9 (b2n s.readerOk) ||| bf 10 10 (b2n (5 ≤ s.pwr.field && !c.carrier)) |||
      bf 11 11 (b2n c.noiseFail), s)
  | 0x0F41 => (c.ctrl, s)
  | 0x0F42 => (c.events, s)
  | 0x0F43 => (bf 8 0 ((jrnNext s.fls).getD (jrnStart s.fls)) ||| bf 9 9 (b2n (jrnCount s.fls 0 = 0)) |||
      bf 19 10 (jrnCount s.fls 0) ||| bf 29 20 (jrnCount s.fls 2), s)
  | 0x0F44 => (bf 11 0 c.snapSlot.toNat ||| bf 12 12 (b2n c.snapValid), s)
  | 0x0F45 => (bf 15 0 c.authFails, { s with cl := { c with authFails := 0 } })
  | _ => (0, s)

def State.clWrite (s : State) (port : Nat) (v : Word) : State :=
  match port with
  | 0x0F41 => s.clCtrlWrite v
  | 0x0F42 => { s with cl := { s.cl with events := s.cl.events &&& ~~~ v } }
  | 0x0F44 => { s with cl := { s.cl with snapSlot := BitVec.ofNat 12 (fld v 11 0), snapValid := bit v 12 } }
  | _ => s

end Sys2Proof.Machine
end

