-- ==== Sys2Proof/Machine/Retire.lean ====
section
/-! DEFINITION. Sys2Proof/Machine/Retire.lean: retirements and assays (R29 to R35, R215, R234, R235, R252), lockstep
mismatches (R24), the end of an engine operation (R239, R243). -/

namespace Sys2Proof.Machine

/-! ### Assays -/

/-- Two mask draws of the general pool, which a lane assay runs under (R213, R215). -/
def State.assayMasks (s : State) (c : ResClass) : Option (BitVec 64 × State) :=
  match c with
  | .lane => (s.takeMask 1).bind fun x => (x.2.takeMask 1).map fun y => (x.1, y.2.throttle)
  | _ => some (0, s)

/-- A resource is idle: it runs no job and no command. -/
def State.idleRes (s : State) (c : ResClass) (p : Nat) : Bool :=
  match c with
  | .lane => (s.lane p).job.isNone
  | .hashUnit => (s.hunit p).job.isNone && (s.hunit p).workTill ≤ s.now
  | .engine => match s.logical .engine p with
    | some n => !engBusy (s.eng n)
    | none => true
  | _ => true

/-- The stand-in of a reserved lane or unit is idle and takes its place (R215, R234); another resource needs none. -/
def State.standInReady (s : State) (c : ResClass) (p : Nat) : Bool :=
  match c, s.logical c p with
  | .lane, some n => !s.reservedLanes.contains n || s.laneStandIns.isEmpty || (s.laneStandIns.head?.bind s.laneFree).isSome
  | .hashUnit, some n =>
    !s.reservedUnits.contains n || s.unitStandIns.isEmpty || (s.unitStandIns.head?.bind s.hashFree).isSome
  | _, _ => true

/-- The lane that merges with one under assay (R215): the first idle one outside the reservation that is no stand-in, and otherwise
a spare. -/
def State.mergePartner (s : State) (p : Nat) : Option Nat :=
  let wait := s.laneStandIns
  let idle (q : Nat) : Bool := q ≠ p && (s.lane q).job.isNone && !s.laneInAssay q && !s.underAssay .lane q
  let own := ((s.surviving .lane).filter fun n => !s.reservedLanes.contains n && !wait.contains n).filterMap (s.phys .lane)
  (own ++ s.freeSparesOf .lane).find? idle

/-- An assay that is due begins once all it needs is idle: a lane's takes two mask draws and a second lane to merge with
(R215). Its entry in the request table shows MODE 5 (R206). -/
def State.beginAssay (s : State) (c : ResClass) (p : Nat) : State :=
  if !s.underAssay c p || s.assayRuns c p || !s.idleRes c p || !s.standInReady c p then s else
  let run (s : State) : State := { s with ret := { s.ret with assays := s.ret.assays.map fun a =>
    if a.1 == c && a.2.1 == p then (a.1, a.2.1, true, a.2.2.2) else a } }
  match c with
  | .lane =>
    match s.mergePartner p, s.assayMasks .lane with
    | some q, some (m, s) =>
      let s := (s.setLane p { mode := 5, state := 2, mask := m }).setLane q { mode := 5, state := 3 }
      run { s with ret := { s.ret with partners := tset 544 s.ret.partners p q } }
    | _, _ => s
  | .hashUnit => run (s.setHunit p { state := 2 })
  | _ => run s

/-- Every assay that may begin begins. -/
def State.beginAssays (s : State) : State := each s.ret.assays (fun a s => s.beginAssay a.1 a.2.1) s

/-- The number under which a class's assay stamps stand. -/
def assayKey (c : ResClass) (p : Nat) : Option Nat :=
  match c with
  | .lane => some p
  | .hashUnit => some (544 + p)
  | _ => none

/-- When a lane or hash unit was last assayed. -/
def State.assayedAt (s : State) (c : ResClass) (p : Nat) : Nat :=
  match assayKey c p with
  | some k => max s.bch.assayBase (tget 0 s.bch.assayed k)
  | none => 0

/-- An assay's result reaches its registers and its stamp; key registers read as zero afterwards (R215, R234). -/
def State.assayResult (s : State) (c : ResClass) (p : Nat) (pass : Bool) : State :=
  let v : BitVec 2 := if pass then 2 else 3
  let s := match assayKey c p with
    | some k => { s with bch := { s.bch with assayed := tset 0 s.bch.assayed k s.now } }
    | none => s
  match c with
  | .lane =>
    let s := s.setLane p {}
    let s := match s.ret.partners.find? (·.1 == p) with
      | some (_, q) => s.setLane q {}
      | none => s
    let s := { s with ret := { s.ret with partners := s.ret.partners.filter (·.1 != p) } }
    let s := if s.bch.assayPhys.toNat = p && s.bch.assayResult = 1 then { s with bch := { s.bch with assayResult := v } } else s
    if pass then s else s.bchEvent 5
  | .hashUnit =>
    let s := s.setHunit p {}
    let s := if s.hme.huAssay.toNat = p && s.hme.huResult = 1 then { s with hme := { s.hme with huResult := v } } else s
    if pass then s else s.huEvent 3
  | .engine =>
    let s := if s.hme.meAssay.toNat = p && s.hme.meAssayResult = 1 then { s with hme := { s.hme with meAssayResult := v } } else s
    if pass then s else s.meEvent 4
  | .noiseCell => s.setCell p { s.cell p with passed := pass }
  | _ => s

/-! ### What a retirement does to its class -/

/-- The class's event bit (R226, R247, R262). -/
def State.retiredEvent (s : State) (c : ResClass) : State :=
  match c with
  | .lane => s.bchEvent 1
  | .hashUnit => s.huEvent 1
  | .engine => s.meEvent 1
  | .keyRow => s.keyEvent 1
  | .noiseCell => s.nhEvent 2
  | _ => s

/-- An exhausted harvest (R525): HALT takes force, decisions wait their full delay, and a key that waits to be stored is
abandoned. -/
def State.exhaust (s : State) : State :=
  let s := ({ s with nh := { s.nh with exhausted := true } } : State).enterHalt.fillDecisions
  match s.key.unwrap with
  | some u => if u.stage = 3 then s.unwrapEnd u stAborted [] else s
  | none => s

/-- The guarantee's cause and the harvest's exhaustion as cells come and go (R256, R525). -/
def State.noiseGuard (s : State) : State :=
  let n := (s.surviving .noiseCell).length
  let coming := s.ret.noiseCell.bringIn.isSome
  let s := s.setCause 3 (n < 8) n
  if n = 0 && !coming && !s.nh.exhausted then s.exhaust
  else s.noiseStart

/-- What follows once the map of a class has changed. -/
def State.afterMap (s : State) (c : ResClass) : State :=
  match c with
  | .lane => s.laneGuard
  | .noiseCell => s.noiseGuard
  | .engine => if s.noEngine then s.enterHalt else s.seekSeal
  | .fwPair => if (s.surviving .fwPair).isEmpty then s.enterHalt else s
  | _ => s

/-- The jobs in flight under keys of a row that is retired (R32, R197). -/
def State.rowJobs (s : State) (n : Nat) : List Job :=
  s.qps.jobs.filter fun j => j.stage == .running && j.holds.any (·.slot == n)

/-- The jobs on a resource that its retirement touches (R32). -/
def State.jobsOn (s : State) (c : ResClass) (n : Option Nat) (p : Nat) : List Job :=
  match c with
  | .lane => ((s.lane p).job.bind s.job?).toList
  | .hashUnit => ((s.hunit p).job.bind s.job?).toList
  | .keyRow => match n with
    | some n => s.rowJobs n
    | none => []
  | _ => []

/-- Those jobs are rerun or end (R32); how many are rerun, which the retirement record carries. -/
def State.rerunOff (s : State) (c : ResClass) (n : Option Nat) (p : Nat) : State × Nat :=
  (s.jobsOn c n p).foldl (fun a j => let (s, k) := a.1.retireUnder j; (s, a.2 + k)) (s, 0)

/-- What a resource itself holds, as its gate closes (R20). An engine runs on to its end with its own memory, the
signature that firmware asked it for is made again elsewhere, and its logical number goes on with the spare's registers and memory
(R235, R238, R246; log entry 142). -/
def State.leaveRes (s : State) (c : ResClass) (n : Option Nat) (p : Nat) : State :=
  match c with
  | .noiseCell => s.setCell p { s.cell p with passed := false }
  | .engine => match n with
    | some n =>
      let e := s.eng n
      let s := if e.running then { s with hme := { s.hme with away := tset {} s.hme.away n { e with for_ := .register } } } else s
      s.setEng n (if s.hme.progs then loadProgs {} else {})
    | none => s
  | .tenantCore => match n with
    | some n => (s.resetCore (n + 2)).setTenant n { s.tenant n with loaded := false, stopped := false }
    | none => s
  | .fwPair => match n with
    | some n => s.setCore n { s.core n with run := false }
    | none => s
  | _ => s

/-- A logical number is given a physical resource, or none. -/
def State.setMap (s : State) (c : ResClass) (n p : Nat) : State :=
  let rc := s.ret.get c
  { s with ret := s.ret.put c { rc with map := tset n rc.map n p } }

/-- A physical resource counts as retired, for ever (R31). -/
def State.markRetired (s : State) (c : ResClass) (p : Nat) : State :=
  let rc := s.ret.get c
  { s with ret := s.ret.put c { rc with retired := rc.retired ++ [p] } }

def State.setBringIn (s : State) (c : ResClass) (b : Option (RetReq × Nat)) : State :=
  { s with ret := s.ret.put c { s.ret.get c with bringIn := b } }

/-- The result that ASSAY_RUN answers for a resource that failed (R134): 1 where a spare serves its logical number now, 2 where
none does. A spare that failed has none: 1 while a spare is left. -/
def State.assayAnswer (s : State) (c : ResClass) (n : Option Nat) : Nat :=
  match n with
  | some n => if (s.phys c n).isSome then 1 else 2
  | none => if (s.freeSparesOf c).isEmpty then 2 else 1

/-- A retirement ends: the map's copies (R30 step 4), the slot of a key row, the record of R30, the capacity report, and what
the class's new map brings, stamped after the record (R27). -/
def State.endRetire (s : State) (r : RetReq) (n : Option Nat) : State :=
  let s := (s.setBringIn r.cls none).programMap
  let s := match r.cls, n with
    | .keyRow, some n => s.rowMoved n r.lost
    | _, _ => s
  let s := (s.retRecord r.cls (n.getD gone) r.phys r.errors r.rerun).retiredEvent r.cls
  let s := match r.who with
    | some (p, t) => s.reply p t 0x0B01 stOk (le 1 (s.assayAnswer r.cls n))
    | none => s
  s.consequences s.lastStamp fun s => (s.capacityNotice).afterMap r.cls

/-- Spares are tried in order, each with its assay: the first that passes takes the logical number; one that fails is
retired in turn. With no outcome left for the next spare, its assay runs on and ASSAY_DONE ends it (R30); a noise cell's is its
start-up test, which STARTUP_TEST_DONE ends (R252). -/
def State.trySpares (s : State) (r : RetReq) (n : Nat) : List Bool → Nat → State
  | _, 0 => s.endRetire r (some n)
  | l, f + 1 =>
    match s.freeSparesOf r.cls with
    | [] => s.endRetire r (some n)
    | sp :: _ =>
      match (if r.cls = .noiseCell then [] else l), s.assayMasks r.cls with
      | true :: _, some (_, s1) => (((s1.assayResult r.cls sp true).setMap r.cls n sp).endRetire r (some n))
      | false :: t, some (_, s1) =>
        let s2 := (s1.assayResult r.cls sp false).markRetired r.cls sp
        ((s2.retRecord r.cls n sp 1 0).retiredEvent r.cls).trySpares r n t f
      | _, _ => (s.setBringIn r.cls (some (r, sp))).startAssay r.cls sp none

/-- A retirement is carried out (R30, R33): the gate closes, spares are tried, the map is updated, a record written. -/
def State.retireOne (s : State) (r : RetReq) (assays : List Bool) : State :=
  match r.cls with
  | .nandBlock =>
    ((s.markRetired .nandBlock r.phys).retireBlock r.phys).endRetire r none
  | c =>
    let n := s.logical c r.phys
    let (s, k) := (s.markRetired c r.phys).rerunOff c n r.phys
    let r := { r with rerun := r.rerun + k, num := n }
    let s := s.leaveRes c n r.phys
    match n with
    | none => s.endRetire r none
    | some n =>
      let s := (s.setMap c n gone).afterMap c
      if classSpares c = 0 then s.endRetire r (some n) else s.trySpares r n assays (classSpares c)

/-- RETIREMENT (R30, R33): the first waiting decision of a class that has no bring-in under way. -/
def execRetirement (cls : ResClass) (assays : List Bool) (s : State) : Out :=
  if !s.up || (s.ret.get cls).bringIn.isSome then .next s else
  match s.ret.waiting.findIdx? (·.cls == cls) with
  | none => .next s
  | some i => match s.ret.waiting[i]? with
    | none => .next s
    | some r => .next (({ s with ret := { s.ret with waiting := ldel s.ret.waiting i } } : State).consequences r.at_
        fun s => s.retireOne r assays)

/-- A resource fails its assay: the permanent decision, whose retirement answers the ASSAY_RUN that asked (R134). -/
def State.assayFails (s : State) (c : ResClass) (p : Nat) (who : Option (Nat × Nat)) : State :=
  let s := s.permanent c p 1
  let l := s.ret.waiting.map fun r => if r.cls == c && r.phys == p then { r with who := r.who.or who } else r
  { s with ret := { s.ret with waiting := l } }

/-- ASSAY_RUN of a resource that passed. -/
def State.assayReply (s : State) (who : Option (Nat × Nat)) : State :=
  match who with
  | some (p, t) => s.reply p t 0x0B01 stOk (le 1 0)
  | none => s

def State.assayAnswered (s : State) (c : ResClass) (p : Nat) (pass : Bool) (who : Option (Nat × Nat)) : State :=
  if pass then s.assayReply who else s.assayFails c p who

/-- An assay ends: its result is kept, a bring-in goes on; ASSAY_RUN is answered, of a failed resource once its retirement has
ended. -/
def State.assayEnd (s : State) (cls : ResClass) (phys : Nat) (pass : Bool) : State :=
  let who := (s.ret.assays.find? fun a => a.1 == cls && a.2.1 == phys).bind (·.2.2.2)
  let s := { s with ret := { s.ret with assays := s.ret.assays.filter fun a => !(a.1 == cls && a.2.1 == phys) } }
  let s := s.assayResult cls phys pass
  match (s.ret.get cls).bringIn with
  | some (r, sp) =>
    if sp ≠ phys then s.assayAnswered cls phys pass who
    else match r.num, pass with
      | some n, true => ((s.setMap cls n phys).endRetire r (some n)).assayReply who
      | some n, false =>
        let s := ((s.markRetired cls phys).retRecord cls n phys 1 0).retiredEvent cls
        (s.setBringIn cls none).trySpares r n [] (classSpares cls)
      | none, _ => s.endRetire r none
  | none => s.assayAnswered cls phys pass who

/-- ASSAY_DONE (R30, R215, R234): an assay that runs, or may begin now, ends. A spare that passes takes its number; one that
fails is retired in turn. During a start every resource is under assay (log entry 38). A noise cell's assay is its start-up test. -/
def execAssayDone (cls : ResClass) (phys : Nat) (pass : Bool) (s : State) : Out :=
  if !s.up || cls = .noiseCell then .next s else
  let starting := s.lc.fw != .running && phys < classSize cls && !(s.ret.get cls).retired.contains phys
  let t := (if starting && !s.underAssay cls phys then s.startAssay cls phys none else s).beginAssay cls phys
  if t.assayRuns cls phys then .next (t.assayEnd cls phys pass) else .next s

/-- STARTUP_TEST_DONE (R252): 4,096 bits of a cell in its start-up test end. Any failure of a spare that is brought in is
its failed assay. -/
def execStartupTestDone (cell : Fin 272) (bits : BitVec 4096) (s : State) : Out :=
  let p := cell.val
  let c := s.cell p
  if !s.up || !s.clk.rootOk || c.passed then .next s else
  let b := s.cellBits (rawBits bits 4096)
  let (rep, l, r) := rct b c.last c.run false
  let apt := (windowsOf b).any aptBad
  if s.underAssay .noiseCell p then
    let s := if rep then s.nhEvent 1 else if apt then s.nhEvent 0 else s
    let s := s.setCell p { c with last := l, run := r }
    .next (s.assayEnd .noiseCell p (!rep && !apt)).noiseStart
  else if s.cellServes p then
    let s := s.setCell p { c with last := l, run := r }
    if rep then .next (s.cellFails p true)
    else if apt then .next (s.cellFails p false)
    else .next (s.setCell p { s.cell p with passed := true }).noiseStart
  else .next s

/-- PERIODIC_ASSAY (R215, R234): 24 h after its last assay, an active lane or hash unit is due. -/
def execPeriodicAssay (cls : ResClass) (phys : Nat) (s : State) : Out :=
  let serves := match cls with
    | .lane => match s.logical .lane phys with
      | some n => s.activeLanes.contains n
      | none => false
    | .hashUnit => (s.logical .hashUnit phys).isSome
    | _ => false
  if !s.up || s.lc.fw != .running || !serves || !s.mayAssay cls phys || s.now < s.assayedAt cls phys + 86400 * secC then .next s
  else .next (s.startAssay cls phys none)

/-- LOCKSTEP_MISMATCH (R24, R29): DISAGREE is raised with code 9, and the pair re-executes from its last committed
instruction; its state is that instruction's. -/
def execLockstepMismatch (pair : Fin 2) (s : State) : Out :=
  match s.up, s.phys .fwPair pair.val with
  | true, some p =>
    let s := { s with lnk := { s.lnk with reexec := s.lnk.reexec + 1 } }
    .next ((s.disagree 9).strike .fwPair p)
  | _, _ => .next s

/-- FL_COMMAND_DONE (R309, R311, R312, R322, R323): the running operation, or a step of the descent, ends;
a sector that failed is retired and reported (R35). The end of the descent is a lifecycle transition, which firmware
records while it still runs (R499). -/
def execFlCommandDone (e : FlEnd) (s : State) : Out :=
  if !s.up then .next s else
  match s.fls.running with
  | none => .next s
  | some (.decide _) => .next s
  | some (.program a d0 d1) =>
    let b := programBytes s.fls a d0 d1
    if e.pass then .next ({ s with fls := flPut s.fls a b }.flEndRun flDone)
    else if bit s.fls.ctrl 0 then .next ((s.mixProgram a b (8 * b.length)).flEndRun flDone)
    else
      let (s', ok) := s.norRetire (a / 65536) e.spareFails true
      let s' := s'.capacityNotice
      if ok then .next ({ s' with fls := flPut s'.fls a b }.flEndRun flDone) else .next (s'.flEndRun flProgramFail)
  | some (.erase ls) =>
    let held := s.fls.suspHeld
    let fin (s : State) (r : Nat) : State :=
      let s := { s with fls := { s.fls with suspHeld := false } }.flEndRun r
      if held then s.flEnd flRefused else s
    if e.pass then
      let p := physSector s.fls ls
      .next (fin { s with fls := flJournalDone (flWipe s.fls p) (ls / 512) p } flDone)
    else
      let (s', ok) := s.norRetire ls e.spareFails false
      let s' := s'.capacityNotice
      .next (fin s' (if ok then flDone else flEraseFail))
  | some (.margin a n _) =>
    let inc := s.fls.incomplete.contains (physSector s.fls (a / 65536))
    match e.failAt with
    | some w =>
      if a ≤ w && w < a + n then .next ({ s with fls := flFault s.fls flMarginFail w }.flEndRun flMarginFail)
      else .next (s.flEndRun (if inc then flMarginFail else flDone))
    | none => .next (s.flEndRun (if inc then flMarginFail else flDone))
  | some (.descent 3) =>
    let f := flWipe (flWipe s.fls (physSector s.fls 66)) (physSector s.fls 578)
    .next { s with fls := { f with running := some (.descent 4) }, arc := { s.arc with keyStored := false, key := 0 },
                   lc := { s.lc with transport := none } }
  | some (.descent 4) =>
    .next { s with fls := { flDescentErase s.fls with running := some (.descent 5) }, cl := { s.cl with keys := [] },
                   lc := { s.lc.afterDescent with lifecycle := s.lc.lifecycle } }
  | some (.descent _) =>
    let old := s.lc.lifecycle.toNat
    let s := s.endJig.setTestEn false
    let s := ({ s with fls := { s.fls with rdp := 0, marker := false }, lc := { s.lc with lifecycle := 1 } } : State).flEndRun flDone
    let s := if s.lc.fw = .running then s.event 0x0024 0 c0 (Config.openBody 0x0024 [0, old, 1]) else s
    .next s.statusTouch

end Sys2Proof.Machine
end

