-- ==== Sys2Proof/Machine/Sign.lean ====
section
/-! DEFINITION. Sys2Proof/Machine/Sign.lean: measurements, Hallmark reports, snapshots, certificates (R488 to R494), and how
an engine operation ends for whoever asked for it (R239, R243, R244). -/

namespace Sys2Proof.Machine

/-! ### Measurements (R488) -/

def measBytes (m : Meas) : Bytes := le 1 m.kind.toNat ++ le 1 m.index.toNat ++ le 2 0 ++ m.digest

/-- A measurement: its list entry, in the place of an older one of the same kind and index, and the composite. -/
def State.measure (s : State) (kind index : Nat) (digest : Bytes) : State :=
  let m : Meas := { kind := BitVec.ofNat 8 kind, index := BitVec.ofNat 8 index, digest := digest }
  let same (x : Meas) : Bool := x.kind == m.kind && x.index == m.index
  let l := if s.lc.meas.any same then s.lc.meas.map fun x => if same x then m else x else (s.lc.meas ++ [m]).take 16
  { s with lc := { s.lc with meas := l, composite := sha512 (s.lc.composite ++ le 1 kind ++ le 1 index ++ digest) } }

/-! ### The report (R490, R491) -/

/-- GLB_ID (R99): device 0x2400, stepping B1, the grade. -/
def glbId : Word := if Config.grade2TE then 0x001B2400 else 0x011B2400

/-- ROM_ID: SHA-512/256 of the boot ROM, its version, GLB_ID. -/
def romId : Bytes :=
  sha512t ((upto 0x40000).map fun k => Config.romByte (0xFC0000 + k)) ++ sub (Config.openText 6) 0 4 ++ le 4 glbId.toNat ++ le 8 0

/-- STATE_FLAGS. -/
def State.stateFlags (s : State) (snap : Bool) : Nat :=
  b2n s.jigOn + 2 * b2n s.lc.jigSince + 4 * b2n s.nh.testEn + 8 * b2n s.c0Withdrawn + 16 * b2n s.halted +
  32 * b2n s.tmp.zeroized + 64 * b2n snap + 128 * b2n s.tmp.aoLost + 256 * s.tim.src.toNat + 1024 * s.tim.qual.toNat +
  4096 * s.pwr.profile.code

/-- Report bytes 0x040 to 0x053: LIFECYCLE to GTS_BOOT. -/
def State.reportA (s : State) (snap : Bool) : Bytes :=
  le 1 s.lc.lifecycle.toNat ++ le 1 s.fls.rdp ++ le 2 (s.stateFlags snap) ++ le 4 s.lc.bootCount ++ le 12 s.lc.gtsBoot.toNat

/-- Report bytes 0x060 to 0x127: TMP_FLAGS to COMPOSITE. -/
def State.reportB (s : State) : Bytes :=
  le 4 s.tmp.flags.toNat ++ le 1 s.tmp.pend.length ++ le 1 s.tmp.overflow ++ le 1 (b2n s.tmp.policySealed) ++
  le 1 s.fusesLeft ++ s.capacity ++ le 1 0 ++ s.lc.configHash ++ s.lc.composite

def State.measList (s : State) : Bytes := (s.lc.meas.map measBytes).flatten

/-- LENGTH: 464 + 68 n. -/
def State.reportLen (s : State) : Nat := 464 + 68 * s.lc.meas.length

/-- The report without its signature. -/
def State.report (s : State) (nonce : Bytes) (snap : Bool) : Bytes :=
  [0x48, 0x4C, 0x4D, 0x4B] ++ le 2 1 ++ le 2 s.reportLen ++ le 8 s.lc.serial.toNat ++ romId ++ s.reportA snap ++
  le 12 s.gts.toNat ++ s.reportB ++ sub nonce 0 32 ++ le 2 s.lc.meas.length ++ le 2 0 ++ s.measList

/-- The fields whose change makes a snapshot due (R493): all but GTS_REPORT and NONCE. -/
def State.snapKey (s : State) : Bytes := s.reportA true ++ s.reportB ++ s.measList

/-- A snapshot is due when such a field has changed since the last one. -/
def State.snapCheck (s : State) : State :=
  if s.up && s.lc.fw == .running && s.lc.snapDue.isNone && s.lc.lastSnap != s.snapKey then
    { s with lc := { s.lc with snapDue := some (List.replicate 32 0) } }
  else s

/-! ### Signing (R244, R492, R493) -/

/-- An engine signs for a flow. -/
def State.signsFor (s : State) (f : EngineFor) : Bool := (upto 4).any fun n => (s.eng n).running && (s.eng n).for_ = f

/-- The next report to sign and an idle engine for it; a second try waits for another engine than the first (R243). -/
def State.nextReport (s : State) : Option (Report × Nat) :=
  s.lc.reports.findSome? fun r =>
    if s.signsFor (.hallmark r.party r.tag) then none else (s.idleEngine r.failedOn).map fun n => (r, n)

/-- The snapshot that is to be signed: one whose signature is asked for again, or one that is due. -/
def State.nextSnapshot (s : State) : Option (Bytes × State) :=
  match s.lc.snapBody, s.lc.snapDue with
  | some body, _ => some (body, s)
  | none, some nonce =>
    let body := s.report nonce true
    some (body, { s with lc := { s.lc with snapDue := none, snapBody := some body, lastSnap := s.snapKey } })
  | none, none => none

/-- Firmware gives idle engines their next signature: seals first, then reports in order, then a snapshot that is due; none
while HALT is in force, none of a snapshot in power-fail prepare, and none before the harvest gives its draws (R238, R244). -/
def State.seekSign (s : State) : State :=
  let s := s.seekSeal
  if s.halted || s.lc.fw ≠ .running || s.arc.sealWait then s else
  let sign (s : State) (n : Nat) (body : Bytes) (f : EngineFor) (second : Bool) : State :=
    (s.hashes body.length).fwSign n 1 (sha512 body) f second
  match s.nextReport with
  | some (r, n) =>
    if !s.canDraw 3 signNoise then s.ask 3 signNoise else sign s n r.body (.hallmark r.party r.tag) r.failedOn.isSome
  | none =>
    if s.pwr.prepare || s.signsFor .snapshot then s else
    match s.nextSnapshot, s.idleEngine s.lc.snapFailedOn with
    | some (body, s'), some n =>
      if !s.canDraw 3 signNoise then s.ask 3 signNoise else sign s' n body .snapshot s.lc.snapFailedOn.isSome
    | _, _ => s

/-- A Decommissioned module's HALT, once its start has stored its snapshot (R498). -/
def State.decommissionHalt (s : State) : State :=
  if s.lc.lifecycle ≠ 3 || s.lc.retiredHalt then s else
  let s := { s with lc := { s.lc with retiredHalt := true } }
  s.abortJobs.stopTenants.abortReports.endJig.internalError.statusTouch.alertTouch

/-- A snapshot goes into its ring slot (R493): the slot's sector is erased before the ring enters it; then CL_SNAP. -/
def State.storeSnapshot (s : State) (body sig : Bytes) : State :=
  let n := s.lc.snapNext
  let rep := body ++ sig
  let f := if n % 32 = 0 then flWipe s.fls (physSector s.fls (1918 + n / 32)) else s.fls
  let f := flPut f (slotAddr n) (le 8 s.lc.snapSeq ++ le 4 rep.length ++ le 4 0 ++ rep)
  ({ s with
    fls := f
    cl := { s.cl with snapSlot := BitVec.ofNat 12 n, snapValid := true }
    lc := { s.lc with snapSeq := s.lc.snapSeq + 1, snapNext := (n + 1) % 4096, snapBody := none, snapFailedOn := none } } : State).decommissionHalt

def State.dropReport (s : State) (p t : Nat) : State :=
  { s with lc := { s.lc with reports := s.lc.reports.filter fun r => !(r.party == p && r.tag == t) } }

def State.reportOf (s : State) (p t : Nat) : Option Report := s.lc.reports.find? fun r => r.party == p && r.tag == t

/-- A signature failed its own check (R243): once more on another engine, as soon as one is idle, then RESOURCE; a seal is
asked for again. -/
def State.signAgain (s : State) (n : Nat) (e : Engine) : State :=
  let p := s.phys .engine n
  match e.for_ with
  | .hallmark party t =>
    if !e.second && s.halted then s.abortReports
    else if !e.second then
      ({ s with lc := { s.lc with reports := s.lc.reports.map fun r =>
          if r.party == party && r.tag == t then { r with failedOn := p } else r } } : State).seekSign
    else if (s.reportOf party t).isNone then s.seekSign
    else (((s.meEvent 3).dropReport party t).reply party t 0x0601 stResource []).seekSign
  | .snapshot =>
    if !e.second then ({ s with lc := { s.lc with snapFailedOn := p } } : State).seekSign
    else ({ s.meEvent 3 with lc := { s.lc with snapBody := none, snapFailedOn := none } } : State).seekSign
  | _ => s.seekSign

/-- What a signature that has ended without a failed check brings. -/
def State.signDone (s : State) (n : Nat) (e : Engine) : State :=
  let got := !e.drop && e.out.isSome
  let sig := pageSig (s.eng n)
  match e.for_ with
  | .register => s
  | .drawerSeal num =>
    if !got then s else
    let s := s.sealed num sig
    { s with lc := { s.lc with snapDue := ((s.drawer? num).bind (·.sealB)).map sha512t } }
  | .hallmark p t =>
    match s.reportOf p t with
    | none => s
    | some r =>
      let s := s.dropReport p t
      if !got then s.reply p t 0x0601 (if e.drop then stAborted else stResource) []
      else
        let (s, st, x) := s.writeBuffer p r.addr r.room (r.body ++ sig)
        s.reply p t 0x0601 st (if st = stOk then le 4 (r.body.length + 132) else x)
  | .snapshot =>
    match s.lc.snapBody with
    | none => s
    | some b => if got then s.storeSnapshot b sig else { s with lc := { s.lc with snapBody := none, snapFailedOn := none } }

/-- An engine that was retired while it ran ends its operation (R32, R238): its holds are released. -/
def State.endAway (s : State) (n : Nat) (e : Engine) : State :=
  let s := each e.holds (fun i s => let r := s.krow i; s.setKrow i { r with holds := r.holds - 1 }) s
  { s with hme := { s.hme with away := s.hme.away.filter (·.1 != n) } }

/-- ENGINE_DONE (R239, R243): an operation ends; `checkFails`: P521_SIGN's own check of its signature fails. A retired engine of
the logical number that still runs ends first (log entry 142). -/
def execEngineDone (n : Fin 4) (checkFails : Bool) (s : State) : Out :=
  if !s.up then .next s else
  match s.hme.away.find? (·.1 == n.val) with
  | some (_, e) => .next (s.endAway n.val e)
  | none =>
    let e := s.eng n.val
    if !e.running then .next s
    else if checkFails && signing e then .next (((s.signFails n.val).endOp n.val).signAgain n.val e)
    else .next (((s.endOp n.val).signDone n.val e).seekSign)

/-- HALLMARK_GET (R492): answered with LENGTH where the buffer is too small, otherwise once the report is signed. -/
def execHallmarkGet (r : Req) (s : State) : Out :=
  driner 0x0601 r s fun s =>
    let room := leAt r.payload 40 4
    if room < s.reportLen then s.reply r.party r.tag 0x0601 stLength (le 4 s.reportLen)
    else
      let x : Report := { party := r.party, tag := r.tag, addr := leAt r.payload 32 8, room := room,
                          body := s.report (sub r.payload 0 32) false }
      ({ s with lc := { s.lc with reports := s.lc.reports ++ [x] } } : State).seekSign

/-! ### Certificates (R494) -/

/-- The chain, leaf first. -/
def State.certChain (s : State) : Bytes := s.lc.sealCert ++ s.lc.attCert.getD (Config.openText 2) ++ Config.openText 1

/-- CERT_CHAIN_GET (R494). -/
def execCertChainGet (r : Req) (s : State) : Out :=
  drinerNow 0x0602 r s fun s =>
    let c := s.certChain
    let (s, st, x) := s.writeBuffer r.party (leAt r.payload 0 8) (leAt r.payload 8 4) c
    (s, st, if st = stOk then le 4 c.length else x)

end Sys2Proof.Machine
end

