-- ==== Sys2Proof/Machine/Ident.lean ====
section
/-! DEFINITION. Sys2Proof/Machine/Ident.lean: identity, features, capacity, profiles and the assay command (R36, R37, R132,
R134). -/

namespace Sys2Proof.Machine

/-- The ordering code of R12, zero-padded to 12 bytes. -/
def orderingCode : Bytes :=
  [0x47, 0x4C, 0x32, 0x34, 0x30, 0x30, 0x2D, 0x32, 0x54, if Config.grade2TE then 0x45 else 0x43, 0, 0]

/-- IDENT_GET (R132); the loader answers it too (R485). -/
def execIdentGet (r : Req) (s : State) : Out :=
  drinerNow 0x0101 r s fun s =>
    (s, stOk, orderingCode ++ le 4 glbId.toNat ++ le 8 s.lc.serial.toNat ++ le 4 s.lc.version.toNat ++ le 4 s.lc.bootCount)

/-- The feature bits of R134. -/
def State.features (s : State) : Nat :=
  let vf := b2n (s.pci.vfEnable && 0 < s.pci.numVFs)
  let reader := (s.cl.mode = 2 || s.cl.mode = 3) && s.clk.domPll.getLsbD 4
  let tag := s.cl.mode = 1 || s.cl.mode = 3
  vf + 2 * b2n s.pci.tag10 + 4 * b2n s.pci.ptmEn + 8 * b2n (linkOk s.pci.speed s.pci.width) + 16 * b2n s.c0Withdrawn +
  2 ^ 5 * fld s.tim.ctrl 1 0 + 2 ^ 7 * b2n (bit s.tim.ppsoCtrl 0) + 2 ^ 8 * b2n reader + 2 ^ 9 * b2n tag +
  2 ^ 10 * b2n s.tmp.policySealed + 2 ^ 11 * b2n s.lc.ownerKey.isSome + 2 ^ 12 * b2n s.lc.transport.isSome +
  2 ^ 13 * b2n s.jigOn + 2 ^ 14 * b2n (s.pwr.profile == .frugal) + 2 ^ 15 * b2n s.inIncident +
  2 ^ 16 * (s.surviving .tenantCore).length

/-- MSI-X vectors of an issuer (R93): 2,048 on PF0, 64 on a VF; a tenant core has none. -/
def vectorsOf (party : Nat) : Nat :=
  match midFn party with
  | some 0 => 2048
  | some _ => 64
  | none => 0

/-- FEATURES_GET (R134): the features, the VFs enabled, the vectors of a function, and the caller's queue-pair range. -/
def execFeaturesGet (r : Req) (s : State) : Out :=
  drinerNow 0x0102 r s fun s =>
    let (f, n) := match midFn r.party with
      | some fn => ((s.fun_ fn).first, (s.fun_ fn).count)
      | none => (0, 0)
    let vfs := if s.pci.vfEnable then s.pci.numVFs else 0
    (s, stOk, le 8 s.features ++ le 1 vfs ++ le 1 0 ++ le 2 (vectorsOf r.party) ++ le 4 f ++ le 4 n)

/-- CAPACITY_GET (R134). -/
def execCapacityGet (r : Req) (s : State) : Out := drinerNow 0x0103 r s fun s => (s, stOk, s.capacity)

/-! ### Profiles (R36, R37, R415) -/

def profileOf : Nat → Option Profile
  | 0 => some .guard | 1 => some .throughput | 2 => some .incident | 3 => some .frugal
  | _ => none

/-- PROFILE_SET: held during power-fail prepare and until recovery. -/
def execProfileSet (r : Req) (s : State) : Out :=
  drinerNow 0x0A01 r s fun s =>
    match profileOf (leAt r.payload 0 1) with
    | none => (s, stRejected, [])
    | some p =>
      if s.pwr.prepare || s.pwr.recovering then ({ s with pwr := { s.pwr with heldProfile := some p } }, stOk, [])
      else (s.chooseProfile p 0, stOk, [])

/-- PROFILE_GET (R134). -/
def execProfileGet (r : Req) (s : State) : Out :=
  drinerNow 0x0A02 r s fun s =>
    let back := if s.arc.auto then (s.pwr.returnTo.map Profile.code).getD 0xFF else 0xFF
    (s, stOk, le 1 s.pwr.profile.code ++ le 1 back ++ le 1 s.reservation ++ le 1 (s.powerCap / 1000))

/-! ### ASSAY_RUN (R134) -/

/-- The classes that ASSAY_RUN names. -/
def assayClass : Nat → Option ResClass
  | 1 => some .lane | 2 => some .hashUnit | 3 => some .engine | 4 => some .noiseCell
  | _ => none

/-- ASSAY_RUN: answered at once where the assay does not run; otherwise by ASSAY_DONE. -/
def execAssayRun (r : Req) (s : State) : Out :=
  driner 0x0B01 r s fun s =>
    let answer (s : State) (st : Nat) (p : Bytes) : State := s.reply r.party r.tag 0x0B01 st p
    let p := leAt r.payload 2 2
    match assayClass (leAt r.payload 0 1) with
    | none => answer s stRejected []
    | some c =>
      if classSize c ≤ p || leAt r.payload 1 1 ≠ 0 then answer s stRejected []
      else if (s.ret.get c).retired.contains p then answer s stOk [3]
      else if s.underAssay c p || (c = .engine && (s.logical .engine p).any fun n => (s.eng n).running || (s.eng n).waitsGo) then answer s stOk [4]
      else s.startAssay c p (some (r.party, r.tag))

end Sys2Proof.Machine
end

