-- ==== Sys2Proof/Machine/Lifecycle.lean ====
section
/-! DEFINITION. Sys2Proof/Machine/Lifecycle.lean: double decisions as they end (R440, R441), lifecycle transitions, bundles,
the jig and the test port (R498 to R505). -/

namespace Sys2Proof.Machine

/-- The 64-byte measurement with which a TP_LOAD of core 0xF0 or 0xF1 answers (R132): no rule states what it covers, so it
is free. -/
def loadAnswer (core : Nat) (b : Bytes) : Bytes := sub (Config.openBody 0x0701 (core :: b.map (·.toNat))) 0 64

/-! ### Transitions (R498, R499) -/

/-- A lifecycle transition that was decided: the jig ends first (R504, R506) and TEST_EN clears (R261), then the state
changes with its record. -/
def State.toLifecycle (s : State) (dest : Nat) : State :=
  let old := s.lc.lifecycle.toNat
  let s := s.endJig.setTestEn false
  let s : State := { s with lc := { s.lc with lifecycle := BitVec.ofNat 2 dest } }
  (s.event 0x0024 0 c0 (Config.openBody 0x0024 [0, old, dest])).statusTouch

/-- A module row: its value as two shares (R216), the second of them 544 bits of noise. -/
def State.loadModRow (s : State) (n d : Nat) : State :=
  let (m, s) := s.draw 4 544
  let m : BitVec 544 := BitVec.ofNat 544 m
  { s with key := { s.key with modRows := (s.key.modRows.filter (·.1 != n)) ++ [(n, BitVec.ofNat 544 d ^^^ m, m)] } }

/-- The drawer-seal key in its module row, where it has been made. -/
def State.loadSealRow (s : State) : State :=
  match s.lc.sealKey with
  | some d => s.loadModRow 2 d
  | none => s

/-- The noise that the drawer-seal key takes: the key itself, 521 bits as a nonce is, and the signature of its certificate. -/
def sealKeyNoise : Nat := 521 + signNoise

/-- Firmware generates the drawer-seal key, has the attestation key sign its certificate, and stores both (R500), once the harvest
gives the bits (R525); a number that is 0 or not below n is drawn again. -/
def State.makeSealKey (s : State) : State :=
  if s.lc.sealKey.isSome then s else
  if !s.canDraw 3 sealKeyNoise then s.ask 3 sealKeyNoise else
  let (d, s) := s.draw 3 521
  let (_, s) := s.draw 3 signNoise
  if d = 0 || ecN ≤ d then s.ask 3 sealKeyNoise else
  { s with lc := { s.lc with sealKey := some d, sealCert := Config.openText 4 } }

/-- A provisioned module that has no drawer-seal key yet makes it and loads its row (R500, R525). -/
def State.sealKeyDue (s : State) : State :=
  if !s.up || s.lc.fw != .running || s.lc.lifecycle = 0 || s.lc.sealKey.isSome then s
  else if !s.canDraw 4 544 then s.ask 4 544
  else s.makeSealKey.loadSealRow

/-- The retire fuse blows, or its blow is held (R435, R443). -/
def State.blowRetire (s : State) : State :=
  if s.fusePower then { s with tmp := { s.tmp with retireFuse := true } }
  else { s with tmp := { s.tmp with heldRetire := true } }

/-- RETIRE as the bundle action DECOMMISSION carries it out (R433 to R435, R499). -/
def State.decommission (s : State) : State :=
  let s := (s.enterHalt.islandErase 4).zeroizeMain
  let s : State := { s with tmp := { s.tmp with respInForce := max s.tmp.respInForce 5 } }
  (s.blowRetire.toLifecycle 3).alertTouch

/-- The second evaluation of a lifecycle decision (R441, code 2). Party 0: RETIRE's own decision, and the test port's. No
transition leads from Factory to Decommissioned (R499): there RETIRE blows its fuse alone. -/
def State.endLifecycle (s : State) (dest party tag : Nat) (first second : Bool) : State :=
  let answer (s : State) (st : Nat) : State := if party = 0 then s else s.reply party tag 0x0701 st (if st = stOk then loadAnswer 0xF1 [] else [])
  if first ≠ second then answer (s.disagree 2) stRejected
  else if !first then answer s stRejected
  else if party = 0 && dest = 3 then
    let s := s.blowRetire
    if s.up && s.lc.lifecycle ≠ 0 then (s.toLifecycle 3).alertTouch else s
  else if party = 0 then
    let s : State := { s with fls := { s.fls with rdp := max s.fls.rdp 1 }, lc := { s.lc with testFuse := true, testPort := false } }
    (s.toLifecycle 1).makeSealKey
  else if s.halted then answer s stAborted
  else match dest with
    | 2 => answer (s.toLifecycle 2) stOk
    | 3 => answer s.decommission stOk
    | _ =>
      if s.fls.running.isSome || s.fls.rdp ≠ 1 then answer s stRejected
      else (answer s.endJig stOk).flDescend

/-! ### Read-out protection (R321, R322) -/

/-- Step 2 of the descent: the KEK, every key slot, every module row. -/
def State.descentKeys (s : State) : State :=
  let s := match s.key.unwrap with
    | some u => s.unwrapEnd u stAborted []
    | none => s
  let s := each s.key.rows (fun e s => if kState e.2 = kErasing then s.eraseEnded e.2.byCmd e.2.waiter else s) s
  let rows := tmap {} (fun _ r => if kState r = kUnusable then setKState {} kUnusable else {}) s.key.rows
  { s with tmp := { s.tmp with kek := none }, key := { s.key with rows := rows, modRows := [], transRow := none } }

/-- The second evaluation of a read-out protection decision: refused, raised, or the descent begins with its marker. -/
def State.endRdp (s : State) (dest : Nat) (first second : Bool) : State :=
  if s.fls.running ≠ some (.decide dest) then s
  else if first ≠ second then (s.flEndRun flRefused).disagree 3
  else if !first then s.flEndRun flRefused
  else if dest = 0 then
    let s := s.descentKeys
    { s with fls := { s.fls with marker := true, running := some (.descent 3) } }
  else
    let old := s.fls.rdp
    let s : State := { s with fls := { s.fls with rdp := dest, rdpFuse := s.fls.rdpFuse || dest == 2 } }
    (s.flEndRun flDone).event 0x0024 0 c0 (Config.openBody 0x0024 [3, old, dest])

/-! ### The jig (R502 to R504) -/

/-- A token's fields. -/
def jigLinks (t : Bytes) : List (Nat × Nat) := (upto 5).map fun k => (leAt t (4 + 2 * k) 1, leAt t (5 + 2 * k) 1)

def jigFormOk (t : Bytes) : Bool :=
  t.length = 164 && leAt t 0 1 = 1 && leAt t 1 1 = 0 && leAt t 2 1 < 32 && leAt t 3 1 = 0 && leAt t 14 2 = 0 &&
  (jigLinks t).all (fun m => m.1 ≤ 2 && m.2 ≤ 24) && 1 ≤ leAt t 20 4 && leAt t 20 4 ≤ 3600

/-- What a jig token signs. -/
def State.jigMsg (s : State) (t : Bytes) : Bytes := [0x47, 0x4C, 0x4A, 0x47] ++ le 8 s.lc.serial.toNat ++ t.take 32

/-- A token's signature is verified on an engine (R244); in Factory none is asked for. -/
def State.jigRun (s : State) (t : Bytes) : State :=
  match s.lc.lifecycle == 0, s.lc.ownerKey with
  | false, some key => s.ranVerify key (s.jigMsg t) (sub t 32 132)
  | _, _ => s

/-- A token is accepted (R502): this boot, a fresh AUTH_SEQ, the owner's signature; in Factory only the boot. -/
def State.jigAccept (s : State) (t : Bytes) : Option State :=
  let sq := leAt t 24 8
  if leAt t 16 4 ≠ s.lc.bootCount then none
  else if s.lc.lifecycle = 0 then some s
  else match s.lc.ownerKey with
    | none => none
    | some key =>
      if s.lc.authSeq < sq && sigCheck key (s.jigMsg t) (sub t 32 132) then some { s with lc := { s.lc with authSeq := sq } } else none

/-- The jig is armed (R503). -/
def State.armJig (s : State) (t : Bytes) : State :=
  let j : Jig := { links := BitVec.ofNat 5 (leAt t 2 1), modes := jigLinks t, endAt := s.now + leAt t 20 4 * secC }
  let s := (s.hashes t.length).measure 4 0 (sha512 t)
  let s : State := { s with lc := { s.lc with jig := some j, jigSince := true } }
  let s := s.event 0x0024 0x00A c0 (Config.openBody 0x0024 [1])
  (s.consequences s.lastStamp fun s => s.setCause 4 true 0).statusTouch

/-- The second evaluation of a jig decision (code 5). -/
def State.endJigArm (s : State) (party tag : Nat) (token : Bytes) (first second : Bool) : State :=
  if first ≠ second then (s.disagree 5).reply party tag 0x0B02 stRejected []
  else if s.halted then s.reply party tag 0x0B02 stAborted []
  else if !first then s.reply party tag 0x0B02 stRejected []
  else (s.armJig token).reply party tag 0x0B02 stOk []

/-- JIG_ARM (R503): a double decision, in Factory and in Deployed with a valid token. -/
def execJigArm (r : Req) (s : State) : Out :=
  if s.verifyWaits then .next s else
  driner 0x0B02 r s fun s =>
    let answer (s : State) (st : Nat) : State := s.reply r.party r.tag 0x0B02 st []
    if s.lc.lifecycle = 3 then answer s stAborted
    else if s.lc.lifecycle = 1 then answer s stAccess
    else if !jigFormOk r.payload then answer s stRejected
    else
      let s := s.jigRun r.payload
      match s.jigAccept r.payload with
      | none => s.reply r.party r.tag 0x0B02 stAccess []
      | some s => s.decide (.jig r.party r.tag r.payload) true

/-- JIG_DISARM (R504). -/
def execJigDisarm (r : Req) (s : State) : Out := drinerNow 0x0B03 r s fun s => (s.endJig, stOk, [])

/-- JIG_EXPIRY (R504): DURATION has elapsed. -/
def execJigExpiry (s : State) : Out :=
  match s.lc.jig with
  | some j => if s.up && j.endAt ≤ s.now then .next s.endJig else .next s
  | none => .next s

/-! ### The test port (R499, R505) -/

/-- TEST_PORT_UNLOCK (R505): in Factory with its fuse intact, a double decision of code 5. -/
def execTestPortUnlock (s : State) : Out :=
  if s.up && s.lc.lifecycle = 0 && !s.lc.testFuse && !s.lc.testPort then .next (s.decide .testPort true) else .next s

/-- TEST_PORT_PROVISION (R499): through the unlocked port, with the attestation certificate installed. -/
def execTestPortProvision (s : State) : Out :=
  if s.up && s.lc.lifecycle = 0 && s.lc.testPort && s.lc.attCert != some [] then .next (s.decide (.lifecycle 1 0 0) true)
  else .next s

/-! ### Decisions (R440, R441) -/

/-- The delay of a decision has passed: 16 + r units of its deciding unit, 100 MHz cycles of the code flash controller and
800 MHz cycles of the key island (R441). The always-on island's steps are its own, and its delay ends as it says (log entry 138). -/
def State.delayOver (s : State) (d : Dec) : Bool :=
  match d.what, d.r with
  | _, none => false
  | .rdp _, some r => d.at_ + 12 * (16 + r) ≤ s.now
  | .keyRelease, some r => 2 * d.at_ + 3 * (16 + r) ≤ 2 * s.now
  | _, some _ => true

/-- DECISION_RECHECK: the second evaluation of the oldest decision whose delay has passed. A response is carried out whichever way
it goes (code 1). -/
def execDecisionRecheck (second : Bool) (s : State) : Out :=
  match s.tmp.decisions.find? s.delayOver with
  | none => .next s
  | some d =>
    let s : State := { s with tmp := { s.tmp with decisions := s.tmp.decisions.erase d } }
    match d.what with
    | .respond i resp seq =>
      let s := (s.carryOut i resp seq).alertTouch
      .next (if d.first = second then s else s.disagree 1)
    | .lifecycle dest party tag => .next (s.endLifecycle dest party tag d.first second)
    | .rdp dest => .next (s.endRdp dest d.first second)
    | .flagClear mask party tag =>
      if d.first = second then .next (s.endClear mask party tag second) else .next (s.endClear mask party tag false)
    | .jig party tag token => .next (s.endJigArm party tag token d.first second)
    | .testPort =>
      if d.first ≠ second then .next (s.disagree 5)
      else if second then .next { s with lc := { s.lc with testPort := true } }
      else .next s
    | .kekUnwrap => .next (s.unwrapStep6 d.first second)
    | .keyRelease => .next (s.unwrapStep8 d.first second)

/-! ### Bundles (R500) -/

/-- The tenant source ranges that an owner configuration gives take effect (R82). -/
def State.applyRanges (s : State) : State :=
  if s.lc.ownerCfg.isEmpty then s else
  let t := (upto 12).filterMap fun n =>
    let l := ((Config.ownerRanges s.lc.ownerCfg).filter (·.1 == n)).map (·.2)
    if l.isEmpty then none else some (n, l)
  { s with dv := { s.dv with ranges := t } }

/-- DEPLOY's preconditions (R499). -/
def State.mayDeploy (s : State) : Bool :=
  s.lc.lifecycle = 1 && s.lc.ownerKey.isSome && s.lc.programKey.isSome && s.lc.transport.isSome && !s.cl.keys.isEmpty &&
  s.tmp.policyFused.isSome && !s.lc.sealCert.isEmpty

/-- Both wrapped-key sectors hold the wrapped transport key and its identifier (R306); where in them, no rule states (log entry 135). -/
def State.wrapSectors (s : State) (w : Bytes) (id : Word) : State :=
  let put (f : Fls) (ls : Nat) : Fls := flPut (flWipe f (physSector f ls)) (ls * 65536) (w ++ le 4 id.toNat)
  { s with fls := put (put s.fls 66) 578 }

/-- A transport key is installed (R447, R500): wrapped under the KEK, which is drawn where none stands, or under the SEALED key;
written to both wrapped-key sectors and to its module row. -/
def State.installTransport (s : State) (key : BitVec 256) (id : Word) : State :=
  let s : State :=
    if s.tmp.policySealed || s.tmp.kek.isSome then s
    else let (k, s) := s.drawAo 256
         { s with tmp := { s.tmp with kek := some (BitVec.ofNat 256 k) } }
  let (n, s) := s.drawAo 96
  let w := wrapTransport (s.wrapKey.getD 0) (le 12 n) key id
  let s : State := { s with key := { s.key with transRow := some (w, id) }, lc := { s.lc with transport := some (w, id) } }
  s.wrapSectors w id

/-- The Clasp key block of sector 1,917 (R462): its entries, each number, role and master key wrapped with AES-256-GCM under a key of
the OTP secret (where in the sector, no rule states: log entry 135). -/
def State.claspBlock (s : State) : State :=
  let p := physSector s.fls 1917
  let s : State := { s with fls := flWipe s.fls p }
  (s.cl.keys.foldl (fun (acc : State × Nat) e =>
    let (n, s) := acc.1.drawAo 96
    let head : Bytes := [BitVec.ofNat 8 e.1, e.2.role]
    let (ct, tag) := gcmSeal (le 32 (Config.derivedKey 12).toNat) (le 12 n) head (le 32 e.2.key.toNat)
    ({ s with fls := flPut s.fls (1917 * 65536 + 64 * acc.2) (head ++ le 12 n ++ ct ++ tag) }, acc.2 + 1)) (s, 0)).1

/-- An item is applied whole; none: its rule is broken. `act` is the last item's action, which ends the bundle. -/
def State.applyItem (s : State) (typ : Nat) (v : Bytes) (last : Bool) : Option (State × Nat) :=
  let n := v.length
  let done (l : Lc) : Option (State × Nat) := some ({ s with lc := l }, 0)
  match typ with
  | 0x01 => if n = 132 && s.lc.ownerKey.isNone then done { s.lc with ownerKey := some v } else none
  | 0x02 => if n = 132 then done { s.lc with programKey := some v } else none
  | 0x03 =>
    if n ≠ 36 then none else
    let key : BitVec 256 := BitVec.ofNat 256 (leAt v 0 32)
    some (s.installTransport key (BitVec.ofNat 32 (leAt v 32 4)), 0)
  | 0x04 =>
    if n ≠ 34 || 8 ≤ leAt v 0 1 then none else
    let k : ClaspKey := { role := BitVec.ofNat 8 (leAt v 1 1), key := BitVec.ofNat 256 (ofBe (sub v 2 32)) }
    let num := leAt v 0 1
    let c : Cl := { s.cl with keys := (s.cl.keys.filter (·.1 < num)) ++ (num, k) :: s.cl.keys.filter (num < ·.1) }
    some (({ s with cl := c } : State).claspBlock, 0)
  | 0x05 =>
    if n = 1 && leAt v 0 1 < 2 && s.tmp.policyFused.isNone then
      some ({ s with tmp := { s.tmp with policyFused := some (leAt v 0 1 == 1) } }, 0)
    else none
  | 0x06 => if n = 4 then done { s.lc with subsys := BitVec.ofNat 32 (leAt v 0 4) } else none
  | 0x07 =>
    let s : State := { s with lc := { s.lc with ownerCfg := v, configHash := sha512 v } }
    some (s.applyRanges, 0)
  | 0x08 => done { s.lc with attCert := some v }
  | 0x09 => if n = 4 && s.lc.minSvn ≤ leAt v 0 4 then done { s.lc with minSvn := leAt v 0 4 } else none
  | 0x0A =>
    let t := leAt v 0 1
    if n ≠ 1 || s.fls.running.isSome then none
    else if (s.fls.rdp = 0 && (t = 1 || t = 2)) || (s.fls.rdp = 1 && t = 2) then some (s.flRaise t, 0)
    else none
  | 0x0B =>
    let a := leAt v 0 1
    let may : Bool := match a with
      | 1 => s.mayDeploy
      | 2 => true
      | 3 => s.fls.rdp = 1
      | _ => false
    if n = 1 && last && may then some (s, a) else none
  | _ => none

/-- The items in order (R500): an item that fails leaves those before it applied. The result: every rule was kept, and the
action. -/
def State.applyItems (s : State) (b : Bytes) : Nat → State × Bool × Nat
  | 0 => (s, b.isEmpty, 0)
  | k + 1 =>
    if b.isEmpty then (s, true, 0)
    else
      let n := leAt b 1 2
      if b.length < 3 + n then (s, false, 0)
      else match s.applyItem (leAt b 0 1) (sub b 3 n) (b.length == 3 + n) with
        | none => (s, false, 0)
        | some (s, a) => if a ≠ 0 then (s, true, a) else s.applyItems (b.drop (3 + n)) k

/-- A bundle's header: MAGIC, FORMAT (1 as every format of the chapter), reserved bytes. -/
def bundleHeaderOk (b : Bytes) : Bool := sub b 0 4 == [0x47, 0x4C, 0x42, 0x4E] && leAt b 4 2 = 1 && leAt b 6 2 = 0

/-- A bundle whose bytes have been read (R500). The action's lifecycle decision answers later. -/
def State.runBundle (s : State) (party tag : Nat) (b : Bytes) : State :=
  let answer (s : State) (st : Nat) : State := s.reply party tag 0x0701 st (if st = stOk then loadAnswer 0xF1 [] else [])
  let sigLen := if s.lc.ownerKey.isSome then 132 else 0
  let body := b.take (b.length - sigLen)
  let signed : Bool := match s.lc.ownerKey with
    | some key => sigCheck key body (b.drop (b.length - 132))
    | none => true
  let sq := leAt b 16 8
  let ct := (body.drop 36).take (body.length - 52)
  let (pt, tg) := gcmOpen (be 32 s.lc.bundleKey.toNat) (sub b 24 12) (sub b 0 32) ct
  if s.lc.lifecycle = 0 then answer s stAccess
  else if b.length < 52 + sigLen || !bundleHeaderOk b then answer s stRejected
  else
  let s := match s.lc.ownerKey with
    | some key => s.ranVerify key body (b.drop (b.length - 132))
    | none => s
  if !signed then answer s stAccess
  else if leAt b 8 8 ≠ s.lc.serial.toNat || sq ≤ s.lc.authSeq || tg != body.drop (body.length - 16) then answer s stRejected
  else
    let s : State := { s with lc := { s.lc with authSeq := sq } }
    let (s, ok, act) := s.applyItems pt pt.length
    if !ok then answer s stRejected
    else match act with
      | 1 => s.decide (.lifecycle 2 party tag) true
      | 2 => s.decide (.lifecycle 3 party tag) true
      | 3 => s.decide (.lifecycle 1 party tag) true
      | _ => answer s stOk

/-- The image that a TP_LOAD names, read from the issuer's buffer (R128, R132); none: the move may not be made. -/
def State.loadBytes (s : State) (r : Req) (data : Bytes) : Option Bytes :=
  if s.mayMove 0 then some (sub data 0 (leAt r.payload 12 4)) else none

/-- BUNDLE (R496, R500): TP_LOAD with core 0xF1. -/
def execBundle (r : Req) (data : List (BitVec 8)) (s : State) : Out :=
  if leAt r.payload 0 1 ≠ 0xF1 || s.verifyWaits then .next s else
  driner 0x0701 r s fun s =>
    if leAt r.payload 1 3 ≠ 0 then s.reply r.party r.tag 0x0701 stRejected [] else
    match s.loadBytes r data with
    | none => s.reply r.party r.tag 0x0701 stAccess []
    | some b => s.runBundle r.party r.tag b

end Sys2Proof.Machine
end

