-- ==== Sys2Proof/Machine/LolanRun.lean ====
section
/-! DEFINITION. Sys2Proof/Machine/LolanRun.lean: how one Lolan-32 instruction runs: predicates, delay slots, the end of
a hardware loop (R335, R343 to R348), bits of B-space (R334, R350), memory operands. -/

namespace Sys2Proof.Machine

/-- How an instruction's own work ends. -/
inductive Eff where
  /-- it completes; the PC moves on -/
  | done (s : State)
  /-- it faults, having written nothing -/
  | flt (f : Flt) (s : State)
  /-- a branch decides: taken or not, its target, annulling form, what takes effect with the slot -/
  | branch (taken annul : Bool) (target : BitVec 24) (d : Defer)
  /-- it has placed the PC itself -/
  | went (s : State)
  /-- the code flash or cluster memory holds the access (R302, R352) -/
  | hold

/-- A general register. -/
def Core.reg (k : Core) (n : Nat) : Word := tget 0 k.g n
def Core.setReg (k : Core) (n : Nat) (v : Word) : Core := { k with g := tset 0 k.g n v }

/-- A change of core `c`'s registers. -/
def State.onCore (s : State) (c : Nat) (f : Core → Core) : State := s.setCore c (f (s.core c))

def illegal : Flt := { vec := vIllegal }

/-! ### Bits of B-space (R334, R350) -/

/-- A bit as core `c` reads it. -/
def State.bitRead (s : State) (c a : Nat) : Bool :=
  if a < 0x8000 then tget false (s.cmem c).bits a
  else if a < 0x8010 then (s.pin (a - 0x8000)).accepted
  else if a < 0x8020 then (s.pin (a - 0x8010)).raw
  else if a = 0x8100 then s.tmp.flags ≠ 0
  else if a = 0x8101 then s.halted
  else if a = 0x8200 then s.tim.qual.getLsbD 0
  else if a = 0x8201 then s.tim.qual.getLsbD 1
  else if 0xA000 ≤ a && a < 0xC000 then bit (s.windowRead (coreMid c) ((a - 0xA000) / 32) 19) (a % 32)
  else if 0xC000 ≤ a && a < 0xC100 then bit (s.windowRead (coreMid c) (a - 0xC000) 17) 10
  else false

/-- A bit as core `c` writes it: a status bit by its access rule. -/
def State.bitWrite (s : State) (c a : Nat) (v : Bool) : State :=
  if a < 0x8000 then
    let m := s.cmem c
    s.setCmem c { m with bits := tset false m.bits a v }
  else if 0xA000 ≤ a && a < 0xC000 && v then s.dbWrite (coreMid c) ((a - 0xA000) / 32) (bitW (a % 32))
  else s

/-- BBTC's clear: a local bit becomes 0; a W1C bit is cleared by its rule (log entry 26). -/
def State.bitClear (s : State) (c a : Nat) : State :=
  if a < 0x8000 then s.bitWrite c a false
  else
    match s.windowChan (coreMid c) ((a - 0xA000) / 32) with
    | some ch => if (s.chan ch).sender.toNat = coreMid c then s else s.bitWrite c a true
    | none => s

/-- The MPU's refusal of bit accesses, in order (R401): 0 read, 1 write, 3 both. -/
def State.bitCheck (s : State) (c access : Nat) (as : List Nat) : Option Flt :=
  as.foldl (fun f a => match f with
    | some x => some x
    | none => mpuCheck (s.mpu c) 3 access (s.core c).pl vMpuData [a] 0) none

/-! ### Completion -/

/-- What takes effect with the completion of a slot (R344); `next` is the address after the slot. -/
def State.deferred (s : State) (c : Nat) (d : Defer) (next : BitVec 24) : State :=
  match d with
  | .none => s
  | .call => s.onCore c fun k =>
      { k with lk := next }.setCallStack (ssRec next 0 0 0 false :: k.callStack)
  | .ret => s.onCore c fun k => k.setCallStack (k.callStack.drop 1)
  | .clearBit b => s.bitClear c b.toNat

/-- An instruction of `len` bytes completes: in a slot, at the end of a loop, or in sequence (R343, R344, R346). -/
def State.complete (s : State) (c len : Nat) : State :=
  let k := s.core c
  let next := k.pc + BitVec.ofNat 24 len
  match k.slot with
  | some t => (s.deferred c t.effect next).onCore c fun k =>
      { k with pc := t.target.getD next, slot := none }
  | none =>
    if k.la && k.pc = k.le then
      let n := k.lc - 1
      if n = 0 then s.setCore c ({ k with lc := n, pc := next }.setFlag srLA false)
      else s.setCore c { k with lc := n, pc := k.ls }
    else s.setCore c { k with pc := next }

/-- A branch's decision: its slot comes next (R343). -/
def State.branchTo (s : State) (c len : Nat) (taken annul : Bool) (target : BitVec 24) (d : Defer) : State :=
  s.onCore c fun k => { k with
    pc := k.pc + BitVec.ofNat 24 len
    slot := some { branch := k.pc, target := if taken then some target else none, annul := annul && !taken,
                   effect := if taken then d else .none } }

/-- The predicate of an instruction holds (R335). -/
def predHolds (i : Ins) (sr : Word) : Bool :=
  match i.pred with
  | some p => condTrue (predCode p) sr
  | none => true

/-- The instruction stands where R345 or R348 bars it. -/
def barred (k : Core) (i : Ins) : Bool :=
  let atEnd := k.la && k.pc = k.le
  (k.slot.isSome && (slotBarred i || atEnd)) || (atEnd && leBarred i)

/-- The instruction at the PC runs. -/
def State.runIns (s : State) (c : Nat) (i : Ins) (body : Ins → State → Eff) : State :=
  let k := s.core c
  let annulled := match k.slot with
    | some t => t.annul
    | none => false
  if !predHolds i k.sr then s.complete c i.len
  else if barred k i then s.takeFault c illegal
  else if annulled then s.complete c i.len
  else match body i s with
    | .done s => s.complete c i.len
    | .flt f s => s.takeFault c f
    | .branch taken annul target d => s.branchTo c i.len taken annul target d
    | .went s => s
    | .hold => s

/-- A core is about to run the instruction at its PC: it fetches, does not wait, and no interrupt is due. -/
def State.ready (s : State) (c : Nat) : Bool :=
  s.coreRuns c && !(s.core c).waiting && (s.core c).dueIrq.isNone

/-- A row of the instruction set: core `c` runs the instruction at its PC, if it is one of the row's; a fetch or an
encoding that faults is FAULT_ENTRY's (log entry 23). -/
def lrun (c : Fin 14) (serves : Ins → Bool) (s : State) (body : Ins → State → Eff) : Out :=
  if !s.ready c.val then .next s else
  match s.insAt c.val (s.core c.val).pc.toNat with
  | .error _ => .next s
  | .ok i => if serves i then .next (s.runIns c.val i body) else .next s

/-- An address of a core's own SRAM: its I-space and its banks (R327). -/
def ownSram (e : MemErr) : Bool := e.space ≠ 1 || e.addr.toNat < 0x40000

/-- A correctable error in a tenant core's own SRAM is counted (R29; log entry 110). -/
def State.coreCorrected (s : State) (c : Nat) (e : MemErr) : State :=
  match s.phys .tenantCore (c - 2) with
  | some p => if 2 ≤ c && ownSram e then s.strike .tenantCore p else s
  | none => s

/-- FAULT_ENTRY (R372, R374): the fetch or the encoding at the PC faults, or an uncorrectable SRAM error is met
(vector 10), and the fault is taken, before an interrupt due at the same boundary (R377). An error in a tenant core's own
SRAM retires the core (R29). -/
def execFaultEntry (c : Fin 14) (err : Option MemErr) (s : State) : Out :=
  if !s.coreRuns c.val || (s.core c.val).waiting then .next s else
  match s.insAt c.val (s.core c.val).pc.toNat, err with
  | .error f, _ => .next (s.takeFault c.val f)
  | .ok _, some e =>
    if e.corrected then .next (s.coreCorrected c.val e) else
    let s := s.takeFault c.val { vec := vMemory, addr := e.addr, space := e.space }
    match s.phys .tenantCore (c.val - 2) with
    | some p => if 2 ≤ c.val && ownSram e then .next (s.permanent .tenantCore p 1) else .next s
    | none => .next s
  | .ok _, none => .next s

/-! ### Memory operands -/

/-- The value of little-endian bytes, zero-extended. -/
def wordOf (b : Bytes) : Word := BitVec.ofNat 32 (ofLe b)

/-- An address lies in the X or the Y bank (R351, R353). -/
def inBanks (bank a n : Nat) : Bool := bank ≠ 0 || a + n ≤ 0x40000

/-- The data-bus fault of an atomic outside the banks (R351, R353). -/
def outOfBanks (a access : Nat) : Flt := { vec := vBus, addr := BitVec.ofNat 32 a, space := 1, access := access }

/-- A load of an instruction's memory operand, from D-space or through SPI from I-space. -/
def State.operand (s : State) (c access : Nat) (i : Ins) : Acc Bytes :=
  let k := s.core c
  let a := (effAddr k i).toNat
  if i.spi then s.iLoad c k.pl a i.size else s.dLoad c k.pl access i.bank a i.size

/-- A store over an instruction's memory operand. -/
def State.putOperand (s : State) (c access : Nat) (i : Ins) (v : Word) : Acc Unit :=
  let k := s.core c
  let d := le i.size v.toNat
  let parts := dParts i.bank (effAddr k i).toNat d.length
  match s.dCheck c k.pl access parts with
  | some f => .flt f (s.flashRefused c f)
  | none => if s.storeHeld c parts then .wait else .ok () (s.storeParts c parts d)

end Sys2Proof.Machine
end

