-- ==== Sys2Proof/Machine/LolanAlu.lean ====
section
/-! DEFINITION. Sys2Proof/Machine/LolanAlu.lean: the ALU groups 0x10 to 0x6F and the miscellaneous group 0x70 to 0x7C
(R339, R340, R353). -/

namespace Sys2Proof.Machine

/-- Writes the result and the flags of ALU operation `k` into register d. -/
def aluInto (k d : Nat) (x y : Word) (core : Core) : Core :=
  let r := aluResult k x y (core.flag srC)
  let core := { core with sr := aluSr k x y core.sr }
  if aluWrites k then core.setReg d r else core

/-- 0x40 to 0x4F: d := d op [mem]; the memory operand is zero-extended (log entry 27). The base moves before the result
is written (R337). -/
def State.aluLoad (s : State) (c k : Nat) (i : Ins) : Eff :=
  match s.operand c 0 i with
  | .flt f s => .flt f s
  | .wait => .hold
  | .ok b s => .done (s.onCore c fun core => aluInto k i.d (core.reg i.d) (wordOf b) (afterBase core i))

/-- 0x50 to 0x6F: [mem] := [mem] op y; MOV stores, CMP and TST only read, the others read and write (R353, R401). -/
def State.aluStore (s : State) (c k : Nat) (i : Ins) (y : Word) : Eff :=
  let a := bankAddr i.bank (effAddr (s.core c) i).toNat
  if k = 0 then
    match s.putOperand c 1 i y with
    | .flt f s => .flt f s
    | .wait => .hold
    | .ok _ s => .done (s.onCore c fun core => afterBase core i)
  else
    let access := if aluWrites k then 3 else 0
    match s.operand c access i with
    | .flt f s => .flt f s
    | .wait => .hold
    | .ok b s1 =>
      if i.atom && !inBanks i.bank a i.size then .flt (outOfBanks a 3) s
      else
        let x := wordOf b
        let sr := aluSr k x y (s1.core c).sr
        let r := aluResult k x y ((s1.core c).flag srC)
        let parts := dParts i.bank (effAddr (s1.core c) i).toNat i.size
        if aluWrites k && s1.storeHeld c parts then .hold else
        let s2 := if aluWrites k then s1.storeParts c parts (le i.size r.toNat) else s1
        .done (s2.onCore c fun core => { afterBase core i with sr := sr })

/-- ALU operation `k` in every form that does not reach a port. -/
def State.alu (s : State) (c k : Nat) (i : Ins) : Eff :=
  let core := s.core c
  match i.op / 16 with
  | 1 => .done (s.onCore c (aluInto k i.d (core.reg i.d) (core.reg i.s)))
  | 2 => .done (s.onCore c (aluInto k i.d (core.reg i.d) i.imm))
  | 3 => .done (s.onCore c (aluInto k i.d (core.reg i.d) i.imm))
  | 4 => s.aluLoad c k i
  | 5 => s.aluStore c k i (core.reg i.d)
  | _ => s.aluStore c k i i.imm

/-- The opcodes of ALU operation `k`: 0x1k to 0x6k. -/
def aluOp (k : Nat) (i : Ins) : Bool := i.op % 16 = k && 0x10 ≤ i.op && i.op < 0x70

def aluRow (k : Nat) (c : Fin 14) (s : State) : Out := lrun c (aluOp k) s fun i s => s.alu c.val k i

def execAdd (c : Fin 14) (s : State) : Out := aluRow 0x1 c s
def execAdc (c : Fin 14) (s : State) : Out := aluRow 0x2 c s
def execSub (c : Fin 14) (s : State) : Out := aluRow 0x3 c s
def execSbc (c : Fin 14) (s : State) : Out := aluRow 0x4 c s
def execCmp (c : Fin 14) (s : State) : Out := aluRow 0x5 c s
def execAndI (c : Fin 14) (s : State) : Out := aluRow 0x6 c s
def execOrI (c : Fin 14) (s : State) : Out := aluRow 0x7 c s
def execXorI (c : Fin 14) (s : State) : Out := aluRow 0x8 c s
def execTst (c : Fin 14) (s : State) : Out := aluRow 0x9 c s
def execShl (c : Fin 14) (s : State) : Out := aluRow 0xA c s
def execShr (c : Fin 14) (s : State) : Out := aluRow 0xB c s
def execSar (c : Fin 14) (s : State) : Out := aluRow 0xC c s
def execRol (c : Fin 14) (s : State) : Out := aluRow 0xD c s
def execMul (c : Fin 14) (s : State) : Out := aluRow 0xE c s
def execMulhu (c : Fin 14) (s : State) : Out := aluRow 0xF c s

/-! ### The miscellaneous group (R340) -/

/-- A row of one opcode that changes registers alone. -/
def regRow (op : Nat) (c : Fin 14) (s : State) (f : Ins → Core → Core) : Out :=
  lrun c (fun i => i.op = op) s fun i s => .done (s.onCore c.val (f i))

/-- NEG: 0 - s, with Z, N, C on borrow and V. -/
def execNeg (c : Fin 14) (s : State) : Out := regRow 0x70 c s fun i k => aluInto 0x3 i.d 0 (k.reg i.s) k

/-- NOT: Z and N. -/
def execNotI (c : Fin 14) (s : State) : Out := regRow 0x71 c s fun i k =>
  let r := ~~~ (k.reg i.s)
  { k with sr := srZN k.sr r }.setReg i.d r

def execSexb (c : Fin 14) (s : State) : Out := regRow 0x72 c s fun i k =>
  k.setReg i.d (((k.reg i.s).truncate 8).signExtend 32)

def execSexh (c : Fin 14) (s : State) : Out := regRow 0x73 c s fun i k =>
  k.setReg i.d (((k.reg i.s).truncate 16).signExtend 32)

/-- A divide: quotient or remainder, Z and N, V set on an error and otherwise unchanged (log entry 28). -/
def divInto (signed rem : Bool) (i : Ins) (k : Core) : Core :=
  let (q, r, bad) := divide signed (k.reg i.d) (k.reg i.s)
  let v := if rem then r else q
  let sr := srZN k.sr v
  { k with sr := if bad then setBit sr srV true else sr }.setReg i.d v

def execDivu (c : Fin 14) (s : State) : Out := regRow 0x74 c s (divInto false false)
def execDivs (c : Fin 14) (s : State) : Out := regRow 0x75 c s (divInto true false)
def execRemu (c : Fin 14) (s : State) : Out := regRow 0x76 c s (divInto false true)
def execRems (c : Fin 14) (s : State) : Out := regRow 0x77 c s (divInto true true)

/-- MULHS: the high word of the signed product of d and s. -/
def execMulhs (c : Fin 14) (s : State) : Out := regRow 0x78 c s fun i k =>
  let r := BitVec.ofInt 32 ((k.reg i.d).toInt * (k.reg i.s).toInt / 2 ^ 32)
  { k with sr := srZN k.sr r }.setReg i.d r

/-- CLZ: Z alone. -/
def execClz (c : Fin 14) (s : State) : Out := regRow 0x79 c s fun i k =>
  let r := BitVec.ofNat 32 (clz (k.reg i.s))
  { k with sr := setBit k.sr srZ (r == 0) }.setReg i.d r

/-- LEA: the effective address. -/
def execLea (c : Fin 14) (s : State) : Out := regRow 0x7A c s fun i k => k.setReg i.d (effAddr k i)

/-- A sign-extending load (R340). -/
def State.signLoad (s : State) (c : Nat) (i : Ins) : Eff :=
  match s.operand c 0 i with
  | .flt f s => .flt f s
  | .wait => .hold
  | .ok b s => .done (s.onCore c fun core => (afterBase core i).setReg i.d (sext i.size (ofLe b)))

def execLdsb (c : Fin 14) (s : State) : Out := lrun c (fun i => i.op = 0x7B) s fun i s => s.signLoad c.val i
def execLdsh (c : Fin 14) (s : State) : Out := lrun c (fun i => i.op = 0x7C) s fun i s => s.signLoad c.val i

end Sys2Proof.Machine
end

