-- ==== Sys2Proof/Machine/LolanBits.lean ====
section
/-! DEFINITION. Sys2Proof/Machine/LolanBits.lean: the bit group and the atomics (R334, R350 to R353). -/

namespace Sys2Proof.Machine

/-- The bit address of a bit instruction: direct, or g [15:0] in the indexed forms. -/
def bitAddr (k : Core) (i : Ins) : Nat := if 0xBC ≤ i.op then fld (k.reg i.s) 15 0 else i.b0

/-- A row that reads one bit and changes F. -/
def bitToF (serves : Nat → Bool) (c : Fin 14) (s : State) (f : Bool → Bool → Bool) : Out :=
  lrun c (fun i => serves i.op) s fun i s =>
    let a := bitAddr (s.core c.val) i
    match s.bitCheck c.val 0 [a] with
    | some e => .flt e s
    | none => .done (s.onCore c.val fun k => k.setFlag srF (f (k.flag srF) (s.bitRead c.val a)))

/-- A row that writes one bit; `access` 1 writes, 3 reads and writes. -/
def bitPut (serves : Nat → Bool) (access : Nat) (c : Fin 14) (s : State) (f : Bool → Bool → Bool) : Out :=
  lrun c (fun i => serves i.op) s fun i s =>
    let k := s.core c.val
    let a := bitAddr k i
    match s.bitCheck c.val access [a] with
    | some e => .flt e s
    | none => .done (s.bitWrite c.val a (f (k.flag srF) (s.bitRead c.val a)))

def execSetb (c : Fin 14) (s : State) : Out := bitPut (fun o => o = 0xB0 || o = 0xBC) 1 c s fun _ _ => true
def execClrb (c : Fin 14) (s : State) : Out := bitPut (fun o => o = 0xB1 || o = 0xBD) 1 c s fun _ _ => false
def execCplb (c : Fin 14) (s : State) : Out := bitPut (fun o => o = 0xB2) 3 c s fun _ b => !b
def execMovbToF (c : Fin 14) (s : State) : Out := bitToF (fun o => o = 0xB3 || o = 0xBE) c s fun _ b => b
def execMovbFromF (c : Fin 14) (s : State) : Out := bitPut (fun o => o = 0xB4 || o = 0xBF) 1 c s fun f _ => f
def execAndb (c : Fin 14) (s : State) : Out := bitToF (fun o => o = 0xB5) c s fun f b => f && b
def execOrb (c : Fin 14) (s : State) : Out := bitToF (fun o => o = 0xB6) c s fun f b => f || b
def execXorb (c : Fin 14) (s : State) : Out := bitToF (fun o => o = 0xB7) c s fun f b => f != b
def execAndnb (c : Fin 14) (s : State) : Out := bitToF (fun o => o = 0xB8) c s fun f b => f && !b
def execOrnb (c : Fin 14) (s : State) : Out := bitToF (fun o => o = 0xB9) c s fun f b => f || !b

/-- TSTB: F takes the bit, the bit becomes 1; local bit RAM only (R334). -/
def execTstb (c : Fin 14) (s : State) : Out := lrun c (fun i => i.op = 0xBA) s fun i s =>
  match s.bitCheck c.val 3 [i.b0] with
  | some e => .flt e s
  | none =>
    if 0x8000 ≤ i.b0 then .flt { vec := vBus, addr := BitVec.ofNat 32 i.b0, space := 3, access := 3 } s
    else .done ((s.onCore c.val fun k => k.setFlag srF (s.bitRead c.val i.b0)).bitWrite c.val i.b0 true)

/-- BOP: a logical operation of two bits into a third. -/
def execBop (c : Fin 14) (s : State) : Out := lrun c (fun i => i.op = 0xBB) s fun i s =>
  match s.bitCheck c.val 0 [i.b1, i.b2], s.bitCheck c.val 1 [i.b0] with
  | some e, _ => .flt e s
  | none, some e => .flt e s
  | none, none =>
    let a := s.bitRead c.val i.b1
    let b := s.bitRead c.val i.b2
    let v := match i.ctl with
      | 0 => a && b
      | 1 => a || b
      | 2 => a != b
      | _ => a && !b
    .done (s.bitWrite c.val i.b0 v)

/-! ### Atomics (R351, R352) -/

def alignFlt (a access : Nat) : Flt := { vec := vAlign, addr := BitVec.ofNat 32 a, space := 1, access := access }

/-- SR with Z alone changed. -/
def Core.setZ (k : Core) (b : Bool) : Core := k.setFlag srZ b

/-- TAS: reads a byte of the X or Y bank, writes 0xFF, Z when it was 0. -/
def execTas (c : Fin 14) (s : State) : Out := lrun c (fun i => i.op = 0xC0) s fun i s =>
  let k := s.core c.val
  let a := bankAddr i.bank (effAddr k i).toNat
  match s.dLoad c.val k.pl 3 i.bank (effAddr k i).toNat 1 with
  | .flt f s => .flt f s
  | .wait => .hold
  | .ok b s1 =>
    if !inBanks i.bank a 1 then .flt (outOfBanks a 3) s
    else
      let s2 := s1.storeParts c.val (dParts i.bank (effAddr k i).toNat 1) [0xFF]
      .done (s2.onCore c.val fun k => (afterBase k i).setZ (wordOf b == 0))

/-- The granule of an address (R351). -/
def granule (a : Nat) : Nat := a / 32

/-- The location lies in cluster memory. -/
def Loc.inShared : Loc → Bool
  | .shared _ => true
  | _ => false

/-- LDR.RS: a word load that takes a reservation; the code-flash window is refused (R351). While cluster memory keeps the granule for
another core's sequence, the load waits (R352). -/
def execLdrRs (c : Fin 14) (s : State) : Out := lrun c (fun i => i.op = 0xC1) s fun i s =>
  let k := s.core c.val
  let a := bankAddr i.bank (effAddr k i).toNat
  if a % 4 ≠ 0 then .flt (alignFlt a 0) s
  else
    match mpuCheck (s.mpu c.val) 1 0 k.pl vMpuData [a] 0, dLoc k.escActive a with
    | some f, _ => .flt f s
    | none, .flash _ => .flt { vec := vBus, addr := BitVec.ofNat 32 a, space := 1 } s
    | none, _ =>
      if (dLoc k.escActive a).inShared && s.heldBack c.val (a - 0x10000000) 4 then .hold else
      match (s.drain c.val 4).dLoad c.val k.pl 0 i.bank a 4 with
      | .flt f _ => .flt f s
      | .wait => .hold
      | .ok b s1 => .done (s1.onCore c.val fun k => { k.setReg i.d (wordOf b) with rsv := some (granule a), rsvAt := s1.now })

/-- STC: stores while the reservation is held for the granule, Z when it does; always clears the reservation. -/
def execStc (c : Fin 14) (s : State) : Out := lrun c (fun i => i.op = 0xC2) s fun i s =>
  let k := s.core c.val
  let a := bankAddr i.bank (effAddr k i).toNat
  if a % 4 ≠ 0 then .flt (alignFlt a 1) s
  else
    match s.dCheck c.val k.pl 1 [(a, 4)] with
    | some f => .flt f (s.flashRefused c.val f)
    | none =>
      let holds := k.rsv = some (granule a)
      let waits := (dLoc k.escActive a).inShared &&
        (s.heldBack c.val (a - 0x10000000) 4 || !((s.drain c.val 4).cmem c.val).stores.isEmpty)
      if holds && waits then .hold else
      let s1 := if holds then (((s.drain c.val 4).storeParts c.val [(a, 4)] (le 4 (k.reg i.d).toNat)).drain c.val 4) else s
      .done (s1.onCore c.val fun k => { (afterBase k i).setZ holds with rsv := none })

/-- CLRRS (R359). -/
def execClrrs (c : Fin 14) (s : State) : Out := lrun c (fun i => i.op = 0x07) s fun _ s =>
  .done (s.onCore c.val fun k => { k with rsv := none })

end Sys2Proof.Machine
end

