-- ==== Sys2Proof/Machine/LolanFlow.lean ====
section
/-! DEFINITION. Sys2Proof/Machine/LolanFlow.lean: branches, calls, returns and hardware loops (R341 to R349, R384). -/

namespace Sys2Proof.Machine

/-- The target of a relative branch: from the delay slot's address (R342). -/
def relTarget (k : Core) (i : Ins) : BitVec 24 :=
  k.pc + BitVec.ofNat 24 i.len + BitVec.ofInt 24 (toSigned 16 i.disp16)

/-- A row of opcodes that branch. -/
def flowRow (serves : Nat → Bool) (c : Fin 14) (s : State) (f : Ins → State → Eff) : Out :=
  lrun c (fun i => serves i.op) s f

/-- BCC and BCC_A: the condition is OP[3:0] on the flags before the branch (R341, R343). -/
def condBranch (annul : Bool) (c : Nat) (i : Ins) (s : State) : Eff :=
  let k := s.core c
  .branch (condTrue (i.op % 16) k.sr) annul (relTarget k i) .none

def execBcc (c : Fin 14) (s : State) : Out := flowRow (fun o => 0x80 ≤ o && o < 0x90) c s (condBranch false c.val)
def execBccA (c : Fin 14) (s : State) : Out := flowRow (fun o => 0x90 ≤ o && o < 0xA0) c s (condBranch true c.val)

/-- JMP, absolute or through a register (R342). -/
def execJmp (c : Fin 14) (s : State) : Out := flowRow (fun o => o = 0xA0 || o = 0xA2) c s fun i s =>
  let target := if i.op = 0xA0 then BitVec.ofNat 24 i.abs else ((s.core c.val).reg i.s).truncate 24
  .branch true false target .none

/-- A call: the overflow check is made when it issues (R384). -/
def State.callTo (s : State) (c : Nat) (target : BitVec 24) : Eff :=
  let k := s.core c
  if k.callDepth ≤ k.callStack.length then .flt { vec := vShadow, ssCause := 0, ssLevel := k.pl } s
  else .branch true false target .call

def execCall (c : Fin 14) (s : State) : Out := flowRow (fun o => o = 0xA1 || o = 0xA3) c s fun i s =>
  s.callTo c.val (if i.op = 0xA1 then BitVec.ofNat 24 i.abs else ((s.core c.val).reg i.s).truncate 24)

def execBsr (c : Fin 14) (s : State) : Out := flowRow (fun o => o = 0xAA) c s fun i s =>
  s.callTo c.val (relTarget (s.core c.val) i)

/-- RET (R342, R384): the fill check and the comparison are made when it issues. -/
def State.retTo (s : State) (c : Nat) : Eff :=
  let k := s.core c
  match k.callStack with
  | r :: _ =>
    if r.kind = 0 && r.pc = k.lk then .branch true false k.lk .ret
    else .went (s.escalate c 3 { vec := 0 })
  | [] =>
    if !k.escActive && 0 < k.spills k.pl then .flt { vec := vShadow, ssCause := 1, ssLevel := k.pl } s
    else .went (s.escalate c 3 { vec := 0 })

def execRet (c : Fin 14) (s : State) : Out := flowRow (fun o => o = 0x05) c s fun _ s => s.retTo c.val

/-- A bit branch (R342, R401): R on the bit. -/
def bitBranch (want annul : Bool) (c : Nat) (i : Ins) (s : State) : Eff :=
  match s.bitCheck c 0 [i.b0] with
  | some f => .flt f s
  | none => .branch (s.bitRead c i.b0 == want) annul (relTarget (s.core c) i) .none

def execBbt (c : Fin 14) (s : State) : Out := flowRow (fun o => o = 0xA4) c s (bitBranch true false c.val)
def execBbf (c : Fin 14) (s : State) : Out := flowRow (fun o => o = 0xA5) c s (bitBranch false false c.val)
def execBbtA (c : Fin 14) (s : State) : Out := flowRow (fun o => o = 0xA6) c s (bitBranch true true c.val)
def execBbfA (c : Fin 14) (s : State) : Out := flowRow (fun o => o = 0xA7) c s (bitBranch false true c.val)

/-- BBTC: R and W on the bit; the clear takes effect with the slot (R342, R344). -/
def bitBranchClear (annul : Bool) (c : Nat) (i : Ins) (s : State) : Eff :=
  match s.bitCheck c 3 [i.b0] with
  | some f => .flt f s
  | none => .branch (s.bitRead c i.b0) annul (relTarget (s.core c) i) (.clearBit (BitVec.ofNat 16 i.b0))

def execBbtc (c : Fin 14) (s : State) : Out := flowRow (fun o => o = 0xA8) c s (bitBranchClear false c.val)
def execBbtcA (c : Fin 14) (s : State) : Out := flowRow (fun o => o = 0xA9) c s (bitBranchClear true c.val)

/-! ### Hardware loops (R346, R347) -/

/-- A loop starts: LS, LE, LC and LA. With a count of 0 the instruction at LE is decoded for its length and skipped; one
that does not decode is reached and faults there (log entry 29). -/
def State.startLoop (s : State) (c : Nat) (i : Ins) (count : Word) : Eff :=
  let k := s.core c
  let ls := k.pc + BitVec.ofNat 24 i.len
  let le := ls + BitVec.ofNat 24 i.disp16
  let k' : Core := { k with ls := ls, le := le, lc := count }
  if count = 0 then
    let past := match s.insAt c le.toNat with
      | .ok j => le + BitVec.ofNat 24 j.len
      | .error _ => le
    .went (s.setCore c ({ k' with pc := past }.setFlag srLA false))
  else .went (s.setCore c ({ k' with pc := ls }.setFlag srLA true))

def execLoopI_ (c : Fin 14) (s : State) : Out := flowRow (fun o => o = 0xAC) c s fun i s =>
  s.startLoop c.val i ((s.core c.val).reg i.s)

def execLoopi (c : Fin 14) (s : State) : Out := flowRow (fun o => o = 0xAD) c s fun i s => s.startLoop c.val i i.imm

/-- BREAKL: LA clears; the loop registers keep their values. -/
def execBreakl (c : Fin 14) (s : State) : Out := flowRow (fun o => o = 0x0C) c s fun _ s =>
  .done (s.onCore c.val fun k => k.setFlag srLA false)

end Sys2Proof.Machine
end

