-- ==== Sys2Proof/Machine/LolanMac.lean ====
section
/-! DEFINITION. Sys2Proof/Machine/LolanMac.lean: the accumulators and the dual-fetch MAC (R355 to R358, R401). -/

namespace Sys2Proof.Machine

def Core.acc (k : Core) (a : Nat) : BitVec 96 := if a = 0 then k.ac0 else k.ac1
def Core.setAcc (k : Core) (a : Nat) (v : BitVec 96) : Core := if a = 0 then { k with ac0 := v } else { k with ac1 := v }
def Core.poison (k : Core) (a : Nat) : Option Word := if a = 0 then k.poison0 else k.poison1
def Core.setPoison (k : Core) (a : Nat) (p : Option Word) : Core :=
  if a = 0 then { k with poison0 := p } else { k with poison1 := p }

/-- A product accumulates under a CTL byte (R355, R358). -/
def accumulate (ctl : Nat) (x y : Word) (k : Core) : Core :=
  let a := ctl % 2
  let sgn := ctl / 2 % 4
  let p := macProduct sgn x y
  let base := if ctl / 16 % 2 = 1 then 0 else k.acc a
  let (v, av) := macSum sgn base (if ctl / 8 % 2 = 1 then -p else p)
  let k := k.setAcc a v
  if av then k.setFlag srAV true else k

/-- A word of a bank at a MAC pointer, as the core sees it. -/
def State.macWord (s : State) (c a : Nat) : Word := wordOf (s.dBytes c a 4)

/-- A MAC's operand fetches (R401): refused ones are recorded, and the first refused address poisons. -/
def State.macFetch (s : State) (c : Nat) : State × Option Word :=
  let k := s.core c
  [k.xp.toNat, 0x20000 + k.yp.toNat].foldl (fun (s, p) a =>
    match mpuCheck (s.mpu c) 1 0 k.pl vMpuData [a] 0 with
    | some f => (s.recordFlt c f, p.or (some (BitVec.ofNat 32 a)))
    | none => (s, p)) (s, none)

/-- MAC (R355 to R357, R401): a refused fetch makes the product 0 and poisons the accumulator. -/
def execMac (c : Fin 14) (s : State) : Out := lrun c (fun i => i.op = 0xD0) s fun i s =>
  let k := s.core c.val
  let x := s.macWord c.val k.xp.toNat
  let y := s.macWord c.val (0x20000 + k.yp.toNat)
  let (s, refused) := s.macFetch c.val
  .done (s.onCore c.val fun k =>
    let a := i.ctl % 2
    let clr := i.ctl / 16 % 2 = 1
    let k := match refused with
      | some w => (accumulate i.ctl 0 0 k).setPoison a (if clr then some w else (k.poison a).or (some w))
      | none =>
        let k' := accumulate i.ctl x y k
        if clr then k'.setPoison a none else k'
    if i.ctl / 32 % 2 = 1 then k else { k with xp := macStep k.xp k.xm, yp := macStep k.yp k.ym })

/-- MACR (R355): operands from registers. -/
def execMacr (c : Fin 14) (s : State) : Out := lrun c (fun i => i.op = 0xD1) s fun i s =>
  .done (s.onCore c.val fun k => accumulate i.ctl (k.reg i.d) (k.reg i.s) k)

/-- A row that reads an accumulator: MPU_DATA when it is poisoned (R401). -/
def accRow (op : Nat) (c : Fin 14) (s : State) (f : Ins → Core → Core) : Out :=
  lrun c (fun i => i.op = op) s fun i s =>
    match (s.core c.val).poison i.s with
    | some w => .flt { vec := vMpuData, addr := w, space := 1, poison := true } s
    | none => .done (s.onCore c.val (f i))

def execAcsr (c : Fin 14) (s : State) : Out := accRow 0xD2 c s fun i k =>
  let a := k.acc i.s
  (k.setAcc i.s (a >>> 32)).setReg i.d (a.truncate 32)

def execAcsra (c : Fin 14) (s : State) : Out := accRow 0xD3 c s fun i k =>
  let a := k.acc i.s
  (k.setAcc i.s (a.sshiftRight 32)).setReg i.d (a.truncate 32)

def execAcsat (c : Fin 14) (s : State) : Out := accRow 0xD4 c s fun i k =>
  let (v, sat) := acSat (k.acc i.s) i.imm.toNat
  (k.setFlag srV sat).setReg i.d v

def execAcclr (c : Fin 14) (s : State) : Out := lrun c (fun i => i.op = 0xD5) s fun i s =>
  .done (s.onCore c.val fun k => (k.setAcc i.s 0).setPoison i.s none)

end Sys2Proof.Machine
end

