-- ==== Sys2Proof/Machine/LolanSys.lean ====
section
/-! DEFINITION. Sys2Proof/Machine/LolanSys.lean: the control group, special registers, EVPOST (R329, R354, R359, R360,
R362, R387, R392). -/

namespace Sys2Proof.Machine

/-- A row of one opcode. -/
def opRow (op : Nat) (c : Fin 14) (s : State) (f : Ins → State → Eff) : Out := lrun c (fun i => i.op = op) s f

def execNop (c : Fin 14) (s : State) : Out := opRow 0x00 c s fun _ s => .done s

/-- A request or a mailbox signal stands toward the core (R359). -/
def State.wakes (s : State) (c : Nat) : Bool := (s.core c).irqPend ≠ 0 || s.mbxSignals (coreMid c)

/-- WAIT (R359): the clock stops until a request of any level or a mailbox signal; with one pending it completes. -/
def execWait (c : Fin 14) (s : State) : Out := opRow 0x01 c s fun i s =>
  if s.wakes c.val then .done s
  else .went ((s.complete c.val i.len).onCore c.val fun k => { k with waiting := true })

/-- WAIT_WAKE (R359): a waiting core's clock runs again. -/
def execWaitWake (c : Fin 14) (s : State) : Out :=
  if s.coreRuns c.val && (s.core c.val).waiting && s.wakes c.val then
    .next (s.onCore c.val fun k => { k with waiting := false })
  else .next s

def execBrk (c : Fin 14) (s : State) : Out := opRow 0x02 c s fun _ s => .flt { vec := vBreak } s

/-- ISYNC (R333): what was fetched is discarded. -/
def execIsync (c : Fin 14) (s : State) : Out := opRow 0x03 c s fun _ s =>
  .done (s.setCmem c.val { s.cmem c.val with stale := [] })

/-- FENCE (R354): every earlier store is visible; one that cluster memory holds back is waited for. -/
def execFence (c : Fin 14) (s : State) : Out := opRow 0x04 c s fun _ s =>
  let t := s.drain c.val 4
  if (t.cmem c.val).stores.isEmpty then .done t else .hold

def execRetx (c : Fin 14) (upset : Bool) (s : State) : Out := opRow 0x06 c s fun _ s => .went (s.retx c.val upset)

/-- SC0 to SC3 (R392). -/
def execSc (c : Fin 14) (s : State) : Out := lrun c (fun i => 0x08 ≤ i.op && i.op ≤ 0x0B) s fun i s =>
  .went (s.sysCall c.val (i.op - 8) i.len)

def execUdf (c : Fin 14) (s : State) : Out := opRow 0x0F c s fun _ s => .flt illegal s

/-! ### Special registers (R329) -/

/-- EDTB and SCE0 to SCE3 are PL0's. -/
def sprPl0 (n : Nat) : Bool := 0x10 ≤ n && n ≤ 0x14

/-- A special register as MFS reads it. -/
def Core.spr (k : Core) (n : Nat) : Word :=
  match n with
  | 0x00 => k.sr
  | 0x01 => bf 23 0 k.lk.toNat
  | 0x02 => k.lc
  | 0x03 => bf 23 0 k.ls.toNat
  | 0x04 => bf 23 0 k.le.toNat
  | 0x05 => bf 16 0 k.xp.toNat
  | 0x06 => bf 16 0 k.yp.toNat
  | 0x07 => k.xm
  | 0x08 => k.ym
  | 0x09 => k.ac0.truncate 32
  | 0x0A => (k.ac0 >>> 32).truncate 32
  | 0x0B => (k.ac0 >>> 64).truncate 32
  | 0x0C => k.ac1.truncate 32
  | 0x0D => (k.ac1 >>> 32).truncate 32
  | 0x0E => (k.ac1 >>> 64).truncate 32
  | 0x10 => k.edtb
  | 0x11 => k.sce0
  | 0x12 => k.sce1
  | 0x13 => k.sce2
  | 0x14 => k.sce3
  | 0x15 => bf 23 0 k.pc.toNat
  | 0x16 => BitVec.ofNat 32 (k.stack k.pl).length
  | _ => 0

/-- An accumulator with one of its words replaced. -/
def accWord (a : BitVec 96) (n : Nat) (v : Word) : BitVec 96 :=
  (a &&& ~~~ ((0xFFFFFFFF : BitVec 96) <<< (32 * n))) ||| (v.zeroExtend 96 <<< (32 * n))

/-- SR as MTS writes it (R328, R370): the flags; ML too but at PL3. -/
def mtsSr (sr v : Word) : Word :=
  let x := setFld sr 5 0 (fld v 5 0)
  if fld sr 13 12 = 3 then x else setFld x 11 8 (fld v 11 8)

/-- A special register as MTS writes it; read-only registers keep their value. -/
def Core.setSpr (k : Core) (n : Nat) (v : Word) : Core :=
  match n with
  | 0x00 => { k with sr := mtsSr k.sr v }
  | 0x01 => { k with lk := v.truncate 24 }
  | 0x02 => { k with lc := v }
  | 0x03 => { k with ls := v.truncate 24 }
  | 0x04 =>
    let k : Core := { k with le := v.truncate 24 }
    if k.lc = 0 then k else k.setFlag srLA true
  | 0x05 => { k with xp := (v &&& 0x1FFFC).truncate 17 }
  | 0x06 => { k with yp := (v &&& 0x1FFFC).truncate 17 }
  | 0x07 => { k with xm := v }
  | 0x08 => { k with ym := v }
  | 0x09 => { k with ac0 := accWord k.ac0 0 v, poison0 := none }
  | 0x0A => { k with ac0 := accWord k.ac0 1 v, poison0 := none }
  | 0x0B => { k with ac0 := accWord k.ac0 2 v, poison0 := none }
  | 0x0C => { k with ac1 := accWord k.ac1 0 v, poison1 := none }
  | 0x0D => { k with ac1 := accWord k.ac1 1 v, poison1 := none }
  | 0x0E => { k with ac1 := accWord k.ac1 2 v, poison1 := none }
  | 0x10 => { k with edtb := v &&& 0xFFFFFC00 }
  | 0x11 => { k with sce0 := v }
  | 0x12 => { k with sce1 := v }
  | 0x13 => { k with sce2 := v }
  | 0x14 => { k with sce3 := v }
  | _ => k

def execMfs (c : Fin 14) (s : State) : Out := opRow 0xE4 c s fun i s =>
  let k := s.core c.val
  if sprPl0 i.imm.toNat && k.pl ≠ 0 then .flt { vec := vPrivilege } s
  else .done (s.setCore c.val (k.setReg i.d (k.spr i.imm.toNat)))

def execMts (c : Fin 14) (s : State) : Out := opRow 0xE5 c s fun i s =>
  let k := s.core c.val
  if sprPl0 i.imm.toNat && k.pl ≠ 0 then .flt { vec := vPrivilege } s
  else .done (s.setCore c.val (k.setSpr i.imm.toNat (k.reg i.s)))

/-! ### EVPOST (R82, R362) -/

/-- Events of a core's post queue that have not yet reached Dovetail. -/
def State.posted (s : State) (c : Nat) : Nat := (s.dv.inbox.filter fun e => e.core == some c).length

/-- A core may post a source number (R82, R362). -/
def State.mayPost (s : State) (c n : Nat) : Bool :=
  c < 2 || (tget [] s.dv.ranges (c - 2)).any fun r => r.1 ≤ n && n < r.1 + r.2

/-- EVPOST: a stamped event of the source and class in s with the datum in d. -/
def execEvpost (c : Fin 14) (s : State) : Out := opRow 0xE6 c s fun i s =>
  let k := s.core c.val
  let w := k.reg i.s
  let n := fld w 11 0
  let refuse (s : State) : Eff := .done (s.onCore c.val fun k => k.setFlag srF false)
  if w.toNat ≥ 2 ^ 14 then refuse s
  else if !s.mayPost c.val n then
    refuse (s.event 0x0010 (coreSrc c.val) c1 (Config.openBody 0x0010 [1, n, (k.reg i.d).toNat]))
  else if 8 ≤ s.posted c.val then refuse s
  else
    let s := s.post { typ := 0x0010, src := n, cls := BitVec.ofNat 2 (fld w 13 12), gts := s.stampAt 5, core := some c.val,
                      body := Config.openBody 0x0010 [0, n, (k.reg i.d).toNat] }
    .done (s.onCore c.val fun k => k.setFlag srF true)

end Sys2Proof.Machine
end

