-- ==== Sys2Proof/Machine/Ports.lean ====
section
/-! DEFINITION. Sys2Proof/Machine/Ports.lean: P-space as the cores reach it (R364, R371, R401, R405, R406), BAR0 and BAR4 as
the host reaches them (R94 to R96, R99, R100, R120), and the instructions IN, OUT and MOV. -/

namespace Sys2Proof.Machine

/-- The state after an operation that its row answers. -/
def after (o : Out) (s : State) : State :=
  match o with
  | .next t => t
  | _ => s

/-! ### Mailbox windows (R120) -/

/-- A write of a window's register, by its port offset. -/
def State.windowWrite (s : State) (mid window reg : Nat) (v : Word) : State :=
  if reg < 16 then s.stagingWrite mid window reg v
  else match reg with
    | 17 => s.mbxStatusWrite mid window v
    | 18 =>
      let s := if bit v 0 then after (execMbxSend mid window s) s else s
      if bit v 1 then after (execMbxPop mid window s) s else s
    | 19 => s.dbWrite mid window v
    | 20 => after (execMbxDbMaskWrite mid window v s) s
    | _ => s

/-! ### P-space -/

/-- How a port read ends: its value, the privilege fault, or held (R259). -/
inductive PRes where
  | ok (w : Word) (s : State)
  | denied
  | wait

/-- FEAT0 to FEAT3 (R364). -/
def State.featRead (s : State) (c port : Nat) : Word :=
  match port with
  | 0 => 0x1213F
  | 1 => 256 ||| bf 31 16 32768
  | 2 => 256 ||| bf 17 10 128 ||| bf 25 18 128
  | _ => bf 7 0 (coreMid c) ||| bf 19 8 (coreSrc c) ||| bf 21 20 (ceiling c) ||| bf 22 22 (b2n (2 ≤ c)) |||
         bf 23 23 (b2n (2 ≤ c && s.phys .tenantCore (c - 2) == some 12))

/-- The binding table, the lock and MBX_FAULT (R126). -/
def State.bindPortRead (s : State) (port : Nat) : Word :=
  if port < 0x0E00 then s.bindRead ((port - 0x0C00) / 2) (port % 2 = 1)
  else if port = 0x0E00 then bf 0 0 (b2n s.mbx.lock)
  else s.mbx.fault

def State.bindPortWrite (s : State) (port : Nat) (v : Word) : State :=
  if port < 0x0E00 then s.bindWrite ((port - 0x0C00) / 2) (port % 2 = 1) v
  else if port = 0x0E00 then { s with mbx := { s.mbx with lock := s.mbx.lock || bit v 0 } }
  else if bit v 31 then { s with mbx := { s.mbx with fault := 0 } }
  else s

/-- A port lies in a block. -/
def inBlock (port lo hi : Nat) : Bool := lo ≤ port && port ≤ hi

/-- Blocks that PL0 and PL1 read and PL0 writes. -/
def sysBlock (port : Nat) : Bool :=
  inBlock port 0x0600 0x061F || inBlock port 0x0700 0x072F || inBlock port 0x0A00 0x0A1F || inBlock port 0x0B00 0x0B7F ||
  inBlock port 0x0E80 0x0E87 || inBlock port 0x0F00 0x0F1F || inBlock port 0x0F40 0x0F45

/-- A block allows a read at a level; the local block judges its own. -/
def mayReadPort (c pl port : Nat) : Bool :=
  if inBlock port 0x0300 0x0331 then pl = 0 && c < 2
  else if inBlock port 0x0400 0x042F then pl ≤ 1
  else if inBlock port 0x0500 0x053F then port ≤ 0x0503 || pl ≤ 1
  else if inBlock port 0x0800 0x080F || inBlock port 0x0880 0x08AF then pl ≤ 1
  else if inBlock port 0x0900 0x090F then port = 0x0908 || port = 0x0909 || pl ≤ 1
  else if inBlock port 0x0C00 0x0E01 then pl = 0
  else if sysBlock port then pl ≤ 1
  else true

/-- A block allows a write at a level. -/
def mayWritePort (c pl port : Nat) : Bool :=
  if inBlock port 0x0300 0x0331 then pl = 0 && c < 2
  else if inBlock port 0x0400 0x042F || inBlock port 0x0500 0x053F then pl ≤ 1
  else if inBlock port 0x0800 0x080F || inBlock port 0x0880 0x08AF then
    if port = 0x0805 || port = 0x08A2 then pl = 0 else pl ≤ 1
  else if inBlock port 0x0900 0x090F then port = 0x0908 || port = 0x0909 || pl = 0
  else if inBlock port 0x0C00 0x0E01 || sysBlock port then pl = 0
  else true

/-- A port as core `c` reads it at a level. A port that no block populates reads 0 (R330). -/
def State.pread (s : State) (c pl port : Nat) : PRes :=
  let pair (r : Word × State) : PRes := .ok r.1 r.2
  if !mayReadPort c pl port then .denied
  else if port < 4 then .ok (s.featRead c port) s
  else if inBlock port 0x0100 0x010C then match s.localRead c port with
    | some r => pair r
    | none => .denied
  else if inBlock port 0x0300 0x0331 then pair (s.ctrlRead port)
  else if inBlock port 0x0400 0x042F then pair (s.clkRead port)
  else if inBlock port 0x0500 0x053F then pair (s.timeRead port)
  else if inBlock port 0x0600 0x061F then .ok (s.bchRead port) s
  else if inBlock port 0x0700 0x072F then pair (s.keyRead port)
  else if inBlock port 0x0800 0x080F then .ok (s.huRead port) s
  else if inBlock port 0x0880 0x08AF then pair (s.meRead port)
  else if inBlock port 0x0900 0x090F then match s.nhRead (coreMid c) port with
    | some r => pair r
    | none => .wait
  else if inBlock port 0x0A00 0x0A1F then pair (s.arcReadReg port)
  else if inBlock port 0x0B00 0x0B7F then .ok (s.flRegRead port) s
  else if inBlock port 0x0C00 0x0E01 then .ok (s.bindPortRead port) s
  else if inBlock port 0x0E80 0x0E87 then pair (s.pwrRead port)
  else if inBlock port 0x0F00 0x0F1F then pair (s.tmpRead port)
  else if inBlock port 0x0F40 0x0F45 then pair (s.clRead port)
  else if inBlock port 0x1000 0x2FFF then .ok (s.windowRead (coreMid c) ((port - 0x1000) / 32) (port % 32)) s
  else .ok 0 s

/-- A write of a port by core `c` at a level: none is the privilege fault. -/
def State.pwrite (s : State) (c pl port : Nat) (v : Word) : Option State :=
  let mid := coreMid c
  if !mayWritePort c pl port then none
  else if inBlock port 0x0100 0x010C then s.localWrite c port v
  else if inBlock port 0x0300 0x0331 then some (s.ctrlWrite port v)
  else if inBlock port 0x0400 0x042F then some (s.clkWrite pl port v)
  else if inBlock port 0x0500 0x053F then some (s.timeWrite port v)
  else if inBlock port 0x0600 0x061F then some (s.bchWrite port v)
  else if inBlock port 0x0700 0x072F then some (s.keyWrite port v)
  else if inBlock port 0x0800 0x080F then some (s.huWrite pl port v)
  else if inBlock port 0x0880 0x08AF then some (s.meWrite pl port v)
  else if inBlock port 0x0900 0x090F then some (s.nhWrite mid port v)
  else if inBlock port 0x0A00 0x0A1F then some (s.arcWriteReg port v)
  else if inBlock port 0x0B00 0x0B7F then some (s.flWrite mid port v)
  else if inBlock port 0x0C00 0x0E01 then some (s.bindPortWrite port v)
  else if inBlock port 0x0E80 0x0E87 then some (s.pwrWrite port v)
  else if inBlock port 0x0F00 0x0F1F then some (s.tmpWrite port v)
  else if inBlock port 0x0F40 0x0F45 then some (s.clWrite port v)
  else if inBlock port 0x1000 0x2FFF then some (s.windowWrite mid ((port - 0x1000) / 32) (port % 32) v)
  else some s

/-! ### IN, OUT and MOV (R339, R359) -/

/-- A port is read into a register: the block's privilege first, then the MPU. `fin` is what the instruction does besides. -/
def State.portIn (s : State) (c port d : Nat) (fin : Core → Core) : Eff :=
  let k := s.core c
  match s.pread c k.pl port with
  | .denied => .flt (portFault port 0) s
  | r => match mpuCheck (s.mpu c) 2 0 k.pl vMpuData [port] 0 with
    | some f => .flt f s
    | none => match r with
      | .ok w t => .done (t.onCore c fun k => (fin k).setReg d w)
      | _ => .went (s.randWait (coreMid c))

/-- A word is written to a port. -/
def State.portOut (s : State) (c port : Nat) (v : Word) (fin : Core → Core) : Eff :=
  let k := s.core c
  match s.pwrite c k.pl port v with
  | none => .flt (portFault port 1) s
  | some t => match mpuCheck (s.mpu c) 2 1 k.pl vMpuData [port] 0 with
    | some f => .flt f s
    | none => .done (t.onCore c fin)

/-- The port that a register names. -/
def portOf (w : Word) : Nat := w.toNat % 65536

/-- IN: a port named by 16 bits of the instruction, or by register s. -/
def execInP (c : Fin 14) (s : State) : Out := lrun c (fun i => i.op = 0xE0 || i.op = 0xE2) s fun i s =>
  s.portIn c.val (if i.op = 0xE0 then portOf i.imm else portOf ((s.core c.val).reg i.s)) i.d id

/-- OUT: register d to a port. -/
def execOutP (c : Fin 14) (s : State) : Out := lrun c (fun i => i.op = 0xE1 || i.op = 0xE3) s fun i s =>
  let k := s.core c.val
  s.portOut c.val (if i.op = 0xE1 then portOf i.imm else portOf (k.reg i.s)) (k.reg i.d) id

/-- MOV in every form; with the P-space prefix it reads or writes the port that address bits 15:0 name (R335). -/
def execMov (c : Fin 14) (s : State) : Out := lrun c (aluOp 0) s fun i s =>
  let k := s.core c.val
  let port := portOf (effAddr k i)
  if i.spp && i.op = 0x40 then s.portIn c.val port i.d fun k => afterBase k i
  else if i.spp then s.portOut c.val port (k.reg i.d) fun k => afterBase k i
  else s.alu c.val 0 i

/-! ### BAR0 and BAR4 (R94 to R96, R99, R100) -/

/-- A 32-bit register of the global block. -/
def State.glbRead (s : State) (fn off : Nat) : Word × State :=
  let f := s.fun_ fn
  match off with
  | 0x000 => (glbId, s)
  | 0x004 => (s.glbStatus fn, s)
  | 0x008 => (f.heartbeat, s)
  | 0x00C => (bf 3 0 f.cause.toNat, s)
  | 0x010 => (bf 3 0 f.mask.toNat, s)
  | 0x014 =>
    if fn ≠ 0 then (0, s)
    else (bf 2 0 s.pci.speed ||| bf 7 3 s.pci.width ||| bf 8 8 (b2n s.pci.tag10) ||| bf 9 9 (b2n s.pci.ptmEn) |||
          bf 10 10 (b2n (s.pci.up && linkOk s.pci.speed s.pci.width)) ||| bf 31 16 s.pci.credStall,
          { s with pci := { s.pci with credStall := 0 } })
  | 0x018 => (f.dbErr, s)
  | 0x01C => (BitVec.ofNat 32 f.dbCount, s.setFun fn { f with dbCount := 0 })
  | 0x020 => (bf 15 0 f.badAccess ||| bf 31 16 f.dropped, s.setFun fn { f with badAccess := 0, dropped := 0 })
  | 0x024 => (f.scratch, s)
  | _ => (0, s)

/-- Cause bits that signal when a mask write uncovers them. -/
def State.maskWrite (s : State) (fn : Nat) (m : BitVec 4) : State :=
  let f := s.fun_ fn
  let shown := f.cause &&& f.mask &&& ~~~ m
  let s := s.setFun fn { f with mask := m }
  each (upto 4) (fun b s => if shown.getLsbD b then s.msix fn (causeVec b) false else s) s

def State.glbWrite (s : State) (fn off : Nat) (v : Word) : State :=
  let f := s.fun_ fn
  match off with
  | 0x00C => s.setFun fn { f with cause := f.cause &&& ~~~ (v.truncate 4) }
  | 0x010 => s.maskWrite fn (v.truncate 4)
  | 0x018 => if bit v 31 then s.setFun fn { f with dbErr := 0 } else s
  | 0x024 => s.setFun fn { f with scratch := v }
  | _ => s

/-- A word of the MSI-X table: address, data, vector control. -/
def State.vecRead (s : State) (fn off : Nat) : Word :=
  let v := tget {} (s.fun_ fn).vecs (off / 16)
  match off / 4 % 4 with
  | 0 => v.addr.truncate 32
  | 1 => (v.addr >>> 32).truncate 32
  | 2 => v.data
  | _ => bf 0 0 (b2n v.masked)

def State.vecWrite (s : State) (fn off : Nat) (w : Word) : State :=
  let f := s.fun_ fn
  let n := off / 16
  let v := tget {} f.vecs n
  let v' : Vec := match off / 4 % 4 with
    | 0 => { v with addr := (v.addr &&& 0xFFFFFFFF00000000) ||| (w &&& 0xFFFFFFFC).zeroExtend 64 }
    | 1 => { v with addr := (v.addr &&& 0xFFFFFFFF) ||| (w.zeroExtend 64 <<< 32) }
    | 2 => { v with data := w }
    | _ => { v with masked := bit w 0 }
  (s.setFun fn { f with vecs := tset {} f.vecs n v' }).unmaskVec fn n

/-- 32 bits of the pending-bit array. -/
def State.pbaRead (s : State) (fn off : Nat) : Word :=
  (upto 32).foldl (fun w k => w ||| bf k k (b2n (tget {} (s.fun_ fn).vecs (8 * off + k)).pending)) 0

/-- Where a BAR offset leads. -/
inductive Place where
  | glb (off : Nat)
  | window (w reg : Nat)
  | vecs (off : Nat)
  | pba (off : Nat)
  | empty

/-- The layout of PF0's BAR0 and BAR4 (R94) and of a VF's BAR0 (R95). -/
def barPlace (fn bar off : Nat) : Place :=
  let win (base : Nat) : Place := .window ((off - base) / 256) ((off - base) % 256 / 4)
  if fn = 0 then
    match bar with
    | 0 => if off < 0x1000 then .glb off else if inBlock off 0x10000 0x1FFFF then win 0x10000 else .empty
    | 4 => if off < 0x8000 then .vecs off else if inBlock off 0x80000 0x800FF then .pba (off - 0x80000) else .empty
    | _ => .empty
  else if bar ≠ 0 then .empty
  else if off < 0x1000 then .glb off
  else if off < 0x2000 then win 0x1000
  else if inBlock off 0x8000 0x83FF then .vecs (off - 0x8000)
  else if inBlock off 0xC000 0xC007 then .pba (off - 0xC000)
  else .empty

/-- A host read of 4 bytes. Reserved offsets read 0 (R9). -/
def State.barRead (s : State) (fn bar off : Nat) : Word × State :=
  match barPlace fn bar off with
  | .glb o => s.glbRead fn o
  | .window w r => (if r ≤ 20 then s.windowRead (fn + 1) w r else 0, s)
  | .vecs o => (s.vecRead fn o, s)
  | .pba o => (s.pbaRead fn o, s)
  | .empty => (0, s)

def State.barWrite (s : State) (fn bar off : Nat) (v : Word) : State :=
  match barPlace fn bar off with
  | .glb o => s.glbWrite fn o v
  | .window w r => s.windowWrite (fn + 1) w r v
  | .vecs o => s.vecWrite fn o v
  | _ => s

/-- An access of R96's sizes. -/
def barAligned (off size : Nat) : Bool := (size = 4 && off % 4 = 0) || (size = 8 && off % 8 = 0)

/-- The function answers accesses of its BARs: it exists, is in D0, and the link is up. -/
def State.barOpen (s : State) (fn : Nat) : Bool := s.up && s.pci.up && s.fnEnabled fn && !(s.fun_ fn).d3hot

/-- HOST_REGISTER_READ (R96, R97): the value travels in a completion in the general queue (R105); Completer Abort and Unsupported
Request are completions without data, logged under R114. A doorbell BAR reads 0. An AtomicOp request (`ask.atomic`) asks for a
feature that is absent (R92). An 8-byte read takes the lower word first. -/
def execHostRegisterRead (fn : Fin 64) (bar offset : Nat) (ask : BarAsk) (s : State) : Out :=
  let f := fn.val
  let size := ask.size
  if !s.barOpen f then .next s else
  let send (s : State) (st : Nat) (d : Bytes) : State :=
    s.place false { id := 0, fn := f, kind := .completion, addr := 0, data := d, len := size, status := st }
  if ask.atomic then .next (send (s.aerLog .unsupportedRequest f 0) 1 [])
  else if bar = 2 then .next (send s 0 (List.replicate size 0))
  else if !barAligned offset size then .next (send (s.aerLog .completerAbort f 0) 4 [])
  else
    let (lo, s) := s.barRead f bar offset
    if size = 4 then .next (send s 0 (le 4 lo.toNat))
    else
      let (hi, s) := s.barRead f bar (offset + 4)
      .next (send s 0 (le 4 lo.toNat ++ le 4 hi.toNat))

/-- A host write of BAR0 or BAR4 (R96). -/
def State.hostBarWrite (s : State) (fn bar off size : Nat) (v : BitVec 64) : State :=
  if !s.barOpen fn || (bar ≠ 0 && bar ≠ 4) then s
  else if !barAligned off size then
    let f := s.fun_ fn
    s.setFun fn { f with badAccess := satInc f.badAccess 65535 }
  else
    let s := s.barWrite fn bar off (v.truncate 32)
    if size = 4 then s else s.barWrite fn bar (off + 4) ((v >>> 32).truncate 32)

/-- REGISTER_WRITE (R11): a write of a register by a core or by the host takes effect under its access code; a core's write
that its block forbids raises the privilege fault. -/
def execRegisterWrite (a : RegAccess) (value : BitVec 64) (s : State) : Out :=
  if !s.up then .next s else
  match a with
  | .bar fn bar off size => .next (s.hostBarWrite fn.val bar off size value)
  | .port mid pl port =>
    match midCore mid with
    | none => .next s
    | some c =>
      match s.pwrite c pl.toNat port.toNat (value.truncate 32) with
      | some s => .next s
      | none => if s.coreRuns c then .next (s.takeFault c (portFault port.toNat 1)) else .next s

end Sys2Proof.Machine
end

