-- ==== Sys2Proof/Machine/Start.lean ====
section
/-! DEFINITION. Sys2Proof/Machine/Start.lean: boot images, the boot ROM, the loader, and firmware's start (R482 to R487). -/

namespace Sys2Proof.Machine

/-! ### Boot images (R483) -/

/-- Byte address of a boot slot: A in sectors 0 to 63, B in 512 to 575 (R306). -/
def slotBase (n : Nat) : Nat := if n = 0 then 0 else 512 * 65536

/-- A header is well formed: MAGIC, FORMAT, reserved bytes of 0 (R9), stage 1 of at most 256 KiB, the whole image within its slot. -/
def headerOk (h : Bytes) : Bool :=
  let s1 := leAt h 0x10 4
  sub h 0 4 == [0x47, 0x4C, 0x42, 0x49] && leAt h 4 2 = 1 && leAt h 6 2 = 0 && allZero (sub h 0x1A 338) &&
  allZero (sub h 0x1F0 16) && s1 ≤ 262144 && 512 + s1 + leAt h 0x14 4 ≤ 4194304

/-- An image at a byte address verifies (R484 step 5): well formed, SVN not below the OTP minimum, Ranmor's signature. -/
def State.imageOk (s : State) (a : Nat) : Bool :=
  let h := flBytes s.fls a 512
  headerOk h && s.lc.minSvn ≤ leAt h 8 4 &&
  sigCheck s.lc.ranmorKey (h.take 0x16C ++ flBytes s.fls (a + 512) (leAt h 0x10 4 + leAt h 0x14 4)) (sub h 0x16C 132)

/-- An image that is well formed and not too old is verified on an engine, for which the boot ROM holds the program (R244; log entry
141). -/
def State.imageRun (s : State) (a : Nat) : State :=
  let h := flBytes s.fls a 512
  if !headerOk h || leAt h 8 4 < s.lc.minSvn then s else
  let p := s.hme.progs
  let msg := h.take 0x16C ++ flBytes s.fls (a + 512) (leAt h 0x10 4 + leAt h 0x14 4)
  let s := ({ s with hme := { s.hme with progs := true } } : State).ranVerify s.lc.ranmorKey msg (sub h 0x16C 132)
  { s with hme := { s.hme with progs := p } }

def State.imageVersion (s : State) (a : Nat) : Nat := leAt (flBytes s.fls (a + 0x0C) 4) 0 4

/-- Erases 64 sectors from a byte address and writes bytes there. -/
def State.putImage (s : State) (a : Nat) (b : Bytes) : State :=
  let f := (upto 64).foldl (fun f k => flWipe f (physSector f (a / 65536 + k))) s.fls
  { s with fls := flPut f a b }

/-- Sets the write-protect bits of sectors (R319). -/
def State.protect (s : State) (l : List Nat) : State :=
  { s with fls := { s.fls with wp := l.foldl (fun t n => tset 0 t (n / 32) (setBit (tget 0 t (n / 32)) (n % 32) true)) s.fls.wp } }

/-! ### The boot ROM (R484) -/

/-- Step 3: a staged image whose flag word firmware has cleared, and that verifies, replaces the slot not running. -/
def State.installStaged (s : State) : State :=
  let a := s.lc.stageFirst * 65536
  if !s.lc.staged then s else
  let s := s.imageRun a
  if !s.imageOk a then s else
  let h := flBytes s.fls a 512
  let s := s.putImage (slotBase (1 - s.lc.slot)) (flBytes s.fls a (512 + leAt h 0x10 4 + leAt h 0x14 4))
  { s with lc := { s.lc with staged := false } }

/-- Step 4: the wrapped-key sectors are protected; GLB_ESC_PC of the firmware cores is written and locked. The handler's
address is the boot ROM's own: free. -/
def State.romLocks (s : State) : State :=
  let s := s.protect [66, 578]
  each [0, 1] (fun c s =>
    let (v, s) := s.freeVal 24
    s.setCore c { s.core c with hndl := BitVec.ofNat 24 v, hndlValid := true, escLock := true }) s

/-- Step 5: the candidate with the higher VERSION; slot A wins a tie. -/
def State.pickSlot (s : State) : Option Nat :=
  match s.imageOk (slotBase 0), s.imageOk (slotBase 1) with
  | true, true => some (if s.imageVersion (slotBase 0) < s.imageVersion (slotBase 1) then 1 else 0)
  | true, false => some 0
  | false, true => some 1
  | false, false => none

/-- Step 6: both slots are protected, stage 1 is measured and copied to the I-space of pair A, and starts there (at its
first byte, address 0: the model's choice). -/
def State.handOver (s : State) (n : Nat) : State :=
  let a := slotBase n
  let h := flBytes s.fls a 512
  let one := flBytes s.fls (a + 512) (leAt h 0x10 4)
  let s := s.protect (upto 64 ++ (upto 64).map (· + 512))
  let s := (s.hashes (0x16C + one.length)).measure 1 n (sha512 (h.take 0x16C ++ one))
  let m := s.cmem 0
  let s := (s.setCmem 0 { m with i := mwrite m.i 0 one, stale := [] }).setCore 0 { s.core 0 with pc := 0 }
  { s with lc := { s.lc with startStamps := [s.gts], fw := .stage1, slot := n, version := BitVec.ofNat 32 (leAt h 0x0C 4), stageFirst := leAt h 0x18 2 } }

/-- The loader is entered (R484, R485): slot B is protected, channels 0 and 64 are bound to PF0, the table is locked. -/
def State.enterLoader (s : State) : State :=
  let s := s.protect ((upto 64).map (· + 512))
  let bind (n : Nat) (s : State) : State := s.bindChan n (boundSender n) (boundReceiver n)
  let s := bind 64 (bind 0 s)
  ({ s with mbx := { s.mbx with lock := true }, lc := { s.lc with fw := .loader, version := 0 } } : State).fwReadies

/-- BOOT_ROM_START (R484): after ROOT_OK and SCAN_DONE. With a descent marker the descent goes on from its step 2 first, and
the rest follows when it has ended. A RETIRE entry is completed: the retire fuse blows (R445). -/
def execBootRomStart (s : State) : Out :=
  if !s.up || s.lc.fw ≠ .rom || !s.clk.rootOk || !s.fls.scanDone then .next s
  else if s.fls.marker then
    if s.fls.running.isSome then .next s else
    let s := s.descentKeys
    .next { s with fls := { s.fls with running := some (.descent 3) } }
  else
    let sealedPolicy := s.tmp.policyFused.getD false
    let owed := s.tmp.heldRetire || s.tmp.pend.any fun e => e.resp == 5
    let s : State := { s with
      tmp := { s.tmp with policySealed := sealedPolicy, retireFuse := s.tmp.retireFuse || owed, heldRetire := false }
      fls := { s.fls with rdp := if s.fls.rdpFuse then 2 else s.fls.rdp } }
    let s := (s.installStaged.romLocks.imageRun (slotBase 0)).imageRun (slotBase 1)
    match s.pickSlot with
    | some n => .next (s.handOver n)
    | none => .next s.enterLoader

/-! ### Firmware's start (R486, R487) -/

/-- The GTS of the last committed archive record; a descent has destroyed the records with the archive key (R266, R322). -/
def State.lastCommitted (s : State) : Option Nat :=
  if !s.arc.keyStored then none else ((s.arc.recs.filter (·.committed)).getLast?).map fun x => gtsUnits x.r.gts

/-- The bracket start and the load (R86, R87). -/
def State.startTime (s : State) : State :=
  let shadow : Option Nat := if s.tim.shadowPresent then some (gtsUnits (BitVec.ofNat 96 (s.tim.shadow.toNat * 2 ^ 18))) else none
  let b : Option Nat := match shadow, s.lastCommitted with
    | some x, some y => some (max x y)
    | some x, none => some x
    | none, y => y
  match b with
  | some u =>
    if s.units < u then
      let s : State := { s with loop := { s.loop with bracketStart := unitsGts u 3 } }
      s.timeLoad u
    else ({ s with loop := { s.loop with bracketStart := s.gts } } : State).armTime
  | none => ({ s with loop := { s.loop with bracketStart := s.gts } } : State).armTime

/-- No conditioned output can come: no cell serves and none is coming (R525). -/
def State.noNoise (s : State) : Bool :=
  s.nh.exhausted || ((s.surviving .noiseCell).isEmpty && s.ret.noiseCell.bringIn.isNone)

/-- The bits of precedence 4 that a start draws: module rows, the context MAC key, a new archive key. -/
def State.startNoise (s : State) : Nat :=
  544 + 128 + (if s.lc.lifecycle ≠ 0 || s.lc.sealKey.isSome then 544 else 0) + (if s.arc.keyStored then 0 else 512)

/-- The start's draws can be made, or never will be (R525). -/
def State.startDraws (s : State) : Bool :=
  s.noNoise || (s.canDraw 4 s.startNoise && (s.lc.lifecycle = 0 || s.lc.sealKey.isSome || s.canDraw 3 sealKeyNoise))

/-- The module rows (R494, R500): the attestation key from the OTP secret, the drawer-seal key as stored; and the context MAC key
(R142). Without noise none is loaded (R525; log entry 143). -/
def State.loadModRows (s : State) : State :=
  let s : State := { s with key := { s.key with transRow := s.lc.transport } }
  if s.noNoise then s else
  let s := s.loadModRow 1 Config.attestKey
  let (k, s) := s.draw 4 128
  let s : State := { s with qps := { s.qps with key0 := BitVec.ofNat 128 k, gen := false } }
  (if s.lc.lifecycle = 0 then s else s.makeSealKey).loadSealRow

/-- The archive key goes to the inline cipher. Where a descent has destroyed it, a new one is drawn and the archive, now
unreadable, begins anew (R266). -/
def State.loadArchiveKey (s : State) : State :=
  if s.arc.keyStored then { s with arc := { s.arc with keyLoaded := true } }
  else if s.noNoise then s
  else
    let (k, s) := s.draw 4 512
    let a := s.arc
    let blocks := tmap {} (fun _ b => ({ retired := b.retired } : NandBlk)) a.blocks
    { s with arc := {
        cap := a.cap, chans := a.chans, blocks := blocks, keyStored := true, keyLoaded := true, key := BitVec.ofNat 512 k
        ahead := a.ahead, emSets := a.emSets, emPend := a.emPend, dieFails := a.dieFails } }

/-- The channels of the owner configuration (R117). -/
def State.bindOwner (s : State) : State :=
  if s.lc.ownerCfg.isEmpty then s else
  each (Config.ownerChannels s.lc.ownerCfg) (fun x s =>
    let (n, a, b) := x
    if 216 ≤ n && n ≤ 255 && a < 12 && b < 12 then s.bindChan n (0x54 + a) (0x54 + b) else s) s

/-- The stored configuration of the tamper sources (R429). -/
def State.loadTmpCfg (s : State) : State :=
  each s.lc.tmpCfg (fun e s => s.setSrc e.1 { s.src e.1 with filt := e.2.1, resp := e.2.2 }) s

/-- The boot record (R87, R487), whose GTS the reports carry (R490): the slot, the two stamps and the measurement list. -/
def State.bootRecord (s : State) : State :=
  let body := Config.openBody 0x0025 (s.lc.slot :: s.lc.startStamps.map (·.toNat) ++ s.measList.map (·.toNat))
  let s : State := { s with lc := { s.lc with gtsBoot := s.stampAt (srcDiv 0) } }
  s.event 0x0025 0 c0 body

/-- FIRMWARE_START (R486, R487): stage 1 advances the boot count and measures stage 2; firmware carries out the start in the
order of R486 and sets FW_READY. -/
def execFirmwareStart (s : State) : Out :=
  if !s.up || s.lc.fw ≠ .stage1 then .next s else
  if !s.startDraws then .next ((s.ask 4 s.startNoise).ask 3 (if s.lc.lifecycle = 0 || s.lc.sealKey.isSome then 0 else sealKeyNoise)) else
  let a := slotBase s.lc.slot
  let h := flBytes s.fls a 512
  let s : State := { s with lc := { s.lc with bootCount := s.lc.bootCount + 1 } }
  let s := (s.hashes (leAt h 0x14 4)).measure 2 s.lc.slot (sha512 (flBytes s.fls (a + 512 + leAt h 0x10 4) (leAt h 0x14 4)))
  let s : State := { s with lc := { s.lc with startStamps := s.lc.startStamps ++ [s.gts] } }
  let s := s.startTime.loadModRows
  let s : State := { s with
    hme := { s.hme with progs := true, progLock := true, engines := (upto 4).map fun n => (n, loadProgs (s.eng n)) }, bch := { s.bch with assayBase := s.now }
    lc := { s.lc with fw := .running } }
  let s := s.bindOwner.bindAll.loadTmpCfg.applyRanges
  let s := (s.protect [1917]).laneGuard.noiseGuard.loadArchiveKey
  let s := if s.tmp.retireFuse && s.lc.lifecycle ≠ 3 && s.lc.lifecycle ≠ 0 then s.toLifecycle 3 else s
  let s := s.bootRecord.duePower.pendingRespond
  let s : State := { s with lc := { s.lc with snapDue := some (List.replicate 32 0) } }
  .next (s.fwReadies.seekSign)

/-! ### The loader (R485) -/

/-- LOADER_IMAGE_LOAD (R485): TP_LOAD with core 0xF0 in the loader. The image goes to slot A and is verified; then the answer
and module reset, or REJECTED and slot A erased. -/
def execLoaderImageLoad (r : Req) (data : List (BitVec 8)) (s : State) : Out :=
  if s.lc.fw ≠ .loader || leAt r.payload 0 1 ≠ 0xF0 || s.verifyWaits then .next s else
  driner 0x0701 r s fun s =>
    let answer (s : State) (st : Nat) (p : Bytes) : State := s.reply r.party r.tag 0x0701 st p
    if leAt r.payload 1 3 ≠ 0 then answer s stRejected [] else
    match s.loadBytes r data with
    | none => answer s stAccess []
    | some b =>
      if 4194304 < b.length then answer s stRejected [] else
      let t := (s.putImage 0 b).imageRun 0
      if t.imageOk 0 then
        let t := answer t stOk (loadAnswer 0xF0 b)
        { t with lc := { t.lc with resetDue := true } }
      else answer (t.putImage 0 []) stRejected []

end Sys2Proof.Machine
end

