-- ==== Sys2Proof/Machine/Tenant.lean ====
section
/-! DEFINITION. Sys2Proof/Machine/Tenant.lean: tenant programs and firmware staging (R82, R495 to R497). -/

namespace Sys2Proof.Machine

/-! ### Images (R495) -/

/-- An image's header, with its reserved bytes 0 (R9), lengths and signature. -/
def State.tenantImageOk (s : State) (b : Bytes) : Bool :=
  let i := leAt b 8 4
  let x := leAt b 12 4
  let y := leAt b 16 4
  sub b 0 4 == [0x47, 0x4C, 0x54, 0x50] && leAt b 4 2 = 1 && leAt b 6 2 = 0 && allZero (sub b 52 204) && i ≤ 262144 && x ≤ 126976 && y ≤ 131072 &&
  b.length = 256 + i + x + y + 132 &&
  (match s.lc.programKey with
  | some key => sigCheck key (b.take (b.length - 132)) (b.drop (b.length - 132))
  | none => false)

/-- An image's signature is verified on an engine (R244). -/
def State.tenantRun (s : State) (b : Bytes) : State :=
  match s.lc.programKey with
  | some key => s.ranVerify key (b.take (b.length - 132)) (b.drop (b.length - 132))
  | none => s

/-- The MPU regions that firmware installs with a program (R399, R496): regions 0 to 3 refuse everything in each space;
regions 4 to 7 give PL2 and PL3 the core's own I-space, its banks, B-space and P-space. Which they are is the model's
choice. -/
def tenantRegions : Tab Word :=
  let r (space size perm : Nat) : Word := bf 0 0 1 ||| bf 2 1 space ||| bf 8 3 size ||| bf 23 12 perm
  [(0, r 0 32 0), (1, r 1 32 0), (2, r 2 32 0), (3, r 3 32 0),
   (4, r 0 18 0xB40), (5, r 1 18 0x6C0), (6, r 3 32 0x6C0), (7, r 2 32 0x6C0)]

/-- A core's tenant program is installed (R496): SRAM erased and written, EDTB, SCEn and GLB_ESC_PC written and locked, MPU
regions. The core is reset first, which clears an ESC_LOCK of before. -/
def State.installTenant (s : State) (n : Nat) (b : Bytes) : State :=
  let c := n + 2
  let i := leAt b 8 4
  let x := leAt b 12 4
  let y := leAt b 16 4
  let w (o : Nat) : Word := BitVec.ofNat 32 (leAt b o 4)
  let entry : BitVec 24 := BitVec.ofNat 24 (leAt b 20 4)
  let m : CoreMem := {
    i := mwrite [] 0 (sub b 256 i), x := mwrite [] 0 (sub b (256 + i) x), y := mwrite [] 0 (sub b (256 + i + x) y) }
  let s := (s.resetCore c).setCmem c m
  let k : Core := { s.core c with
    pc := entry, edtb := w 24 &&& 0xFFFFFC00, sce0 := w 28, sce1 := w 32, sce2 := w 36, sce3 := w 40
    hndl := BitVec.ofNat 24 (leAt b 44 4), hndlValid := true, escLock := true }
  let s := (s.setCore c k).setMpu c { attr := tenantRegions }
  let d := sha512 (b.take (b.length - 132))
  let t : Tenant := { loaded := true, entry := entry, version := w 48, digest := d }
  ((s.setTenant n t).hashes (b.length - 132)).measure 3 n d

/-- A core's retirement is under way (R30, R506). -/
def State.coreLeaving (s : State) (n : Nat) : Bool :=
  match s.phys .tenantCore n with
  | some p => s.condemned .tenantCore p
  | none => (s.ret.tenantCore.bringIn).isSome

/-- TP_LOAD (R496): a tenant program to core 0 to 11; other core values are REJECTED. A core being retired is loaded once its
spare serves. -/
def execTpLoad (r : Req) (data : List (BitVec 8)) (s : State) : Out :=
  let n := leAt r.payload 0 1
  if n = 0xF0 || n = 0xF1 || (n < 12 && s.coreLeaving n) || s.verifyWaits then .next s else
  driner 0x0701 r s fun s =>
    let answer (s : State) (st : Nat) (p : Bytes) : State := s.reply r.party r.tag 0x0701 st p
    if 12 ≤ n || leAt r.payload 1 3 ≠ 0 then answer s stRejected []
    else if s.lc.lifecycle = 0 then answer s stAccess []
    else match s.loadBytes r data with
      | none => answer s stAccess []
      | some b =>
        let s := s.tenantRun b
        if !s.tenantImageOk b then answer s stRejected []
        else if (s.phys .tenantCore n).isNone then answer s stRetired []
        else if (s.core (n + 2)).run then answer s stPaState []
        else answer (s.installTenant n b) stOk (sha512 (b.take (b.length - 132)))

/-- FIRMWARE_STAGE (R496): TP_LOAD with core 0xF0: the image goes to STAGE_FIRST, is verified, and its flag word is cleared. -/
def execFirmwareStage (r : Req) (data : List (BitVec 8)) (s : State) : Out :=
  if leAt r.payload 0 1 ≠ 0xF0 || s.lc.fw ≠ .running || s.verifyWaits then .next s else
  driner 0x0701 r s fun s =>
    let answer (s : State) (st : Nat) (p : Bytes) : State := s.reply r.party r.tag 0x0701 st p
    if leAt r.payload 1 3 ≠ 0 then answer s stRejected [] else
    match s.loadBytes r data with
    | none => answer s stAccess []
    | some b =>
      if 4194304 < b.length then answer s stRejected [] else
      let a := s.lc.stageFirst * 65536
      let s := (s.putImage a b).imageRun a
      if s.imageOk a then answer { s with lc := { s.lc with staged := true } } stOk (loadAnswer 0xF0 b)
      else answer { s with lc := { s.lc with staged := false } } stRejected []

/-! ### Starting, stopping, status (R497) -/

/-- A command on a tenant core: the checks that the model shares among them, then its effect. -/
def tenantCmd (op : Nat) (r : Req) (s : State) (body : Nat → State → State × Nat × Bytes) : Out :=
  drinerNow op r s fun s =>
    let n := leAt r.payload 0 1
    if 12 ≤ n then (s, stRejected, []) else body n s

/-- TP_START: the core starts at ENTRY at PL2. A core that is empty, runs or is locked up: PA_STATE. -/
def execTpStart (r : Req) (s : State) : Out :=
  tenantCmd 0x0702 r s fun n s =>
    let k := s.core (n + 2)
    let t := s.tenant n
    if (s.phys .tenantCore n).isNone then (s, stRetired, [])
    else if !t.loaded || k.run || k.lockup then (s, stPaState, [])
    else
      let s := (s.setCore (n + 2) { k with pc := t.entry, waiting := false, slot := none }).setRun (n + 2) true
      (s.setTenant n { t with stopped := false }, stOk, [])

/-- TP_STOP: RUN is cleared. -/
def execTpStop (r : Req) (s : State) : Out :=
  tenantCmd 0x0703 r s fun n s =>
    let t := s.tenant n
    if (s.phys .tenantCore n).isNone then (s, stRetired, [])
    else if !t.loaded then (s, stPaState, [])
    else ((s.setRun (n + 2) false).setTenant n { t with stopped := true }, stOk, [])

/-- TP_SOURCES (R81, R82): a range of tenant-defined source numbers is added to the core's. -/
def execTpSources (r : Req) (s : State) : Out :=
  tenantCmd 0x0704 r s fun n s =>
    let first := leAt r.payload 2 2
    let count := leAt r.payload 4 2
    if leAt r.payload 1 1 ≠ 0 || first < 0x900 || count = 0 || 0xFFF < first + count then (s, stRejected, [])
    else
      let l := tget [] s.dv.ranges n
      ({ s with dv := { s.dv with ranges := tset [] s.dv.ranges n (l ++ [(first, count)]) } }, stOk, [])

/-- The state that TP_STATUS reports. -/
def State.tenantState (s : State) (n : Nat) : Nat :=
  let k := s.core (n + 2)
  let t := s.tenant n
  if (s.phys .tenantCore n).isNone then 5
  else if k.lockup then 4
  else if k.run then 2
  else if !t.loaded then 0
  else if t.stopped then 3
  else 1

/-- TP_STATUS: state, faults taken, and the last fault, whose 16 bytes no rule lays out. -/
def execTpStatus (r : Req) (s : State) : Out :=
  tenantCmd 0x0705 r s fun n s =>
    let t := s.tenant n
    (s, stOk, le 4 (s.tenantState n) ++ le 4 t.faults ++ sub (Config.openBody 0x0705 [t.faults, t.lastFault]) 0 16)

end Sys2Proof.Machine
end

