-- ==== Sys2Proof/Machine/Dispatch.lean ====
section
/-! DEFINITION. Sys2Proof/Machine/Dispatch.lean: the meaning of every command, one arm per constructor. -/

namespace Sys2Proof.Machine

def exec (i : Instr) (s : State) : Host.Outcome State Fault Refusal :=
  match i with
  | .transfer link mid word first second op => Sys2Proof.Machine.execTransfer link mid word first second op s
  | .linkAckTimeout link mid op => Sys2Proof.Machine.execLinkAckTimeout link mid op s
  | .lockstepMismatch pair => Sys2Proof.Machine.execLockstepMismatch pair s
  | .retirement cls assays => Sys2Proof.Machine.execRetirement cls assays s
  | .assayDone cls phys pass => Sys2Proof.Machine.execAssayDone cls phys pass s
  | .periodicAssay cls phys => Sys2Proof.Machine.execPeriodicAssay cls phys s
  | .rootOk => Sys2Proof.Machine.execRootOk s
  | .clkDomselWrite pl value stopped => Sys2Proof.Machine.execClkDomselWrite pl value stopped s
  | .missingClock => Sys2Proof.Machine.execMissingClock s
  | .loupeStart ch value => Sys2Proof.Machine.execLoupeStart ch value s
  | .loupeAbort ch value => Sys2Proof.Machine.execLoupeAbort ch value s
  | .loupeGateEnd ch edges => Sys2Proof.Machine.execLoupeGateEnd ch edges s
  | .loupeRefLost ch => Sys2Proof.Machine.execLoupeRefLost ch s
  | .loopSecond boundary => Sys2Proof.Machine.execLoopSecond boundary s
  | .xchkHoldEnd => Sys2Proof.Machine.execXchkHoldEnd s
  | .holdoverLimit => Sys2Proof.Machine.execHoldoverLimit s
  | .tinEdge phase pulse => Sys2Proof.Machine.execTinEdge phase pulse s
  | .irigFrame frame => Sys2Proof.Machine.execIrigFrame frame s
  | .tinLost => Sys2Proof.Machine.execTinLost s
  | .ptmRequest => Sys2Proof.Machine.execPtmRequest s
  | .ptmResponse t2 prop => Sys2Proof.Machine.execPtmResponse t2 prop s
  | .ptmTimeout => Sys2Proof.Machine.execPtmTimeout s
  | .timCmdLoad => Sys2Proof.Machine.execTimCmdLoad s
  | .timCmdRebase => Sys2Proof.Machine.execTimCmdRebase s
  | .timCmdArm => Sys2Proof.Machine.execTimCmdArm s
  | .timMapCommit => Sys2Proof.Machine.execTimMapCommit s
  | .shadowCopy => Sys2Proof.Machine.execShadowCopy s
  | .bracketTimeout => Sys2Proof.Machine.execBracketTimeout s
  | .ppsoPulse => Sys2Proof.Machine.execPpsoPulse s
  | .ppsoPulseEnd => Sys2Proof.Machine.execPpsoPulseEnd s
  | .evtEdge pin phase level => Sys2Proof.Machine.execEvtEdge pin phase level s
  | .evtFilterDone pin => Sys2Proof.Machine.execEvtFilterDone pin s
  | .evtCtrlWrite pin value => Sys2Proof.Machine.execEvtCtrlWrite pin value s
  | .dovetailArrival n => Sys2Proof.Machine.execDovetailArrival n s
  | .dovetailRelease => Sys2Proof.Machine.execDovetailRelease s
  | .timeGet r => Sys2Proof.Machine.execTimeGet r s
  | .timeStatus r => Sys2Proof.Machine.execTimeStatus r s
  | .timeConfig r => Sys2Proof.Machine.execTimeConfig r s
  | .timeSetMap r => Sys2Proof.Machine.execTimeSetMap r s
  | .timeSetUtc r => Sys2Proof.Machine.execTimeSetUtc r s
  | .timeLoad r => Sys2Proof.Machine.execTimeLoad r s
  | .timeRebase r => Sys2Proof.Machine.execTimeRebase r s
  | .ppsoConfig r => Sys2Proof.Machine.execPpsoConfig r s
  | .evtConfig r => Sys2Proof.Machine.execEvtConfig r s
  | .evtRead r => Sys2Proof.Machine.execEvtRead r s
  | .doorbell fn offset data allBytes => Sys2Proof.Machine.execDoorbell fn offset data allBytes s
  | .configWrite c => Sys2Proof.Machine.execConfigWrite c s
  | .linkUp speed width => Sys2Proof.Machine.execLinkUp speed width s
  | .linkRetrain speed width => Sys2Proof.Machine.execLinkRetrain speed width s
  | .hostReset cause => Sys2Proof.Machine.execHostReset cause s
  | .functionReset fn cause => Sys2Proof.Machine.execFunctionReset fn cause s
  | .hostReadCompletion tag c => Sys2Proof.Machine.execHostReadCompletion tag c s
  | .completionTimeout tag => Sys2Proof.Machine.execCompletionTimeout tag s
  | .aerError e fn header => Sys2Proof.Machine.execAerError e fn header s
  | .tlpTransmit => Sys2Proof.Machine.execTlpTransmit s
  | .creditUpdate c => Sys2Proof.Machine.execCreditUpdate c s
  | .creditWaitExpiry => Sys2Proof.Machine.execCreditWaitExpiry s
  | .coalesceTimeout qpn => Sys2Proof.Machine.execCoalesceTimeout qpn s
  | .heartbeat => Sys2Proof.Machine.execHeartbeat s
  | .registerWrite a value => Sys2Proof.Machine.execRegisterWrite a value s
  | .mbxSend mid window => Sys2Proof.Machine.execMbxSend mid window s
  | .mbxPop mid window => Sys2Proof.Machine.execMbxPop mid window s
  | .mbxDbWrite mid window value => Sys2Proof.Machine.execMbxDbWrite mid window value s
  | .mbxDbMaskWrite mid window value => Sys2Proof.Machine.execMbxDbMaskWrite mid window value s
  | .mbxTimeout ch => Sys2Proof.Machine.execMbxTimeout ch s
  | .mbxBindWrite mid pl ch wordB value => Sys2Proof.Machine.execMbxBindWrite mid pl ch wordB value s
  | .mbxLock => Sys2Proof.Machine.execMbxLock s
  | .drinerResponseSend n => Sys2Proof.Machine.execDrinerResponseSend n s
  | .identGet r => Sys2Proof.Machine.execIdentGet r s
  | .featuresGet r => Sys2Proof.Machine.execFeaturesGet r s
  | .capacityGet r => Sys2Proof.Machine.execCapacityGet r s
  | .qpAssign r => Sys2Proof.Machine.execQpAssign r s
  | .ctxTableSet r => Sys2Proof.Machine.execCtxTableSet r s
  | .qpCreate r => Sys2Proof.Machine.execQpCreate r s
  | .qpDestroy r => Sys2Proof.Machine.execQpDestroy r s
  | .qpDestroyFinish qpn => Sys2Proof.Machine.execQpDestroyFinish qpn s
  | .qpQuery r => Sys2Proof.Machine.execQpQuery r s
  | .keySweepStep => Sys2Proof.Machine.execKeySweepStep s
  | .sqFetch => Sys2Proof.Machine.execSqFetch s
  | .jobAdmit qpn => Sys2Proof.Machine.execJobAdmit qpn s
  | .jobDispatch => Sys2Proof.Machine.execJobDispatch s
  | .jobCompletion job => Sys2Proof.Machine.execJobCompletion job s
  | .eventEntry => Sys2Proof.Machine.execEventEntry s
  | .jobNop job => Sys2Proof.Machine.execJobNop job s
  | .gooseTransmitTag job => Sys2Proof.Machine.execGooseTransmitTag job s
  | .gooseReceiveVerify job => Sys2Proof.Machine.execGooseReceiveVerify job s
  | .svTransmitTag job => Sys2Proof.Machine.execSvTransmitTag job s
  | .svReceiveVerify job => Sys2Proof.Machine.execSvReceiveVerify job s
  | .genericFrameTransmit job => Sys2Proof.Machine.execGenericFrameTransmit job s
  | .genericFrameReceive job => Sys2Proof.Machine.execGenericFrameReceive job s
  | .aesGcmEncrypt job => Sys2Proof.Machine.execAesGcmEncrypt job s
  | .aesGcmDecrypt job => Sys2Proof.Machine.execAesGcmDecrypt job s
  | .aesGmacGenerate job => Sys2Proof.Machine.execAesGmacGenerate job s
  | .aesGmacVerify job => Sys2Proof.Machine.execAesGmacVerify job s
  | .aesCtr job => Sys2Proof.Machine.execAesCtr job s
  | .sha256 job => Sys2Proof.Machine.execSha256 job s
  | .sha512 job => Sys2Proof.Machine.execSha512 job s
  | .hmacSha256 job => Sys2Proof.Machine.execHmacSha256 job s
  | .archiveAppend job => Sys2Proof.Machine.execArchiveAppend job s
  | .paCreate r => Sys2Proof.Machine.execPaCreate r s
  | .paKeyLoad r => Sys2Proof.Machine.execPaKeyLoad r s
  | .paRoll r => Sys2Proof.Machine.execPaRoll r s
  | .paStateSet r => Sys2Proof.Machine.execPaStateSet r s
  | .associationFreed n => Sys2Proof.Machine.execAssociationFreed n s
  | .paQuery r => Sys2Proof.Machine.execPaQuery r s
  | .rollFire n rx => Sys2Proof.Machine.execRollFire n rx s
  | .graceEnd n => Sys2Proof.Machine.execGraceEnd n s
  | .keyUnwrap r => Sys2Proof.Machine.execKeyUnwrap r s
  | .keyAttrGet r => Sys2Proof.Machine.execKeyAttrGet r s
  | .keyErase r => Sys2Proof.Machine.execKeyErase r s
  | .keyUnwrapGo value => Sys2Proof.Machine.execKeyUnwrapGo value s
  | .unwrapThrottleEnd => Sys2Proof.Machine.execUnwrapThrottleEnd s
  | .keyCmdErase => Sys2Proof.Machine.execKeyCmdErase s
  | .keyCmdResplit => Sys2Proof.Machine.execKeyCmdResplit s
  | .keyEraseFinish slot readsZero => Sys2Proof.Machine.execKeyEraseFinish slot readsZero s
  | .resplit slot => Sys2Proof.Machine.execResplit slot s
  | .laneTransientError phys job => Sys2Proof.Machine.execLaneTransientError phys job s
  | .laneAssayGo value => Sys2Proof.Machine.execLaneAssayGo value s
  | .bchReserveWrite value => Sys2Proof.Machine.execBchReserveWrite value s
  | .c0ReserveSet r => Sys2Proof.Machine.execC0ReserveSet r s
  | .hashUnitMismatch phys job => Sys2Proof.Machine.execHashUnitMismatch phys job s
  | .hashAssayGo value => Sys2Proof.Machine.execHashAssayGo value s
  | .meAdd n sizeW => Sys2Proof.Machine.execMeAdd n sizeW s
  | .meSub n sizeW => Sys2Proof.Machine.execMeSub n sizeW s
  | .mmul n sizeW => Sys2Proof.Machine.execMmul n sizeW s
  | .invM n sizeW => Sys2Proof.Machine.execInvM n sizeW s
  | .expM n sizeW => Sys2Proof.Machine.execExpM n sizeW s
  | .meLoad n sizeW => Sys2Proof.Machine.execMeLoad n sizeW s
  | .meClear n sizeW => Sys2Proof.Machine.execMeClear n sizeW s
  | .p521Sign n sizeW => Sys2Proof.Machine.execP521Sign n sizeW s
  | .p521Verify n sizeW => Sys2Proof.Machine.execP521Verify n sizeW s
  | .p521Pubkey n sizeW => Sys2Proof.Machine.execP521Pubkey n sizeW s
  | .engineDone n checkFails => Sys2Proof.Machine.execEngineDone n checkFails s
  | .keyMeDataRead n => Sys2Proof.Machine.execKeyMeDataRead n s
  | .keyMeDataWrite n value => Sys2Proof.Machine.execKeyMeDataWrite n value s
  | .keyMeLock => Sys2Proof.Machine.execKeyMeLock s
  | .engineAssayGo value => Sys2Proof.Machine.execEngineAssayGo value s
  | .windowRelease cell bits => Sys2Proof.Machine.execWindowRelease cell bits s
  | .startupTestDone cell bits => Sys2Proof.Machine.execStartupTestDone cell bits s
  | .conditionerBlock => Sys2Proof.Machine.execConditionerBlock s
  | .keyNhRandRead mid => Sys2Proof.Machine.execKeyNhRandRead mid s
  | .nhRandTimeout mid => Sys2Proof.Machine.execNhRandTimeout mid s
  | .testEnWrite on => Sys2Proof.Machine.execTestEnWrite on s
  | .recordIntake => Sys2Proof.Machine.execRecordIntake s
  | .recordSequence => Sys2Proof.Machine.execRecordSequence s
  | .closeIntervalExpiry => Sys2Proof.Machine.execCloseIntervalExpiry s
  | .arcForceClose => Sys2Proof.Machine.execArcForceClose s
  | .segmentProgramDone seg e => Sys2Proof.Machine.execSegmentProgramDone seg e s
  | .sealDeferTimeout => Sys2Proof.Machine.execSealDeferTimeout s
  | .largeRecordSecondRead dseq data => Sys2Proof.Machine.execLargeRecordSecondRead dseq data s
  | .runTimeout => Sys2Proof.Machine.execRunTimeout s
  | .gapTimeout => Sys2Proof.Machine.execGapTimeout s
  | .incidentExit => Sys2Proof.Machine.execIncidentExit s
  | .emergencySetReady => Sys2Proof.Machine.execEmergencySetReady s
  | .scrubRead seg result => Sys2Proof.Machine.execScrubRead seg result s
  | .blockRefresh block => Sys2Proof.Machine.execBlockRefresh block s
  | .channelTimeout ch training => Sys2Proof.Machine.execChannelTimeout ch training s
  | .arcAppend r body => Sys2Proof.Machine.execArcAppend r body s
  | .arcRead r => Sys2Proof.Machine.execArcRead r s
  | .arcSealGet r => Sys2Proof.Machine.execArcSealGet r s
  | .arcStatus r => Sys2Proof.Machine.execArcStatus r s
  | .arcConfig r => Sys2Proof.Machine.execArcConfig r s
  | .archiveIntakeOpen => Sys2Proof.Machine.execArchiveIntakeOpen s
  | .flUnlockWrite mid pl value => Sys2Proof.Machine.execFlUnlockWrite mid pl value s
  | .flSeqTimeout => Sys2Proof.Machine.execFlSeqTimeout s
  | .program mid pl value => Sys2Proof.Machine.execProgram mid pl value s
  | .erase mid pl value => Sys2Proof.Machine.execErase mid pl value s
  | .suspend mid pl value => Sys2Proof.Machine.execSuspend mid pl value s
  | .flSuspendHeldExpiry => Sys2Proof.Machine.execFlSuspendHeldExpiry s
  | .resume mid pl value => Sys2Proof.Machine.execResume mid pl value s
  | .marginCheck mid pl value => Sys2Proof.Machine.execMarginCheck mid pl value s
  | .rdpRaise mid pl value => Sys2Proof.Machine.execRdpRaise mid pl value s
  | .rdpDescend mid pl value => Sys2Proof.Machine.execRdpDescend mid pl value s
  | .kindSet mid pl value => Sys2Proof.Machine.execKindSet mid pl value s
  | .flCommandDone e => Sys2Proof.Machine.execFlCommandDone e s
  | .flashWindowRead mid pl addr size how => Sys2Proof.Machine.execFlashWindowRead mid pl addr size how s
  | .flWpWrite mid pl n value => Sys2Proof.Machine.execFlWpWrite mid pl n value s
  | .flScan => Sys2Proof.Machine.execFlScan s
  | .mov c => Sys2Proof.Machine.execMov c s
  | .add c => Sys2Proof.Machine.execAdd c s
  | .adc c => Sys2Proof.Machine.execAdc c s
  | .sub c => Sys2Proof.Machine.execSub c s
  | .sbc c => Sys2Proof.Machine.execSbc c s
  | .cmp c => Sys2Proof.Machine.execCmp c s
  | .andI c => Sys2Proof.Machine.execAndI c s
  | .orI c => Sys2Proof.Machine.execOrI c s
  | .xorI c => Sys2Proof.Machine.execXorI c s
  | .tst c => Sys2Proof.Machine.execTst c s
  | .shl c => Sys2Proof.Machine.execShl c s
  | .shr c => Sys2Proof.Machine.execShr c s
  | .sar c => Sys2Proof.Machine.execSar c s
  | .rol c => Sys2Proof.Machine.execRol c s
  | .mul c => Sys2Proof.Machine.execMul c s
  | .mulhu c => Sys2Proof.Machine.execMulhu c s
  | .neg c => Sys2Proof.Machine.execNeg c s
  | .notI c => Sys2Proof.Machine.execNotI c s
  | .sexb c => Sys2Proof.Machine.execSexb c s
  | .sexh c => Sys2Proof.Machine.execSexh c s
  | .divu c => Sys2Proof.Machine.execDivu c s
  | .divs c => Sys2Proof.Machine.execDivs c s
  | .remu c => Sys2Proof.Machine.execRemu c s
  | .rems c => Sys2Proof.Machine.execRems c s
  | .mulhs c => Sys2Proof.Machine.execMulhs c s
  | .clz c => Sys2Proof.Machine.execClz c s
  | .lea c => Sys2Proof.Machine.execLea c s
  | .ldsb c => Sys2Proof.Machine.execLdsb c s
  | .ldsh c => Sys2Proof.Machine.execLdsh c s
  | .bcc c => Sys2Proof.Machine.execBcc c s
  | .bccA c => Sys2Proof.Machine.execBccA c s
  | .jmp c => Sys2Proof.Machine.execJmp c s
  | .call c => Sys2Proof.Machine.execCall c s
  | .bsr c => Sys2Proof.Machine.execBsr c s
  | .bbt c => Sys2Proof.Machine.execBbt c s
  | .bbf c => Sys2Proof.Machine.execBbf c s
  | .bbtA c => Sys2Proof.Machine.execBbtA c s
  | .bbfA c => Sys2Proof.Machine.execBbfA c s
  | .bbtc c => Sys2Proof.Machine.execBbtc c s
  | .bbtcA c => Sys2Proof.Machine.execBbtcA c s
  | .loopI_ c => Sys2Proof.Machine.execLoopI_ c s
  | .loopi c => Sys2Proof.Machine.execLoopi c s
  | .breakl c => Sys2Proof.Machine.execBreakl c s
  | .setb c => Sys2Proof.Machine.execSetb c s
  | .clrb c => Sys2Proof.Machine.execClrb c s
  | .cplb c => Sys2Proof.Machine.execCplb c s
  | .movbToF c => Sys2Proof.Machine.execMovbToF c s
  | .movbFromF c => Sys2Proof.Machine.execMovbFromF c s
  | .andb c => Sys2Proof.Machine.execAndb c s
  | .orb c => Sys2Proof.Machine.execOrb c s
  | .xorb c => Sys2Proof.Machine.execXorb c s
  | .andnb c => Sys2Proof.Machine.execAndnb c s
  | .ornb c => Sys2Proof.Machine.execOrnb c s
  | .tstb c => Sys2Proof.Machine.execTstb c s
  | .bop c => Sys2Proof.Machine.execBop c s
  | .tas c => Sys2Proof.Machine.execTas c s
  | .ldrRs c => Sys2Proof.Machine.execLdrRs c s
  | .stc c => Sys2Proof.Machine.execStc c s
  | .clrrs c => Sys2Proof.Machine.execClrrs c s
  | .mac c => Sys2Proof.Machine.execMac c s
  | .macr c => Sys2Proof.Machine.execMacr c s
  | .acsr c => Sys2Proof.Machine.execAcsr c s
  | .acsra c => Sys2Proof.Machine.execAcsra c s
  | .acsat c => Sys2Proof.Machine.execAcsat c s
  | .acclr c => Sys2Proof.Machine.execAcclr c s
  | .nop c => Sys2Proof.Machine.execNop c s
  | .wait c => Sys2Proof.Machine.execWait c s
  | .waitWake c => Sys2Proof.Machine.execWaitWake c s
  | .brk c => Sys2Proof.Machine.execBrk c s
  | .isync c => Sys2Proof.Machine.execIsync c s
  | .fence c => Sys2Proof.Machine.execFence c s
  | .ret c => Sys2Proof.Machine.execRet c s
  | .retx c upset => Sys2Proof.Machine.execRetx c upset s
  | .sc c => Sys2Proof.Machine.execSc c s
  | .udf c => Sys2Proof.Machine.execUdf c s
  | .inP c => Sys2Proof.Machine.execInP c s
  | .outP c => Sys2Proof.Machine.execOutP c s
  | .mfs c => Sys2Proof.Machine.execMfs c s
  | .mts c => Sys2Proof.Machine.execMts c s
  | .evpost c => Sys2Proof.Machine.execEvpost c s
  | .dmaDescriptor e d => Sys2Proof.Machine.execDmaDescriptor e d s
  | .faultEntry c err => Sys2Proof.Machine.execFaultEntry c err s
  | .interruptEntry c => Sys2Proof.Machine.execInterruptEntry c s
  | .ssSpill c d => Sys2Proof.Machine.execSsSpill c d s
  | .ssFill c value => Sys2Proof.Machine.execSsFill c value s
  | .ssRedirect c value => Sys2Proof.Machine.execSsRedirect c value s
  | .irqSwset c value => Sys2Proof.Machine.execIrqSwset c value s
  | .coreRun mid on => Sys2Proof.Machine.execCoreRun mid on s
  | .coreReset mid => Sys2Proof.Machine.execCoreReset mid s
  | .escLock mid => Sys2Proof.Machine.execEscLock mid s
  | .decisionRecheck second => Sys2Proof.Machine.execDecisionRecheck second s
  | .mainEntry vin => Sys2Proof.Machine.execMainEntry vin s
  | .resetRelease => Sys2Proof.Machine.execResetRelease s
  | .powerWarning mv => Sys2Proof.Machine.execPowerWarning mv s
  | .prepareEnd => Sys2Proof.Machine.execPrepareEnd s
  | .recovery mv => Sys2Proof.Machine.execRecovery mv s
  | .powerReset mv => Sys2Proof.Machine.execPowerReset mv s
  | .railFault rails => Sys2Proof.Machine.execRailFault rails s
  | .vbatChange mv => Sys2Proof.Machine.execVbatChange mv s
  | .powerEstimate mw => Sys2Proof.Machine.execPowerEstimate mw s
  | .capShedStep => Sys2Proof.Machine.execCapShedStep s
  | .capUnshedStep => Sys2Proof.Machine.execCapUnshedStep s
  | .mrst low => Sys2Proof.Machine.execMrst low s
  | .profileSet r => Sys2Proof.Machine.execProfileSet r s
  | .profileGet r => Sys2Proof.Machine.execProfileGet r s
  | .powerStatus r => Sys2Proof.Machine.execPowerStatus r s
  | .assayRun r => Sys2Proof.Machine.execAssayRun r s
  | .veneerCheck net drawn arrived inTime => Sys2Proof.Machine.execVeneerCheck net drawn arrived inTime s
  | .tamperFire index => Sys2Proof.Machine.execTamperFire index s
  | .tamperCounterTimeout index => Sys2Proof.Machine.execTamperCounterTimeout index s
  | .fuseBlow vbatOk => Sys2Proof.Machine.execFuseBlow vbatOk s
  | .tmpCmdClear => Sys2Proof.Machine.execTmpCmdClear s
  | .tmpCmdZeroize => Sys2Proof.Machine.execTmpCmdZeroize s
  | .tmpCmdPop => Sys2Proof.Machine.execTmpCmdPop s
  | .tmpSrcCfgWrite value => Sys2Proof.Machine.execTmpSrcCfgWrite value s
  | .tmpStatus r => Sys2Proof.Machine.execTmpStatus r s
  | .tmpConfig r => Sys2Proof.Machine.execTmpConfig r s
  | .tmpFlagClear r => Sys2Proof.Machine.execTmpFlagClear r s
  | .zeroize r => Sys2Proof.Machine.execZeroize r s
  | .pendingActionsArchive => Sys2Proof.Machine.execPendingActionsArchive s
  | .fieldRise field => Sys2Proof.Machine.execFieldRise field s
  | .fieldFall field => Sys2Proof.Machine.execFieldFall field s
  | .locketNoiseReady pass => Sys2Proof.Machine.execLocketNoiseReady pass s
  | .reqa => Sys2Proof.Machine.execReqa s
  | .wupa => Sys2Proof.Machine.execWupa s
  | .anticollision level nbits bits => Sys2Proof.Machine.execAnticollision level nbits bits s
  | .selectI level uid bcc => Sys2Proof.Machine.execSelectI level uid bcc s
  | .hlta => Sys2Proof.Machine.execHlta s
  | .rats fsdi cid => Sys2Proof.Machine.execRats fsdi cid s
  | .pps dri dsi => Sys2Proof.Machine.execPps dri dsi s
  | .sDeselect => Sys2Proof.Machine.execSDeselect s
  | .auth1 inf => Sys2Proof.Machine.execAuth1 inf s
  | .auth2 inf => Sys2Proof.Machine.execAuth2 inf s
  | .auth3 inf => Sys2Proof.Machine.execAuth3 inf s
  | .secureFrame inf => Sys2Proof.Machine.execSecureFrame inf s
  | .errorFrame inf => Sys2Proof.Machine.execErrorFrame inf s
  | .sessionTimeout => Sys2Proof.Machine.execSessionTimeout s
  | .clConfig r => Sys2Proof.Machine.execClConfig r s
  | .badgeRead r => Sys2Proof.Machine.execBadgeRead r s
  | .readerGuardExpiry => Sys2Proof.Machine.execReaderGuardExpiry s
  | .reqaRetry => Sys2Proof.Machine.execReqaRetry s
  | .cardAnswer frame => Sys2Proof.Machine.execCardAnswer frame s
  | .badgeTimeout => Sys2Proof.Machine.execBadgeTimeout s
  | .journalRead r => Sys2Proof.Machine.execJournalRead r s
  | .journalArchive => Sys2Proof.Machine.execJournalArchive s
  | .bootRomStart => Sys2Proof.Machine.execBootRomStart s
  | .firmwareStart => Sys2Proof.Machine.execFirmwareStart s
  | .loaderImageLoad r data => Sys2Proof.Machine.execLoaderImageLoad r data s
  | .hallmarkGet r => Sys2Proof.Machine.execHallmarkGet r s
  | .certChainGet r => Sys2Proof.Machine.execCertChainGet r s
  | .tpLoad r data => Sys2Proof.Machine.execTpLoad r data s
  | .firmwareStage r data => Sys2Proof.Machine.execFirmwareStage r data s
  | .bundle r data => Sys2Proof.Machine.execBundle r data s
  | .tpStart r => Sys2Proof.Machine.execTpStart r s
  | .tpStop r => Sys2Proof.Machine.execTpStop r s
  | .tpSources r => Sys2Proof.Machine.execTpSources r s
  | .tpStatus r => Sys2Proof.Machine.execTpStatus r s
  | .testPortUnlock => Sys2Proof.Machine.execTestPortUnlock s
  | .testPortProvision => Sys2Proof.Machine.execTestPortProvision s
  | .jigArm r => Sys2Proof.Machine.execJigArm r s
  | .jigDisarm r => Sys2Proof.Machine.execJigDisarm r s
  | .jigExpiry => Sys2Proof.Machine.execJigExpiry s
  | .tamperSample index active => Sys2Proof.Machine.execTamperSample index active s
  | .aoNoiseFail cell => Sys2Proof.Machine.execAoNoiseFail cell s
  | .locketNoiseCellFail cell => Sys2Proof.Machine.execLocketNoiseCellFail cell s
  | .hostRegisterRead fn bar offset ask => Sys2Proof.Machine.execHostRegisterRead fn bar offset ask s
  | .blockEraseDone block e => Sys2Proof.Machine.execBlockEraseDone block e s
  | .cardResponseTimeout => Sys2Proof.Machine.execCardResponseTimeout s
  | .chainedIBlock inf => Sys2Proof.Machine.execChainedIBlock inf s
  | .rBlock ack number => Sys2Proof.Machine.execRBlock ack number s
  | .sWtxResponse made => Sys2Proof.Machine.execSWtxResponse made s

end Sys2Proof.Machine
end

