-- ==== Sys2Proof/Machine/Tick.lean ====
section
/-! DEFINITION. Sys2Proof/Machine/Tick.lean: one cycle of D0, which a step takes when no command waits (log entry 2). -/

namespace Sys2Proof.Machine

/-- GTS advances by INC in units of 2^-40 ns (R58), once the clock root runs. -/
def State.tickTime (s : State) : State :=
  if !(s.up && s.clk.rootOk) then s else
  let a := s.tim.acc + s.tim.inc
  let w := 1000000000 * 2 ^ 40
  if a < w then { s with tim := { s.tim with acc := a } }
  else { s with tim := { s.tim with acc := a - w, sec := s.tim.sec + 1 } }

/-- A CLKIN edge comes every twelfth cycle of D0 (R40); START_COUNT counts the edges since module reset was released (R42), and
the first one in MAIN arms the missing-clock detector (R49). The Loupe channels count the module's clocks (R52). -/
def State.tickClk (s : State) : State :=
  let n := if s.clk.sub < 11 then s.clk.sub + 1 else 0
  let clkin := n = 0 && s.pwr.state == .main && s.pwr.clkin
  let s : State := { s with clk := { s.clk with
    sub := n, mcArmed := s.clk.mcArmed || clkin
    startCount := if clkin && s.up then satInc s.clk.startCount 65536 else s.clk.startCount } }
  if s.up then s.loupeTick clkin else s

/-! ### Clock gates (R16) -/

/-- A request stands on a link to an island. -/
def State.linkPending (s : State) (i : Nat) : Bool := s.lnk.links.any fun e => e.2.phase ≠ 0 && linkIsland e.1 == some i

/-- A clocked island has work, by its bit in Clk.gated. The time island counts without interruption (R51). -/
def State.islandWork (s : State) (i : Nat) : Bool :=
  match i with
  | 0 => !(s.pci.prio.isEmpty && s.pci.gen.isEmpty && s.pci.tags.isEmpty && s.pci.waitTag.isEmpty && s.qps.events.isEmpty)
  | 1 => !s.qps.jobs.isEmpty
  | 2 => s.bch.lanes.any (fun e => e.2.job.isSome) || s.assayBusy .lane
  | 3 => s.key.unwrap.isSome || s.key.rows.any fun e => kState e.2 == kErasing
  | 4 => s.hme.units.any (fun e => e.2.job.isSome || s.now < e.2.workTill) || s.assayBusy .hashUnit
  | 5 => s.hme.engines.any (fun e => engBusy e.2) || !s.hme.away.isEmpty || s.assayBusy .engine
  | 6 => s.noiseWanted || s.assayBusy .noiseCell
  | 7 => (upto 14).any fun c => s.coreRuns c && !(s.core c).waiting
  | 8 => s.mbx.chans.any fun e => !e.2.fifo.isEmpty
  | 9 => true
  | 10 => !(s.arc.arrivals.isEmpty && s.arc.staged.isEmpty && s.arc.segs.isEmpty && s.arc.waiters.isEmpty)
  | 11 => s.fls.running.isSome
  | _ => s.cl.badge.isSome || s.cl.clasp.isSome || s.cl.mark.isSome

/-- Islands that are never gated in MAIN while a class-C0 queue pair is enabled: host, job and key. -/
def State.neverGated (s : State) (i : Nat) : Bool := s.c0Enabled && (i = 0 || i = 1 || i = 3)

/-- The gates at a D0 edge: an island with no work and no link access pending is gated; work wakes it. -/
def State.gateIslands (s : State) : State :=
  let idle (i : Nat) : Bool := !s.islandWork i && !s.linkPending i && !s.neverGated i
  let g := (upto 13).foldl (fun g i => if idle i then g ||| BitVec.ofNat 13 (2 ^ i) else g) 0
  { s with clk := { s.clk with gated := g } }

/-- A lane's clock is gated: it has no work, and it is not a reserved lane while a class-C0 queue pair is enabled; a lane
outside the active set is gated too (R16, R38). -/
def State.laneGated (s : State) (p : Nat) : Bool :=
  let held := s.c0Enabled && s.reservedLanes.any fun n => s.phys .lane n == some p
  (s.lane p).job.isNone && !s.laneInAssay p && !held

/-- One cycle: time, the clock and its gates, one buffered store of each core (R354), what waited for noise
(R525), the scrubber's pass (R287), a snapshot that has become due (R493), and the
module reset that the loader owes once its answer has left (R485). -/
def State.tick (s : State) : State :=
  let s : State := { s with now := s.now + 1 }
  let s := s.tickTime.tickClk
  let s := if s.up then s.benchCycle.beginAssays.gateIslands else s
  let s := if s.up then each (upto 14) (fun c s => s.drainOne c) s else s
  let s := if s.up && s.arc.ready then s.govern.scrubPass else s
  let s := if s.up then s.goDue.storeDue.sweepDue.badgeDue.mainUid.sealKeyDue else s
  let s := s.carrierCheck.snapCheck.seekSign
  if s.lc.resetDue && s.drn.held.isEmpty then s.assertReset else s

end Sys2Proof.Machine
end

