-- ==== Sys2Proof/WellFormed.lean ====
section
/-! DEFINITION. Sys2Proof/WellFormed.lean: which commands are operands the spec's interfaces can carry. An operand whose
Lean type already has the interface's width needs no check; the checks below are those of numbers wider than the spec's
field. A meaning answers on an ill-formed command too: no claim is made about it. -/

namespace Sys2Proof

/-- How many physical resources a class has (R3, R29). -/
def ResClass.size : ResClass → Nat
  | .lane => 544
  | .hashUnit => 68
  | .engine => 5
  | .tenantCore => 13
  | .noiseCell => 272
  | .nandBlock => 1310720
  | .keyRow => 16512
  | .norSector => 2080
  | .dmaEngine => 8
  | .fwPair => 2

/-- The MIDs of R22; a value not listed never appears. -/
def okMid (mid : Nat) : Bool :=
  (decide (1 ≤ mid) && decide (mid ≤ 0x40)) || (decide (0x50 ≤ mid) && decide (mid ≤ 0x67))
    || [0x70, 0x71, 0x7E, 0x7F].contains mid

/-- A function or a core sees at most 256 channel windows (R116). -/
def okWin (w : Nat) : Bool := decide (w < 256)

/-- A queue pair's number is 20 bits (R135). -/
def okQpn (q : Nat) : Bool := decide (q < 1048576)

/-- A link rate from 2.5 to 16.0 GT/s by its generation, and a width (R92). -/
def okLink (speed width : Nat) : Bool :=
  decide (1 ≤ speed) && decide (speed ≤ 4) && [1, 2, 4, 8, 16].contains width

/-- A Driner command carries a 16-bit tag and at most 896 bytes (R127, R128). -/
def Req.ok (r : Req) : Bool := okMid r.party && decide (r.tag < 65536) && decide (r.payload.length ≤ 896)

def OpRef.ok : OpRef → Bool
  | .none => true
  | .job _ => true
  | .driner party tag => okMid party && decide (tag < 65536)
  | .keyLoad slot _ _ => decide (slot < 16896)

/-- The values of R92: payload 128 to 512 B, read request 128 to 4,096 B; at most 63 VFs. -/
def Cfg.ok : Cfg → Bool
  | .maxPayload n => [128, 256, 512].contains n
  | .maxRead n => [128, 256, 512, 1024, 2048, 4096].contains n
  | .vfEnable _ n => decide (n ≤ 63)
  | .tag10 _ => true
  | .ptmEnable _ => true
  | .relaxed _ => true
  | .cplTimeout _ _ => true
  | .ecrc _ _ => true
  | .busMaster _ _ => true
  | .d3hot _ _ => true
  | .fnMask _ _ => true
  | .msixEnable _ _ => true
  | .bar _ _ => true
  | .vfBar _ _ => true
  | .severity _ _ => true
  | .margin _ _ => true

/-- A completion carries at most a read request's 4,096 bytes (R92). -/
def Cpl.ok : Cpl → Bool
  | .data b => decide (b.length ≤ 4096)
  | .unsupported => true
  | .abort => true
  | .poisoned => true
  | .ecrcFail => true

def RegAccess.ok : RegAccess → Bool
  | .port mid _ _ => okMid mid
  | .bar _ b _ size => (b == 0 || b == 4) && decide (1 ≤ size) && decide (size ≤ 8)

/-- I-space or D-space, a 32-bit address (R395). -/
def DmaEnd.ok (e : DmaEnd) : Bool := decide (e.space < 2) && decide (e.addr < 2 ^ 32)

def DmaDesc.ok (d : DmaDesc) : Bool := d.src.ok && d.dst.ok && d.op.ok && decide (d.len < 2 ^ 32)

/-- UID sizes of ISO/IEC 14443-3 are coded in two bits, and a cascade level has 40 bits with its check byte (R460). -/
def CardFrame.ok : CardFrame → Bool
  | .atqa size => decide (size < 3)
  | .uidBits bits _ => decide (bits.length ≤ 40)
  | .sak _ _ => true
  | .ats _ => true
  | .pps => true

/-- A well-formed command: every operand within its interface's field. -/
def wellFormed : Instr → Bool
  | .transfer _ mid _ _ _ op => okMid mid && op.ok
  | .linkAckTimeout _ mid op => okMid mid && op.ok
  | .lockstepMismatch _ => true
  | .retirement cls assays => decide (assays.length ≤ cls.size)
  | .assayDone cls phys _ => decide (phys < cls.size)
  | .periodicAssay cls phys => (cls == .lane || cls == .hashUnit) && decide (phys < cls.size)
  | .rootOk => true
  | .clkDomselWrite _ _ _ => true
  | .missingClock => true
  | .loupeStart _ _ => true
  | .loupeAbort _ _ => true
  | .loupeGateEnd _ _ => true
  | .loupeRefLost _ => true
  | .loopSecond _ => true
  | .xchkHoldEnd => true
  | .holdoverLimit => true
  | .tinEdge _ _ => true
  | .irigFrame _ => true
  | .tinLost => true
  | .ptmRequest => true
  | .ptmResponse _ _ => true
  | .ptmTimeout => true
  | .timCmdLoad => true
  | .timCmdRebase => true
  | .timCmdArm => true
  | .timMapCommit => true
  | .shadowCopy => true
  | .bracketTimeout => true
  | .ppsoPulse => true
  | .ppsoPulseEnd => true
  | .evtEdge _ _ _ => true
  | .evtFilterDone _ => true
  | .evtCtrlWrite _ _ => true
  | .dovetailArrival _ => true
  | .dovetailRelease => true
  | .timeGet r => r.ok
  | .timeStatus r => r.ok
  | .timeConfig r => r.ok
  | .timeSetMap r => r.ok
  | .timeSetUtc r => r.ok
  | .timeLoad r => r.ok
  | .timeRebase r => r.ok
  | .ppsoConfig r => r.ok
  | .evtConfig r => r.ok
  | .evtRead r => r.ok
  | .doorbell _ offset data _ => decide (offset + data.length ≤ 0x800000) && !data.isEmpty
  | .configWrite c => c.ok
  | .linkUp speed width => okLink speed width
  | .linkRetrain speed width => okLink speed width
  | .hostReset _ => true
  | .functionReset _ _ => true
  | .hostReadCompletion tag c => decide (tag < 1024) && c.ok
  | .completionTimeout tag => decide (tag < 1024)
  | .aerError _ _ _ => true
  | .tlpTransmit => true
  | .creditUpdate _ => true
  | .creditWaitExpiry => true
  | .coalesceTimeout qpn => okQpn qpn
  | .heartbeat => true
  | .registerWrite a _ => a.ok
  | .mbxSend mid window => okMid mid && okWin window
  | .mbxPop mid window => okMid mid && okWin window
  | .mbxDbWrite mid window _ => okMid mid && okWin window
  | .mbxDbMaskWrite mid window _ => okMid mid && okWin window
  | .mbxTimeout _ => true
  | .mbxBindWrite mid _ _ _ _ => okMid mid
  | .mbxLock => true
  | .drinerResponseSend _ => true
  | .identGet r => r.ok
  | .featuresGet r => r.ok
  | .capacityGet r => r.ok
  | .qpAssign r => r.ok
  | .ctxTableSet r => r.ok
  | .qpCreate r => r.ok
  | .qpDestroy r => r.ok
  | .qpDestroyFinish qpn => okQpn qpn
  | .qpQuery r => r.ok
  | .keySweepStep => true
  | .sqFetch => true
  | .jobAdmit qpn => okQpn qpn
  | .jobDispatch => true
  | .jobCompletion _ => true
  | .eventEntry => true
  | .jobNop _ => true
  | .gooseTransmitTag _ => true
  | .gooseReceiveVerify _ => true
  | .svTransmitTag _ => true
  | .svReceiveVerify _ => true
  | .genericFrameTransmit _ => true
  | .genericFrameReceive _ => true
  | .aesGcmEncrypt _ => true
  | .aesGcmDecrypt _ => true
  | .aesGmacGenerate _ => true
  | .aesGmacVerify _ => true
  | .aesCtr _ => true
  | .sha256 _ => true
  | .sha512 _ => true
  | .hmacSha256 _ => true
  | .archiveAppend _ => true
  | .paCreate r => r.ok
  | .paKeyLoad r => r.ok
  | .paRoll r => r.ok
  | .paStateSet r => r.ok
  | .associationFreed _ => true
  | .paQuery r => r.ok
  | .rollFire _ _ => true
  | .graceEnd _ => true
  | .keyUnwrap r => r.ok
  | .keyAttrGet r => r.ok
  | .keyErase r => r.ok
  | .keyUnwrapGo _ => true
  | .unwrapThrottleEnd => true
  | .keyCmdErase => true
  | .keyCmdResplit => true
  | .keyEraseFinish _ _ => true
  | .resplit _ => true
  | .laneTransientError _ _ => true
  | .laneAssayGo _ => true
  | .bchReserveWrite _ => true
  | .c0ReserveSet r => r.ok
  | .hashUnitMismatch _ _ => true
  | .hashAssayGo _ => true
  | .meAdd _ _ => true
  | .meSub _ _ => true
  | .mmul _ _ => true
  | .invM _ _ => true
  | .expM _ _ => true
  | .meLoad _ _ => true
  | .meClear _ _ => true
  | .p521Sign _ _ => true
  | .p521Verify _ _ => true
  | .p521Pubkey _ _ => true
  | .engineDone _ _ => true
  | .keyMeDataRead _ => true
  | .keyMeDataWrite _ _ => true
  | .keyMeLock => true
  | .engineAssayGo _ => true
  | .windowRelease _ _ => true
  | .startupTestDone _ _ => true
  | .conditionerBlock => true
  | .keyNhRandRead mid => okMid mid
  | .nhRandTimeout mid => okMid mid
  | .testEnWrite _ => true
  | .recordIntake => true
  | .recordSequence => true
  | .closeIntervalExpiry => true
  | .arcForceClose => true
  | .segmentProgramDone _ _ => true
  | .sealDeferTimeout => true
  | .largeRecordSecondRead _ data => data.all fun b => decide (b.length < 2 ^ 32)
  | .runTimeout => true
  | .gapTimeout => true
  | .incidentExit => true
  | .emergencySetReady => true
  | .scrubRead _ _ => true
  | .blockRefresh _ => true
  | .channelTimeout _ _ => true
  | .arcAppend r body => r.ok && body.all fun b => decide (b.length < 2 ^ 32)
  | .arcRead r => r.ok
  | .arcSealGet r => r.ok
  | .arcStatus r => r.ok
  | .arcConfig r => r.ok
  | .archiveIntakeOpen => true
  | .flUnlockWrite mid _ _ => okMid mid
  | .flSeqTimeout => true
  | .program mid _ _ => okMid mid
  | .erase mid _ _ => okMid mid
  | .suspend mid _ _ => okMid mid
  | .flSuspendHeldExpiry => true
  | .resume mid _ _ => okMid mid
  | .marginCheck mid _ _ => okMid mid
  | .rdpRaise mid _ _ => okMid mid
  | .rdpDescend mid _ _ => okMid mid
  | .kindSet mid _ _ => okMid mid
  | .flCommandDone _ => true
  | .flashWindowRead mid _ addr size _ => okMid mid && decide (addr + size ≤ 0x8000000) && decide (1 ≤ size)
  | .flWpWrite mid _ _ _ => okMid mid
  | .flScan => true
  | .mov _ => true
  | .add _ => true
  | .adc _ => true
  | .sub _ => true
  | .sbc _ => true
  | .cmp _ => true
  | .andI _ => true
  | .orI _ => true
  | .xorI _ => true
  | .tst _ => true
  | .shl _ => true
  | .shr _ => true
  | .sar _ => true
  | .rol _ => true
  | .mul _ => true
  | .mulhu _ => true
  | .neg _ => true
  | .notI _ => true
  | .sexb _ => true
  | .sexh _ => true
  | .divu _ => true
  | .divs _ => true
  | .remu _ => true
  | .rems _ => true
  | .mulhs _ => true
  | .clz _ => true
  | .lea _ => true
  | .ldsb _ => true
  | .ldsh _ => true
  | .bcc _ => true
  | .bccA _ => true
  | .jmp _ => true
  | .call _ => true
  | .bsr _ => true
  | .bbt _ => true
  | .bbf _ => true
  | .bbtA _ => true
  | .bbfA _ => true
  | .bbtc _ => true
  | .bbtcA _ => true
  | .loopI_ _ => true
  | .loopi _ => true
  | .breakl _ => true
  | .setb _ => true
  | .clrb _ => true
  | .cplb _ => true
  | .movbToF _ => true
  | .movbFromF _ => true
  | .andb _ => true
  | .orb _ => true
  | .xorb _ => true
  | .andnb _ => true
  | .ornb _ => true
  | .tstb _ => true
  | .bop _ => true
  | .tas _ => true
  | .ldrRs _ => true
  | .stc _ => true
  | .clrrs _ => true
  | .mac _ => true
  | .macr _ => true
  | .acsr _ => true
  | .acsra _ => true
  | .acsat _ => true
  | .acclr _ => true
  | .nop _ => true
  | .wait _ => true
  | .waitWake _ => true
  | .brk _ => true
  | .isync _ => true
  | .fence _ => true
  | .ret _ => true
  | .retx _ _ => true
  | .sc _ => true
  | .udf _ => true
  | .inP _ => true
  | .outP _ => true
  | .mfs _ => true
  | .mts _ => true
  | .evpost _ => true
  | .dmaDescriptor _ d => d.ok
  | .faultEntry _ err => err.all fun e => decide (e.space < 2)
  | .interruptEntry _ => true
  | .ssSpill _ _ => true
  | .ssFill _ _ => true
  | .ssRedirect _ _ => true
  | .irqSwset _ _ => true
  | .coreRun mid _ => okMid mid
  | .coreReset mid => okMid mid
  | .escLock mid => okMid mid
  | .decisionRecheck _ => true
  | .mainEntry _ => true
  | .resetRelease => true
  | .powerWarning _ => true
  | .prepareEnd => true
  | .recovery _ => true
  | .powerReset _ => true
  | .railFault _ => true
  | .vbatChange _ => true
  | .powerEstimate _ => true
  | .capShedStep => true
  | .capUnshedStep => true
  | .mrst _ => true
  | .profileSet r => r.ok
  | .profileGet r => r.ok
  | .powerStatus r => r.ok
  | .assayRun r => r.ok
  | .veneerCheck _ _ _ _ => true
  | .tamperFire _ => true
  | .tamperCounterTimeout _ => true
  | .fuseBlow _ => true
  | .tmpCmdClear => true
  | .tmpCmdZeroize => true
  | .tmpCmdPop => true
  | .tmpSrcCfgWrite _ => true
  | .tmpStatus r => r.ok
  | .tmpConfig r => r.ok
  | .tmpFlagClear r => r.ok
  | .zeroize r => r.ok
  | .pendingActionsArchive => true
  | .fieldRise _ => true
  | .fieldFall _ => true
  | .locketNoiseReady _ => true
  | .reqa => true
  | .wupa => true
  | .anticollision level nbits _ => decide (1 ≤ level) && decide (level ≤ 3) && decide (nbits ≤ 32)
  | .selectI level _ _ => decide (1 ≤ level) && decide (level ≤ 3)
  | .hlta => true
  | .rats _ _ => true
  | .pps _ _ => true
  | .sDeselect => true
  | .auth1 inf => decide (inf.length ≤ 253)
  | .auth2 inf => decide (inf.length ≤ 253)
  | .auth3 inf => decide (inf.length ≤ 253)
  | .secureFrame inf => decide (inf.length ≤ 253)
  | .errorFrame inf => decide (inf.length ≤ 253)
  | .sessionTimeout => true
  | .clConfig r => r.ok
  | .badgeRead r => r.ok
  | .readerGuardExpiry => true
  | .reqaRetry => true
  | .cardAnswer frame => frame.ok
  | .badgeTimeout => true
  | .journalRead r => r.ok
  | .journalArchive => true
  | .bootRomStart => true
  | .firmwareStart => true
  | .loaderImageLoad r data => r.ok && decide (data.length < 2 ^ 32)
  | .hallmarkGet r => r.ok
  | .certChainGet r => r.ok
  | .tpLoad r data => r.ok && decide (data.length < 2 ^ 32)
  | .firmwareStage r data => r.ok && decide (data.length < 2 ^ 32)
  | .bundle r data => r.ok && decide (data.length < 2 ^ 32)
  | .tpStart r => r.ok
  | .tpStop r => r.ok
  | .tpSources r => r.ok
  | .tpStatus r => r.ok
  | .testPortUnlock => true
  | .testPortProvision => true
  | .jigArm r => r.ok
  | .jigDisarm r => r.ok
  | .jigExpiry => true
  | .tamperSample _ _ => true
  | .aoNoiseFail _ => true
  | .locketNoiseCellFail _ => true
  | .hostRegisterRead _ bar _ ask => (bar == 0 || bar == 2 || bar == 4) && decide (1 ≤ ask.size) && decide (ask.size ≤ 4096)
  | .blockEraseDone _ _ => true
  | .cardResponseTimeout => true
  | .chainedIBlock inf => decide (inf.length ≤ 253)
  | .rBlock _ _ => true
  | .sWtxResponse _ => true

end Sys2Proof
end

