-- ==== Sys2Proof/Safety.lean ====
section
/-! DEFINITION. Sys2Proof/Safety.lean: the terms that claims are stated in: what a command answers, a core at an
instruction, a Driner command that may begin, and what no step may undo. -/

namespace Sys2Proof.Machine

/-! ### What no step may undo -/

/-- The one-time-programmable facts of the module: zeroize fuses (R448), the retire fuse (R450), the policy in OTP (R447),
the read-out-protection fuse (R321), the test-port fuse (R499), the least security version (R483). -/
structure Otp where
  zfuses : Nat
  retireFuse : Bool
  policyFused : Option Bool
  rdpFuse : Bool
  testFuse : Bool
  minSvn : Nat
  deriving DecidableEq, Repr

def State.otp (s : State) : Otp :=
  { zfuses := s.tmp.zfuses, retireFuse := s.tmp.retireFuse, policyFused := s.tmp.policyFused, rdpFuse := s.fls.rdpFuse,
    testFuse := s.lc.testFuse, minSvn := s.lc.minSvn }

/-- `b` may follow `a`: every fuse that `a` has blown stays blown, a policy written stays the one written, and the least
version does not fall. -/
def Otp.le (a b : Otp) : Prop :=
  a.zfuses ≤ b.zfuses ∧ (a.retireFuse = true → b.retireFuse = true) ∧
  (∀ p, a.policyFused = some p → b.policyFused = some p) ∧ (a.rdpFuse = true → b.rdpFuse = true) ∧
  (a.testFuse = true → b.testFuse = true) ∧ a.minSvn ≤ b.minSvn

/-! ### A core at an instruction -/

/-- Core `c` stands at instruction `i` and runs it: it fetches and does not wait, no interrupt is due, `i` is what the bytes
at its PC spell, its predicate holds, it stands where it may, and no annulled slot holds it. -/
def State.runs (s : State) (c : Fin 14) (i : Ins) : Prop :=
  s.ready c.val = true ∧ s.insAt c.val (s.core c.val).pc.toNat = .ok i ∧ predHolds i (s.core c.val).sr = true ∧
  barred (s.core c.val) i = false ∧ ∀ t, (s.core c.val).slot = some t → t.annul = false

/-- A command completes the instruction `i` of core `c` in the state `s'` that its own work leaves, and the PC moves on. -/
def completesIn (e : Instr) (c : Fin 14) (i : Ins) (s s' : State) : Prop :=
  exec e s = .next (s'.complete c.val i.len)

/-- A command completes an instruction that changes registers of core `c` alone, as `P` says. -/
def completes (e : Instr) (c : Fin 14) (i : Ins) (s : State) (P : Core → Prop) : Prop :=
  ∃ k, completesIn e c i s (s.setCore c.val k) ∧ P k

/-- From `k` to `k'`, general register `d` took `v`, SR took `sr`, and nothing else of the core changed. -/
def onlyReg (k k' : Core) (d : Nat) (v sr : Word) : Prop :=
  k' = { k with g := k'.g, sr := sr } ∧ ∀ n, k'.reg n = if n = d then v else k.reg n

/-- SR `b` is SR `a` with Z and N of a result, and C and V as given where they are given. -/
def flagsOf (a b r : Word) (c v : Option Bool) : Prop :=
  bit b srZ = (r == 0) ∧ bit b srN = r.getLsbD 31 ∧ bit b srC = c.getD (bit a srC) ∧ bit b srV = v.getD (bit a srV) ∧
  ∀ n, n ≠ srZ → n ≠ srN → n ≠ srC → n ≠ srV → bit b n = bit a n

/-! ### A Driner command that may begin -/

/-- A command of opcode `op` begins and is not turned away (R129, R130, R132, R433, R485): firmware runs and serves its
issuer, none of the issuer's assembled commands comes before it, the catalogue allows the issuer, the payload has its
size, the tag is its issuer's own, and no HALT stands. -/
def State.begins (s : State) (op : Nat) (r : Req) : Prop :=
  s.serves r.party = true ∧ s.turn op r = true ∧ s.lc.fw = .running ∧ s.halted = false ∧ r.tag ≠ 0 ∧
  ((s.untake r.party op r.tag).outstanding r.party).contains r.tag = false ∧
  ((s.untake r.party op r.tag).outstanding r.party).length < 16 ∧
  ∃ row, cmdRow op = some row ∧ mayIssue row.issuer r.party = true ∧ r.payload.length = row.size

/-- The state in which a command's own work begins: it has left the assembled commands and is outstanding. -/
def State.begun (s : State) (op : Nat) (r : Req) : State :=
  let s := s.untake r.party op r.tag
  { s with drn := { s.drn with out := s.drn.out ++ [(r.party, r.tag, op)] } }

/-- The response that a state holds last. -/
def State.answers (s : State) (r : Req) (op status : Nat) (payload : Bytes) : Prop :=
  ∃ h ∈ s.drn.held, h.party = r.party ∧ h.opcode = op ∧ h.tag = r.tag ∧ h.status = status ∧ h.dup = false ∧
    h.payload = payload

/-! ### A job that runs -/

/-- Job `j` of opcode `op` stands on its units and its work may end now: no HALT and no ZEROIZE stands (R115, R157). -/
def State.jobOn (s : State) (op : Nat) (j : Job) : Prop :=
  s.up = true ∧ s.halted = false ∧ s.tmp.zeroized = false ∧ s.job? j.id = some j ∧ j.stage = .running ∧ j.waitRec = false ∧
  j.sqe.opcode = op

/-- Job `j` of a state has ended with a status and a RESULT. -/
def State.jobEnded (s : State) (j : Job) (status : Nat) (result : Bytes) : Prop :=
  ∃ k, s.job? j.id = some k ∧ k.stage = .done ∧ k.status = status ∧ k.result = result ∧ k.lanes = [] ∧ k.hashUnit = none

end Sys2Proof.Machine
end

