-- ==== Sys2Proof/Certificates/Slice0/Obligations.lean ====
section
/-! DEFINITION. Sys2Proof/Certificates/Slice0/Obligations.lean: the statements about the model, for the provers. -/

open Sys2Proof Sys2Proof.Machine

/-- R16, R17, R18, R19, R20, R216, R219: on a link whose gate is open and which the jig leaves alone, a transfer wakes
its receiver and is taken when the receiver finds it clean at the first or the second try: the word is delivered once
with the MID of its initiator, after those before it, and the sequence advances; a branch of the key bus keeps no
word. A repeat that succeeds is logged as a Corrected Internal Error. One that fails twice is not delivered: the
tamper source is raised and the operation ends with RESOURCE. A key load whose row cannot be corrected sends nothing
and ends with KEY_ABSENT. Toward a retired resource the operation ends with RETIRED. A receiver that does not
acknowledge ends it with RESOURCE, or with JIG when the jig dropped the transfer. Completes: TRANSFER,
LINK_ACK_TIMEOUT. -/
def Obligations.HandshakeTransfers : Prop :=
  ∀ (n mid : Nat) (w : BitVec 256) (t1 t2 : Try) (op : OpRef) (s : State), s.up = true → s.midAppears mid = true →
    let l := s.link n
    let clean (t : Try) : Bool := t.parityOk && t.seqOk
    let took : Link := if (keyBus n).isSome then { l with seq := l.seq + 1, phase := 0 } else
      { l with taken := l.taken ++ [(mid, w)] ++ l.late.toList, late := none, seq := l.seq + 1, phase := 0 }
    (l.phase = 0 → s.gateShut n = false → s.jigMode n = none →
      (∀ slot ecc id, op = .keyLoad slot ecc id → ecc = .clean) →
      (clean t1 = true → exec (.transfer n mid w t1 t2 op) s = .next ((s.wake n).setLink n took)) ∧
      (clean t1 = false → clean t2 = true → keyBus n = none →
        exec (.transfer n mid w t1 t2 op) s = .next (((s.wake n).aerLog .correctedInternal 0 0).setLink n took)) ∧
      (clean t1 = false → clean t2 = true → (keyBus n).isSome = true →
        ∃ t, exec (.transfer n mid w t1 t2 op) s = .next t ∧ t.link n = took ∧ bit t.key.events 2 = true) ∧
      (clean t1 = false → clean t2 = false → keyBus n = none →
        exec (.transfer n mid w t1 t2 op) s = .next (((s.wake n).raise srcLink 0 n).failOp op stResource)) ∧
      (∀ rx, clean t1 = false → clean t2 = false → keyBus n = some rx →
        exec (.transfer n mid w t1 t2 op) s = .next (((s.wake n).raise srcKeybus 0 rx).failOp op stResource))) ∧
    (∀ slot id p, l.phase = 0 → s.gateShut n = false → s.jigMode n = none → (keyBus n).isSome = true →
      op = .keyLoad slot .uncorrectable id → s.phys .keyRow slot = some p →
      exec (.transfer n mid w t1 t2 op) s =
        .next ((((s.wake n).keyFault slot 2).loseRow p).failOp op stKeyAbsent)) ∧
    (l.phase = 0 → s.gateShut n = true → exec (.transfer n mid w t1 t2 op) s = .next (s.failOp op stRetired)) ∧
    (s.gateShut n = false → l.phase ≠ 1 →
      exec (.linkAckTimeout n mid op) s = .next (((s.wake n).raise srcLink 0 n).failOp op stResource)) ∧
    (s.gateShut n = false → l.phase = 1 →
      exec (.linkAckTimeout n mid op) s = .next (((s.wake n).setLink n { l with phase := 0 }).failOp op stJig))

/-- R24, R29, R30, R33, R134, R215, R234, R235: retirements and assays. A waiting decision of a class with no bring-in
under way is carried out, first come first served: its resource counts as retired, and what was retired stays so. An
assay that runs ends with its outcome: one that fails is a permanent decision, one that passes decides nothing; a
spare whose assay passes takes the number that was left vacant. A lane that is active, or a hash unit that serves, 24
hours after its last assay is due for one. A lockstep mismatch raises DISAGREE with code 9, and the pair goes on from
its last committed instruction. Completes: RETIREMENT, ASSAY_DONE, PERIODIC_ASSAY, LOCKSTEP_MISMATCH. -/
def Obligations.RetirementsAndAssays : Prop :=
  ∀ (s : State), s.up = true →
    (∀ cls assays i r, (s.ret.get cls).bringIn = none → s.ret.waiting.findIdx? (·.cls == cls) = some i →
      s.ret.waiting[i]? = some r →
      ∃ t, exec (.retirement cls assays) s = .next t ∧ t.pending = s.pending ∧
        r.phys ∈ (t.ret.get cls).retired ∧ ∀ p ∈ (s.ret.get cls).retired, p ∈ (t.ret.get cls).retired) ∧
    (∀ cls phys pass, cls ≠ .noiseCell → s.assayRuns cls phys = true → (s.ret.get cls).bringIn = none →
      ∃ t, exec (.assayDone cls phys pass) s = .next t ∧ t.underAssay cls phys = false ∧
        (pass = false → (s.ret.get cls).retired.contains phys = false →
          t.ret.waiting.any (fun r => r.cls == cls && r.phys == phys) = true) ∧
        (pass = true → t.ret.waiting = s.ret.waiting)) ∧
    (∀ cls phys r n, cls = .lane ∨ cls = .hashUnit ∨ cls = .engine → s.assayRuns cls phys = true →
      (s.ret.get cls).bringIn = some (r, phys) → r.num = some n → r.cls = cls → phys ≠ gone →
      ∃ t, exec (.assayDone cls phys true) s = .next t ∧ t.phys cls n = some phys ∧ (t.ret.get cls).bringIn = none) ∧
    (∀ phys n, s.logical .lane phys = some n → n ∈ s.activeLanes →
      s.lc.fw = .running → s.mayAssay .lane phys = true → s.assayedAt .lane phys + 86400 * secC ≤ s.now →
      exec (.periodicAssay .lane phys) s =
        .next { s with ret := { s.ret with assays := s.ret.assays ++ [(.lane, phys, false, none)] } }) ∧
    (∀ phys n, s.logical .hashUnit phys = some n →
      s.lc.fw = .running → s.mayAssay .hashUnit phys = true → s.assayedAt .hashUnit phys + 86400 * secC ≤ s.now →
      exec (.periodicAssay .hashUnit phys) s =
        .next { s with ret := { s.ret with assays := s.ret.assays ++ [(.hashUnit, phys, false, none)] } }) ∧
    (∀ (pair : Fin 2) p, s.phys .fwPair pair.val = some p →
      ∃ t, exec (.lockstepMismatch pair) s = .next t ∧ t.lnk.reexec = s.lnk.reexec + 1 ∧ t.lol = s.lol ∧
        (t.src 19).decision = 9 ∧ ((s.src 19).armed = true → (t.src 19).count = (s.src 19).count + 1))

/-- R205, R214, R215, R234, R235: the bench and hash rows. An assay that is asked for, of a resource that may be
assayed and with none of its class running, is due. The reservation takes a count of 32 to 128 with the acceptance;
any other count is discarded. The owner's count, or its withdrawal, is taken and answered. A job whose lane or hash
unit errs is rerun, off that lane or unit, at most twice: the third error completes it with RESOURCE. A unit that errs
in work that no job asked for loses that work, which another unit does again. Completes: LANE_ASSAY_GO, HASH_ASSAY_GO,
BCH_RESERVE_WRITE, C0_RESERVE_SET, LANE_TRANSIENT_ERROR, HASH_UNIT_MISMATCH. -/
def Obligations.BenchAndHashRows : Prop :=
  ∀ (s : State), s.up = true →
    (∀ v : BitVec 32, s.assayBusy .lane = false → s.mayAssay .lane (fld v 9 0) = true →
      ∃ t, exec (.laneAssayGo v) s = .next t ∧ t.bch.assayResult = 1 ∧ t.bch.assayPhys.toNat = fld v 9 0 ∧
        t.underAssay .lane (fld v 9 0) = true ∧ t.hme = s.hme) ∧
    (∀ v : BitVec 32, s.assayBusy .hashUnit = false → s.mayAssay .hashUnit (fld v 6 0) = true →
      ∃ t, exec (.hashAssayGo v) s = .next t ∧ t.hme.huResult = 1 ∧ t.hme.huAssay.toNat = fld v 6 0 ∧
        t.underAssay .hashUnit (fld v 6 0) = true ∧ t.bch = s.bch) ∧
    (∀ v : BitVec 32, (32 ≤ fld v 7 0 ∧ fld v 7 0 ≤ 128) →
      ∃ t, exec (.bchReserveWrite v) s = .next t ∧ t.bch.count.toNat = fld v 7 0 ∧ t.ret.accept = bit v 8) ∧
    (∀ v : BitVec 32, ¬ (32 ≤ fld v 7 0 ∧ fld v 7 0 ≤ 128) → exec (.bchReserveWrite v) s = .next s) ∧
    (∀ r : Req, s.begins 0x0A03 r → (leAt r.payload 0 1 = 0 ∨ (32 ≤ leAt r.payload 0 1 ∧ leAt r.payload 0 1 ≤ 128)) →
      leAt r.payload 1 1 ≤ 1 →
      ∃ t, exec (.c0ReserveSet r) s = .next t ∧ t.answers r 0x0A03 stOk [] ∧ t.ret.accept = (leAt r.payload 1 1 == 1) ∧
        t.ret.ownerCount = (if leAt r.payload 0 1 = 0 then none else some (leAt r.payload 0 1))) ∧
    (∀ (phys : Fin 544) id j, s.job? id = some j → j.stage = .running → j.lanes.contains phys.val = true →
      ∃ t, exec (.laneTransientError phys id) s = .next t ∧ bit t.bch.events 0 = true ∧
        (j.reruns < 2 → ∃ j', t.job? id = some j' ∧ j'.reruns = j.reruns + 1 ∧ j'.lanes = [] ∧ j'.avoid = some phys.val) ∧
        (2 ≤ j.reruns → bit t.bch.events 4 = true ∧ ∃ j', t.job? id = some j' ∧ j'.stage = .done ∧ j'.status = stResource)) ∧
    (∀ (phys : Fin 68) id j, s.job? id = some j → j.stage = .running → j.hashUnit = some phys.val →
      ∃ t, exec (.hashUnitMismatch phys (some id)) s = .next t ∧ bit t.hme.huEvents 0 = true ∧
        (j.reruns < 2 → ∃ j', t.job? id = some j' ∧ j'.reruns = j.reruns + 1 ∧ j'.hashUnit = none ∧
          j'.avoid = some phys.val) ∧
        (2 ≤ j.reruns → bit t.hme.huEvents 2 = true ∧ ∃ j', t.job? id = some j' ∧ j'.stage = .done ∧ j'.status = stResource)) ∧
    (∀ (phys : Fin 68), (s.logical .hashUnit phys.val).isSome = true → (s.hunit phys.val).job = none →
      s.now < (s.hunit phys.val).workTill →
      ∃ t, exec (.hashUnitMismatch phys none) s = .next t ∧ bit t.hme.huEvents 0 = true ∧ t.qps = s.qps)

/-- R42, R43, R47, R48, R49, R50, R52, R53, R54, R80: the clock's rows. With 65,536 CLKIN edges counted the root is
released, every domain moves to the division its select bit names, device time stands at 0 with QUAL 0b11 and INC_0,
and every event pin takes its level. A select that PL0 writes is taken when no switch waits and it moves neither D0
nor, while a class-0 queue pair is enabled, D1 or D2 off the root; a refused one sets its event bit, an overlap its
own, both where both hold, and nothing else changes. At any other privilege level the row changes nothing (the model's
choice, log entry 112). A Loupe channel that the time island does not own arms on START with both codes valid, and
aborts on a write while busy. A gate that ends gives its count within 1, at most 2^40 - 1, and LOST_RESULT where the
last was not taken; a reference that is silent for 2 s ends a channel without a count. A missing clock in MAIN asserts
module reset, takes the root away and sets its evidence flag. Completes: ROOT_OK, CLK_DOMSEL_WRITE, LOUPE_START,
LOUPE_ABORT, LOUPE_GATE_END, LOUPE_REF_LOST, MISSING_CLOCK. -/
def Obligations.ClockRows : Prop :=
  ∀ (s : State), s.up = true →
    (s.clk.rootOk = false → 65536 ≤ s.clk.startCount →
      ∃ t, exec .rootOk s = .next t ∧ t.clk = { s.clk with rootOk := true, domPll := s.clk.domsel, rootAt := s.now } ∧
        t.tim = { s.tim with sec := 0, acc := 0, qual := 3, inc := 0xD555555555 } ∧
        ∀ i < 16, (t.pin i).accepted = (s.pin i).raw ∧ (t.pin i).pend = none) ∧
    (∀ v stopped, let sel : BitVec 5 := BitVec.ofNat 5 v.toNat
      let p := s.clk.domPll
      let off := sel.getLsbD 0 = false ∨ (s.c0Enabled = true ∧
        ((sel.getLsbD 1 = false ∧ p.getLsbD 1 = true) ∨ (sel.getLsbD 2 = false ∧ p.getLsbD 2 = true)))
      s.clk.rootOk = true →
      (¬ off → s.clk.switchBusy = 0 →
        exec (.clkDomselWrite 0 v stopped) s = .next { s with clk := { s.clk with
          domsel := sel, switchBusy := (sel ^^^ p) &&& stopped, domPll := p ^^^ ((sel ^^^ p) &&& ~~~ stopped) } }) ∧
      (off ∨ s.clk.switchBusy ≠ 0 → ∃ e : Word, exec (.clkDomselWrite 0 v stopped) s = .next { s with clk := { s.clk with events := e } } ∧
        bit e 0 = (bit s.clk.events 0 || decide off) ∧ bit e 1 = (bit s.clk.events 1 || decide (s.clk.switchBusy ≠ 0)) ∧
        ∀ k, 2 ≤ k → bit e k = bit s.clk.events k)) ∧
    (∀ (pl : BitVec 2) v stopped, pl ≠ 0 → exec (.clkDomselWrite pl v stopped) s = .next s) ∧
    (∀ (ch : Fin 8) (v : BitVec 32), s.timeOwned ch.val = false → fld v 3 0 < 0xA → fld v 7 4 < 0xA →
      ∃ l, exec (.loupeStart ch v) s = .next (s.setLoupe ch.val l) ∧ l.busy = true ∧ l.stat = (s.loupe ch.val).stat ∧
        fld l.ctrl 21 0 = fld v 21 0 ∧ l.refs = 0 ∧ l.count = 0 ∧ l.refAt = s.now) ∧
    (∀ (ch : Fin 8) (v : BitVec 32), s.timeOwned ch.val = false → (s.loupe ch.val).busy = true → bit v 31 = false →
      ∃ l, exec (.loupeAbort ch v) s = .next (s.setLoupe ch.val l) ∧ l.busy = false ∧ l.cnt = (s.loupe ch.val).cnt ∧
        bit l.stat 1 = bit (s.loupe ch.val).stat 1) ∧
    (∀ (ch : Fin 8) (n e : Nat), (s.loupe ch.val).busy = true → (s.loupe ch.val).ended = some e →
      let k := if fld (s.loupe ch.val).ctrl 3 0 = 8 then n else e
      ∃ t, exec (.loupeGateEnd ch n) s = .next t ∧ bit (t.loupe ch.val).stat 1 = true ∧
        (t.loupe ch.val).busy = bit (s.loupe ch.val).ctrl 21 ∧ t.tim = s.tim ∧
        (k < 2 ^ 40 - 1 → (t.loupe ch.val).cnt.toNat ≤ k + 1 ∧ k ≤ (t.loupe ch.val).cnt.toNat + 1) ∧
        (2 ^ 40 < k → (t.loupe ch.val).cnt.toNat = 2 ^ 40 - 1 ∧ bit (t.loupe ch.val).stat 2 = true) ∧
        (bit (s.loupe ch.val).stat 1 = true → bit (t.loupe ch.val).stat 6 = true)) ∧
    (∀ (ch : Fin 8), (s.loupe ch.val).busy = true → (s.loupe ch.val).ended = none →
      (s.loupe ch.val).refAt + 2 * secC ≤ s.now →
      ∃ l, exec (.loupeRefLost ch) s = .next (s.setLoupe ch.val l) ∧ l.busy = false ∧ bit l.stat 1 = true ∧
        bit l.stat 3 = true ∧ l.cnt = (s.loupe ch.val).cnt) ∧
    (s.clk.mcArmed = true → s.pwr.clkin = true →
      ∃ t, exec .missingClock s = .next t ∧ t.up = false ∧ t.clk.rootOk = false ∧ t.clk.startCount = 0 ∧
        t.pwr.clkin = false ∧ bit t.tmp.flags 12 = true ∧ (t.src 12).fires = satInc (s.src 12).fires 255)

/-- R61 to R64, R526: TIME_IN. Its active edge, which TIN_POL picks, is captured in quarters of a D0 cycle; Loupe
counts the rising ones. In 1PPS mode a pulse of 1 us to 900 ms, one second from the last within 10 us when the
reference is valid, is a valid edge; any other width sets the event bit and changes nothing else. In IRIG-B mode the
edge of such a pulse is the frame's reference marker, one second from the marker before it within 10 us, or the first.
A decoded IRIG-B frame whose markers stand right and whose second follows the last one counts as valid, the second in
a row makes the reference valid, and an announced leap second moves TAI-UTC by one. 2.5 s without a valid edge lose
the reference: QUAL passes to the PTM code when PTM holds, otherwise from lock to holdover. Completes: TIN_EDGE,
IRIG_FRAME, TIN_LOST. -/
def Obligations.TimeInput : Prop :=
  ∀ (s : State), s.up = true → s.clk.rootOk = true →
    (∀ (p : Fin 4) (rising : Bool) (w : Nat), fld s.tim.ctrl 1 0 = 1 ∨ fld s.tim.ctrl 1 0 = 2 →
      let s1 := if rising then s.loupeEdges 6 0 1 else s
      (rising = bit s.tim.ctrl 2 → exec (.tinEdge p ⟨rising, w⟩) s = .next s1) ∧
      (rising ≠ bit s.tim.ctrl 2 → (w < 1000 ∨ 900000000 < w) →
        exec (.tinEdge p ⟨rising, w⟩) s = .next { s1 with tim := { s.tim with events := setBit s.tim.events 0 true } }) ∧
      (rising ≠ bit s.tim.ctrl 2 → 1000 ≤ w → w ≤ 900000000 → fld s.tim.ctrl 1 0 = 1 →
        (s.tim.tinValid = false ∨ ∃ l, s.tim.tinLast = some l ∧ secC ≤ (s.now - l) + 10 * usC ∧ s.now - l ≤ secC + 10 * usC) →
        let g := unitsGts ((s.tim.sec * 1000000000 * 2 ^ 40 + s.tim.acc + p.val * s.tim.inc / 4) / 2 ^ 24) s.tim.qual
        exec (.tinEdge p ⟨rising, w⟩) s = .next { s1 with tim := { s.tim with
          tinValid := true, tinLast := some s.now, tinTheta := s.edgeTheta (s.tinStamp g), tinEdge := true
          tinDropped := s.tim.tinDropped && s.tim.tinValid } }) ∧
      (rising ≠ bit s.tim.ctrl 2 → 1000 ≤ w → w ≤ 900000000 → fld s.tim.ctrl 1 0 = 2 →
        (s.tim.markAt = none ∨ ∃ l, s.tim.markAt = some l ∧ (l + 3000000000 ≤ s.now ∨
          (secC ≤ (s.now - l) + 10 * usC ∧ s.now - l ≤ secC + 10 * usC))) →
        exec (.tinEdge p ⟨rising, w⟩) s = .next { s1 with tim := { s.tim with
          mark := some (s.capture p.val), markAt := some s.now } })) ∧
    (∀ (f : Irig), fld s.tim.ctrl 1 0 = 2 → bit s.tim.ctrl 3 = false → f.markersOk = true →
      (∀ p leap, s.tim.irigPrev = some (p, leap) → irigUtc s f = p + (if leap then 0 else 1)) →
      ∃ t, exec (.irigFrame f) s = .next t ∧ t.tim.irigPrev = some (irigUtc s f, f.sec == 60) ∧
        t.tim.irigRun = s.tim.irigRun + 1 ∧ t.tim.utc = s.tim.utc ∧ t = { s with tim := t.tim } ∧
        (s.tim.irigRun = 0 → t.tim.tinValid = s.tim.tinValid) ∧
        (1 ≤ s.tim.irigRun → t.tim.tinValid = true ∧ t.tim.tinLast = some s.now)) ∧
    (∀ (f : Irig), fld s.tim.ctrl 1 0 = 2 → bit s.tim.ctrl 3 = true → f.markersOk = true → f.parityOk = true →
      bit s.tim.utc 16 = true → bit s.tim.utc 17 = false → f.sec = 60 →
      (∀ p leap, s.tim.irigPrev = some (p, leap) → irigUtc s f = p + (if leap then 0 else 1)) →
      ∃ t, exec (.irigFrame f) s = .next t ∧ fld t.tim.utc 15 0 = ofSigned 16 (s.taiUtc + 1) ∧ fld t.tim.utc 17 16 = 0 ∧
        bit t.tim.events 9 = true ∧ t.tim.irigQuality = f.quality) ∧
    (∀ (f : Irig), fld s.tim.ctrl 1 0 = 2 → (f.markersOk = false ∨ (bit s.tim.ctrl 3 = true ∧ f.parityOk = false)) →
      exec (.irigFrame f) s = .next { s with tim := { s.tim with
        irigPrev := none, irigMark := none, irigRun := 0, mark := none, events := setBit s.tim.events 0 true } }) ∧
    (∀ l, s.tim.tinValid = true → s.tim.tinLast = some l → l + 3000000000 ≤ s.now →
      ∃ t, exec .tinLost s = .next t ∧ t.tim.tinValid = false ∧ bit t.tim.events 1 = true ∧ t.pending = s.pending ∧
        (s.tim.src = 0 ∨ s.tim.src = 3 → t.tim.src = s.tim.src ∧ t.tim.qual = s.tim.qual) ∧
        (s.tim.src = 1 ∨ s.tim.src = 2 → s.tim.qual.toNat < 2 →
          (s.tim.ptmValid = true → s.loop.ptmDropped = false → 8 ≤ s.loop.inBoundPtm → t.tim.src = 3 ∧ t.tim.qual = 1) ∧
          (s.tim.ptmValid = false → t.tim.src = 0 ∧ t.tim.qual = 2 ∧ t.loop.slew = 0 ∧ t.loop.lossAt = s.now)))

/-- R65, R105, R109: PTM. A Request is placed in the priority queue once its interval has passed with no dialog under
way; t1 is stamped as it leaves. The answer is stamped t4 and gives an offset when a dialog precedes it and a map is
in force; a Response without data, or 1 ms without an answer, abandons the dialog, and the next one gives none either.
COMMIT takes the map that TIM_MAP0 to TIM_MAP6 hold. Completes: PTM_REQUEST, PTM_RESPONSE, PTM_TIMEOUT,
TIM_MAP_COMMIT. -/
def Obligations.PtmDialogs : Prop :=
  ∀ (s : State),
    (s.up = true → s.clk.rootOk = true → s.pci.up = true → s.pci.ptmEn = true → bit s.tim.ctrl 4 = true →
      (s.fun_ 0).d3hot = false → s.loop.ptmQueued = false → s.loop.ptmT1 = none →
      s.loop.ptmAt + fld s.tim.loop 17 8 * msC ≤ s.now →
      ∃ t x, exec .ptmRequest s = .next t ∧ t.loop = { s.loop with ptmQueued := true, ptmAt := s.now } ∧
        t.pci.prio = s.pci.prio ++ [x] ∧ x.kind = .ptm ∧ t.pci.gen = s.pci.gen ∧ t.tim = s.tim) ∧
    (∀ t1 m2 prop, s.loop.ptmT1 = some t1 → (s.loop.ptmPrev = none ∨ s.loop.mapNow = none) →
      exec (.ptmResponse (some m2) prop) s = .next { s with loop := { s.loop with
        ptmT1 := none, ptmPrev := some (t1, s.units), master := m2.toNat, masterT1 := t1 } }) ∧
    (∀ t1 m2 prop a b m, s.loop.ptmT1 = some t1 → s.loop.ptmPrev = some (a, b) → s.loop.mapNow = some m →
      exec (.ptmResponse (some m2) prop) s = .next { s with loop := { s.loop with
        ptmT1 := none, ptmPrev := some (t1, s.units), master := m2.toNat, masterT1 := t1,
        dialogs := s.loop.dialogs ++ [(ptmTheta m t1 ((b : Int) - a) m2.toNat prop.toNat, s.units - t1, t1)] } }) ∧
    (∀ t1 prop, s.loop.ptmT1 = some t1 →
      ∃ t, exec (.ptmResponse none prop) s = .next t ∧
        t.loop = { s.loop with ptmT1 := none, ptmPrev := none, ptmQueued := false }) ∧
    (∀ t1, s.up = true → s.loop.ptmT1 = some t1 → s.loop.ptmSent + msC ≤ s.now →
      ∃ t, exec .ptmTimeout s = .next t ∧
        t.loop = { s.loop with ptmT1 := none, ptmPrev := none, ptmQueued := false } ∧ t.tim = s.tim) ∧
    (s.up = true → exec .timMapCommit s = .next { s with loop := { s.loop with mapNext := some s.tim.map } })

/-- R66 to R72, R87: the discipline loop at a second boundary while TIME_IN's 1PPS alone disciplines. Under lock an
offset below 10 us moves f by theta / 2^KI and sets s to theta / 2^KP, within 200 ppm and 50 ppm, and INC follows; one
of 10 us or more is rejected and counted. Out of lock an offset of 10 us or more forward steps the counter, and one of
more than 10 ms backward sets BACK_PEND, ends the slew (log entry 42) and moves nothing else. In the start hold only
TIM_OFFSET follows. A second without an offset ends the slew, and LOOP_SECOND of another second than the one that
begins leaves the state. A holdover estimate above TIM_HOLD.LIMIT gives QUAL 0b11; the cross-check's drop ends after
60 s. Completes: LOOP_SECOND, HOLDOVER_LIMIT, XCHK_HOLD_END. -/
def Obligations.DisciplineLoop : Prop :=
  ∀ (s : State), s.up = true → s.clk.rootOk = true →
    (∀ (θ : Int), s.loop.lastSec < s.tim.sec → s.tim.tinTheta = some θ → s.tim.tinValid = true →
      s.tim.tinDropped = false → s.tim.xchkHold = false → s.pci.ptmEn = false → fld s.tim.ctrl 1 0 = 1 →
      (s.loop.startHold = true → ∃ t, exec (.loopSecond s.tim.sec) s = .next t ∧ t.tim.theta = thetaReg θ ∧
        t.tim.inc = s.tim.inc ∧ t.tim.qual = s.tim.qual ∧ t.tim.src = s.tim.src ∧ t.loop.f = s.loop.f) ∧
      (s.loop.startHold = false → s.tim.qual.toNat ≤ 1 → θ.natAbs < 10000 * 65536 →
        let f := clampI (200000 * 2 ^ 31) (s.loop.f + θ * 2 ^ (15 - fld s.tim.loop 7 4))
        let sl := clampI (50000 * 2 ^ 31) (θ * 2 ^ (15 - fld s.tim.loop 3 0))
        ∃ t, exec (.loopSecond s.tim.sec) s = .next t ∧ t.loop.f = f ∧ t.loop.slew = sl ∧ t.tim.inc = incOf f sl ∧
          t.tim.src = 1 ∧ t.tim.theta = thetaReg θ ∧ t.loop.rejected = 0 ∧ t.loop.lastSec = s.tim.sec) ∧
      (s.loop.startHold = false → s.tim.qual.toNat ≤ 1 → 10000 * 65536 ≤ θ.natAbs → s.loop.rejected < 2 →
        ∃ t, exec (.loopSecond s.tim.sec) s = .next t ∧ t.loop.rejected = s.loop.rejected + 1 ∧ bit t.tim.events 2 = true ∧
          t.tim.inc = s.tim.inc ∧ t.loop.f = s.loop.f ∧ t.tim.qual = s.tim.qual) ∧
      (s.loop.startHold = false → 2 ≤ s.tim.qual.toNat → 10000 * 65536 ≤ θ →
        ∃ t, exec (.loopSecond s.tim.sec) s = .next t ∧ t.tim.sec = ((s.units : Int) + θ).toNat / 65536 / 1000000000 ∧
          t.tim.acc = ((s.units : Int) + θ).toNat % (65536 * 1000000000) * 2 ^ 24 ∧ t.tim.loaded = true ∧
          bit t.tim.events 5 = true) ∧
      (s.loop.startHold = false → 2 ≤ s.tim.qual.toNat → θ < -(10000000 * 65536) →
        ∃ t, exec (.loopSecond s.tim.sec) s = .next t ∧ t.tim.backPend = true ∧ t.tim.inc = incOf s.loop.f 0 ∧ t.tim.sec = s.tim.sec ∧
          t.tim.acc = s.tim.acc ∧ t.loop.f = s.loop.f)) ∧
    (∀ n, n ≠ s.tim.sec ∨ n ≤ s.loop.lastSec → exec (.loopSecond n) s = .next s) ∧
    (s.loop.lastSec < s.tim.sec → s.tim.tinTheta = none → s.pci.ptmEn = false → s.loop.startHold = false → s.tim.src ≠ 3 →
      ∃ t, exec (.loopSecond s.tim.sec) s = .next t ∧ t.loop.slew = 0 ∧ t.loop.f = s.loop.f ∧ t.tim.inc = incOf s.loop.f 0 ∧
        t.tim.qual = s.tim.qual ∧ t.tim.src = s.tim.src ∧ t.loop.lastSec = s.tim.sec) ∧
    (s.tim.qual = 2 → fld s.tim.hold 31 16 * secC < s.loop.eLock * secC + fld s.tim.hold 15 0 * (s.now - s.loop.lossAt) →
      ∃ t, exec .holdoverLimit s = .next t ∧ t.tim.qual = 3 ∧ t.tim.inc = s.tim.inc ∧ t.loop.f = s.loop.f ∧
        t.tim.sec = s.tim.sec ∧ t.tim.acc = s.tim.acc) ∧
    (s.tim.xchkHold = true → s.loop.xchkAt + 60 * secC ≤ s.now →
      exec .xchkHoldEnd s = .next { s with tim := { s.tim with xchkHold := false } })

/-- R60, R72, R73, R75, R76, R86 to R88: loads, rebases, shadow copies and PPSO. LOAD sets the counter to TIM_LOAD
only while the root runs, QUAL is 0b11 and only forward, and otherwise sets LOAD_BACK alone. REBASE releases every
event held, sets the counter either way, leaves QUAL at 0b11 and no last release. ARM ends the start hold. While
armed, each 2^20 ns copy GTS[95:18] into the shadow. 60 s after the load without a lock the bracket ends
unsynchronized (without a load, from ARM: log entry 116). PPSO goes to its active level in the quarter of the D0 cycle
that its boundary falls in, when QUAL is at least as good as MINQ, and returns once its width has passed. Completes:
TIM_CMD_LOAD, TIM_CMD_REBASE, TIM_CMD_ARM, SHADOW_COPY, BRACKET_TIMEOUT, PPSO_PULSE, PPSO_PULSE_END. -/
def Obligations.TimeSetting : Prop :=
  ∀ (s : State), s.up = true →
    (s.clk.rootOk = true → s.tim.qual = 3 → s.units < gtsUnits s.tim.load →
      ∃ t, exec .timCmdLoad s = .next t ∧ t.tim.sec = gtsUnits s.tim.load / 65536 / 1000000000 ∧
        t.tim.acc = gtsUnits s.tim.load % (65536 * 1000000000) * 2 ^ 24 ∧ t.tim.loaded = true ∧ t.loop.startHold = false ∧
        t.loop.armed = true ∧ (s.loop.startHold = true → t.loop.loadAt = s.now) ∧ t.tim.qual = 3 ∧ t.dv.store = s.dv.store) ∧
    ((s.clk.rootOk = false ∨ s.tim.qual ≠ 3 ∨ gtsUnits s.tim.load ≤ s.units) →
      exec .timCmdLoad s = .next { s with tim := { s.tim with events := setBit s.tim.events 6 true } }) ∧
    (s.clk.rootOk = true → ∃ t, exec .timCmdRebase s = .next t ∧ t.tim.sec = gtsUnits s.tim.load / 65536 / 1000000000 ∧
      t.tim.acc = gtsUnits s.tim.load % (65536 * 1000000000) * 2 ^ 24 ∧ t.tim.qual = 3 ∧ t.tim.backPend = false ∧
      t.tim.loaded = true ∧ t.dv.store = [] ∧ t.dv.lastRel = none) ∧
    (exec .timCmdArm s = .next { s with loop := { s.loop with
      startHold := false, armed := true, loadAt := if s.loop.startHold then s.now else s.loop.loadAt } }) ∧
    (s.loop.armed = true → s.units / 65536 / 2 ^ 20 ≠ s.loop.shadowIdx →
      exec .shadowCopy s = .next { s with
        loop := { s.loop with shadowIdx := s.units / 65536 / 2 ^ 20 }
        tim := { s.tim with shadow := (s.gts >>> 18).truncate 78, shadowPresent := true } }) ∧
    (s.loop.armed = false → exec .shadowCopy s = .next s) ∧
    (s.loop.startHold = false → s.loop.bracketEnd = none → s.loop.loadAt + 60 * secC ≤ s.now →
      exec .bracketTimeout s = .next { s with loop := { s.loop with bracketEnd := some s.gts, unsync := true } }) ∧
    (s.clk.rootOk = true → bit s.tim.ppsoCtrl 0 = true → s.loop.ppsoOn = false → s.loop.stepped = false →
      s.tim.qual.toNat ≤ fld s.tim.ppsoCtrl 3 2 →
      let r := ((s.tim.ppsoOfs.toInt * 2 ^ 40 - (s.tim.acc : Int)).emod (1000000000 * 2 ^ 40)).toNat
      r < s.tim.inc →
      ∃ t, exec .ppsoPulse s = .next t ∧ t.loop.ppsoOn = true ∧ t.loop.ppsoPhase = BitVec.ofNat 2 (4 * r / s.tim.inc) ∧
        t.loop.ppsoEnd = s.now + fld s.tim.ppsoCtrl 22 4 * usC ∧ t.ppsoLevel = !bit s.tim.ppsoCtrl 1 ∧ t.tim = s.tim) ∧
    (s.loop.ppsoOn = true → s.loop.ppsoEnd ≤ s.now →
      ∃ t, exec .ppsoPulseEnd s = .next t ∧ t.loop.ppsoOn = false ∧ t.ppsoLevel = bit s.tim.ppsoCtrl 1 ∧ t.tim = s.tim)

/-- R77 to R80: event pins. A raw edge at an enabled pin starts a pending change with its stamp, returns to the
accepted level as a bounce, or begins a new run. A level that has held for the filter length is accepted when it
differs from the accepted level: an event of a selected kind is posted, or lost while 32 wait; a return is an
excursion. A write of the control register takes the present level as accepted and drops the pending change, unless
its unit code is reserved. A rising edge is one that Loupe may count (R52). Completes: EVT_EDGE, EVT_FILTER_DONE,
EVT_CTRL_WRITE. -/
def Obligations.EventPins : Prop :=
  ∀ (s : State) (pin : Fin 16), s.up = true →
    let n := pin.val
    let p := s.pin n
    let s1 (level : Bool) : State := if level then (s.setPin n { p with raw := level }).loupeEdges 9 n 1 else s.setPin n { p with raw := level }
    (∀ ph level, p.raw = level → exec (.evtEdge pin ph level) s = .next s) ∧
    (∀ ph level, p.raw ≠ level → bit p.ctrl 0 = false →
      exec (.evtEdge pin ph level) s = .next (s1 level)) ∧
    (∀ (ph : Fin 4) level, s.clk.rootOk = true → bit p.ctrl 0 = true → p.raw ≠ level →
      let g := unitsGts ((s.tim.sec * 1000000000 * 2 ^ 40 + s.tim.acc + ph.val * s.tim.inc / 4) / 2 ^ 24) s.tim.qual
      (p.pend = none → level ≠ p.accepted → pinLen p.ctrl ≠ 0 →
        let d : PinPend := { first := g, run := g, runAt := s.now, bounces := 0 }
        exec (.evtEdge pin ph level) s = .next ((s1 level).setPin n { p with raw := level, pend := some d })) ∧
      (∀ d, p.pend = some d → level = p.accepted →
        let d' : PinPend := { d with runAt := s.now, bounces := d.bounces + 1 }
        exec (.evtEdge pin ph level) s = .next ((s1 level).setPin n { p with raw := level, pend := some d' })) ∧
      (∀ d, p.pend = some d → level ≠ p.accepted → pinLen p.ctrl ≠ 0 →
        let d' : PinPend := { d with run := g, runAt := s.now }
        exec (.evtEdge pin ph level) s = .next ((s1 level).setPin n { p with raw := level, pend := some d' })) ∧
      (level ≠ p.accepted → pinLen p.ctrl = 0 → bit p.ctrl (if level then 1 else 2) = false →
        exec (.evtEdge pin ph level) s = .next ((s1 level).setPin n { p with raw := level, accepted := level, pend := none }))) ∧
    (∀ d, p.pend = some d → d.runAt + pinLen p.ctrl ≤ s.now → p.raw = p.accepted →
      exec (.evtFilterDone pin) s = .next (s.setPin n { p with
        pend := none, excursions := satInc p.excursions 65535, excSince := satInc p.excSince 65535 })) ∧
    (∀ d, p.pend = some d → d.runAt + pinLen p.ctrl ≤ s.now → p.raw ≠ p.accepted →
      (bit p.ctrl (if p.raw then 1 else 2) = false →
        exec (.evtFilterDone pin) s = .next (s.setPin n { p with accepted := p.raw, pend := none })) ∧
      (bit p.ctrl (if p.raw then 1 else 2) = true → s.pinQueue n < 32 →
        ∃ t e, exec (.evtFilterDone pin) s = .next t ∧ t.dv.inbox = s.dv.inbox ++ [e] ∧ e.typ = 0x0010 ∧ e.src = 0x010 + n ∧
          e.gts = pinStamp p.ctrl d ∧ e.cls.toNat = fld p.ctrl 19 18 ∧ (t.pin n).accepted = p.raw ∧ (t.pin n).pend = none ∧
          (t.pin n).lost = 0 ∧ ∀ m, m ≠ n → t.pin m = s.pin m) ∧
      (bit p.ctrl (if p.raw then 1 else 2) = true → 32 ≤ s.pinQueue n →
        exec (.evtFilterDone pin) s = .next (s.setPin n { p with
          accepted := p.raw, pend := none, lost := satInc p.lost 65535, overflow := true }))) ∧
    (∀ v, fld v 16 15 ≠ 3 →
      exec (.evtCtrlWrite pin v) s = .next (s.setPin n { p with ctrl := v, accepted := p.raw, pend := none })) ∧
    (∀ v, fld v 16 15 = 3 → exec (.evtCtrlWrite pin v) s = .next s) ∧
    (∀ ph level, p.raw ≠ level → s.clk.rootOk = false →
      exec (.evtEdge pin ph level) s = .next (s1 level)) ∧
    (s.clk.rootOk = false → 65536 ≤ s.clk.startCount → ∃ t, exec .rootOk s = .next t ∧ (t.pin n).accepted = p.raw ∧
      (t.pin n).pend = none ∧ t.dv.inbox = s.dv.inbox)

/-- R27, R83 to R85: Dovetail. The first event of its source on its link is held in the store, which takes 8,192 and
any class up to 6,144; beyond that, class 0 and the tamper, power and clock sources are held, C2 and C3 are refused,
and a C1 event stays on its link. An event below the last release goes out at once as LATE. Once a held event lies
below the horizon, the first one in the order of time and source (of the AO island's events, the one of the lowest AO
sequence number) is released to the archive's intake, and with NOTIFY to its event queue. Completes: DOVETAIL_ARRIVAL,
DOVETAIL_RELEASE. -/
def Obligations.DovetailOrder : Prop :=
  ∀ (s : State), s.up = true →
    (∀ i e, s.dv.inbox[i]? = some e → (s.dv.inbox.take i).any (·.src == e.src) = false → s.dv.store.length < 8192 →
      (∀ l, s.dv.lastRel = some l → l ≤ gtsTime e.gts) →
      ((dvReserved e = true ∨ s.dv.store.length ≤ 6144) →
        exec (.dovetailArrival i) s = .next { s with dv := { s.dv with
          inbox := ldel s.dv.inbox i, store := s.dv.store ++ [e] } }) ∧
      (dvReserved e = false → 6144 < s.dv.store.length → 2 ≤ e.cls.toNat →
        ∃ t, exec (.dovetailArrival i) s = .next t ∧ t.dv.inbox = ldel s.dv.inbox i ∧ t.dv.store = s.dv.store) ∧
      (dvReserved e = false → 6144 < s.dv.store.length → e.cls.toNat < 2 → exec (.dovetailArrival i) s = .next s)) ∧
    (∀ i e l, s.dv.inbox[i]? = some e → (s.dv.inbox.take i).any (·.src == e.src) = false → s.dv.store.length < 8192 →
      s.dv.lastRel = some l → gtsTime e.gts < l →
      ∃ t a, exec (.dovetailArrival i) s = .next t ∧ t.arc.arrivals = s.arc.arrivals ++ [a] ∧ a.r.gts = e.gts ∧
        a.r.src = e.src ∧ a.r.flags.getLsbD 0 = true ∧ t.dv.store = s.dv.store ∧ t.dv.inbox = ldel s.dv.inbox i ∧
        t.dv.lateCount = satInc s.dv.lateCount 65535) ∧
    (∀ i e, s.dvHead = some (i, e) → (gtsUnits e.gts : Int) < s.horizon →
      s.dv.store[i]? = some e ∧ (∀ x ∈ s.dv.store, dvBlocked s.dv.store x = false → dvBefore x e = false) ∧
      ∃ t a, exec .dovetailRelease s = .next t ∧ t.dv.store = ldel s.dv.store i ∧
        t.arc.arrivals = s.arc.arrivals ++ [a] ∧ a.r.typ = e.typ ∧ a.r.src = e.src ∧ a.r.cls = e.cls ∧ a.r.gts = e.gts ∧
        a.r.body = e.body ∧ a.r.flags.getLsbD 0 = false ∧ t.dv.lateCount = s.dv.lateCount ∧ t.dv.inbox = s.dv.inbox ∧
        (e.qpn = none → t.qps.events = s.qps.events) ∧
        (∀ q, e.qpn = some q → t.qps.events = s.qps.events ++ [{ qpn := q, gts := e.gts, result := e.result }])) ∧
    (∀ i e, s.dvHead = some (i, e) → s.horizon ≤ (gtsUnits e.gts : Int) →
      exec .dovetailRelease s = .next s)

/-- R73, R90, R91: the time commands of Driner. TIME_GET and TIME_STATUS answer with what the time block holds and
change nothing else; TIME_CONFIG, TIME_SET_MAP, TIME_SET_UTC, PPSO_CONFIG and EVT_CONFIG take their fields when every
one is in range; TIME_LOAD loads under R72 and is otherwise REJECTED; TIME_REBASE needs owner authorization; EVT_READ
answers with a pin's status image, clearing its excursion count. Completes: TIME_GET, TIME_STATUS, TIME_CONFIG,
TIME_SET_MAP, TIME_SET_UTC, TIME_LOAD, TIME_REBASE, PPSO_CONFIG, EVT_CONFIG, EVT_READ. -/
def Obligations.TimeCommands : Prop :=
  ∀ (s : State) (r : Req),
    let p := r.payload
    let ok (op : Nat) (t : State) (out : Bytes) : State := t.holdFor true r.party op r.tag stOk false out
    (s.begins 0x0201 r → exec (.timeGet r) s = .next (ok 0x0201 (s.begun 0x0201 r)
      (le 12 (s.takenGts r).toNat ++ le 4 (min s.estErr 65535) ++ le 1 s.tim.src.toNat))) ∧
    (s.begins 0x0202 r → exec (.timeStatus r) s = .next (ok 0x0202 (s.begun 0x0202 r)
      (le 4 s.timStatus.toNat ++ le 4 s.tim.theta.toNat ++ le 8 s.tim.inc ++ le 4 s.tim.utc.toNat ++
        le 4 s.tim.events.toNat))) ∧
    (s.begins 0x0203 r → leAt p 0 1 ≤ 2 → leAt p 1 1 ≤ 1 → leAt p 2 1 ≤ 1 → leAt p 3 1 ≤ 1 → leAt p 5 1 ≤ 15 →
      leAt p 6 1 ≤ 15 → leAt p 7 1 = 0 → 1 ≤ leAt p 8 2 → leAt p 8 2 ≤ 1000 → leAt p 10 2 = 0 → leAt p 12 4 < 2 ^ 20 →
      ∃ t, exec (.timeConfig r) s = .next t ∧ t.answers r 0x0203 stOk [] ∧ fld t.tim.ctrl 1 0 = leAt p 0 1 ∧
        fld t.tim.ctrl 15 8 = leAt p 4 1 ∧ fld t.tim.loop 3 0 = leAt p 5 1 ∧ fld t.tim.loop 7 4 = leAt p 6 1 ∧
        fld t.tim.loop 17 8 = leAt p 8 2 ∧ t.tim.tinDelay.toNat = leAt p 12 4 ∧ fld t.tim.hold 15 0 = leAt p 16 2 ∧
        fld t.tim.hold 31 16 = leAt p 18 2) ∧
    (s.begins 0x0204 r → gtsNsec (BitVec.ofNat 96 (leAt p 8 12)) ≤ 999999999 → leAt p 24 4 ≤ 65535 →
      ∃ t m, exec (.timeSetMap r) s = .next t ∧ t.answers r 0x0204 stOk [] ∧ t.loop.mapNext = some m ∧ t.tim.map = m ∧
        m.p0.toNat = leAt p 0 8 ∧ m.t0Nsec.toNat = gtsNsec (BitVec.ofNat 96 (leAt p 8 12)) ∧
        m.rate.toNat = leAt p 20 4 ∧ m.unc.toNat = leAt p 24 4 ∧ t.loop.mapNow = s.loop.mapNow) ∧
    (s.begins 0x0205 r → leAt p 2 2 ≤ 1 →
      ∃ t, exec (.timeSetUtc r) s = .next t ∧ t.answers r 0x0205 stOk [] ∧ fld t.tim.utc 15 0 = leAt p 0 2 ∧
        bit t.tim.utc 31 = (leAt p 2 2 == 1) ∧ fld t.tim.utc 17 16 = fld s.tim.utc 17 16) ∧
    (s.begins 0x0206 r → let g : Gts := BitVec.ofNat 96 (leAt p 0 12)
      gtsNsec g ≤ 999999999 →
      (s.clk.rootOk = true → s.tim.qual = 3 → s.units < gtsUnits g →
        ∃ t, exec (.timeLoad r) s = .next t ∧ t.answers r 0x0206 stOk (le 12 t.gts.toNat) ∧ t.tim.loaded = true ∧
          t.loop.startHold = false ∧ t.tim.sec = gtsUnits g / 65536 / 1000000000) ∧
      ((s.clk.rootOk = false ∨ s.tim.qual ≠ 3 ∨ gtsUnits g ≤ s.units) →
        ∃ t, exec (.timeLoad r) s = .next t ∧ t.answers r 0x0206 stRejected [] ∧ bit t.tim.events 6 = true ∧
          t.tim.sec = s.tim.sec ∧ t.tim.acc = s.tim.acc)) ∧
    (s.begins 0x0207 r → s.verifyWaits = false → s.clk.rootOk = true → (s.ownerAuth 0x0207 p).isSome = true → gtsNsec (BitVec.ofNat 96 (leAt p 0 12)) ≤ 999999999 →
      ∃ t, exec (.timeRebase r) s = .next t ∧ t.tim.qual = 3 ∧ t.dv.store = [] ∧ t.dv.lastRel = none ∧
        t.tim.sec = gtsUnits (BitVec.ofNat 96 (leAt p 0 12)) / 65536 / 1000000000) ∧
    (s.begins 0x0207 r → s.verifyWaits = false → s.ownerAuth 0x0207 p = none →
      exec (.timeRebase r) s = .next (((s.begun 0x0207 r).authRun 0x0207 p).holdFor true r.party 0x0207 r.tag stAccess false [])) ∧
    (s.begins 0x0208 r → leAt p 0 1 ≤ 1 → leAt p 1 1 ≤ 1 → leAt p 2 1 ≤ 3 → leAt p 3 1 = 0 → 1 ≤ leAt p 4 4 →
      leAt p 4 4 ≤ 500000 → (BitVec.ofNat 32 (leAt p 8 4) : Word).toInt.natAbs ≤ 499999999 →
      ∃ t, exec (.ppsoConfig r) s = .next t ∧ t.answers r 0x0208 stOk [] ∧ fld t.tim.ppsoCtrl 0 0 = leAt p 0 1 ∧
        fld t.tim.ppsoCtrl 1 1 = leAt p 1 1 ∧ fld t.tim.ppsoCtrl 3 2 = leAt p 2 1 ∧
        fld t.tim.ppsoCtrl 22 4 = leAt p 4 4 ∧ t.tim.ppsoOfs.toNat = leAt p 8 4) ∧
    (s.begins 0x0209 r → leAt p 0 1 ≤ 15 → fld (BitVec.ofNat 32 (leAt p 1 4)) 16 15 ≠ 3 →
      (bit (BitVec.ofNat 32 (leAt p 1 4)) 20 = false ∨
        ((s.qw (leAt p 5 4)).en = true ∧ s.ownsQp 0 (leAt p 5 4) = true ∧ (s.qw (leAt p 5 4)).evq = true)) →
      ∃ t, exec (.evtConfig r) s = .next t ∧ t.answers r 0x0209 stOk [] ∧
        (t.pin (leAt p 0 1)).ctrl = BitVec.ofNat 32 (leAt p 1 4) ∧ (t.pin (leAt p 0 1)).qpn = leAt p 5 4 ∧
        (t.pin (leAt p 0 1)).accepted = (s.pin (leAt p 0 1)).raw ∧ (t.pin (leAt p 0 1)).pend = none) ∧
    (s.begins 0x020A r → leAt p 0 1 ≤ 15 →
      ∃ t, exec (.evtRead r) s = .next t ∧ (t.pin (leAt p 0 1)).excursions = 0 ∧
        t.answers r 0x020A stOk (le 4 (s.pinStat (leAt p 0 1)).1.toNat))

/-- R102, R104 to R106, R109, R160: the transmitter. The head of the priority queue leaves whenever the link partner's
credit covers it, and its credit is spent: a read is timed from then and a PTM Request stamped t1; while the head
lacks credit, only a general TLP of another credit type goes past it; with no priority TLP the first general TLP that
credit covers leaves. A message that waited behind a general TLP may then join its queue. Returned credit adds to what
is held. A head that waits more than 100 ns is counted once, and puts the class-0 jobs with a TLP in the queue outside
the guarantee with cause 7, in the job table and in a completion entry that waits there; what joins the queue until
the wait ends has waited too. Completes: TLP_TRANSMIT, CREDIT_UPDATE, CREDIT_WAIT_EXPIRY. -/
def Obligations.Transmitter : Prop :=
  ∀ (s : State), s.up = true → s.pci.up = true →
    (∀ t r, s.pci.prio = t :: r → creditCovers s.pci.credit t = true →
      let late : Bool := s.pci.waitAt.isSome && s.pci.waitCounted
      let x := if late then t.late else t
      ∃ s', exec .tlpTransmit s = .next s' ∧ s'.pci.gen = s.pci.gen ∧ s'.pci.credit = creditSpend s.pci.credit x ∧
        s'.pci.wire = s.pci.wire ++ [x] ∧ s' = { s with pci := s'.pci, qps := s'.qps, loop := s'.loop } ∧
        (late = false → s'.pci.prio = r ∧ s'.qps = s.qps) ∧
        (late = true → s'.pci.prio = r.map Tlp.late ∧
          s'.qps.jobs = s.qps.jobs.map (credLate (s.pci.prio.filterMap s.tlpJob))) ∧
        (t.kind = .ptm → s'.loop = { s.loop with ptmQueued := false, ptmT1 := some s.units, ptmSent := s.now }) ∧
        (t.kind ≠ .ptm → s'.loop = s.loop) ∧
        (∀ tag e, t.kind = .read tag → s.pci.tags.find? (·.1 == tag) = some e →
          (s'.pci.tags.find? (·.1 == tag)).map (·.2) = some { e.2 with sentAt := some s.now })) ∧
    (∀ t r, s.pci.prio = t :: r → creditCovers s.pci.credit t = false → ∃ s', exec .tlpTransmit s = .next s' ∧
        s'.pci.waitAt = some (s.pci.waitAt.getD s.now) ∧
        ((s' = { s with pci := s'.pci } ∧ s'.pci.prio = s.pci.prio ∧ s'.pci.wire = s.pci.wire ∧ s'.pci.gen = s.pci.gen) ∨
          ∃ i g l l', s.pci.gen[i]? = some g ∧ g.typ ≠ t.typ ∧ creditCovers s.pci.credit g = true ∧
            (∀ j < i, ∀ h, s.pci.gen[j]? = some h → h.typ ≠ g.typ) ∧
            s'.pci.wire = s.pci.wire ++ [g] ∧ s'.pci.gen = ldel s.pci.gen i ++ l ∧ s'.pci.prio = s.pci.prio ++ l')) ∧
    (∀ i g, s.pci.prio = [] → s.pci.gen[i]? = some g → creditCovers s.pci.credit g = true →
      (∀ j < i, ∀ h, s.pci.gen[j]? = some h → h.typ ≠ g.typ ∧ creditCovers s.pci.credit h = false) →
      ∃ s' l, exec .tlpTransmit s = .next s' ∧ s'.pci.wire = s.pci.wire ++ [g] ∧ s'.pci.gen = ldel s.pci.gen i ++ l ∧
        s'.pci.credit = creditSpend s.pci.credit g ∧ s' = { s with pci := s'.pci, loop := s'.loop }) ∧
    (∀ c : Credit, let k := s.pci.credit
      ∃ s', exec (.creditUpdate c) s = .next s' ∧ s'.pci.credit =
          ⟨k.ph + c.ph, k.pd + c.pd, k.nh + c.nh, k.nd + c.nd, k.ch + c.ch, k.cd + c.cd⟩ ∧
        s'.pci.wire = s.pci.wire ∧ s'.pci.gen = s.pci.gen ∧ s' = { s with pci := s'.pci, qps := s'.qps } ∧
        (s.pci.waitCounted = false → s'.pci.prio = s.pci.prio ∧ s'.qps = s.qps)) ∧
    (∀ a t r, s.pci.waitAt = some a → s.pci.waitCounted = false → s.pci.prio = t :: r →
      creditCovers s.pci.credit t = false → a + 120 < s.now →
      ∃ s', exec .creditWaitExpiry s = .next s' ∧ s'.pci.credStall = satInc s.pci.credStall 65535 ∧
        s'.pci.waitCounted = true ∧ s'.pci.prio = s.pci.prio.map Tlp.late ∧
        s'.qps.jobs = s.qps.jobs.map (credLate (s.pci.prio.filterMap s.tlpJob)) ∧
        (∀ x ∈ s.pci.prio, ∀ q id n, s.readWhy x = some (.sqRun q id n) →
          ∀ y ∈ (s'.qrun q).runs, y.id = id → y.credWait = true)) ∧
    (∀ a, s.pci.waitAt = some a → s.pci.waitCounted = true → exec .creditWaitExpiry s = .next s) ∧
    (s.headLacks = false → exec .creditWaitExpiry s = .next s)

/-- R26, R34, R92, R94, R95, R99, R104, R108, R113, R114: the link and configuration. LINK_UP takes the width and rate
and lets firmware's FW_READY set; a link below the class-0 floor withdraws the guarantee and one at or above it ends
that cause. A configuration write takes effect while the link is up. An error is logged with its severity, and an
uncorrectable one is also archived under the function's source, stamped at the last edge of its clock. Each function's
HEARTBEAT counts up once a millisecond while firmware runs. Completes: LINK_UP, LINK_RETRAIN, CONFIG_WRITE, AER_ERROR,
HEARTBEAT. -/
def Obligations.LinkAndConfiguration : Prop :=
  ∀ (s : State), s.up = true →
    (∀ speed width, s.clk.rootOk = true → s.pci.up = false → 1 ≤ speed → speed ≤ 4 → width ∈ [1, 2, 4, 8, 16] →
      ∃ t, exec (.linkUp speed width) s = .next t ∧ t.pci.up = true ∧ t.pci.speed = speed ∧ t.pci.width = width ∧
        t.ret.wLink = !linkOk speed width ∧ (s.lc.fw = .running → (t.fun_ 0).fwReady = true) ∧ t.pending = s.pending) ∧
    (∀ speed width, s.pci.up = true → 1 ≤ speed → speed ≤ 4 → width ∈ [1, 2, 4, 8, 16] →
      ∃ t, exec (.linkRetrain speed width) s = .next t ∧ t.pci.speed = speed ∧ t.pci.width = width ∧ t.pci.up = true ∧
        t.ret.wLink = !linkOk speed width ∧ t.loop.ptmT1 = none) ∧
    (s.pci.up = true →
      (∀ b, b ∈ [128, 256, 512] →
        exec (.configWrite (.maxPayload b)) s = .next { s with pci := { s.pci with maxPayload := b } }) ∧
      (∀ b, b ∈ [128, 256, 512, 1024, 2048, 4096] →
        exec (.configWrite (.maxRead b)) s = .next { s with pci := { s.pci with maxRead := b } }) ∧
      exec (.configWrite (.ptmEnable true)) s = .next { s with pci := { s.pci with ptmEn := true } } ∧
      (∃ t, exec (.configWrite (.ptmEnable false)) s = .next t ∧ t.pci.ptmEn = false ∧ t.loop.ptmT1 = none) ∧
      (∀ (n : Fin 3) v, ∃ t, exec (.configWrite (.bar n v)) s = .next t ∧ ∀ m < 3,
        t.configRead 0 (.bar (2 * m)) = if m = n.val then barValue (barSize (2 * m)) v else s.configRead 0 (.bar (2 * m))) ∧
      (∀ (n : Fin 2) v, ∃ t, exec (.configWrite (.vfBar n v)) s = .next t ∧ ∀ m < 2,
        t.configRead 0 (.vfBar (2 * m)) =
          if m = n.val then barValue (vfBarSize (2 * m)) v else s.configRead 0 (.vfBar (2 * m))) ∧
      (∀ e fatal, ∃ t, exec (.configWrite (.severity e fatal)) s = .next t ∧
        t.severity e = if aerSeverity e = 0 then 0 else if fatal then 2 else 1) ∧
      (∀ l v, ∃ t, exec (.configWrite (.margin l v)) s = .next t ∧ t.configRead 0 (.marginControl l.val) = v.toNat) ∧
      (∀ on, exec (.configWrite (.relaxed on)) s = .next { s with pci := { s.pci with relaxed := on } }) ∧
      (∀ v d, exec (.configWrite (.cplTimeout v d)) s = .next { s with pci := { s.pci with ctv := v, ctDisable := d } }) ∧
      (∀ g c, exec (.configWrite (.ecrc g c)) s = .next { s with pci := { s.pci with ecrcGen := g, ecrcChk := c } }) ∧
      (∀ on, ∃ t, exec (.configWrite (.tag10 on)) s = .next t ∧ t.pci.tag10 = on) ∧
      (∀ n, n ≤ 63 → s.pci.vfEnable = false →
        ∃ t, exec (.configWrite (.vfEnable true n)) s = .next t ∧ t.pci.vfEnable = true ∧ t.pci.numVFs = n) ∧
      (∃ t, exec (.configWrite (.vfEnable false s.pci.numVFs)) s = .next t ∧ t.pci.vfEnable = false) ∧
      (∀ fn : Fin 64, s.fnEnabled fn.val = true →
        exec (.configWrite (.busMaster fn true)) s = .next (s.setFun fn.val { s.fun_ fn.val with bme := true }) ∧
        (∃ t, exec (.configWrite (.busMaster fn false)) s = .next t ∧ (t.fun_ fn.val).bme = false) ∧
        (∃ t, exec (.configWrite (.d3hot fn true)) s = .next t ∧ (t.fun_ fn.val).d3hot = true) ∧
        exec (.configWrite (.d3hot fn false)) s = .next (s.setFun fn.val { s.fun_ fn.val with d3hot := false }) ∧
        (∀ on, ∃ t, exec (.configWrite (.fnMask fn on)) s = .next t ∧ (t.fun_ fn.val).fnMask = on) ∧
        (∀ on, ∃ t, exec (.configWrite (.msixEnable fn on)) s = .next t ∧ (t.fun_ fn.val).msixEn = on))) ∧
    (∀ (e : AerError) (fn : Fin 64) h, s.pci.up = true →
      ∃ t, exec (.aerError e fn h) s = .next t ∧ t.pci.aer = s.pci.aer ++ [(e, fn.val, h, s.severity e)] ∧
        (aerSeverity e = 0 → t.dv = s.dv) ∧
        (aerSeverity e ≠ 0 → ∃ ev, t.dv.inbox = s.dv.inbox ++ [ev] ∧ ev.typ = 0x0023 ∧ ev.src = 0x020 + fn.val ∧
          ev.gts = s.stampAt 5)) ∧
    (s.lc.fw = .running → s.pci.beatAt + msC ≤ s.now →
      ∃ t, exec .heartbeat s = .next t ∧ t.pci.beatAt = s.now ∧
        (∀ fn < 64, s.fnEnabled fn = true → (t.fun_ fn).heartbeat = (s.fun_ fn).heartbeat + 1) ∧ t = { s with pci := t.pci }) ∧
    (s.pci.up = false → ∀ c, exec (.configWrite c) s = .next s)

/-- R111, R112: resets by the host. A host reset disables every queue pair and empties the cache, drops every job
without a completion, gives up every read, empties both egress queues and every function's channels, puts
configuration space at its reset values and keeps each function's range of queue pairs; only an FLR leaves the link
up. A reset of one function does that for the function alone; an FLR puts its controls at their reset values, and a
clear of Bus Master Enable or a move to D3hot changes no other control. Completes: HOST_RESET, FUNCTION_RESET. -/
def Obligations.HostResets : Prop :=
  ∀ (s : State), s.up = true →
    (∀ c, (c = .perst ∨ s.pci.up = true) →
      ∃ t, exec (.hostReset c) s = .next t ∧ t.qps.jobs = [] ∧ t.qps.cache = [] ∧ t.qps.table = none ∧
        (∀ e ∈ t.qps.words, e.2.en = false ∧ e.2.pinned = false ∧ e.2.destroying = false) ∧
        t.pci.tags = [] ∧ t.pci.waitTag = [] ∧ t.pci.maxPayload = 128 ∧ t.pci.vfEnable = false ∧
        t.pci.up = (s.pci.up && c == .flrPf0) ∧ (c = .perst → t.pwr.perstN = false) ∧
        (∀ fn < 64, (t.fun_ fn).first = (s.fun_ fn).first ∧ (t.fun_ fn).count = (s.fun_ fn).count ∧
          (t.fun_ fn).bme = false ∧ (t.fun_ fn).msixEn = false ∧ (t.chan fn).fifo = [] ∧ (t.chan (64 + fn)).fifo = []) ∧
        t.tmp = s.tmp ∧ t.pas = s.pas ∧ t.fls = s.fls) ∧
    (∀ (fn : Fin 64), s.pci.up = true → s.fnEnabled fn.val = true →
      (∀ cause, cause = .flr ∧ fn.val ≠ 0 ∨ cause = .vfDisable ∧ fn.val ≠ 0 ∨ cause = .busMasterClear ∧ (s.fun_ fn.val).bme = true ∨
          cause = .d3hot ∧ (s.fun_ fn.val).d3hot = false →
        ∃ t, exec (.functionReset fn cause) s = .next t ∧ (∀ j ∈ t.qps.jobs, j.fn ≠ fn.val) ∧
          (∀ e ∈ t.qps.words, e.2.en = true → e.2.owner.toNat ≠ fn.val) ∧
          (∀ e ∈ t.pci.tags, e.2.fn ≠ fn.val) ∧ (∀ x ∈ t.pci.prio, x.fn = fn.val → x.kind = .completion) ∧
          (t.chan fn.val).fifo = [] ∧ (t.chan (64 + fn.val)).fifo = [] ∧ (t.chan (128 + fn.val)).fifo = [] ∧
          (t.fun_ fn.val).first = (s.fun_ fn.val).first ∧ (t.fun_ fn.val).count = (s.fun_ fn.val).count ∧
          (cause = .flr ∨ cause = .busMasterClear → (t.fun_ fn.val).bme = false) ∧
          (cause = .d3hot → (t.fun_ fn.val).d3hot = true) ∧ t.pci.up = true) ∧
      (fn.val = 0 → exec (.functionReset fn .flr) s = exec (.hostReset .flrPf0) s))

/-- R97, R101, R145, R147: doorbells. A 4-byte unit at offset 8k is the SQ tail of unit k and one at 8k + 4 the CQ
head. A unit of a queue pair outside the function's range is discarded with reason 0, of a disabled one with reason 1,
of a bad size with reason 2, of values the queue pair does not accept with reason 3. With the context in the cache a
good unit is applied; without it the unit waits and the context is fetched. Entries held COAL_TIME signal their
vector. A function in D3hot is not reached (log entry 55). Completes: DOORBELL, COALESCE_TIMEOUT. -/
def Obligations.Doorbells : Prop :=
  ∀ (s : State) (fn : Fin 64) (k : Nat) (b : Bytes), s.up = true → s.pci.up = true → s.fnEnabled fn.val = true →
    (s.fun_ fn.val).d3hot = false → b.length = 4 →
    let q := if fn.val = 0 then k else (s.fun_ fn.val).first + k
    let v : BitVec 16 := BitVec.ofNat 16 (leAt b 0 2)
    let open_ : Prop := s.ownsQp fn.val q = true ∧ (s.fun_ fn.val).fwReady = true ∧ s.halted = false ∧ s.tmp.zeroized = false ∧
      (s.qw q).en = true ∧ (s.qw q).destroying = false
    (s.ownsQp fn.val q = false → exec (.doorbell fn (8 * k) b true) s = .next (s.dbErr fn.val q 0)) ∧
    (s.ownsQp fn.val q = true → (s.qw q).en = false → exec (.doorbell fn (8 * k) b true) s = .next (s.dbErr fn.val q 1)) ∧
    (exec (.doorbell fn (8 * k) b false) s =
      .next (s.dbErr fn.val (if fn.val = 0 then k else (s.fun_ fn.val).first + k) 2)) ∧
    (∀ c, open_ → s.ctx? q = some c → 4 ≤ c.cqLog.toNat → eventQ c = false → v.toNat < sqSize c →
      ringDiff (sqSize c) c.sqTail.toNat c.sqHead.toNat ≤ ringDiff (sqSize c) v.toNat c.sqHead.toNat →
      ∃ t, exec (.doorbell fn (8 * k) b true) s = .next t ∧ t.ctx? q = some { c with sqTail := v } ∧
        t.qps.jobs = s.qps.jobs ∧ t.pci = s.pci ∧
        ((s.qw q).cls = 0 → s.unfetched q { c with sqTail := v } ≠ 0 → q ∈ t.qps.c0Order)) ∧
    (∀ c, open_ → s.ctx? q = some c → 4 ≤ c.cqLog.toNat → v.toNat < cqSize c →
      ringDiff (cqSize c) v.toNat c.cqHead.toNat ≤ ringDiff (cqSize c) c.cqTail.toNat c.cqHead.toNat →
      ∃ t, exec (.doorbell fn (8 * k + 4) b true) s = .next t ∧ t.ctx? q = some { c with cqHead := v } ∧ t.pci = s.pci) ∧
    (∀ c, open_ → s.ctx? q = some c → (eventQ c = true ∨ sqSize c ≤ v.toNat) →
      exec (.doorbell fn (8 * k) b true) s = .next (s.dbErr fn.val q 3)) ∧
    (open_ → s.ctx? q = none → (s.qrun q).fetching = true →
      exec (.doorbell fn (8 * k) b true) s =
        .next (s.setQrun q { s.qrun q with units := (s.qrun q).units ++ [⟨fn.val, some v, none⟩] })) ∧
    (∀ reason, (s.dbErr fn.val q reason).qps = s.qps ∧
      ((s.dbErr fn.val q reason).fun_ fn.val).dbCount = satInc (s.fun_ fn.val).dbCount (2 ^ 32 - 1) ∧
      bit ((s.dbErr fn.val q reason).fun_ fn.val).dbErr 31 = true ∧
      (bit (s.fun_ fn.val).dbErr 31 = false → fld ((s.dbErr fn.val q reason).fun_ fn.val).dbErr 21 20 = reason % 4) ∧
      (bit (s.fun_ fn.val).dbErr 31 = true → bit ((s.dbErr fn.val q reason).fun_ fn.val).dbErr 30 = true)) ∧
    ((s.qrun q).unsig ≠ 0 → (s.qrun q).due ≤ s.now →
      exec (.coalesceTimeout q) s = .next ((s.setQrun q { s.qrun q with unsig := 0 }).msix (s.qw q).owner.toNat
        (s.qrun q).vector ((s.qw q).cls == 0)))

/-- R9, R11, R92, R94 to R97, R99, R114, R330, R371: register accesses. A host read is answered by a completion in the
general queue: the register's value, Completer Abort for a size or alignment that is not served, Unsupported Request
for an AtomicOp, each logged; a doorbell BAR reads 0; CAUSE is cleared by the ones written to it, a count that clears
on read is cleared, SCRATCH holds what is written, DB_ERR is cleared by bit 31, GLB_ID is never written; a bad access
is counted. A core's write takes effect under its block's levels, and where the block forbids it the core takes the
privilege fault of the port, with nothing written. Completes: HOST_REGISTER_READ, REGISTER_WRITE. -/
def Obligations.RegisterAccesses : Prop :=
  ∀ (s : State) (fn : Fin 64), s.up = true →
    (s.barOpen fn.val = true →
      let rd (off : Nat) (w : Word) (t : State) : Prop :=
        exec (.hostRegisterRead fn 0 off ⟨4, false⟩) s = .next (t.place false
          { id := 0, fn := fn.val, kind := .completion, addr := 0, data := le 4 w.toNat, len := 4 })
      rd 0 glbId s ∧ rd 4 (s.glbStatus fn.val) s ∧ rd 8 (s.fun_ fn.val).heartbeat s ∧ rd 0xC (bf 3 0 (s.fun_ fn.val).cause.toNat) s ∧
      rd 0x24 (s.fun_ fn.val).scratch s ∧
      rd 0x1C (BitVec.ofNat 32 (s.fun_ fn.val).dbCount) (s.setFun fn.val { s.fun_ fn.val with dbCount := 0 }) ∧
      (∀ off size, exec (.hostRegisterRead fn 2 off ⟨size, false⟩) s = .next (s.place false
          { id := 0, fn := fn.val, kind := .completion, addr := 0, data := List.replicate size 0, len := size })) ∧
      (∀ bar off size, bar ≠ 2 → barAligned off size = false →
        exec (.hostRegisterRead fn bar off ⟨size, false⟩) s = .next ((s.aerLog .completerAbort fn.val 0).place false
          { id := 0, fn := fn.val, kind := .completion, addr := 0, data := [], len := size, status := 4 })) ∧
      (∀ bar off size, exec (.hostRegisterRead fn bar off ⟨size, true⟩) s =
        .next ((s.aerLog .unsupportedRequest fn.val 0).place false
          { id := 0, fn := fn.val, kind := .completion, addr := 0, data := [], len := size, status := 1 }))) ∧
    (s.barOpen fn.val = true → ∀ v : BitVec 64,
      let w : Word := v.truncate 32
      let wr (off : Nat) : Instr := .registerWrite (.bar fn 0 off 4) v
      exec (wr 0xC) s = .next (s.setFun fn.val { s.fun_ fn.val with cause := (s.fun_ fn.val).cause &&& ~~~ (w.truncate 4) }) ∧
      exec (wr 0x24) s = .next (s.setFun fn.val { s.fun_ fn.val with scratch := w }) ∧
      exec (wr 0) s = .next s ∧
      exec (wr 0x18) s = .next (if bit w 31 then s.setFun fn.val { s.fun_ fn.val with dbErr := 0 } else s) ∧
      exec (.registerWrite (.bar fn 0 2 4) v) s =
        .next (s.setFun fn.val { s.fun_ fn.val with badAccess := satInc (s.fun_ fn.val).badAccess 65535 })) ∧
    (∀ mid pl port v c t, midCore mid = some c → s.pwrite c (pl : BitVec 2).toNat (port : BitVec 16).toNat
        ((v : BitVec 64).truncate 32) = some t → exec (.registerWrite (.port mid pl port) v) s = .next t) ∧
    (∀ mid pl port v c, midCore mid = some c → mayWritePort c (pl : BitVec 2).toNat (port : BitVec 16).toNat = false →
      s.coreRuns c = true →
      exec (.registerWrite (.port mid pl port) v) s = .next (s.takeFault c (portFault port.toNat 1))) ∧
    (∀ c pl, mayWritePort c pl 0x0401 = decide (pl ≤ 1) ∧ mayWritePort c pl 0x0F00 = decide (pl = 0) ∧
      mayWritePort c pl 0x0700 = decide (pl = 0) ∧ mayWritePort c pl 0x0300 = (decide (pl = 0) && decide (c < 2)) ∧
      mayReadPort c pl 0x0500 = true ∧ mayReadPort c pl 0x0504 = decide (pl ≤ 1))

/-- R117 to R126, R131: mailboxes. SEND puts the sixteen staged words at the tail of the channel and sets doorbell bit
0; a full channel discards them with OVERRUN. POP removes the head. Only the sender sends and sets doorbell bits, only
the receiver pops, clears and masks; another party's access is counted in MBX_FAULT. A message not popped within the
channel's timeout sets TIMEOUT. Until the lock, PL0 firmware or the boot ROM writes the table. A response goes into
its channel, and its tag is free, once FREE covers it and its buffer's last TLP has left. Completes: MBX_SEND,
MBX_POP, MBX_DB_WRITE, MBX_DB_MASK_WRITE, MBX_TIMEOUT, MBX_BIND_WRITE, MBX_LOCK, DRINER_RESPONSE_SEND. -/
def Obligations.Mailboxes : Prop :=
  ∀ (s : State), s.up = true →
    (∀ mid w ch, s.mbxOpen mid = true → s.windowChan mid w = some ch →
      let c := s.chan ch
      (c.sender.toNat = mid → s.midRetired c.receiver.toNat = false → c.fifo.length < 16 →
        ∃ t, exec (.mbxSend mid w) s = .next t ∧ (t.chan ch).fifo = c.fifo ++ [(upto 16).map (tget 0 c.staging)] ∧
          (t.chan ch).db = c.db ||| 1 ∧ (t.chan ch).overrun = c.overrun ∧ (∀ n, n ≠ ch → t.chan n = s.chan n) ∧
          (c.fifo = [] → (t.chan ch).headAt = s.now)) ∧
      (c.sender.toNat = mid → s.midRetired c.receiver.toNat = false → 16 ≤ c.fifo.length →
        exec (.mbxSend mid w) s = .next (s.setChan ch { c with overrun := true })) ∧
      (c.sender.toNat ≠ mid → ∃ t, exec (.mbxSend mid w) s = .next t ∧ t.mbx.chans = s.mbx.chans ∧ bit t.mbx.fault 31 = true) ∧
      (c.receiver.toNat = mid → ∀ m l, c.fifo = m :: l → mid ≠ 0x50 → mid ≠ 0x52 →
        exec (.mbxPop mid w) s = .next (s.setChan ch { c with fifo := l, headAt := s.now })) ∧
      (c.receiver.toNat = mid → ∀ m l, c.fifo = m :: l →
        ∃ t, exec (.mbxPop mid w) s = .next t ∧ t.mbx = (s.setChan ch { c with fifo := l, headAt := s.now }).mbx) ∧
      (c.receiver.toNat = mid → c.fifo = [] → exec (.mbxPop mid w) s = .next s) ∧
      (c.receiver.toNat ≠ mid → ∃ t, exec (.mbxPop mid w) s = .next t ∧ t.mbx.chans = s.mbx.chans ∧ bit t.mbx.fault 31 = true) ∧
      (∀ v, c.sender.toNat ≠ mid → exec (.mbxDbWrite mid w v) s = .next (s.setChan ch { c with db := c.db &&& ~~~ v })) ∧
      (∀ v, c.sender.toNat = mid → ∃ t, exec (.mbxDbWrite mid w v) s = .next t ∧ (t.chan ch).db = c.db ||| v ∧
        (t.chan ch).fifo = c.fifo ∧ ∀ n, n ≠ ch → t.chan n = s.chan n) ∧
      (∀ v, c.receiver.toNat = mid → ∃ t, exec (.mbxDbMaskWrite mid w v) s = .next t ∧ (t.chan ch).mask = v ∧
        (t.chan ch).db = c.db ∧ ∀ n, n ≠ ch → t.chan n = s.chan n)) ∧
    (∀ ch : Fin 256, (s.chan ch.val).fifo ≠ [] → (s.chan ch.val).headAt + (s.chan ch.val).timeoutUs * usC ≤ s.now →
      exec (.mbxTimeout ch) s = .next (s.setChan ch.val { s.chan ch.val with timeout := true })) ∧
    (∀ mid (ch : Fin 256) v, s.fwMid mid = true →
      (s.mbx.lock = false →
        ∃ t, exec (.mbxBindWrite mid 0 ch false v) s = .next t ∧ (t.chan ch.val).valid = bit v 0 ∧
          (t.chan ch.val).irq.toNat = fld v 7 4 ∧ (t.chan ch.val).sender.toNat = fld v 15 8 ∧
          (t.chan ch.val).receiver.toNat = fld v 23 16 ∧ ∀ n, n ≠ ch.val → t.chan n = s.chan n) ∧
      (s.mbx.lock = true → ∀ b, exec (.mbxBindWrite mid 0 ch b v) s = .next s) ∧
      (∀ pl b, pl ≠ 0 → exec (.mbxBindWrite mid pl ch b v) s = .next s)) ∧
    (exec .mbxLock s = .next { s with mbx := { s.mbx with lock := true } }) ∧
    (∀ (i : Nat) h, s.drn.held[i]? = some h → h.dup = false → (s.chan (respChan h.party)).fifo.length + msgCount h.payload.length ≤ 16 →
      s.midRetired (s.chan (respChan h.party)).receiver.toNat = false →
      (s.pci.gen.any fun t => t.kind == .write && t.id ≤ h.after) = false →
      ∃ t, exec (.drinerResponseSend i) s = .next t ∧ t.drn.held = ldel s.drn.held i ∧
        t.drn.out = (if h.begun then s.drn.out.filter (fun o => !(o.1 == h.party && o.2.1 == h.tag)) else s.drn.out) ∧
        (t.chan (respChan h.party)).fifo.length = (s.chan (respChan h.party)).fifo.length + msgCount h.payload.length ∧
        ∀ n, n ≠ respChan h.party → t.chan n = s.chan n) ∧
    (∀ (i : Nat) h, s.drn.held[i]? = some h → 16 < (s.chan (respChan h.party)).fifo.length + msgCount h.payload.length →
      exec (.drinerResponseSend i) s = .next s)

/-- R102, R104, R114, R142, R150: host reads. A completion frees its tag. The data of a payload chunk is kept, and the
job is ready once every chunk has come; a read that fails, by its completion or by its timeout, ends its job with
HOST_READ and is logged; a timeout may come 2 % early. A context whose MAC and SEQ agree with the state word enters
the cache, and one that disagrees disables its queue pair. An unexpected completion is logged alone. Completes:
HOST_READ_COMPLETION, COMPLETION_TIMEOUT. -/
def Obligations.HostReads : Prop :=
  ∀ (s : State) (tag : Nat), s.up = true → s.pci.up = true → s.pci.waitTag = [] →
    let aerOf (c : Cpl) : AerError := match c with
      | .unsupported => .unsupportedRequest
      | .abort => .completerAbort
      | .poisoned => .poisoned
      | _ => .ecrc
    (∀ c, s.pci.tags.find? (·.1 == tag) = none →
      ∃ t, exec (.hostReadCompletion tag c) s = .next t ∧ t.pci.aer = s.pci.aer ++ [(.unexpectedCompletion, 0, 0, s.severity .unexpectedCompletion)] ∧
        t.qps = s.qps ∧ t.pci.tags = s.pci.tags) ∧
    (∀ h, s.pci.tags.find? (·.1 == tag) = some (tag, h) →
      (∀ id k j, h.why = .payload id k → s.job? id = some j → j.stage = .reading →
        (∀ b, ∃ t, exec (.hostReadCompletion tag (.data b)) s = .next t ∧ t.pci.tags = s.pci.tags.filter (·.1 != tag) ∧
          t.job? id = some (if (tset [] j.got k (sub b 0 h.len)).length = j.need
            then { j with got := tset [] j.got k (sub b 0 h.len), stage := .ready, readyAt := s.now }
            else { j with got := tset [] j.got k (sub b 0 h.len) })) ∧
        (∀ c, c = .unsupported ∨ c = .abort ∨ c = .poisoned ∨ c = .ecrcFail → ∃ t, exec (.hostReadCompletion tag c) s = .next t ∧
          t.jobEnded j stHostRead (noResult j.sqe.opcode) ∧
          t.pci.aer = s.pci.aer ++ [(aerOf c, h.fn, 0, s.severity (aerOf c))]) ∧
        (∀ a, h.sentAt = some a → a * 100 + 98 * cplTimeout s.pci.ctv s.pci.ctDisable ≤ s.now * 100 →
          ∃ t, exec (.completionTimeout tag) s = .next t ∧ t.jobEnded j stHostRead (noResult j.sqe.opcode) ∧
            t.pci.tags = s.pci.tags.filter (·.1 != tag) ∧ t.pci.aer = s.pci.aer ++ [(.completionTimeout, h.fn, 0, s.severity .completionTimeout)])) ∧
      (∀ q b, h.why = .context q → (s.qw q).en = true → (s.qrun q).units = [] → (s.qrun q).queryBy = [] →
        4 ≤ (ctxOf b).cqLog.toNat →
        ctxMac (s.ctxKey (s.qw q).gen) q (sub b 0 56) = sub b 56 8 →
        (leAt b 0x36 2 = (s.qw q).seq.toNat →
          ∃ t, exec (.hostReadCompletion tag (.data b)) s = .next t ∧ t.ctx? q = some (ctxOf b) ∧ t.qw q = s.qw q ∧
            (t.qrun q).fetching = false ∧ (t.qrun q).fetch = (ctxOf b).sqHead.toNat) ∧
        (leAt b 0x36 2 ≠ (s.qw q).seq.toNat →
          ∃ t e, exec (.hostReadCompletion tag (.data b)) s = .next t ∧ (t.qw q).en = false ∧ t.qps.cache = s.qps.cache ∧
            e ∈ t.dv.inbox ∧ e.typ = 0x0032)) ∧
      (∀ q b, h.why = .context q → (s.qw q).en = true →
        ctxMac (s.ctxKey (s.qw q).gen) q (sub b 0 56) ≠ sub b 56 8 →
        ∃ t, exec (.hostReadCompletion tag (.data b)) s = .next t ∧ (t.qw q).en = false ∧ t.qps.cache = s.qps.cache) ∧
      (∀ a, h.sentAt = some a → s.now * 100 < a * 100 + 98 * cplTimeout s.pci.ctv s.pci.ctDisable →
        exec (.completionTimeout tag) s = .next s)) ∧
    cplTimeout 0 true = 64 * msC ∧ cplTimeout 0 false = 50 * msC ∧ cplTimeout 1 false = 100 * usC ∧
    cplTimeout 14 false = 64 * secC

/-- R135, R136, R138, R140, R141, R143: the queue-pair commands. QP_ASSIGN gives a function a range that no other
function's overlaps; CTX_TABLE_SET places the table; QP_CREATE writes the context, pins a class-0 one in the cache and
answers with its SEQ; QP_DESTROY is answered when the entries posted before it have been fetched and the last job has
completed; QP_QUERY answers with the state word. A queue pair outside the caller's range gives ACCESS, an enabled one
in the way REJECTED. A step of the key sweep sets SEQ to 0 and takes the new key; at its end the old key is erased.
Completes: QP_ASSIGN, CTX_TABLE_SET, QP_CREATE, QP_DESTROY, QP_DESTROY_FINISH, QP_QUERY, KEY_SWEEP_STEP. -/
def Obligations.QueuePairCommands : Prop :=
  ∀ (s : State) (r : Req),
    let p := r.payload
    let q := leAt p 0 4
    let fn := (midFn r.party).getD 0
    let no (op st : Nat) : State := (s.begun op r).holdFor true r.party op r.tag st false []
    (s.begins 0x0301 r → leAt p 0 1 ≤ 63 → leAt p 1 3 = 0 → 0 < leAt p 8 4 → leAt p 4 4 + leAt p 8 4 ≤ 2 ^ 20 →
      (leAt p 0 1 ≠ 0 → leAt p 8 4 ≤ 32768) →
      s.anyEnabled (s.fun_ (leAt p 0 1)).first (s.fun_ (leAt p 0 1)).count = false → s.anyEnabled (leAt p 4 4) (leAt p 8 4) = false →
      ((∀ k < 64, k ≠ leAt p 0 1 → (s.fun_ k).count = 0 ∨ (s.fun_ k).first + (s.fun_ k).count ≤ leAt p 4 4 ∨
          leAt p 4 4 + leAt p 8 4 ≤ (s.fun_ k).first) →
        ∃ t, exec (.qpAssign r) s = .next t ∧ t.answers r 0x0301 stOk [] ∧ (t.fun_ (leAt p 0 1)).first = leAt p 4 4 ∧
          (t.fun_ (leAt p 0 1)).count = leAt p 8 4 ∧ t.qps = s.qps) ∧
      ((∃ k < 64, k ≠ leAt p 0 1 ∧ (s.fun_ k).count ≠ 0 ∧ leAt p 4 4 < (s.fun_ k).first + (s.fun_ k).count ∧
          (s.fun_ k).first < leAt p 4 4 + leAt p 8 4) → exec (.qpAssign r) s = .next (no 0x0301 stRejected))) ∧
    (s.begins 0x0302 r → 64 ≤ leAt p 8 4 → leAt p 8 4 ≤ 2 ^ 20 → leAt p 8 4 % 64 = 0 → leAt p 0 8 % 4096 = 0 →
      s.anyEnabled 0 (2 ^ 20) = false →
      ∃ t, exec (.ctxTableSet r) s = .next t ∧ t.answers r 0x0302 stOk [] ∧
        t.qps = { s.qps with table := some (BitVec.ofNat 64 (leAt p 0 8), leAt p 8 4) }) ∧
    (s.begins 0x0302 r → s.anyEnabled 0 (2 ^ 20) = true → exec (.ctxTableSet r) s = .next (no 0x0302 stRejected)) ∧
    (s.begins 0x0303 r → s.ownsQp fn q = false → exec (.qpCreate r) s = .next (no 0x0303 stAccess)) ∧
    (s.begins 0x0303 r → s.ownsQp fn q = true → (s.qw q).en = true → exec (.qpCreate r) s = .next (no 0x0303 stRejected)) ∧
    (∀ a n, s.begins 0x0303 r → s.ownsQp fn q = true → imageOk fn (sub p 4 64) = true → (s.qw q).en = false →
      (s.qw q).destroying = false → s.mayMove 0 = true → s.qps.table = some (a, n) → q < n → s.c0Qps < 4096 → s.qps.sweep = none → (s.qw q).seq.toNat < 0xFE00 →
      ∃ t, exec (.qpCreate r) s = .next t ∧ t.answers r 0x0303 stOk (le 2 ((s.qw q).seq + 1).toNat) ∧ (t.qw q).en = true ∧
        (t.qw q).owner.toNat = fn % 64 ∧ (t.qw q).cls.toNat = leAt (sub p 4 64) 18 1 ∧ (t.qw q).seq = (s.qw q).seq + 1 ∧
        (t.qw q).destroying = false ∧ (t.qw q).pinned = ((t.qw q).cls == 0)) ∧
    (s.begins 0x0304 r → s.ownsQp fn q = true → (s.qw q).en = true → (s.qw q).destroying = false →
      ∃ t, exec (.qpDestroy r) s = .next t ∧ (t.qw q).destroying = true ∧ (t.qw q).en = true ∧
        (t.qrun q).destroyBy = some (r.party, r.tag) ∧ t.drn.held = s.drn.held) ∧
    (s.begins 0x0304 r → s.ownsQp fn q = false → exec (.qpDestroy r) s = .next (no 0x0304 stAccess)) ∧
    (∀ qpn party tag, s.up = true → (s.qw qpn).destroying = true → s.inFlight qpn = 0 → (s.qrun qpn).fetching = false →
      s.postedStill qpn = false → (s.qrun qpn).destroyBy = some (party, tag) → (party, tag, 0x0304) ∈ s.drn.out →
      ∃ t h, exec (.qpDestroyFinish qpn) s = .next t ∧ (t.qw qpn).en = false ∧ (t.qw qpn).destroying = false ∧
        t.ctx? qpn = none ∧ h ∈ t.drn.held ∧ h.party = party ∧ h.tag = tag ∧ h.status = stOk) ∧
    (∀ c, s.begins 0x0305 r → s.ownsQp fn q = true → s.ctx? q = some c →
      exec (.qpQuery r) s = .next ((s.begun 0x0305 r).holdFor true r.party 0x0305 r.tag stOk false
        (le 4 (s.qw q).word.toNat ++ le 2 c.sqHead.toNat ++ le 2 c.cqTail.toNat ++ le 4 c.ovf.toNat))) ∧
    (s.begins 0x0305 r → s.ownsQp fn q = false → exec (.qpQuery r) s = .next (no 0x0305 stAccess)) ∧
    (∀ n, s.up = true → s.qps.sweep = some n → s.sweepReading = false → s.qps.sweepNext = [] →
      ((∀ e ∈ s.qps.words, e.1 < n ∨ e.2.gen = s.qps.gen) →
        exec .keySweepStep s = .next (if s.qps.gen then { s with qps := { s.qps with sweep := none, key0 := 0 } }
          else { s with qps := { s.qps with sweep := none, key1 := 0 } })) ∧
      (∀ e, (s.qps.words.filter fun e => n ≤ e.1 && e.2.gen != s.qps.gen).head? = some e → (s.qw e.1).en = false →
        ∃ t, exec .keySweepStep s = .next t ∧ t.qps.sweep = some e.1 ∧ (t.qw e.1).seq = 0 ∧ (t.qw e.1).gen = s.qps.gen))

/-- R148 to R163, R187: fetch, admission and dispatch. A run of at most eight entries within CREDIT, the in-flight
limit and the free CQ slots is read for the first class-0 queue pair in order of its doorbell. The next entry read
enters the job table, with the queue pair's class and owner, or ends at once with the status its checks give. A ready
job is dispatched when its lanes and a mask draw are free: the draw is used up, and the lanes hold it and the slot's
two key shares. With nothing to do the rows change nothing. Completes: SQ_FETCH, JOB_ADMIT, JOB_DISPATCH. -/
def Obligations.JobsEnterTheBench : Prop :=
  ∀ (s : State), s.up = true →
    (∀ q c, (∀ e ∈ s.qps.run, e.2.posted = false) → s.qps.c0Order.find? (fun q => 0 < s.fetchable q) = some q → s.ctx? q = some c →
      s.fetchable q ≤ 8 ∧ s.fetchable q + s.inFlight q ≤ c.inflightMax.toNat ∧ s.fetchable q ≤ s.credit q c ∧
      s.fetchable q ≤ s.cqFree q c ∧
      ∃ t run, exec .sqFetch s = .next t ∧ (t.qrun q).runs = (s.qrun q).runs ++ [run] ∧ run.first = (s.qrun q).fetch ∧
        run.count = s.fetchable q ∧ run.data = none ∧ (t.qrun q).fetch = ((s.qrun q).fetch + s.fetchable q) % sqSize c ∧
        t.qps.jobs = s.qps.jobs) ∧
    (s.qps.c0Order = [] → s.qps.cache = [] → (∀ e ∈ s.qps.run, e.2.posted = false) → exec .sqFetch s = .next s) ∧
    (∀ q run rest data, (s.qrun q).runs = run :: rest → run.data = some data → s.qps.jobs.length < 7680 →
      s.halted = false → s.tmp.zeroized = false → isAssoc (sqeOf (data.take 64)).opcode = false →
      let e := sqeOf (data.take 64)
      let w := s.qw q
      (∀ st, s.admitCheck w.owner.toNat w.cls e = some st →
        ∃ t k, exec (.jobAdmit q) s = .next t ∧ k ∈ t.qps.jobs ∧ k.id = s.qps.nextJob ∧ k.stage = .done ∧ k.status = st ∧
          k.sqe = e ∧ k.qpn = q ∧ k.fn = w.owner.toNat ∧ k.cls = w.cls ∧ t.qps.nextJob = s.qps.nextJob + 1) ∧
      (s.admitCheck w.owner.toNat w.cls e = none → e.opcode ≠ 0x30 → fence e = false →
        ∃ t k, exec (.jobAdmit q) s = .next t ∧ k ∈ t.qps.jobs ∧ k.id = s.qps.nextJob ∧ k.sqe = e ∧ k.qpn = q ∧
          k.fn = w.owner.toNat ∧ k.cls = w.cls ∧ (k.stage = .ready ∨ k.stage = .reading) ∧
          (e.opcode = 0 → k.stage = .ready) ∧ k.admitted = s.stampAt 5)) ∧
    (∀ q, (s.qrun q).runs = [] → exec (.jobAdmit q) s = .next s) ∧
    (s.readyJobs = [] → exec .jobDispatch s = .next s) ∧
    (s.halted = false → ∀ j l t, s.readyJobs = j :: l → s.dispatch j = some t → exec .jobDispatch s = .next t) ∧
    (∀ j p m ms, s.job? j.id = some j → 0x10 ≤ j.sqe.opcode → j.sqe.opcode ≤ 0x14 → j.cls ≠ 0 →
      j.heldUntil ≤ s.now → s.pickLanes j.cls 1 j.avoid = some [p] → s.bch.general = m :: ms →
      ∃ t k, s.dispatch j = some t ∧ t.bch.general = ms ∧ t.bch.reserve = s.bch.reserve ∧ t.job? j.id = some k ∧
        k.stage = .running ∧ k.lanes = [p] ∧ k.startedAt = s.now ∧ (t.lane p).job = some j.id ∧ (t.lane p).mask = m ∧
        (t.lane p).key0 = (s.krow j.sqe.target).s0 ∧ (t.lane p).key1 = (s.krow j.sqe.target).s1 ∧
        ∀ n, n ≠ p → t.lane n = s.lane n) ∧
    (∀ j, 0x10 ≤ j.sqe.opcode → j.sqe.opcode ≤ 0x14 → j.cls ≠ 0 → s.bch.general = [] → s.dispatch j = none)

/-- R151 to R154, R161, R162: completion. A done job leaves the table and its completion entry is written at CQ_TAIL,
which advances, flipping the phase as it wraps; a QUIET job that ends OK writes none. An event entry is written the
same way with the count lost before it, and a full event queue counts the entry in its overflow count. A NOP ends OK.
Completes: JOB_COMPLETION, EVENT_ENTRY, JOB_NOP. -/
def Obligations.Completions : Prop :=
  ∀ (s : State), s.up = true →
    (∀ j c, s.job? j.id = some j → j.stage = .done → j.waitRec = false → s.ctx? j.qpn = some c →
      4 ≤ c.cqLog.toNat →
      (quiet j.sqe = true → j.status = stOk →
        ∃ t, exec (.jobCompletion j.id) s = .next t ∧ t.job? j.id = none ∧ t.ctx? j.qpn = some c) ∧
      ((quiet j.sqe = false ∨ j.status ≠ stOk) →
        let tail := (c.cqTail.toNat + 1) % cqSize c
        ∃ t, exec (.jobCompletion j.id) s = .next t ∧ t.job? j.id = none ∧
          t.ctx? j.qpn = some { c with cqTail := BitVec.ofNat 16 tail, phase := if tail = 0 then c.phase ^^^ 1 else c.phase } ∧
          (j.cls ≠ 0 → (s.qw j.qpn).cls ≠ 0 → isAssoc j.sqe.opcode = false → j.result.length = 8 →
            ∃ x ∈ t.pci.prio ++ t.pci.gen, ∃ cr, x.kind = .write ∧ x.addr = c.cqBase.toNat + 32 * c.cqTail.toNat ∧
              x.fn = (s.qw j.qpn).owner.toNat ∧
              x.data = le 2 j.sqe.cid ++ le 1 j.status ++
                le 1 (2 * b2n (j.status = stAuthFail) + 32 * b2n j.notArchived + c.phase.toNat % 2) ++
                le 2 c.sqHead.toNat ++ le 2 cr ++ j.result ++ le 12 j.gts.toNat ++ le 4 (256 * j.lanesUsed)))) ∧
    (∀ j, s.job? j.id = some j → (j.stage ≠ .done ∨ j.waitRec = true) → exec (.jobCompletion j.id) s = .next s) ∧
    (∀ e rest c, s.qps.events = e :: rest → (s.qw e.qpn).en = true → (s.qw e.qpn).destroying = false → s.ctx? e.qpn = some c →
      4 ≤ c.cqLog.toNat → eventQ c = true →
      (s.cqFree e.qpn c ≠ 0 →
        let tail := (c.cqTail.toNat + 1) % cqSize c
        ∃ t, exec .eventEntry s = .next t ∧ t.qps.events = rest ∧ t.ctx? e.qpn = some { c with
          cqTail := BitVec.ofNat 16 tail, phase := (if tail = 0 then c.phase ^^^ 1 else c.phase), ovf := 0 }) ∧
      (s.cqFree e.qpn c = 0 → c.ovf.toNat < 2 ^ 32 - 1 →
        ∃ t, exec .eventEntry s = .next t ∧ t.qps.events = rest ∧ t.ctx? e.qpn = some { c with ovf := c.ovf + 1 } ∧
          t.pci = s.pci)) ∧
    (s.qps.events = [] → exec .eventEntry s = .next s) ∧
    (∀ j, s.jobOn 0 j → exec (.jobNop j.id) s = .next (s.finishJob j stOk [0, 0, 0, 0, 0, 0, 0, 0]))

/-- R176 to R184, R190 to R193: association jobs. Transmit tags the frame under the current key with the next
invocation value, which is used up; receive verifies the tag, then replay, then freshness: the first that fails
decides the status and its counter, and leaves the mark; a frame that passes advances the mark and the accepted count.
A frame that does not parse gives REJECTED, and no usable key KEY_ABSENT. The generic form seals and opens its data
under the same rules; it keeps the invocation value that its first output took. Completes: GOOSE_TRANSMIT_TAG,
GOOSE_RECEIVE_VERIFY, SV_TRANSMIT_TAG, SV_RECEIVE_VERIFY, GENERIC_FRAME_TRANSMIT, GENERIC_FRAME_RECEIVE. -/
def Obligations.AssociationJobs : Prop :=
  ∀ (s : State) (j : Job),
    let n := j.sqe.target
    let a := s.pa n
    let d := jobData j
    let aad := d.take j.sqe.aadLen
    let bad (e : Instr) (op : Nat) : Prop := s.jobOn op j → ∀ c, s.sequencer j = .bad c →
      ∃ t, exec e s = .next t ∧ t.jobEnded j stRejected (le 1 3 ++ le 1 0 ++ le 1 c ++ le 1 0 ++ le 4 0)
    let tx (e : Instr) (op : Nat) : Prop := s.jobOn op j → ∀ fr kid h key, s.sequencer j = .frame fr kid →
      j.holds.head? = some h → s.txUsable n (h.slot % 4) = true → s.heldKey h = some key →
      (frameSpan aad a.params fr).length ≤ 1024 →
      let v := s.lc.bootCount % 2 ^ 24 * 2 ^ 40 + (paKey a (h.slot % 4)).counter
      ∃ t, exec e s = .next t ∧ t.jobEnded j stOk (paResult (h.role + 8 * b2n fr.sim) h.epoch 0 v) ∧
        (paKey (t.pa n) (h.slot % 4)).counter = (paKey a (h.slot % 4)).counter + 1 ∧ (t.pa n).mark = a.mark ∧
        (∀ m, m ≠ n → t.pa m = s.pa m)
    let rx (e : Instr) (op : Nat) : Prop := s.jobOn op j → ∀ fr kid h key, s.sequencer j = .frame fr kid →
      pickKey j (.frame fr kid) = some h → s.heldKey h = some key → (frameSpan aad a.params fr).length ≤ 1024 →
      let i := h.slot % 4
      let iv := sub aad fr.iv 12
      let good := sub aad fr.auth (algTag (paAlg a.params)) = spanTag j.lanes.length (paAlg a.params) key iv (frameSpan aad a.params fr)
      let fresh := s.freshness a.params (3 ≤ op) fr
      (¬ good → ∃ t, exec e s = .next t ∧ (∃ r, t.jobEnded j stAuthFail r) ∧ (t.pa n).mark = a.mark ∧
        (t.pa n).failed = satInc a.failed (2 ^ 32 - 1) ∧ (t.pa n).accepted = a.accepted) ∧
      (good → replayTest a i (3 ≤ op) fr iv fresh = none → ∃ t, exec e s = .next t ∧ (∃ r, t.jobEnded j stReplay r) ∧
        (t.pa n).mark = a.mark ∧ (t.pa n).replayed = satInc a.replayed (2 ^ 32 - 1) ∧ (t.pa n).accepted = a.accepted) ∧
      (∀ b rs, good → replayTest a i (3 ≤ op) fr iv fresh = some (b, rs) → fresh = some false →
        ∃ t, exec e s = .next t ∧ (∃ r, t.jobEnded j stStale r) ∧ (t.pa n).mark = a.mark ∧
          (t.pa n).stale = satInc a.stale (2 ^ 32 - 1) ∧ (t.pa n).accepted = a.accepted) ∧
      (∀ b rs, good → replayTest a i (3 ≤ op) fr iv fresh = some (b, rs) → fresh ≠ some false →
        ∃ t r, exec e s = .next t ∧ t.jobEnded j stOk r ∧ (t.pa n).mark = b.mark ∧ (t.pa n).keys = b.keys ∧
          (t.pa n).accepted = satInc b.accepted (2 ^ 32 - 1) ∧ (t.pa n).failed = b.failed)
    bad (.gooseTransmitTag j.id) 1 ∧ bad (.svTransmitTag j.id) 3 ∧ bad (.genericFrameTransmit j.id) 5 ∧
    bad (.gooseReceiveVerify j.id) 2 ∧ bad (.svReceiveVerify j.id) 4 ∧ bad (.genericFrameReceive j.id) 6 ∧
    tx (.gooseTransmitTag j.id) 1 ∧ tx (.svTransmitTag j.id) 3 ∧ rx (.gooseReceiveVerify j.id) 2 ∧ rx (.svReceiveVerify j.id) 4 ∧
    (s.jobOn 5 j → ∀ inv kid h key, s.sequencer j = .generic inv kid → j.holds.head? = some h →
      (j.inv.isSome = true ∨ s.txUsable n (h.slot % 4) = true) → s.heldKey h = some key →
      let v := j.inv.getD (s.lc.bootCount % 2 ^ 24 * 2 ^ 40 + (paKey a (h.slot % 4)).counter)
      ∃ t, exec (.genericFrameTransmit j.id) s = .next t ∧ t.jobEnded j stOk (paResult h.role h.epoch 0 v) ∧
        (paKey (t.pa n) (h.slot % 4)).counter = (paKey a (h.slot % 4)).counter + (if j.inv.isSome then 0 else 1)) ∧
    (s.jobOn 6 j → ∀ inv kid h key, s.sequencer j = .generic inv kid → pickKey j (.generic inv kid) = some h →
      s.heldKey h = some key →
      let body := d.drop j.sqe.aadLen
      let o := gangOpen j.lanes.length key (frameIv (kid.getD h.keyId) inv) aad (body.take j.sqe.length)
      let good := sub body j.sqe.length (paGenTag a.params) = o.2.take (paGenTag a.params)
      (¬ good → ∃ t, exec (.genericFrameReceive j.id) s = .next t ∧
        t.jobEnded j stAuthFail (paResult h.role h.epoch 0 inv) ∧ (t.pa n).failed = satInc a.failed (2 ^ 32 - 1) ∧
        (t.pa n).keys = a.keys) ∧
      (∀ m, good → windowTest (paKey a (h.slot % 4)).mark 0 (paWindow a.params) inv = some m →
        ∃ t r, exec (.genericFrameReceive j.id) s = .next t ∧ t.jobEnded j stOk r ∧
          (paKey (t.pa n) (h.slot % 4)).mark = m ∧ (t.pa n).accepted = satInc a.accepted (2 ^ 32 - 1)) ∧
      (good → windowTest (paKey a (h.slot % 4)).mark 0 (paWindow a.params) inv = none →
        ∃ t r, exec (.genericFrameReceive j.id) s = .next t ∧ t.jobEnded j stReplay r ∧ (t.pa n).keys = a.keys)) ∧
    (s.jobOn 2 j → ∀ fr kid, s.sequencer j = .frame fr kid → pickKey j (.frame fr kid) = none →
      ∃ t r, exec (.gooseReceiveVerify j.id) s = .next t ∧ t.jobEnded j stKeyAbsent r ∧ (t.pa n).mark = a.mark)

/-- R204, R208 to R211, R231 to R233, R293: cipher, hash and append jobs. Encryption writes the ciphertext and tag and
reports the tag's first 8 bytes; decryption writes the plaintext before the tag decides; generation and verification
of a GMAC do the tag alone; CTR reports its blocks; the hashes write the digest and report its first 8 bytes; a slot
that has lost its key gives KEY_ABSENT. The lanes of the job share the work (R204); a job that has written nothing yet
writes its output to DST in one row. An append puts its record at the archive's intake and waits for it. Completes:
AES_GCM_ENCRYPT, AES_GCM_DECRYPT, AES_GMAC_GENERATE, AES_GMAC_VERIFY, AES_CTR, SHA_256, SHA_512, HMAC_SHA256,
ARCHIVE_APPEND. -/
def Obligations.CipherAndHashJobs : Prop :=
  ∀ (s : State) (j : Job),
    let q := j.sqe
    let d := jobData j
    let aad := d.take q.aadLen
    let msg := d.drop q.aadLen
    let g := j.lanes.length
    let put (data : Bytes) : State := s.hostWrite j.fn q.dst data (j.cls == 0) s.pci.relaxed (some j.id)
    let out (data : Bytes) : State := s.jobOut j data
    let lost (e : Instr) (op : Nat) : Prop := s.jobOn op j → j.holds.head?.bind s.heldKey = none →
      exec e s = .next (s.finishJob j stKeyAbsent (List.replicate 8 0))
    (∀ data, j.written = [] → out data = put data) ∧
    (∀ key, j.holds.head?.bind s.heldKey = some key →
      let sealed := gangSeal g key q.iv aad msg
      let opened := gangOpen g key q.iv aad msg
      let mac := (gangSeal g key q.iv d []).2
      (s.jobOn 0x10 j → exec (.aesGcmEncrypt j.id) s =
        .next ((out (sealed.1 ++ sealed.2.take q.tagLen)).finishJob j stOk (sealed.2.take 8))) ∧
      (s.jobOn 0x11 j → exec (.aesGcmDecrypt j.id) s = .next ((out opened.1).finishJob j
        (if q.tag.take q.tagLen = opened.2.take q.tagLen then stOk else stAuthFail) (List.replicate 8 0))) ∧
      (s.jobOn 0x12 j → exec (.aesGmacGenerate j.id) s =
        .next ((if q.dst = 0 then s else put (mac.take q.tagLen)).finishJob j stOk (mac.take 8))) ∧
      (s.jobOn 0x13 j → exec (.aesGmacVerify j.id) s = .next (s.finishJob j
        (if q.tag.take q.tagLen = mac.take q.tagLen then stOk else stAuthFail) (List.replicate 8 0))) ∧
      (s.jobOn 0x14 j → exec (.aesCtr j.id) s =
        .next ((out (gangStream g key q.iv d)).finishJob j stOk (le 4 ((d.length + 15) / 16) ++ le 4 0))) ∧
      (s.jobOn 0x22 j → exec (.hmacSha256 j.id) s =
        .next ((if q.dst = 0 then s else put (hmac256 key d)).finishJob j stOk ((hmac256 key d).take 8)))) ∧
    (s.jobOn 0x20 j → exec (.sha256 j.id) s =
      .next ((if q.dst = 0 then s else put (Machine.sha256 d)).finishJob j stOk ((Machine.sha256 d).take 8))) ∧
    (s.jobOn 0x21 j → exec (.sha512 j.id) s =
      .next ((if q.dst = 0 then s else put (Machine.sha512 d)).finishJob j stOk ((Machine.sha512 d).take 8))) ∧
    lost (.aesGcmEncrypt j.id) 0x10 ∧ lost (.aesGcmDecrypt j.id) 0x11 ∧ lost (.aesGmacGenerate j.id) 0x12 ∧
    lost (.aesGmacVerify j.id) 0x13 ∧ lost (.aesCtr j.id) 0x14 ∧ lost (.hmacSha256 j.id) 0x22 ∧
    (s.jobOn 0x30 j → ∃ t a, exec (.archiveAppend j.id) s = .next t ∧ t.job? j.id = some { j with waitRec := true } ∧
      t.arc.arrivals = s.arc.arrivals ++ [a] ∧ a.r.typ = q.target ∧ a.r.src = 0x020 + j.fn ∧ a.r.cls = j.cls ∧ a.r.body = d ∧
      a.r.gts = s.gts ∧ a.reserved = true ∧ a.waiter = .job j.id) ∧
    (∀ st res, j.stage ≠ .done → s.job? j.id = some j →
      (s.finishJob j st res).jobEnded j st res ∧ (∀ i, i ≠ j.id → (s.finishJob j st res).job? i = s.job? i) ∧
      (s.finishJob j st res).pci = s.pci ∧ ∀ p ∈ j.lanes, (s.finishJob j st res).lane p = {})

/-- R169 to R172, R185, R186, R196: the commands on associations. PA_CREATE makes a free entry IDLE with its kind and
parameters; PA_STATE_SET moves it between IDLE, ACTIVE and SUSPENDED once its keys stand, and FREE waits for its jobs
and then erases its four slots; PA_QUERY answers with the state block; PA_KEY_LOAD begins an unwrap into the slot that
the current key does not hold; PA_ROLL sets the activation; a roll fires and grace ends at their instants. Completes:
PA_CREATE, PA_STATE_SET, ASSOCIATION_FREED, PA_QUERY, PA_KEY_LOAD, PA_ROLL, ROLL_FIRE, GRACE_END. -/
def Obligations.Associations : Prop :=
  ∀ (s : State) (r : Req),
    let p := r.payload
    let n := leAt p 0 2
    let a := s.pa n
    let no (op st : Nat) : State := (s.begun op r).holdFor true r.party op r.tag st false []
    (s.begins 0x0401 r → n < 2048 → leAt p 3 1 = 0 → paCreateBad (leAt p 2 1) (sub p 4 48) = false →
      let v := paEventQ (sub p 4 48)
      let q := v % 2 ^ 20
      (2 ^ 31 ≤ v → (s.qw q).en = false ∨ (s.qw q).owner ≠ 0 ∨ (s.qw q).evq = false → exec (.paCreate r) s = .next (no 0x0401 stRejected)) ∧
      ((2 ^ 31 ≤ v → (s.qw q).en = true ∧ (s.qw q).owner = 0 ∧ (s.qw q).evq = true) →
      (a.state ≠ .free → exec (.paCreate r) s = .next (no 0x0401 stPaState)) ∧
      (a.state = .free → paRestore (sub p 4 48) = false →
        ∃ t, exec (.paCreate r) s = .next t ∧ t.answers r 0x0401 stOk [] ∧
          t.pa n = { state := .idle, kind := BitVec.ofNat 8 (leAt p 2 1), params := sub p 4 48, heldUntil := s.now + 2 * usC } ∧
          ∀ m, m ≠ n → t.pa m = s.pa m))) ∧
    (s.begins 0x0401 r → (2048 ≤ n ∨ leAt p 3 1 ≠ 0) → exec (.paCreate r) s = .next (no 0x0401 stRejected)) ∧
    (s.begins 0x0404 r → n < 2048 → leAt p 3 1 = 0 →
      (leAt p 2 1 = 2 → a.freeing = none → a.state = .idle ∨ a.state = .suspended →
        ((paTx a = true → a.tx.cur.isSome = true) → (paRx a = true → a.rx.cur.isSome = true) →
          ∃ t, exec (.paStateSet r) s = .next t ∧ t.answers r 0x0404 stOk [] ∧ (t.pa n).state = .active ∧ (t.pa n).keys = a.keys) ∧
        (paTx a = true → a.tx.cur = none →
          ∃ t, exec (.paStateSet r) s = .next t ∧ t.answers r 0x0404 stKeyAbsent [] ∧ (t.pa n).state = a.state)) ∧
      (leAt p 2 1 = 3 → a.freeing = none → a.state = .active →
        ∃ t, exec (.paStateSet r) s = .next t ∧ t.answers r 0x0404 stOk [] ∧ (t.pa n).state = .suspended) ∧
      (leAt p 2 1 = 0 → a.freeing = none → a.state ≠ .free →
        ∃ t, exec (.paStateSet r) s = .next t ∧ (t.pa n).freeing = some (r.party, r.tag) ∧ t.drn.held = s.drn.held) ∧
      (leAt p 2 1 = 0x10 → a.state ≠ .free →
        ∃ t, exec (.paStateSet r) s = .next t ∧ t.answers r 0x0404 stOk [] ∧ (t.pa n).mark = {} ∧ (t.pa n).state = a.state)) ∧
    (∀ (m : Fin 2048) party tag, s.up = true → (s.pa m.val).freeing = some (party, tag) →
      (s.paJobs m.val = [] → ∃ t, exec (.associationFreed m) s = .next t ∧ t.pa m.val = {} ∧
        ((party, tag, 0x0404) ∈ s.drn.out → ∃ h ∈ t.drn.held, h.party = party ∧ h.tag = tag ∧ h.status = stOk) ∧
        ∀ i < 4, kState (s.krow (4 * m.val + i)) = kLoaded → kState (t.krow (4 * m.val + i)) = kErasing) ∧
      (s.paJobs m.val ≠ [] → exec (.associationFreed m) s = .next s)) ∧
    (s.begins 0x0405 r → n < 2048 → exec (.paQuery r) s =
      .next ((s.begun 0x0405 r).holdFor true r.party 0x0405 r.tag stOk false (s.paBlock n))) ∧
    (s.begins 0x0402 r → s.key.unwrap = none → n < 2048 → leAt p 2 1 ≤ 1 → a.state ≠ .free → a.freeing = none →
      let rx := leAt p 2 1 = 1
      let dir := dirOf a rx
      (if rx then paRx a else paTx a) = true → dir.roll = none → (rx → dir.prev = none) →
      (∀ i, dir.cur = some i → (paKey a i).epoch ≠ leAt p 3 1) →
      let u : Unwrap := { slot := 4 * n + otherSlot dir rx, epoch := leAt p 3 1, sealB := sub p 4 80, party := r.party,
                          tag := r.tag, pa := some (n, leAt p 2 1), replace := dir.next.isSome }
      exec (.paKeyLoad r) s = .next (((s.begun 0x0402 r).holdPa n).unwrapStart u true
        (leAt (sub p 4 80) 1 1 = algKey (paAlg a.params) && leAt (sub p 4 80) 8 1 = paUse (paAlg a.params) rx))) ∧
    (s.begins 0x0402 r → s.key.unwrap = none → n < 2048 → leAt p 2 1 ≤ 1 → a.state = .free →
      exec (.paKeyLoad r) s = .next (no 0x0402 stPaState)) ∧
    (s.begins 0x0403 r → n < 2048 → leAt p 2 1 ≤ 1 → leAt p 3 1 = 0 → a.state ≠ .free → a.freeing = none →
      ((dirOf a (leAt p 2 1 = 1)).next = none → exec (.paRoll r) s = .next (no 0x0403 stKeyAbsent)) ∧
      ((dirOf a (leAt p 2 1 = 1)).next.isSome = true → s.tim.qual = 3 → exec (.paRoll r) s = .next (no 0x0403 stTime)) ∧
      ((dirOf a (leAt p 2 1 = 1)).next.isSome = true → s.tim.qual ≠ 3 →
        ∃ t, exec (.paRoll r) s = .next t ∧ t.answers r 0x0403 stOk [] ∧
          if gtsTime s.gts < gtsTime (BitVec.ofNat 96 (leAt p 4 12)) then
            (dirOf (t.pa n) (leAt p 2 1 = 1)).roll = some (BitVec.ofNat 96 (leAt p 4 12)) ∧
            (dirOf (t.pa n) (leAt p 2 1 = 1)).cur = (dirOf a (leAt p 2 1 = 1)).cur
          else
            (dirOf (t.pa n) (leAt p 2 1 = 1)).roll = none ∧
            (dirOf (t.pa n) (leAt p 2 1 = 1)).cur = (dirOf a (leAt p 2 1 = 1)).next)) ∧
    (∀ (m : Fin 2048) rx g i, s.up = true → (dirOf (s.pa m.val) rx).roll = some g → (dirOf (s.pa m.val) rx).next = some i →
      (gtsTime s.gts < gtsTime g → exec (.rollFire m rx) s = .next s) ∧
      (gtsTime g ≤ gtsTime s.gts → ∃ t, exec (.rollFire m rx) s = .next t ∧
        (dirOf (t.pa m.val) rx).cur = some i ∧ (dirOf (t.pa m.val) rx).next = none ∧ (dirOf (t.pa m.val) rx).roll = none ∧
        (dirOf (t.pa m.val) rx).prev = (if rx then (dirOf (s.pa m.val) rx).cur else none) ∧
        ∀ k, k ≠ m.val → t.pa k = s.pa k)) ∧
    (∀ (m : Fin 2048) g i, s.up = true → (s.pa m.val).rx.prev = some i → (s.pa m.val).rx.graceEnd = some g →
      (gtsTime s.gts < gtsTime g → exec (.graceEnd m) s = .next s) ∧
      (gtsTime g ≤ gtsTime s.gts → ∃ t, exec (.graceEnd m) s = .next t ∧ (t.pa m.val).rx.prev = none ∧
        (t.pa m.val).rx.cur = (s.pa m.val).rx.cur ∧
        (kState (s.krow (4 * m.val + i)) = kLoaded → kState (t.krow (4 * m.val + i)) = kErasing)))

/-- R216 to R224, R525: the key store. An erase makes a LOADED slot ERASING; once no job holds it its row is zero and
EMPTY, or its row is retired and a spare takes the slot. A re-split changes both shares alike, so the key stands.
KEY_ATTR_GET shows the word to those who may see it. An unwrap is checked from the top of its table, then waits for
the decision of code 6; two unwraps never run at once; 16 failures within 60 s throttle for 60 s. A re-split waits
until the harvest gives its 256 bits (R525). Completes: KEY_CMD_ERASE, KEY_ERASE, KEY_ERASE_FINISH, RESPLIT,
KEY_CMD_RESPLIT, KEY_ATTR_GET, KEY_UNWRAP, KEY_UNWRAP_GO, UNWRAP_THROTTLE_END. -/
def Obligations.KeyStore : Prop :=
  ∀ (s : State) (r : Req), s.up = true →
    let p := r.payload
    let slot := leAt p 0 2
    (∀ n by_ w, kState (s.krow n) = kLoaded → ∃ k, s.eraseSlot n by_ w = s.setKrow n k ∧ kState k = kErasing ∧
      k.s0 = (s.krow n).s0 ∧ k.s1 = (s.krow n).s1 ∧ k.holds = (s.krow n).holds) ∧
    (exec .keyCmdErase s = .next (s.eraseSlot s.key.slotSel.toNat true none)) ∧
    (s.begins 0x0408 r → 8192 ≤ slot → slot < 16384 → kState (s.krow slot) = kLoaded →
      exec (.keyErase r) s = .next ((s.begun 0x0408 r).eraseSlot slot false (some (r.party, r.tag)))) ∧
    (s.begins 0x0408 r → 16384 ≤ slot →
      exec (.keyErase r) s = .next ((s.begun 0x0408 r).holdFor true r.party 0x0408 r.tag stRejected false [])) ∧
    (s.begins 0x0408 r → slot < 8192 →
      exec (.keyErase r) s = .next ((s.begun 0x0408 r).holdFor true r.party 0x0408 r.tag stAccess false [])) ∧
    (∀ n : Fin 16384, kState (s.krow n.val) = kErasing →
      ((s.krow n.val).holds ≠ 0 → ∀ z, exec (.keyEraseFinish n z) s = .next s) ∧
      ((s.krow n.val).holds = 0 → s.key.unwrap = none →
        ∃ t, exec (.keyEraseFinish n true) s = .next t ∧ t.krow n.val = {} ∧ (∀ m, m ≠ n.val → t.krow m = s.krow m) ∧
          ((s.krow n.val).byCmd = true → bit t.key.events 5 = true)) ∧
      (∀ ph, (s.krow n.val).holds = 0 → s.key.unwrap = none → s.phys .keyRow n.val = some ph →
        ∃ t, exec (.keyEraseFinish n false) s = .next t ∧ ph ∈ t.ret.keyRow.retired ∧
          (t.krow n.val = {} ∨ t.krow n.val = setKState {} kUnusable) ∧ bit t.key.events 1 = true)) ∧
    (∀ n : Fin 16384, kState (s.krow n.val) = kLoaded → 65536 ≤ (s.krow n.val).loads → s.canDraw 4 256 = true →
      ∃ t, exec (.resplit n) s = .next t ∧ (t.krow n.val).s0 ^^^ (t.krow n.val).s1 = (s.krow n.val).s0 ^^^ (s.krow n.val).s1 ∧
        (t.krow n.val).attr = (s.krow n.val).attr ∧ (t.krow n.val).loads = 0 ∧ (∀ m, m ≠ n.val → t.krow m = s.krow m)) ∧
    (∀ n : Fin 16384, (s.krow n.val).loads < 65536 → exec (.resplit n) s = .next s) ∧
    (kState (s.krow s.key.slotSel.toNat) = kLoaded → s.canDraw 4 256 = true →
      ∃ t, exec .keyCmdResplit s = .next t ∧ (∀ m, (t.krow m).s0 ^^^ (t.krow m).s1 = (s.krow m).s0 ^^^ (s.krow m).s1) ∧
        (t.krow s.key.slotSel.toNat).loads = 0) ∧
    (s.canDraw 4 256 = false → ∃ t, exec .keyCmdResplit s = .next t ∧
      ∀ m, (t.krow m).s0 = (s.krow m).s0 ∧ (t.krow m).s1 = (s.krow m).s1) ∧
    (s.begins 0x0407 r → slot < 16384 →
      let k := s.krow slot
      let sees : Bool := match midFn r.party with
        | some 0 => true
        | some fn => att k 21 16 = fn || att k 5 5 = 1
        | none => att k 6 6 = 1
      exec (.keyAttrGet r) s = .next ((s.begun 0x0407 r).holdFor true r.party 0x0407 r.tag stOk false
        (le 8 (if sees then k.attr.toNat else 0)))) ∧
    (s.begins 0x0406 r → s.key.unwrap = none → 8192 ≤ slot → slot < 16384 →
      let u : Unwrap := { slot := slot, epoch := 0, sealB := sub p 4 80, party := r.party, tag := r.tag, pa := none,
                          replace := false }
      exec (.keyUnwrap r) s = .next ((s.begun 0x0406 r).unwrapStart u (leAt p 2 2 = 0) true)) ∧
    (s.key.unwrap.isSome = true → (s.outstanding r.party).length < 16 → exec (.keyUnwrap r) s = .next s) ∧
    (∀ v : BitVec 32, s.key.unwrap = none →
      let s' : State := { s with key := { s.key with unSlot := BitVec.ofNat 14 (fld v 13 0), unEpoch := BitVec.ofNat 8 (fld v 21 14) } }
      exec (.keyUnwrapGo v) s = .next (s'.unwrapStart
        { slot := fld v 13 0, epoch := fld v 21 14, sealB := s.sealRegs, party := 0, tag := 0, pa := none, replace := false }
        (fld v 13 0 < 8192 || fld v 21 14 = 0) true)) ∧
    (∀ v : BitVec 32, s.key.unwrap.isSome = true → exec (.keyUnwrapGo v) s = .next s) ∧
    (∀ u fieldsOk algOk st, s.unwrapCheck u fieldsOk algOk = some st →
      let t := s.unwrapStart u fieldsOk algOk
      t.key.unwrap = none ∧ t.key.unResult = (if st = stOk then 2 else 3) ∧ t.key.rows = s.key.rows) ∧
    (∀ u w, s.unwrapCheck u true true = none → s.key.transRow = some (w, BitVec.ofNat 32 (leAt u.sealB 0x4C 4)) →
      (s.unwrapStart u true true).key.unwrap = some { u with ok6 := s.wrapOpens } ∧
      (s.unwrapStart u true true).key.rows = s.key.rows ∧
      ∃ d ∈ (s.unwrapStart u true true).tmp.decisions, d.what = .kekUnwrap ∧ d.first = s.wrapOpens) ∧
    (∀ a, s.key.throttledAt = some a →
      (s.now < a + 60 * secC → exec .unwrapThrottleEnd s = .next s) ∧
      (a + 60 * secC ≤ s.now →
        exec .unwrapThrottleEnd s = .next { s with key := { s.key with throttledAt := none, fails := [] } }))

/-- R235 to R243, R246, R247: the modular engines. An operation starts on an idle, ready engine outside HALT and
computes its result from the operand pages as GO finds them: sum, difference, Montgomery product, inverse, power; a
value that is refused leaves no result; a refused size or page leaves the result page alone; GO while busy sets
OVERLAP and changes nothing else. At its end the result stands on the result page, or the page is erased with FAIL; a
retired engine that still runs ends first (log entry 142), and a signature that its own check fails is asked for
again. P521_SIGN waits until the harvest gives its 1,106 bits; a nonce below n that gives r and s other than 0 serves.
Data is read as 0 from a secret page. Completes: ME_ADD, ME_SUB, MMUL, INV, EXP, ME_LOAD, ME_CLEAR, P521_SIGN,
P521_VERIFY, P521_PUBKEY, ENGINE_DONE, KEY_ME_DATA_READ, KEY_ME_DATA_WRITE, KEY_ME_LOCK, ENGINE_ASSAY_GO. -/
def Obligations.ModularEngines : Prop :=
  ∀ (s : State) (n : Fin 4) (w : BitVec 9), s.up = true →
    let e := s.eng n.val
    let A := pageNum e (fld e.ops 5 0) 0 w.toNat
    let B := pageNum e (fld e.ops 13 8) 0 w.toNat
    let M := pageNum e (fld e.ops 21 16) 0 w.toNat
    let free : Prop := e.running = false ∧ e.waitsGo = false ∧ s.engineReady n.val = true ∧ s.halted = false
    let sized : Prop := 0 < w.toNat ∧ w.toNat ≤ 256 ∧ fld e.ops 29 24 < 48
    let starts (c : Instr) (op : Nat) (v : Option Nat) : Prop := free → sized → fld e.ops 29 24 ≠ fld e.ops 21 16 →
      ∃ k, exec c s = .next (s.setEng n.val k) ∧ k.running = true ∧ k.result = 1 ∧ k.mem = e.mem ∧ k.ops = e.ops ∧
        fld k.cmd 3 0 = op ∧ k.out = v.map (numWords w.toNat) ∧ k.resPage = fld e.ops 29 24 ∧ k.secret = e.secret ∧
        k.for_ = .register
    let busy (c : Instr) : Prop := e.running = true ∨ e.waitsGo = true →
      exec c s = .next { s with hme := { s.hme with meEvents := setBit s.hme.meEvents 2 true } }
    (3 ≤ M → A < M → B < M → starts (.meAdd n w) 1 (some ((A + B) % M)) ∧ starts (.meSub n w) 2 (some ((A + M - B) % M)) ∧
      (M % 2 = 1 → starts (.mmul n w) 3 (modOp 3 w.toNat A B M) ∧ starts (.invM n w) 4 (modOp 4 w.toNat A B M) ∧
        starts (.expM n w) 5 (some (powMod M (32 * w.toNat) A B)))) ∧
    (M < 3 ∨ M ≤ A ∨ M ≤ B → starts (.meAdd n w) 1 none ∧ starts (.meSub n w) 2 none ∧ starts (.mmul n w) 3 none) ∧
    (free → sized → ∃ k, exec (.meClear n w) s = .next (s.setEng n.val k) ∧ k.running = true ∧ k.out = some [] ∧
      k.resPage = fld e.ops 29 24 ∧ k.mem = e.mem) ∧
    (∀ v l, free → sized → s.secretOf e.par w.toNat = some (v, l) →
      ∃ t, exec (.meLoad n w) s = .next t ∧ (t.eng n.val).running = true ∧ (t.eng n.val).out = some (numWords w.toNat v) ∧
        (t.eng n.val).outSecret = true ∧ (t.eng n.val).holds = l ∧ (t.eng n.val).mem = e.mem) ∧
    (free → w = 17 → fld e.ops 29 24 < 48 → s.hme.progs = true →
      (∀ d l, s.secretOf e.par 17 = some (d, l) → 0 < d → d < ecN →
        (s.canDraw 3 signNoise = true →
          let k := (s.draw 3 521).1
          0 < k → k < ecN → (ecdsaSign d A k).1 ≠ 0 → (ecdsaSign d A k).2 ≠ 0 →
          ∃ t, exec (.p521Sign n w) s = .next t ∧ (t.eng n.val).running = true ∧ (t.eng n.val).holds = l ∧
            (t.eng n.val).out = some (numWords 17 (ecdsaSign d A k).1 ++ numWords 17 (ecdsaSign d A k).2) ∧
            t.nh.b3 = s.nh.b3.drop 1106) ∧
        (s.canDraw 3 signNoise = false →
          ∃ t, exec (.p521Sign n w) s = .next t ∧ (t.eng n.val).running = false ∧ (t.eng n.val).waitsGo = true) ∧
        (∃ t, exec (.p521Pubkey n w) s = .next t ∧ (t.eng n.val).running = true ∧
          (t.eng n.val).out = (ecPublic d).map (fun q => numWords 17 q.1 ++ numWords 17 q.2))) ∧
      (∃ t, exec (.p521Verify n w) s = .next t ∧ (t.eng n.val).running = true ∧
        (t.eng n.val).out = (if ecdsaVerify (pageNum e (fld e.ops 13 8) 0 17) (pageNum e (fld e.ops 13 8) 17 17) A
          (pageNum e (fld e.ops 21 16) 0 17) (pageNum e (fld e.ops 21 16) 17 17) then some [] else none))) ∧
    (free → 256 < w.toNat ∨ w.toNat = 0 ∨ 48 ≤ fld e.ops 29 24 →
      ∃ k, exec (.meAdd n w) s = .next (s.setEng n.val k) ∧ k.out = none ∧ k.resPage = 64 ∧ k.mem = e.mem) ∧
    busy (.meAdd n w) ∧ busy (.meSub n w) ∧ busy (.mmul n w) ∧ busy (.invM n w) ∧ busy (.expM n w) ∧ busy (.meLoad n w) ∧
    busy (.meClear n w) ∧
    (s.hme.away.find? (·.1 == n.val) = none → e.running = true →
      exec (.engineDone n false) s = .next (((s.endOp n.val).signDone n.val e).seekSign) ∧
      (signing e = true → exec (.engineDone n true) s = .next (((s.signFails n.val).endOp n.val).signAgain n.val e))) ∧
    (∀ a c, s.hme.away.find? (·.1 == n.val) = some a → ∃ t, exec (.engineDone n c) s = .next t ∧
      t.hme.away = s.hme.away.filter (·.1 != n.val) ∧ t.hme.engines = s.hme.engines) ∧
    (∀ ws, e.drop = false → e.out = some ws → e.resPage < 48 → ws.length ≤ 256 →
      let k := (s.endOp n.val).eng n.val
      k.running = false ∧ k.result = 2 ∧ (∀ (i : Nat) v, ws[i]? = some v → tget 0 k.mem (e.resPage * 256 + i) = v) ∧
      (∀ a, a / 256 ≠ e.resPage → tget 0 k.mem a = tget 0 e.mem a) ∧ k.holds = []) ∧
    (e.drop = false → e.out = none → e.resPage < 48 →
      let k := (s.endOp n.val).eng n.val
      k.running = false ∧ k.result = 3 ∧ (∀ a, a / 256 = e.resPage → tget 0 k.mem a = 0) ∧
      (∀ a, a / 256 ≠ e.resPage → tget 0 k.mem a = tget 0 e.mem a)) ∧
    (exec (.keyMeDataRead n) s = .next (s.setEng n.val { e with addr := e.addr + 1 })) ∧
    (isSecret e (e.addr.toNat / 256) = true → (s.dataRead n.val).1 = 0) ∧
    (∀ v, e.running = false → isSecret e (e.addr.toNat / 256) = false →
      (e.addr.toNat / 256 < 48 → exec (.keyMeDataWrite n v) s =
        .next (s.setEng n.val { e with mem := tset 0 e.mem e.addr.toNat v, addr := e.addr + 1 })) ∧
      (48 ≤ e.addr.toNat / 256 → s.hme.progLock = false → exec (.keyMeDataWrite n v) s =
        .next (s.setEng n.val { e with written := tset none e.written e.addr.toNat (some v), addr := e.addr + 1 })) ∧
      (48 ≤ e.addr.toNat / 256 → s.hme.progLock = true → exec (.keyMeDataWrite n v) s =
        .next (s.setEng n.val { e with addr := e.addr + 1 }))) ∧
    (∀ v, e.running = true → exec (.keyMeDataWrite n v) s = .next (s.setEng n.val { e with addr := e.addr + 1 })) ∧
    (exec .keyMeLock s = .next { s with hme := { s.hme with progLock := true } }) ∧
    (∀ v : BitVec 32, s.assayBusy .engine = false → fld v 2 0 ≤ 4 → s.mayAssay .engine (fld v 2 0) = true →
      ∃ t, exec (.engineAssayGo v) s = .next t ∧ t.hme.meAssayResult = 1 ∧ t.hme.meAssay.toNat = fld v 2 0 ∧
        t.underAssay .engine (fld v 2 0) = true) ∧
    (∀ v : BitVec 32, 4 < fld v 2 0 → exec (.engineAssayGo v) s = .next s)

/-- R250 to R261, R524: the noise harvest. A window that passes both health tests is released; one that fails is
discarded whole, and the cell begins its start-up test again or is retired. 4,096 passing bits end the start-up test.
1,152 released bits give a block of 512, handed out to the waiting draws first and then to the pools. A core's read
takes a word of the software pool, or waits; after 10 us it will read 0, with UNDERRUN. In power-fail prepare the
draws of precedence 1 and the reserve pool alone are served. The test pattern is the Factory state's alone. Completes:
WINDOW_RELEASE, STARTUP_TEST_DONE, CONDITIONER_BLOCK, KEY_NH_RAND_READ, NH_RAND_TIMEOUT, TEST_EN_WRITE. -/
def Obligations.NoiseHarvest : Prop :=
  ∀ (s : State), s.up = true → s.clk.rootOk = true →
    (∀ (cell : Fin 272) (bits : BitVec 1024), s.cellServes cell.val = true → (s.cell cell.val).passed = true → s.nh.testEn = false →
      let c := s.cell cell.val
      let b := rawBits bits 1024
      let o := rct b c.last c.run false
      (o.1 = false → aptBad b = false → exec (.windowRelease cell bits) s =
        .next (let t := s.setCell cell.val { c with last := o.2.1, run := o.2.2, ones := b.countP id }
          { t with nh := { t.nh with windows := s.nh.windows ++ b } })) ∧
      (o.1 = true → ∃ t, exec (.windowRelease cell bits) s = .next t ∧ t.nh.windows = s.nh.windows ∧
        (t.cell cell.val).passed = false ∧ bit t.nh.events 1 = true ∧
        ∃ q ∈ t.ret.waiting.map (·.phys) ++ (t.ret.get .noiseCell).retired, q = cell.val) ∧
      (o.1 = false → aptBad b = true → ∃ t, exec (.windowRelease cell bits) s = .next t ∧ t.nh.windows = s.nh.windows ∧
        (t.cell cell.val).passed = false ∧ bit t.nh.events 0 = true)) ∧
    (∀ (cell : Fin 272) (bits : BitVec 4096), s.cellServes cell.val = true → (s.cell cell.val).passed = false → s.nh.testEn = false →
      s.underAssay .noiseCell cell.val = false →
      let c := s.cell cell.val
      let b := rawBits bits 4096
      ((rct b c.last c.run false).1 = false → (windowsOf b).any aptBad = false →
        ∃ t, exec (.startupTestDone cell bits) s = .next t ∧ (t.cell cell.val).passed = true ∧ t.nh.windows = s.nh.windows) ∧
      ((rct b c.last c.run false).1 = false → (windowsOf b).any aptBad = true →
        ∃ t, exec (.startupTestDone cell bits) s = .next t ∧ (t.cell cell.val).passed = false ∧ bit t.nh.events 0 = true)) ∧
    (∀ (cell : Fin 272) (bits : BitVec 4096), s.underAssay .noiseCell cell.val = true → (s.cell cell.val).passed = false →
      (s.ret.get .noiseCell).bringIn = none →
      ∃ t, exec (.startupTestDone cell bits) s = .next t ∧ t.underAssay .noiseCell cell.val = false) ∧
    (s.nh.started = true → s.noiseWanted = true → 1152 ≤ s.nh.windows.length →
      exec .conditionerBlock s = .next (({ s with nh := { s.nh with windows := s.nh.windows.drop 1152 } } : State).handOut
        (s.nh.left ++ bitsOf (Machine.sha512 (packBits (s.nh.windows.take 1152)))))) ∧
    (∀ b : List Bool, b.length = 512 → s.nh.w1 = 0 → s.bch.reserve.length ≤ 1016 →
      (s.handOut b).bch.reserve = s.bch.reserve ++ (upto 8).map (fun i => drawOf ((b.drop (64 * i)).take 64)) ∧
      (s.handOut b).bch.general = s.bch.general) ∧
    (∀ b : List Bool, b.length ≤ s.nh.w1 → (s.handOut b).bch = s.bch ∧ (s.handOut b).nh.soft = s.nh.soft ∧
      (s.tmp.decisions = [] → (s.handOut b).nh.w1 = s.nh.w1 - b.length ∧ (s.handOut b).nh.b1 = s.nh.b1 ++ b)) ∧
    (∀ b : List Bool, s.pwr.prepare = true → (s.handOut b).bch.general = s.bch.general ∧ (s.handOut b).nh.soft = s.nh.soft ∧
      (s.handOut b).nh.b3 = s.nh.b3 ∧ (s.handOut b).nh.b4 = s.nh.b4) ∧
    (∀ mid w l, (midCore mid).isSome = true → s.nh.soft = w :: l → (∀ x ∈ s.nh.waits, x.1 = mid → x.2.2 = false) →
      exec (.keyNhRandRead mid) s =
        .next { s with nh := { s.nh with soft := l, waits := s.nh.waits.filter (·.1 != mid) } }) ∧
    (∀ mid m a, (midCore mid).isSome = true → s.nh.waits.find? (·.1 == mid) = some (m, a, true) →
      ∃ t, exec (.keyNhRandRead mid) s = .next t ∧ s.randRead mid = some (0, t) ∧ t.nh.soft = s.nh.soft ∧
        tget false t.nh.underrun mid = true ∧ bit t.nh.events 4 = true) ∧
    (∀ mid, (midCore mid).isSome = true → s.nh.soft = [] → s.nh.waits = [] → s.nh.exhausted = false →
      exec (.keyNhRandRead mid) s = .next { s with nh := { s.nh with waits := [(mid, s.now, false)] } }) ∧
    (∀ mid a, s.nh.waits = [(mid, a, false)] → a + 10 * usC ≤ s.now →
      exec (.nhRandTimeout mid) s = .next { s with nh := { s.nh with waits := [(mid, a, true)] } }) ∧
    (∀ on, s.lc.lifecycle = 0 → ∃ t, exec (.testEnWrite on) s = .next t ∧ t.nh.testEn = on ∧
      (s.nh.testEn = true → on = false → t.bch.reserve = [] ∧ t.bch.general = [] ∧ t.nh.soft = [])) ∧
    (∀ on, s.lc.lifecycle ≠ 0 → exec (.testEnWrite on) s = .next s)

/-- R265, R270, R271, R273, R279 to R283, R291: intake and sequencing. A record of class 0 at the head of its path is
accepted into the reserve; a record of C2 or C3 under pressure is dropped into the gap of its class; a repeat in
INCIDENT is counted and not sequenced. The oldest staged record takes the next DSEQ and a link over the last one and
stands in the open drawer. A program that the governor has admitted ends: once every segment it stands in has
programmed, a record is committed; a failure retires the block and keeps the records. Runs and gaps older than 1 s
close; INCIDENT entered by itself ends after 10 s of calm. Completes: RECORD_INTAKE, RECORD_SEQUENCE,
SEGMENT_PROGRAM_DONE, LARGE_RECORD_SECOND_READ, RUN_TIMEOUT, GAP_TIMEOUT, INCIDENT_EXIT. -/
def Obligations.ArchiveIntake : Prop :=
  ∀ (s : State), s.up = true → s.arc.ready = true →
    (∀ a l, s.arc.arrivals = a :: l → a.r.cls = 0 → s.heldNow a = false → (s.arc.full = false ∨ a.waiter = .none) →
      ∃ t, exec .recordIntake s = .next t ∧ t.arc.staged = s.arc.staged ++ [⟨a.r, a.waiter⟩] ∧ t.arc.arrivals = l ∧
        t.arc.resUsed = s.arc.resUsed + appendRoom a.r.body.length ∧ t.arc.genUsed = s.arc.genUsed) ∧
    (∀ a l, s.arc.arrivals = a :: l → 2 ≤ a.r.cls.toNat → s.heldNow a = false → s.arc.full = false → a.reserved = false →
      a.waiter = .none → 3 * genArea ≤ 4 * s.arc.genUsed →
      ∃ t, exec .recordIntake s = .next t ∧ t.arc.staged = s.arc.staged ∧ t.arc.arrivals = l ∧
        ∃ g ∈ t.arc.gaps, g.cls = a.r.cls.toNat ∧ g.cause = 1 ∧ g.last = a.r.gts) ∧
    (∀ a l, s.arc.arrivals = a :: l → s.heldNow a = false → s.arc.full = false → s.isRepeat a.r = true → a.waiter = .none →
      ∃ t x, exec .recordIntake s = .next t ∧ t.arc.staged = s.arc.staged ∧ t.arc.arrivals = l ∧ x ∈ t.arc.runs ∧
        x.src = a.r.src ∧ 1 ≤ x.repeats ∧ x.last = a.r.gts) ∧
    (s.arc.arrivals = [] → exec .recordIntake s = .next s) ∧
    (∀ x l d, s.arc.staged = x :: l → s.arc.openDrawer = some d → x.r.body.length ≤ 1048576 →
      d.len + padded x.r.body.length + s.backRoom d ≤ drawerMax → s.arc.large = [] →
      (s.arc.segs.filter fun g => g.prog < g.fill || !g.closed).length + s.segsFor (padded x.r.body.length) ≤ 32 →
      ∃ t ar, exec .recordSequence s = .next t ∧ t.arc.staged = l ∧ ar ∈ t.arc.recs ∧ ar.r.dseq = s.arc.nextDseq ∧
        ar.r.typ = x.r.typ ∧ ar.r.src = x.r.src ∧ ar.r.cls = x.r.cls ∧ ar.r.gts = x.r.gts ∧ ar.r.body = x.r.body ∧
        ar.r.link = recLink s.arc.lastLink ar.r ∧ ar.drawer = d.num ∧ ar.off = d.len) ∧
    (s.arc.staged = [] → exec .recordSequence s = .next s) ∧
    (∀ seg g b, let v := s.govern
      v.arc.segs.find? (·.num == seg) = some g → v.blockOf seg = some b → v.arc.programs.contains seg = true →
      g.prog < g.fill → v.largeIn seg = false →
      exec (.segmentProgramDone seg .pass) s = .next (({ v with arc := { v.arc with
        programs := v.arc.programs.filter (· != seg), scrubbed := tset 0 v.arc.scrubbed seg v.now
        segs := v.arc.segs.map fun x => if x.num = seg then { x with prog := x.fill } else x } } : State).commitScan) ∧
      (∃ t, exec (.segmentProgramDone seg .fail) s = .next t ∧ bit t.arc.faultA 31 = true ∧
        (t.ret.waiting.any (fun q => q.cls == .nandBlock && q.phys == b) || t.ret.nandBlock.retired.contains b) = true ∧
        t.arc.recs = s.arc.recs) ∧
      exec (.segmentProgramDone seg .noStatus) s = .next (v.statusFails b)) ∧
    (∀ seg e, s.govern.arc.programs.contains seg = false → exec (.segmentProgramDone seg e) s = .next s) ∧
    (∀ a ∈ s.arc.recs, s.programmed a = true → ∃ b ∈ s.commitScan.arc.recs, b.r = a.r ∧ b.committed = true) ∧
    (s.commitScan.arc.recs.map (·.r) = s.arc.recs.map (·.r)) ∧
    (∀ dseq w a data, s.arc.large.find? (·.1 == dseq) = some (dseq, w) → s.arc.recs.find? (·.r.dseq == dseq) = some a →
      ∃ t, exec (.largeRecordSecondRead dseq data) s = .next t ∧ ∀ x ∈ t.arc.large, x.1 ≠ dseq) ∧
    (∀ d, s.arc.openDrawer = some d → (∀ x ∈ s.arc.runs, x.orig ≠ 0) →
      ∃ t, exec .runTimeout s = .next t ∧ t.arc.runs = s.arc.runs.filter (fun x => !(x.openedAt + secC ≤ s.now))) ∧
    (∀ d, s.arc.openDrawer = some d →
      ∃ t, exec .gapTimeout s = .next t ∧ t.arc.gaps = s.arc.gaps.filter (fun g => !(g.openedAt + secC ≤ s.now))) ∧
    (∀ a, s.arc.calmAt = some a → s.arc.auto = true → a + 10 * secC ≤ s.now →
      ∃ t, exec .incidentExit s = .next t ∧ t.pwr.profile = s.pwr.returnTo.getD .guard ∧ t.arc.auto = false ∧
        t.pwr.returnTo = none) ∧
    (∀ a, s.arc.calmAt = some a → s.now < a + 10 * secC → exec .incidentExit s = .next s)

/-- R264, R272 to R278, R284, R286 to R290, R292 to R295: drawers, blocks and the archive's commands. A close
condition closes a drawer that holds its predecessor's SEAL, and otherwise waits at most 1 s: the drawer stands closed
with its cause and the next one is open. Intake opens with the first drawer, or 65,537 past the last committed DSEQ
behind a GAP. A refresh moves a block's segments to a block of the refresh headroom; an erase readies a block, and one
that fails retires it; failed training retires the channel. The commands append, read, give seals and status, and set
the close interval. Completes: ARC_FORCE_CLOSE, CLOSE_INTERVAL_EXPIRY, SEAL_DEFER_TIMEOUT, ARCHIVE_INTAKE_OPEN,
EMERGENCY_SET_READY, SCRUB_READ, BLOCK_REFRESH, BLOCK_ERASE_DONE, CHANNEL_TIMEOUT, ARC_APPEND, ARC_READ, ARC_SEAL_GET,
ARC_STATUS, ARC_CONFIG. -/
def Obligations.ArchiveUpkeep : Prop :=
  ∀ (s : State) (r : Req), s.up = true →
    let p := r.payload
    let closes (t : State) (d : Drawer) (cause : Nat) : Prop :=
      ∃ c o, t.arc.closed.head? = some c ∧ c.num = d.num ∧ c.cause = cause ∧ t.arc.openDrawer = some o ∧
        o.num = s.arc.nextDrawer ∧ t.arc.nextDrawer = s.arc.nextDrawer + 1
    (∀ d, s.arc.ready = true → s.arc.openDrawer = some d → d.hasSeal = true → d.closeAt = none →
      (∃ t, exec .arcForceClose s = .next t ∧ closes t d 16) ∧
      (s.arc.prepare = false → d.content = true → d.openedAt + s.closeInt ≤ s.now →
        ∃ t, exec .closeIntervalExpiry s = .next t ∧ closes t d 4)) ∧
    (∀ d, s.arc.ready = true → s.arc.openDrawer = some d → d.hasSeal = false → d.closeAt = none → s.halted = false →
      s.noEngine = false → exec .arcForceClose s = .next { s with arc := { s.arc with
        openDrawer := some { d with closeAt := some s.now, cause := 16 } } }) ∧
    (∀ d a, s.arc.openDrawer = some d → d.closeAt = some a → d.hasSeal = false →
      (a + secC ≤ s.now → ∃ t, exec .sealDeferTimeout s = .next t ∧ closes t d (d.cause + 32)) ∧
      (s.now < a + secC → exec .sealDeferTimeout s = .next s)) ∧
    (s.lc.fw = .running → s.arc.ready = false → s.arc.keyLoaded = true →
      (s.arc.begun = false → ∃ t o a, exec .archiveIntakeOpen s = .next t ∧ t.arc.ready = true ∧ t.arc.openDrawer = some o ∧
        o.num = s.arc.nextDrawer ∧ a ∈ t.arc.recs ∧ a.r.typ = 1 ∧ a.r.dseq = s.arc.nextDseq) ∧
      (∀ d, s.arc.begun = true → s.arc.openDrawer = some d → ∃ t a, exec .archiveIntakeOpen s = .next t ∧ t.arc.ready = true ∧
        a ∈ t.arc.recs ∧ a.r.typ = 4 ∧ a.r.dseq = s.arc.committed + 65536)) ∧
    (∀ l rest, s.arc.emPend = l :: rest → exec .emergencySetReady s = .next { s with arc := { s.arc with
      emPend := rest, emSets := s.arc.emSets ++ [l] } }) ∧
    (∀ seg b, s.blockOf seg = some b → s.arc.ready = true → s.pwr.shed = 0 → (∀ g ∈ s.arc.segs, g.num ≠ seg) →
      let s' : State := { s with arc := { s.arc with scrubbed := tset 0 s.arc.scrubbed seg s.now } }
      (∀ n, n ≤ 3 → exec (.scrubRead seg (.hard n)) s = .next s') ∧
      (∀ n, 3 < n → ∃ t, exec (.scrubRead seg (.hard n)) s = .next t ∧ (t.nblk b).due = true ∧ bit t.arc.faultA 31 = true) ∧
      (∃ t, exec (.scrubRead seg .soft) s = .next t ∧ (t.nblk b).due = true) ∧
      (∀ m, s.newWords seg m ≠ [] → ∃ t, exec (.scrubRead seg (.unreadable m)) s = .next t ∧ bit t.arc.events 5 = true ∧
        (∀ w ∈ s.newWords seg m, w ∈ t.arc.bad) ∧
        ∀ a ∈ s.arc.recs, (s.newWords seg m).any (inWord a) = true → ∃ c ∈ t.arc.recs, c.r = a.r ∧ c.unreadable = true)) ∧
    (∀ (block : Fin 1310720) nb, (s.nblk block.val).due = true → (s.nblk block.val).retired = false → 0 < s.arc.headroom →
      (s.diesOf (block.val / 163840)).findSome? (fun d => s.freeBlock (block.val / 163840) d [block.val] 20480) = some nb →
      ∃ t, exec (.blockRefresh block) s = .next t ∧ (t.nblk nb).segs = (s.nblk block.val).segs ∧ (t.nblk block.val).segs = [] ∧
        (t.nblk block.val).due = false ∧ (t.nblk block.val).erasing = some .headroom ∧
        t.arc.headroom = s.arc.headroom - 1 ∧ bit t.arc.events 4 = true) ∧
    (∀ (block : Fin 1310720) f, let v := s.govern
      (v.nblk block.val).erasing = some f → v.arc.erases.contains block.val = true →
      (∃ t, exec (.blockEraseDone block .pass) s = .next t ∧ (t.nblk block.val).erasing = none ∧
        t.arc.ahead = v.arc.ahead ++ (if f = .ahead then [block.val] else []) ∧
        t.arc.headroom = v.arc.headroom + (if f = .headroom then 1 else 0)) ∧
      (∃ t, exec (.blockEraseDone block .fail) s = .next t ∧ (t.nblk block.val).erasing = none ∧
        (t.ret.waiting.any (fun q => q.cls == .nandBlock && q.phys == block.val) || t.ret.nandBlock.retired.contains block.val) = true) ∧
      exec (.blockEraseDone block .noStatus) s = .next (v.statusFails block.val)) ∧
    (∀ ch : Fin 8, (s.nch ch.val).retired = false →
      (∃ t, exec (.channelTimeout ch true) s = .next t ∧ (t.nch ch.val).retired = true ∧ (t.nch ch.val).dies = 0) ∧
      ((s.nch ch.val).timeouts = [] → ∃ t, exec (.channelTimeout ch false) s = .next t ∧
        t.nch ch.val = { s.nch ch.val with timeouts := [s.now] } ∧ bit t.arc.faultA 31 = true)) ∧
    (∀ (b : Bytes) body, s.begins 0x0501 r → 0x8000 ≤ leAt p 0 2 → leAt p 0 2 ≠ 0xFFFF → leAt p 2 1 ≤ 3 → leAt p 3 1 ≤ 1 →
      leAt p 6 2 = 0 → leAt p 16 4 = b.length → b.length ≤ 16777216 → s.mayUseSource r.party (leAt p 4 2) = true →
      s.arc.full = false → (if (midFn r.party).isSome then s.partyMoves r.party = true ∧ body = some b
        else 0 < b.length ∧ ((s.begun 0x0501 r).readBuffer r.party (leAt p 8 8) (leAt p 16 4)).2 = some b) →
      ∃ t a, exec (.arcAppend r body) s = .next t ∧ t.arc.arrivals = s.arc.arrivals ++ [a] ∧ a.r.typ = leAt p 0 2 ∧
        a.r.src = leAt p 4 2 ∧ a.r.cls.toNat = leAt p 2 1 ∧ a.r.body = b ∧ a.r.gts = s.gts ∧ t.drn.held = s.drn.held ∧
        a.waiter = (if leAt p 3 1 = 1 then .cmdCommit r.party r.tag else .cmdSeq r.party r.tag)) ∧
    (∀ b, s.begins 0x0501 r → (leAt p 0 2 < 0x8000 ∨ 3 < leAt p 2 1) → exec (.arcAppend r b) s =
      .next ((s.begun 0x0501 r).holdFor true r.party 0x0501 r.tag stRejected false [])) ∧
    (s.begins 0x0502 r → s.mayMove 0 = true → leAt p 8 4 = 0 → ∃ t, exec (.arcRead r) s = .next t ∧
      t.answers r 0x0502 stOk (le 4 0 ++ le 4 0 ++ le 8 (leAt p 0 8)) ∧ t.pci.gen = s.pci.gen) ∧
    (∀ a rest, s.begins 0x0502 r → s.mayMove 0 = true → leAt p 8 4 = 1 → padded a.r.body.length ≤ leAt p 20 4 →
      (recStream a.r (standing a)).length = padded a.r.body.length → a.unreadable = false →
      (s.arc.recs.dropWhile fun a => a.r.dseq < leAt p 0 8).takeWhile (·.committed) = a :: rest →
      ∃ t, exec (.arcRead r) s = .next t ∧
        t.answers r 0x0502 stOk (le 4 1 ++ le 4 (padded a.r.body.length) ++ le 8 (a.r.dseq + 1)) ∧ t.arc = s.arc) ∧
    (s.begins 0x0503 r → (s.arc.nextDrawer ≤ leAt p 0 8 → exec (.arcSealGet r) s =
        .next ((s.begun 0x0503 r).holdFor true r.party 0x0503 r.tag stRejected false [])) ∧
      (∀ b, leAt p 0 8 < s.arc.nextDrawer → (s.drawer? (leAt p 0 8)).bind (·.sealB) = some b → exec (.arcSealGet r) s =
        .next ((s.begun 0x0503 r).holdFor true r.party 0x0503 r.tag stOk false b))) ∧
    (s.begins 0x0504 r → exec (.arcStatus r) s = .next ((s.begun 0x0504 r).holdFor true r.party 0x0504 r.tag stOk false
      (le 8 (s.arc.used * 65536) ++ le 1 (s.arc.genUsed * 100 / genArea) ++ le 1 (b2n s.inIncident) ++
        le 2 0 ++ le 4 s.arc.gapsTotal))) ∧
    (s.begins 0x0505 r → 1 ≤ leAt p 0 2 → leAt p 0 2 ≤ 600 → ∃ t, exec (.arcConfig r) s = .next t ∧
      t.answers r 0x0505 stOk [] ∧ fld t.arc.ctrl 9 0 = leAt p 0 2 ∧ fld t.arc.ctrl 16 10 = fld s.arc.ctrl 16 10)

/-- R301 to R323, R326: the code flash. The unlock sequence advances on its writes in order from one MID and breaks
otherwise. The write that completes it starts the command that FL_CMD names: with nothing running, PROGRAM, ERASE,
MARGIN_CHECK, RDP_RAISE and RDP_DESCEND run where they may, and end with the RESULT of the first rule they break where
not; SUSPEND, RESUME and KIND_SET act at once. A program ends with its bits cleared and no others; an erase ends with
its sector erased and no other byte changed. A window read leaves the cells, and the bank's line holds what it read;
one that finds its line there reads no cell. Write protection is only ever set. Completes: FL_UNLOCK_WRITE,
FL_SEQ_TIMEOUT, PROGRAM, ERASE, SUSPEND, RESUME, MARGIN_CHECK, RDP_RAISE, RDP_DESCEND, KIND_SET, FL_COMMAND_DONE,
FL_SUSPEND_HELD_EXPIRY, FLASH_WINDOW_READ, FL_WP_WRITE, FL_SCAN. -/
def Obligations.FlashCommands : Prop :=
  ∀ (s : State) (mid : Nat) (v : BitVec 32), s.up = true →
    let f := s.fls
    let a := f.addr.toNat
    let ls := a / 65536
    let armed (op : Nat) : Prop := f.seq = 5 ∧ f.seqMid = mid ∧ s.now ≤ f.seqAt + 100 * usC ∧ fld f.cmd 3 0 = op
    let s0 : State := { s with fls := { f with data1 := v, seq := 0 } }
    let f0 := s0.fls
    let idle : Prop := f.running = none
    let free : Prop := f.heldOff = false ∧ f.bad.contains ls = false ∧ protectedSector f ls = false
    -- the sequence
    (f.seq = 0 → fld v 15 0 = 0x5A17 → exec (.flUnlockWrite mid 0 v) s =
      .next { s with fls := { f with seq := 1, seqMid := mid, seqAt := s.now } }) ∧
    (f.seq = 1 → f.seqMid = mid → s.now ≤ f.seqAt + 100 * usC → fld v 15 0 = 0xC3E8 →
      exec (.flUnlockWrite mid 0 v) s = .next { s with fls := { f with seq := 2 } }) ∧
    ((f.seq = 0 ∧ fld v 15 0 ≠ 0x5A17 ∨ f.seq = 1 ∧ fld v 15 0 ≠ 0xC3E8 ∨ 0 < f.seq ∧ f.seqMid ≠ mid) →
      exec (.flUnlockWrite mid 0 v) s =
        .next { s with fls := { f with seq := 0, result := 2, events := setBit f.events 6 true } }) ∧
    (∀ pl : BitVec 2, pl ≠ 0 → exec (.flUnlockWrite mid pl v) s = .next s) ∧
    (0 < f.seq → f.seqAt + 100 * usC < s.now → exec .flSeqTimeout s =
      .next { s with fls := { f with seq := 0, result := 2, events := setBit f.events 6 true } }) ∧
    -- PROGRAM
    (armed 1 → idle → free → f.susp = none → f.incomplete.contains (physSector f ls) = false →
      (rawSector f ls = false → a % 8 = 0 → written f a = false →
        exec (.program mid 0 v) s =
          .next { s0 with fls := { f0 with running := some (.program a f.data0 v), lines := tset 0 f.lines (ls / 512) 0 } }) ∧
      (rawSector f ls = false → a % 8 = 0 → written f a = true →
        exec (.program mid 0 v) s = .next (s0.flEnd 4)) ∧
      (rawSector f ls = true → a % 4 = 0 → v = 0 → flCount f a ≠ 0 →
        f.data0 &&& ~~~ BitVec.ofNat 32 (ofLe (flBytes f a 4)) = 0 →
        ∃ t, exec (.program mid 0 v) s = .next t ∧ t.fls.running = some (.program a f.data0 0) ∧
          flCount t.fls a = (if flCount f a = 3 then 2 else 0) ∧ t.fls.cells = f.cells) ∧
      (rawSector f ls = true → a % 4 = 0 → v = 0 → flCount f a = 0 → exec (.program mid 0 v) s = .next (s0.flEnd 5))) ∧
    (∀ e b d0 d1, f.running = some (.program b d0 d1) → e.pass = true → b % 65536 + 8 ≤ 65536 →
      let new := programBytes f b d0 d1
      let at_ (i : Nat) := physSector f (b / 65536) * 65536 + b % 65536 + i
      ∃ t, exec (.flCommandDone e) s = .next t ∧ t.fls.running = none ∧ t.fls.result = 1 ∧ bit t.fls.events 0 = true ∧
        (∀ i, i < new.length → tget 0xFF t.fls.cells (at_ i) = tget 0xFF f.cells (at_ i) &&& new.getD i 0) ∧
        ∀ k, (∀ i, i < new.length → k ≠ at_ i) → tget 0xFF t.fls.cells k = tget 0xFF f.cells k) ∧
    -- ERASE, SUSPEND, RESUME
    (armed 2 → idle → free → f.susp = none → a % 65536 = 0 → f.data0 = 0 → v = 0 →
      ∃ t, exec (.erase mid 0 v) s = .next t ∧ t.fls.running = some (.erase ls) ∧ t.fls.erasedAt = s.now ∧
        t.fls.cells = f.cells ∧ t.fls.counts = f.counts) ∧
    (armed 2 → idle → f.heldOff = false → f.susp = none → f.bad.contains ls = false → protectedSector f ls = true →
      a % 65536 = 0 → f.data0 = 0 → v = 0 →
      ∃ t, exec (.erase mid 0 v) s = .next t ∧ t.fls.result = 3 ∧ bit t.fls.events 7 = true ∧ t.fls.running = none) ∧
    (∀ e n, f.running = some (.erase n) → e.pass = true → f.suspHeld = false →
      let p := physSector f n
      ∃ t, exec (.flCommandDone e) s = .next t ∧ t.fls.running = none ∧ t.fls.result = 1 ∧
        (∀ k, k / 65536 = p → tget 0xFF t.fls.cells k = 0xFF) ∧
        (∀ k, k / 65536 ≠ p → tget 0xFF t.fls.cells k = tget 0xFF f.cells k) ∧ p ∉ t.fls.incomplete) ∧
    (∀ n, armed 3 → f.running = some (.erase n) → (f.resumed = false ∨ f.erasedAt + msC ≤ s.now) → a = 0 → f.data0 = 0 →
      v = 0 → ∃ t u, exec (.suspend mid 0 v) s = .next t ∧ t.fls.running = none ∧ t.fls.susp = some u ∧ u.sector = n ∧
        u.own = false ∧ t.fls.result = 1) ∧
    (∀ n, armed 3 → f.running = some (.erase n) → f.resumed = true → s.now < f.erasedAt + msC → a = 0 → f.data0 = 0 →
      v = 0 → exec (.suspend mid 0 v) s = .next { s0 with fls := { f0 with suspHeld := true } }) ∧
    (∀ n, f.running = some (.erase n) → f.suspHeld = true → f.erasedAt + msC ≤ s.now →
      ∃ t u, exec .flSuspendHeldExpiry s = .next t ∧ t.fls.running = none ∧ t.fls.susp = some u ∧ u.sector = n ∧
        t.fls.suspHeld = false ∧ t.fls.result = 1) ∧
    (∀ u, armed 4 → idle → f.susp = some u → protectedSector f u.sector = false → a = 0 → f.data0 = 0 → v = 0 →
      ∃ t, exec (.resume mid 0 v) s = .next t ∧ t.fls.running = some (.erase u.sector) ∧ t.fls.susp = none ∧
        t.fls.resumed = true ∧ t.fls.erasedAt = s.now ∧ t.fls.result = 1) ∧
    (armed 4 → idle → f.susp = none → exec (.resume mid 0 v) s = .next (s0.flEnd 13)) ∧
    -- MARGIN_CHECK, RDP_RAISE, RDP_DESCEND, KIND_SET
    (armed 5 → idle → f.susp = none → a % 4 = 0 → 4 ≤ f.data0.toNat → a % 65536 + f.data0.toNat ≤ 65536 → v.toNat ≤ 1 →
      exec (.marginCheck mid 0 v) s =
        .next { s0 with fls := { f0 with running := some (.margin a f.data0.toNat (v == 1)) } }) ∧
    (∀ e b n w k, f.running = some (.margin b n w) → e.failAt = some k → b ≤ k → k < b + n → bit f.fault 31 = false →
      ∃ t, exec (.flCommandDone e) s = .next t ∧ t.fls.result = 10 ∧ t.fls.cells = f.cells ∧ t.fls.faultAddr = bf 26 0 k) ∧
    (∀ l : Nat, armed 6 → idle → a = 0 → v = 0 → f.data0.toNat = l → (f.rdp = 0 ∧ (l = 1 ∨ l = 2) ∨ f.rdp = 1 ∧ l = 2) →
      ∃ t, exec (.rdpRaise mid 0 v) s = .next t ∧ t.fls.running = some (.decide l) ∧ t.fls.rdp = f.rdp ∧
        t.tmp.decisions.map (fun d => (d.what, d.first)) = s.tmp.decisions.map (fun d => (d.what, d.first)) ++ [(.rdp l, true)]) ∧
    (armed 6 → idle → f.data0.toNat ≤ f.rdp → exec (.rdpRaise mid 0 v) s = .next (s0.flEnd 13)) ∧
    (armed 7 → idle → a = 0 → f.data0 = 0 → v = 0 → f.rdp = 1 →
      ∃ t, exec (.rdpDescend mid 0 v) s = .next t ∧ t.fls.running = some (.decide 0) ∧ t.fls.rdp = 1 ∧
        t.tmp.decisions.map (fun d => (d.what, d.first)) = s.tmp.decisions.map (fun d => (d.what, d.first)) ++ [(.rdp 0, true)]) ∧
    (armed 7 → idle → f.rdp ≠ 1 → exec (.rdpDescend mid 0 v) s = .next (s0.flEnd 13)) ∧
    (armed 8 → idle → s.lc.lifecycle = 0 → f.rdp = 0 → a % 65536 = 0 → f.data0.toNat ≤ 1 → fixedSector ls = false → v = 0 →
      ∃ t, exec (.kindSet mid 0 v) s = .next t ∧ t.fls.result = 1 ∧
        ∀ n, rawSector t.fls n = if n = ls then f.data0 == 1 else rawSector f n) ∧
    (armed 8 → idle → (s.lc.lifecycle ≠ 0 ∨ f.rdp ≠ 0 ∨ fixedSector ls = true) →
      exec (.kindSet mid 0 v) s = .next (s0.flEnd 13)) ∧
    -- the window, write protection, the scan
    (∀ (pl : BitVec 2) (b n : Nat) (how : FlRead), ∃ t, exec (.flashWindowRead mid pl b n how) s = .next t ∧
      t.fls.cells = f.cells ∧ t.fls.counts = f.counts ∧ t.fls.running = f.running ∧ t.fls.susp = f.susp ∧
      t.fls.wp = f.wp ∧ t.fls.rdp = f.rdp) ∧
    (∀ (b n : Nat) (how : FlRead), (mid < 0x54 ∨ 0x5F < mid) → b < 134217728 → (n = 1 ∨ n = 2 ∨ n = 4 ∨ n = 8) → b % n = 0 →
      let bank := b / 65536 / 512
      f.scanDone = true → f.susp.any (·.sector == b / 65536) = false → bankErasing f bank = false → bankProgramming f bank = false →
      f.incomplete.contains (physSector f (b / 65536)) = false → rawSector f (b / 65536) = false →
      (how ≠ .jig → (how = .clean ∨ tget 0 f.lines bank = b / 32 + 1) → exec (.flashWindowRead mid 0 b n how) s =
        .next { s with fls := { f with lines := tset 0 f.lines bank (b / 32 + 1) } }) ∧
      (how = .never → tget 0 f.lines bank ≠ b / 32 + 1 → ∃ t, exec (.flashWindowRead mid 0 b n how) s = .next t ∧
        bit t.fls.events 3 = true ∧ bit t.fls.fault 31 = true ∧ t.fls.cells = f.cells ∧ t.fls.lines = f.lines)) ∧
    (∀ n : Fin 64, f.seq = 0 → exec (.flWpWrite mid 0 n v) s =
      .next { s with fls := { f with wp := tset 0 f.wp n.val (tget 0 f.wp n.val ||| v) } }) ∧
    (f.scanDone = false → ∃ t, exec .flScan s = .next t ∧ t.fls.scanDone = true ∧
      ∀ p, p ∈ t.fls.incomplete ↔ p ∈ flOpenSectors f)

/-- R2, R408 to R422, R519: the supplies. Above 2.85 V MAIN is entered with module reset held; 1 ms of good conditions
with no open decision releases it. A warning starts prepare once, which suspends a running erase and holds flash
commands; prepare ends with the dip record once C0 is sequenced, and recovery lifts its holds. A rail outside its
window, a low VIN_3V3 or a low MRST_N asserts module reset and blows no fuse. Above the cap one shed step is taken
each 100 µs; 10 ms below it one is undone. The profile chosen takes effect, or is held while a dip lasts. Completes:
MAIN_ENTRY, RESET_RELEASE, POWER_WARNING, PREPARE_END, RECOVERY, POWER_RESET, RAIL_FAULT, MRST, VBAT_CHANGE,
POWER_ESTIMATE, CAP_SHED_STEP, CAP_UNSHED_STEP. -/
def Obligations.PowerSupervision : Prop :=
  ∀ (s : State),
    let w := s.pwr
    let after (field vb : Bool) : PowerState := if field then .field else if vb then .backup else .off
    -- entry and release
    (∀ v, w.state ≠ .main → 2850 < v → ∃ t, exec (.mainEntry v) s = .next t ∧ t.pwr.state = .main ∧ t.pwr.inReset = true ∧
      t.pwr.vin = v ∧ t.pwr.okSince = s.now ∧ t.up = false ∧ t.otp = s.otp ∧ t.cl.keys = s.cl.keys) ∧
    (∀ v, (w.state = .main ∨ v ≤ 2850) → exec (.mainEntry v) s = .next s) ∧
    (w.state = .main → w.inReset = true → w.mrstN = true → w.okSince + msC ≤ s.now → s.tmp.decisions = [] →
      ∃ t, exec .resetRelease s = .next t ∧ t.pwr.inReset = false ∧ t.pwr.rails = 0xF ∧ t.pwr.clkin = true ∧ t.up = true ∧
        3100 ≤ t.pwr.vin ∧ (3100 ≤ w.vin → t.pwr.vin = w.vin) ∧ t.clk = s.clk ∧ t.fls = s.fls ∧ t.arc = s.arc ∧
        t.otp = s.otp) ∧
    ((w.mrstN = false ∨ s.now < w.okSince + msC ∨ s.tmp.decisions ≠ []) → exec .resetRelease s = .next s) ∧
    -- prepare and recovery
    (∀ v, s.up = true → 2850 ≤ v → v < 3050 → w.prepare = false →
      ∃ t, exec (.powerWarning v) s = .next t ∧ t.pwr.prepare = true ∧ t.pwr.recovering = false ∧ t.pwr.vin = v ∧
        t.pwr.warnings = 0 ∧ t.pwr.dips = satInc w.dips 65535 ∧ t.pwr.prepAt = s.now ∧ bit t.pwr.events 0 = true ∧
        t.fls.heldOff = true ∧ (∀ n, t.fls.running ≠ some (.erase n)) ∧ t.arc.prepare = true ∧ t.otp = s.otp) ∧
    (∀ v, s.up = true → 2850 ≤ v → v < 3050 → w.prepare = true → exec (.powerWarning v) s =
      .next { s with pwr := { w with
        vin := v, vinMin := min w.vinMin v, warnings := w.warnings + 1, recoverMet := false, dipMin := min w.dipMin v
        events := setBit w.events 3 true } }) ∧
    (s.up = true → w.prepare = true → (s.arc.ready = false ∨ s.arc.staged = []) → w.recoverMet = false →
      ∃ t, exec .prepareEnd s = .next t ∧ t.pwr.prepare = false ∧ t.pwr.recovering = true ∧ t.arc.clean = true ∧
        bit t.pwr.events 1 = true ∧ t.pwr.lastUs = (s.now - w.prepAt) / usC % 4096) ∧
    (s.arc.ready = true → s.arc.staged ≠ [] → exec .prepareEnd s = .next s) ∧
    (∀ v, s.up = true → 3100 < v → w.prepare = false → w.recovering = true → w.heldProfile = none →
      ∃ t, exec (.recovery v) s = .next t ∧ t.pwr.recovering = false ∧ t.pwr.vin = v ∧ bit t.pwr.events 2 = true ∧
        t.fls.heldOff = false ∧ t.arc.prepare = false ∧
        ∀ u, s.fls.susp = some u → u.own = true → t.fls.running = some (.erase u.sector) ∧ t.fls.susp = none) ∧
    (∀ v, s.up = true → 3100 < v → w.prepare = true → exec (.recovery v) s =
      .next { s with pwr := { w with vin := v, recoverMet := true } }) ∧
    -- resets
    (∀ v, w.state = .main → v < 2850 → ∃ t, exec (.powerReset v) s = .next t ∧ t.pwr.inReset = true ∧ t.up = false ∧
      t.pwr.vin = v ∧ t.pwr.state = after s.cl.fieldTag s.vbatOk ∧ t.pwr.dueLost.isSome = true ∧ t.otp = s.otp) ∧
    (∀ v, (w.state ≠ .main ∨ 2850 ≤ v) → exec (.powerReset v) s = .next s) ∧
    (∀ rails, w.state = .main → rails ≠ 0xF → 2850 < w.vin → ∃ t, exec (.railFault rails) s = .next t ∧
      t.pwr.inReset = true ∧ t.pwr.rails = rails ∧ t.pwr.okSince = s.now ∧ t.pwr.state = .main ∧
      t.pwr.dueRail = w.dueRail ||| (15 - rails.toNat) ∧ t.otp = s.otp) ∧
    (w.state = .main → 2850 ≤ w.vin → ∃ t, exec (.mrst true) s = .next t ∧ t.pwr.inReset = true ∧ t.pwr.mrstN = false ∧
      t.pwr.dueMrst = true ∧ t.otp = s.otp) ∧
    (w.mrstN = false → exec (.mrst false) s = .next { s with pwr := { w with mrstN := true, okSince := s.now } }) ∧
    (∀ v, s.up = true → (2000 ≤ v && v ≤ 3600) = s.vbatOk → (2200 ≤ v ∨ w.vbat < 2200) →
      exec (.vbatChange v) s = .next { s with pwr := { w with vbat := v } }) ∧
    (∀ v, s.up = true → (2000 ≤ v && v ≤ 3600) ≠ s.vbatOk → ∃ t, exec (.vbatChange v) s = .next t ∧ t.pwr.vbat = v ∧
      bit t.pwr.events 6 = true ∧ ∃ e ∈ t.dv.inbox, e.typ = 0x0021 ∧ e.src = 2 ∧ e.cls = 0) ∧
    (∀ v, w.state ≠ .main → ∃ t, exec (.vbatChange v) s = .next t ∧ t.pwr.vbat = v ∧
      t.pwr.state = after s.cl.fieldTag (2000 ≤ v && v ≤ 3600)) ∧
    -- caps
    (∀ m, s.up = true → let e := s.senseTemp; e.pwr = { w with temp := e.pwr.temp, tempMax := max w.tempMax e.pwr.temp } ∧
      ∃ u, exec (.powerEstimate m) s = .next { e with pwr := { e.pwr with
        est := (m :: w.est).take 100, mw := ((m :: w.est).take 100).sum / ((m :: w.est).take 100).length, underAt := u } } ∧
      (u.isSome = true ↔ ((m :: w.est).take 100).sum / ((m :: w.est).take 100).length * 100 < s.powerCap * 95)) ∧
    (s.up = true → w.prepare = false → w.recovering = false → s.powerCap < w.mw → w.shedAt + 100 * usC ≤ s.now →
      (w.shed = 0 → ∃ t, exec .capShedStep s = .next t ∧ t.pwr.shed = 1 ∧ t.pwr.capActive = true ∧
        bit t.pwr.events 4 = true ∧ t.pwr.shedAt = s.now) ∧
      (w.shed = 1 → exec .capShedStep s = .next { s with pwr := { w with shed := 2, shedGroups := 0, shedAt := s.now } }) ∧
      ((w.shed = 2 ∨ w.shed = 3) → exec .capShedStep s = .next { s with pwr := { w with
        shed := if w.shedGroups < s.laneGroups then 3 else 4
        shedGroups := if w.shedGroups < s.laneGroups then w.shedGroups + 1 else w.shedGroups
        shedAt := s.now } }) ∧
      (4 ≤ w.shed → exec .capShedStep s = .next s)) ∧
    ((w.mw ≤ s.powerCap ∨ s.now < w.shedAt + 100 * usC) → exec .capShedStep s = .next s) ∧
    (∀ a, s.up = true → w.prepare = false → w.recovering = false → w.underAt = some a → a + 10 * msC ≤ s.now →
      w.shedAt + 10 * msC ≤ s.now →
      (w.shed = 1 → ∃ t, exec .capUnshedStep s = .next t ∧ t.pwr.shed = 0 ∧ t.pwr.capActive = false ∧
        bit t.pwr.events 5 = true) ∧
      (w.shed = 2 → exec .capUnshedStep s = .next { s with pwr := { w with shed := 1, shedGroups := 0, shedAt := s.now } }) ∧
      (w.shed = 3 → exec .capUnshedStep s = .next { s with pwr := { w with
        shed := if w.shedGroups ≤ 1 then 2 else 3, shedGroups := w.shedGroups - 1, shedAt := s.now } }) ∧
      (w.shed = 4 → exec .capUnshedStep s = .next { s with pwr := { w with
        shed := if w.shedGroups = 0 then 2 else 3, shedAt := s.now } })) ∧
    ((w.underAt = none ∨ w.shed = 0) → exec .capUnshedStep s = .next s)

/-- R36, R37, R132, R134, R424: the commands about the module. IDENT_GET, FEATURES_GET, CAPACITY_GET, PROFILE_GET and
POWER_STATUS answer what the state holds and change nothing else. PROFILE_SET takes a profile of the table, rejects
any other number, and during a dip holds it; during an automatic INCIDENT it is the one to return to, and it ends a
commanded one at once. ASSAY_RUN rejects what does not exist, answers for a retired or busy resource at once, and
otherwise the assay is due. A command whose tag is outstanding is rejected as a duplicate, and a 17th one gets
RESOURCE. Completes: IDENT_GET, FEATURES_GET, CAPACITY_GET, PROFILE_SET, PROFILE_GET, POWER_STATUS, ASSAY_RUN. -/
def Obligations.ModuleCommands : Prop :=
  ∀ (s : State) (r : Req),
    let p := r.payload
    let w := s.pwr
    let held (op st : Nat) (b : Bytes) : State := (s.begun op r).holdFor true r.party op r.tag st false b
    (s.begins 0x0101 r → exec (.identGet r) s = .next (held 0x0101 stOk
      (orderingCode ++ le 4 glbId.toNat ++ le 8 s.lc.serial.toNat ++ le 4 s.lc.version.toNat ++ le 4 s.lc.bootCount))) ∧
    (∀ fn, s.begins 0x0102 r → midFn r.party = some fn → exec (.featuresGet r) s = .next (held 0x0102 stOk
      (le 8 s.features ++ le 1 (if s.pci.vfEnable then s.pci.numVFs else 0) ++ le 1 0 ++ le 2 (if fn = 0 then 2048 else 64) ++
        le 4 (s.fun_ fn).first ++ le 4 (s.fun_ fn).count))) ∧
    (s.begins 0x0103 r → exec (.capacityGet r) s = .next (held 0x0103 stOk s.capacity)) ∧
    (∀ q, s.begins 0x0A01 r → profileOf (leAt p 0 1) = some q → (w.prepare = true ∨ w.recovering = true) →
      ∃ t, exec (.profileSet r) s = .next t ∧ t.pwr = { w with heldProfile := some q } ∧ t.answers r 0x0A01 stOk []) ∧
    (∀ q, s.begins 0x0A01 r → profileOf (leAt p 0 1) = some q → w.prepare = false → w.recovering = false →
      s.arc.auto = false → w.profile ≠ .incident →
      ∃ t, exec (.profileSet r) s = .next t ∧ t.pwr.profile = q ∧ t.answers r 0x0A01 stOk [] ∧ t.otp = s.otp ∧
        (q = w.profile → t.pwr = w) ∧ (q ≠ w.profile → t.bch.count.toNat = s.ret.ownerCount.getD (profileReserve q) % 256)) ∧
    (∀ q, s.begins 0x0A01 r → profileOf (leAt p 0 1) = some q → w.prepare = false → w.recovering = false →
      s.arc.auto = true → ∃ t, exec (.profileSet r) s = .next t ∧ t.pwr = { w with returnTo := some q } ∧
        t.answers r 0x0A01 stOk []) ∧
    (∀ q, s.begins 0x0A01 r → profileOf (leAt p 0 1) = some q → w.prepare = false → w.recovering = false →
      s.arc.auto = false → w.profile = .incident → q ≠ .incident → 4 * s.arc.genUsed < 3 * genArea → s.arc.runs = [] →
      s.arc.gaps = [] →
      ∃ t, exec (.profileSet r) s = .next t ∧ t.pwr.profile = q ∧ t.answers r 0x0A01 stOk []) ∧
    (s.begins 0x0A01 r → 3 < leAt p 0 1 → exec (.profileSet r) s = .next (held 0x0A01 stRejected [])) ∧
    (s.begins 0x0A02 r → exec (.profileGet r) s = .next (held 0x0A02 stOk
      (le 1 w.profile.code ++ le 1 (if s.arc.auto then (w.returnTo.map Profile.code).getD 0xFF else 0xFF) ++
        le 1 s.reservation ++ le 1 (s.powerCap / 1000)))) ∧
    (s.begins 0x0A04 r → let e := (s.begun 0x0A04 r).senseTemp
      exec (.powerStatus r) s = .next (e.holdFor true r.party 0x0A04 r.tag stOk false
      (le 2 w.vin ++ le 2 (ofSigned 16 e.pwr.temp) ++ le 4 w.mw ++ le 1 (4 * b2n w.prepare + 8 * b2n w.recovering +
        16 * b2n s.vbatOk + 32 * b2n (w.vbat < 2200) + 64 * b2n w.capActive)))) ∧
    (s.serves r.party = false → exec (.powerStatus r) s = .next s) ∧
    (s.serves r.party = true → s.turn 0x0A04 r = true → s.wasTaken 0x0A04 r = false →
      let u := s.untake r.party 0x0A04 r.tag
      let mine := u.outstanding r.party
      (mine.contains r.tag = true →
        exec (.powerStatus r) s = .next (u.hold r.party 0x0A04 r.tag stRejected true [])) ∧
      (mine.contains r.tag = false → 16 ≤ mine.length →
        exec (.powerStatus r) s = .next (u.hold r.party 0x0A04 r.tag stResource false []))) ∧
    (s.begins 0x0B01 r → (assayClass (leAt p 0 1) = none ∨ leAt p 1 1 ≠ 0) →
      exec (.assayRun r) s = .next (held 0x0B01 stRejected [])) ∧
    (∀ c, s.begins 0x0B01 r → assayClass (leAt p 0 1) = some c → leAt p 1 1 = 0 →
      let n := leAt p 2 2
      (classSize c ≤ n → exec (.assayRun r) s = .next (held 0x0B01 stRejected [])) ∧
      (n < classSize c → (s.ret.get c).retired.contains n = true → exec (.assayRun r) s = .next (held 0x0B01 stOk [3])) ∧
      (s.mayAssay c n = true → c ≠ .engine → ∃ t, exec (.assayRun r) s = .next t ∧
        t.ret.assays = s.ret.assays ++ [(c, n, false, some (r.party, r.tag))] ∧ t.drn.held = s.drn.held) ∧
      (n < classSize c → (s.ret.get c).retired.contains n = false → s.underAssay c n = true →
        exec (.assayRun r) s = .next (held 0x0B01 stOk [4])))

/-- R425 to R431, R436, R442, R443, R449, R451: tamper sources. A sample moves its source's counter and nothing else;
a source re-arms after its quiet time. A source whose counter reaches its filter length fires: its flag stands, it is
disarmed and counted, the AO sequence number advances; a response of ZEROIZE or more waits for its decision, and
outside the main domain a weaker one is kept as pending. Configuration takes the filters and responses that are
allowed and no others. A commanded ZEROIZE fires source 31. The commands answer as R449 says, once an engine can
verify what the owner signed. Completes: TAMPER_SAMPLE, TAMPER_COUNTER_TIMEOUT, VENEER_CHECK, AO_NOISE_FAIL,
TAMPER_FIRE, FUSE_BLOW, TMP_SRC_CFG_WRITE, TMP_CMD_CLEAR, TMP_CMD_ZEROIZE, TMP_CMD_POP, TMP_STATUS, TMP_CONFIG,
TMP_FLAG_CLEAR, ZEROIZE, PENDING_ACTIONS_ARCHIVE. -/
def Obligations.TamperSources : Prop :=
  ∀ (s : State) (r : Req) (index : BitVec 5),
    let i := index.toNat
    let x := s.src i
    let f := s.srcFilt i
    let p := r.payload
    let held (op st : Nat) (b : Bytes) : State := (s.begun op r).holdFor true r.party op r.tag st false b
    let denied (op : Nat) : State := ((s.begun op r).authRun op p).holdFor true r.party op r.tag stAccess false []
    let asked (t : State) (w : DecWhat) : Prop :=
      t.tmp.decisions.map (fun d => (d.what, d.first)) = s.tmp.decisions.map (fun d => (d.what, d.first)) ++ [(w, true)]
    let signs (op : Nat) (good : Bool) : Prop := s.verifyWaits = false ∧ (s.ownerAuth op p).isSome = good
    -- sampling
    (∀ row active, s.srcRuns i = true → sensed i = true → s.srcRow i = some row → row.isEvent = false →
      (active && x.armed && f ≤ x.count + 1) = false →
      ∃ y, exec (.tamperSample index active) s = .next (s.setSrc i y) ∧ y.fires = x.fires ∧
        (active = true → x.armed = true → y.count = min f (x.count + 1) ∧ y.armed = true) ∧
        (active = false → x.armed = true → y.count = 0 ∧ y.armed = true ∧ y.live = false) ∧
        (x.armed = false → y.armed = (!active && f ≤ x.quiet + 1))) ∧
    (∀ row, s.srcRuns i = true → sensed i = true → s.srcRow i = some row → row.isEvent = true → x.armed = true →
      x.count + 1 < f → exec (.tamperSample index true) s =
        .next (s.setSrc i { x with count := x.count + 1, lastAt := s.now })) ∧
    (∀ row, s.srcRow i = some row → row.isEvent = true → s.pwr.state = .main → x.lastAt + secC ≤ s.now →
      (x.armed = false ∨ x.count ≠ 0) →
      exec (.tamperCounterTimeout index) s = .next (s.setSrc i { x with count := 0, armed := true })) ∧
    (∀ (net : Fin 4) (drawn arrived : BitVec 32) (inTime : Bool), s.srcRuns (8 + net.val) = true →
      let q := if s.tmp.aoNoiseFail then ~~~ tget 0 s.tmp.veneer net.val else drawn
      let v := s.src (8 + net.val)
      ∃ t, exec (.veneerCheck net drawn arrived inTime) s = .next t ∧ tget 0 t.tmp.veneer net.val = q ∧
        (∀ n, n ≠ 8 + net.val → t.src n = s.src n) ∧ t.tmp.flags = s.tmp.flags ∧
        (v.armed = true → (t.src (8 + net.val)).count =
          if q = arrived ∧ inTime = true then 0 else min (s.srcFilt (8 + net.val)) (v.count + 1))) ∧
    (∀ cell : Fin 2, s.pwr.state ≠ .off →
      let c := s.tmp.aoCells ||| BitVec.ofNat 2 (2 ^ cell.val)
      ∃ t, exec (.aoNoiseFail cell) s = .next t ∧ t.tmp.aoCells = c ∧ t.tmp.aoNoiseFail = (s.tmp.aoNoiseFail || c == 3) ∧
        t.tmp.flags = s.tmp.flags) ∧
    -- firing
    (s.srcRuns i = true → x.armed = true → f ≤ (if sensed i then x.count + 1 else x.count) →
      let resp := s.carriedAs i (s.srcResp i)
      ∃ t, exec (.tamperFire index) s = .next t ∧ bit t.tmp.flags i = true ∧ (t.src i).armed = false ∧
        (t.src i).fires = satInc x.fires 255 ∧ t.tmp.aoseq = (s.tmp.aoseq + 1) % 2 ^ 32 ∧
        (4 ≤ resp → asked t (.respond i resp s.tmp.aoseq)) ∧
        (resp = 3 → s.up = true → 3 ≤ t.tmp.respInForce) ∧
        (resp ≤ 3 → s.up = false → s.tmp.pend.length < 16 → ∃ e, t.tmp.pend = s.tmp.pend ++ [e] ∧ e.index = i ∧
          e.resp = resp ∧ e.seq = s.tmp.aoseq) ∧
        (resp ≤ 3 → s.up = false → 16 ≤ s.tmp.pend.length → t.tmp.pend = s.tmp.pend ∧
          t.tmp.overflow = satInc s.tmp.overflow 255)) ∧
    ((x.armed = false ∨ x.count + 1 < f) → exec (.tamperFire index) s = .next s) ∧
    -- fuses, registers
    (∀ vb : Bool, s.pwr.state ≠ .off → (if vb then s.vbatOk = true else s.cl.fieldWrite = true ∨ s.pwr.state = .main) →
      exec (.fuseBlow vb) s = .next { s with tmp := { s.tmp with
        zfuses := min 32 (s.tmp.zfuses + s.tmp.heldZ), heldZ := 0
        retireFuse := s.tmp.retireFuse || s.tmp.heldRetire, heldRetire := false } }) ∧
    (∀ (v : BitVec 32) row, s.up = true → s.srcRow s.tmp.srcSel.toNat = some row →
      let n := s.tmp.srcSel.toNat
      exec (.tmpSrcCfgWrite v) s = .next (s.setSrc n { s.src n with
        count := 0
        filt := if fld v 7 0 ≠ 0 ∧ n ≠ 12 ∧ n ≠ 31 then fld v 7 0 else (s.src n).filt
        resp := if row.least ≤ fld v 10 8 ∧ 1 ≤ fld v 10 8 ∧ fld v 10 8 ≤ 5 ∧ n ≠ 31 then fld v 10 8 else (s.src n).resp })) ∧
    (s.up = true → s.clearBusy = false → ∃ t, exec .tmpCmdClear s = .next t ∧ t.tmp.result = 1 ∧
      asked t (.flagClear s.tmp.clearMask none none) ∧ t.tmp.flags = s.tmp.flags) ∧
    (s.clearBusy = true → exec .tmpCmdClear s = .next s) ∧
    (s.up = true → (s.src 31).armed = true → ∃ t, exec .tmpCmdZeroize s = .next t ∧ bit t.tmp.flags 31 = true ∧
      asked t (.respond 31 4 s.tmp.aoseq)) ∧
    (s.up = true → (s.src 31).armed = false → exec .tmpCmdZeroize s =
      .next (s.setSrc 31 { s.src 31 with fires := satInc (s.src 31).fires 255, lastAt := s.now })) ∧
    (s.up = true → exec .tmpCmdPop s = .next { s with tmp := { s.tmp with pend := s.tmp.pend.drop 1 } }) ∧
    -- commands
    (s.begins 0x0801 r → exec (.tmpStatus r) s = .next (held 0x0801 stOk
      (le 8 s.tmp.flags.toNat ++ le 1 s.tmp.pend.length ++ le 1 s.tmp.overflow ++ le 1 s.tmp.respInForce ++ le 1 0))) ∧
    (∀ row, s.begins 0x0802 r → signs 0x0802 true → s.srcRow (leAt p 0 1) = some row →
      leAt p 0 1 ≠ 31 → leAt p 0 1 ≠ 12 → leAt p 1 1 ≠ 0 → row.least ≤ leAt p 2 1 → leAt p 2 1 ≤ 5 → leAt p 2 1 ≠ 0 →
      leAt p 3 1 = 0 →
      ∃ t, exec (.tmpConfig r) s = .next t ∧ (t.src (leAt p 0 1)).filt = leAt p 1 1 ∧
        (t.src (leAt p 0 1)).resp = leAt p 2 1 ∧ tget (0, 0) t.lc.tmpCfg (leAt p 0 1) = (leAt p 1 1, leAt p 2 1) ∧
        t.answers r 0x0802 stOk []) ∧
    (s.begins 0x0802 r → signs 0x0802 false → exec (.tmpConfig r) s = .next (denied 0x0802)) ∧
    (s.begins 0x0803 r → signs 0x0803 true → leAt p 0 8 < 2 ^ 32 → s.clearBusy = false →
      ∃ t, exec (.tmpFlagClear r) s = .next t ∧ t.tmp.result = 1 ∧ t.tmp.flags = s.tmp.flags ∧ t.drn.held = s.drn.held ∧
        asked t (.flagClear (BitVec.ofNat 32 (leAt p 0 8)) (some r.party) (some r.tag))) ∧
    (s.begins 0x0803 r → signs 0x0803 false → s.clearBusy = false → exec (.tmpFlagClear r) s = .next (denied 0x0803)) ∧
    (s.begins 0x0804 r → signs 0x0804 true → (s.src 31).armed = true →
      ∃ t, exec (.zeroize r) s = .next t ∧ bit t.tmp.flags 31 = true ∧ asked t (.respond 31 4 s.tmp.aoseq) ∧
        t.drn.held = s.drn.held) ∧
    (s.begins 0x0804 r → signs 0x0804 false → exec (.zeroize r) s = .next (denied 0x0804)) ∧
    (s.verifyWaits = true → exec (.tmpConfig r) s = .next s ∧ exec (.tmpFlagClear r) s = .next s ∧ exec (.zeroize r) s = .next s) ∧
    -- what a start finds pending
    (s.up = true → s.lc.fw = .running → s.loop.bracketEnd.isSome = true → s.tmp.pendDone = false →
      (∀ e ∈ s.tmp.pend, e.resp < 4) →
      ∃ t, exec .pendingActionsArchive s = .next t ∧ t.tmp.pendDone = true ∧ t.pwr.dueLost = none ∧
        t.tmp.pend = s.tmp.pend ∧ ∀ e ∈ s.tmp.pend, ∃ a ∈ t.arc.arrivals, a.r.typ = 0x0012 ∧ a.r.src = 1 ∧
          a.r.aoseq = e.seq ∧ a.r.body = s.pendBody e.seq e.index e.resp e.state) ∧
    (∀ e ∈ s.tmp.pend, s.up = true → s.lc.fw = .running → 4 ≤ e.resp → s.tmp.zeroized = false →
      ∃ t, exec .pendingActionsArchive s = .next t ∧ t.tmp.zeroized = true ∧ 4 ≤ t.tmp.respInForce)

/-- R321, R431, R433 to R435, R440, R441, R443, R448, R499, R505: a double decision ends with its second evaluation,
once its delay of 16 + r units has passed, and with none that has passed it the command changes nothing. A response of
ZEROIZE is carried out whichever way that goes: the slots, the shared stores and under TAMPER the KEK are cleared, and
under SEALED a fuse blows. Everything else needs both evaluations to allow it: a disagreement changes no flag, level
or lifecycle and raises DISAGREE with its code. Completes: DECISION_RECHECK. -/
def Obligations.DoubleDecisions : Prop :=
  (∀ (s : State) second, s.tmp.decisions.find? s.delayOver = none → exec (.decisionRecheck second) s = .next s) ∧
  ∀ (s : State) (d : Dec), s.tmp.decisions.find? s.delayOver = some d →
    let e (second : Bool) : Out := exec (.decisionRecheck second) s
    (∀ i seq second, d.what = .respond i 4 seq → s.up = true →
      ∃ t, e second = .next t ∧ t.tmp.zeroized = true ∧ 4 ≤ t.tmp.respInForce ∧ t.tmp.kek = none ∧
        (∀ n, (t.krow n).s0 = 0 ∧ (t.krow n).s1 = 0) ∧ t.lol.shared = [] ∧ t.lc.tenants = [] ∧
        t.tmp.zfuses = (if s.tmp.policySealed then min 32 (s.tmp.zfuses + 1) else s.tmp.zfuses) ∧
        (d.first ≠ second → (t.src srcDisagree).decision = 1)) ∧
    (∀ mask party tag, d.what = .flagClear mask party tag →
      (d.first = true → ∃ t, e true = .next t ∧ t.tmp.result = 2 ∧
        ∀ i, i < 32 → bit t.tmp.flags i = (bit s.tmp.flags i && !(bit mask i && !(s.src i).live))) ∧
      (∃ t, e (!d.first) = .next t ∧ t.tmp.result = 3 ∧ t.tmp.flags = s.tmp.flags ∧ (t.src srcDisagree).decision = 4)) ∧
    (∀ dest party tag, d.what = .lifecycle dest party tag →
      (d.first = true → dest = 2 → party ≠ 0 → s.halted = false → ∃ t, e true = .next t ∧ t.lc.lifecycle = 2 ∧
        ∃ v ∈ t.dv.inbox, v.typ = 0x0024 ∧ v.cls = 0) ∧
      (d.first = true → dest = 3 → party = 0 → s.fusePower = true → s.lc.lifecycle ≠ 0 → ∃ t, e true = .next t ∧ t.tmp.retireFuse = true ∧
        (s.up = true → t.lc.lifecycle = 3)) ∧
      (∃ t, e (!d.first) = .next t ∧ t.lc.lifecycle = s.lc.lifecycle ∧ t.otp = s.otp ∧ (t.src srcDisagree).decision = 2)) ∧
    (∀ dest, d.what = .rdp dest → s.fls.running = some (.decide dest) →
      (d.first = true → dest ≠ 0 → ∃ t, e true = .next t ∧ t.fls.rdp = dest ∧ t.fls.running = none ∧ t.fls.result = 1 ∧
        (dest = 2 → t.fls.rdpFuse = true)) ∧
      (d.first = true → dest = 0 → ∃ t, e true = .next t ∧ t.fls.running = some (.descent 3) ∧ t.fls.marker = true ∧
        t.tmp.kek = none ∧ ∀ n, (t.krow n).s0 = 0 ∧ (t.krow n).s1 = 0) ∧
      (∃ t, e (!d.first) = .next t ∧ t.fls.rdp = s.fls.rdp ∧ t.fls.running = none ∧ t.fls.result = 13 ∧
        (t.src srcDisagree).decision = 3)) ∧
    (d.what = .testPort →
      (d.first = true → ∃ t, e true = .next t ∧ t.lc.testPort = true ∧ t.lc.lifecycle = s.lc.lifecycle) ∧
      (∃ t, e (!d.first) = .next t ∧ t.lc = s.lc ∧ (t.src srcDisagree).decision = 5)) ∧
    (∀ party tag token, d.what = .jig party tag token →
      (d.first = true → s.halted = false → ∃ t j, e true = .next t ∧ t.lc.jig = some j ∧
        j.endAt = s.now + leAt token 20 4 * secC) ∧
      (∃ t, e (!d.first) = .next t ∧ t.lc.jig = s.lc.jig ∧ (t.src srcDisagree).decision = 5)) ∧
    (∀ second u, d.what = .kekUnwrap ∧ u.stage = 0 ∨ d.what = .keyRelease ∧ u.stage = 1 → s.key.unwrap = some u →
      d.first ≠ second → ∃ t, e second = .next t ∧ t.key.rows = s.key.rows ∧ t.key.unwrap = none ∧
        (t.src srcDisagree).decision = (if d.what = .kekUnwrap then 6 else 8))

/-- R452 to R458, R462 to R474, R477 to R479: the tag. A field of 1.5 A/m begins an activation, in MAIN or as FIELD;
below 1.3 A/m it ends, with its session. The UID begins with 08h and is drawn anew. REQA, WUPA, anticollision, SELECT,
RATS, PPS, HLTA and DESELECT move the tag's state and send their answers. AUTH1 answers for a key with a role and a
full credential, AUTH3 with the right tag opens the session; failures are counted, and the ninth attempt of an
activation is refused. SECURE frames carry Locket commands, and MARK proceeds by S(WTX). The journal is walked once in
a start. Completes: FIELD_RISE, FIELD_FALL, LOCKET_NOISE_READY, LOCKET_NOISE_CELL_FAIL, REQA, WUPA, ANTICOLLISION,
SELECT, RATS, PPS, HLTA, S_DESELECT, CHAINED_I_BLOCK, R_BLOCK, AUTH1, AUTH3, SESSION_TIMEOUT, SECURE_FRAME,
ERROR_FRAME, S_WTX_RESPONSE, CL_CONFIG, JOURNAL_READ, JOURNAL_ARCHIVE. -/
def Obligations.TagAndClasp : Prop :=
  ∀ (s : State) (r : Req) (inf : List (BitVec 8)),
    let c := s.cl
    let p := r.payload
    let m := c.chain ++ inf
    let sends (t : State) (b : Bytes) : Prop := t.cl.sent = c.sent ++ [b]
    let live : Prop := s.tagLive = true
    let open_ : Prop := s.tagOpen = true
    -- the field
    (∀ f, c.fieldTag = false → 15 ≤ f → ∃ t, exec (.fieldRise f) s = .next t ∧ t.cl.fieldTag = true ∧
      t.cl.fieldWrite = (c.fieldWrite || 30 ≤ f) ∧ t.cl.vfield = (c.vfield || 45 ≤ f) ∧ t.pwr.field = f ∧
      bit t.cl.events 0 = true ∧ t.cl.tagState = 0 ∧ (s.pwr.state ≠ .main → t.pwr.state = .field) ∧
      (s.pwr.state = .main → t.pwr.state = .main)) ∧
    (∀ f, c.fieldTag = true → exec (.fieldRise f) s = .next { s with
      pwr := { s.pwr with field := f }
      cl := { c with fieldWrite := c.fieldWrite || 30 ≤ f, vfield := c.vfield || 45 ≤ f } }) ∧
    (∀ f, c.fieldTag = true → f < 13 → c.badge = none → ∃ t, exec (.fieldFall f) s = .next t ∧ t.cl.fieldTag = false ∧
      t.cl.clasp = none ∧ t.cl.uid = none ∧ t.cl.mark = none ∧ bit t.cl.events 1 = true ∧
      (s.pwr.state = .field → t.pwr.state = (if s.vbatOk then .backup else .off) ∧
        ((∀ o, c.mark = some o → o.begun = false) → t.fls = s.fls) ∧
        ∀ o, c.mark = some o → o.begun = true → o.made < 65 → ∃ w, t.fls = jrnProgram s.fls o o.made w)) ∧
    (∀ f, c.fieldTag = true → 13 ≤ f → exec (.fieldFall f) s = .next { s with
      pwr := { s.pwr with field := f }
      cl := { c with fieldWrite := c.fieldWrite && 27 ≤ f, vfield := c.vfield && 40 ≤ f } }) ∧
    (∀ pass : BitVec 2, s.pwr.state = .field → c.fieldTag = true → c.uid = none → c.silent = false →
      (pass ≠ 0 → ∃ t u, exec (.locketNoiseReady pass) s = .next t ∧ t.cl.uid = some u ∧ u.toNat % 256 = 8 ∧
        t.cl.silent = false) ∧
      (pass = 0 → ∃ t, exec (.locketNoiseReady pass) s = .next t ∧ t.cl.silent = true ∧ t.cl.uid = none ∧
        bit t.cl.events 8 = true)) ∧
    (∀ cell : Fin 2, s.pwr.state = .field → c.fieldTag = true →
      let q := c.cellsFailed ||| BitVec.ofNat 2 (2 ^ cell.val)
      (q ≠ 3 → exec (.locketNoiseCellFail cell) s = .next { s with cl := { c with cellsFailed := q } }) ∧
      (q = 3 → c.silent = false → ∃ t, exec (.locketNoiseCellFail cell) s = .next t ∧ t.cl.silent = true ∧
        t.cl.clasp = none ∧ t.cl.noiseFail = true)) ∧
    -- activation
    (live → c.proto = false →
      (c.tagState = 0 → exec .reqa s =
        .next { s with cl := { c with tagState := 1, star := false, sent := c.sent ++ [[4, 0]] } }) ∧
      (c.tagState = 3 → exec .reqa s = .next s) ∧
      (c.tagState = 0 ∨ c.tagState = 3 → exec .wupa s =
        .next { s with cl := { c with tagState := 1, star := c.tagState == 3, sent := c.sent ++ [[4, 0]] } }) ∧
      (c.tagState = 1 ∨ c.tagState = 2 → exec .wupa s =
        .next { s with cl := { c with tagState := if c.star then 3 else 0, star := false } })) ∧
    (s.tagLive = false → exec .reqa s = .next s ∧ exec .wupa s = .next s ∧ exec .hlta s = .next s) ∧
    (∀ u (n : Nat) (b : BitVec 32), live → c.tagState = 1 → c.uid = some u → n ≤ 32 →
      (b.toNat % 2 ^ n = u.toNat % 2 ^ n → exec (.anticollision 1 n b) s = .next { s with cl := { c with
        sent := c.sent ++ [le ((47 - n) / 8) ((u.toNat + 2 ^ 32 * (bccOf u).toNat) / 2 ^ n)] } }) ∧
      (b.toNat % 2 ^ n ≠ u.toNat % 2 ^ n → exec (.anticollision 1 n b) s = .next s) ∧
      exec (.selectI 1 u (bccOf u)) s = .next { s with cl := { c with tagState := 2, sent := c.sent ++ [[0x20]] } } ∧
      (∀ v k, v ≠ u → exec (.selectI 1 v k) s =
        .next { s with cl := { c with tagState := if c.star then 3 else 0, star := false } })) ∧
    (∀ fsdi cid : BitVec 4, live → c.tagState = 2 → c.proto = false → exec (.rats fsdi cid) s =
      .next { s with cl := { c with
        proto := true, fsd := fsdOf fsdi.toNat
        sent := c.sent ++ [[0x05, 0x78, BitVec.ofNat 8 s.ta1, 0x20, 0x00]] } }) ∧
    (∀ d : BitVec 2, open_ → (d = 0 ∨ s.ta1 / 2 ^ (d.toNat - 1) % 2 = 1) → exec (.pps d d) s =
      .next { s with cl := { c with rate := d.zeroExtend 4, sent := c.sent ++ [[0xD0]] } }) ∧
    (∀ d e : BitVec 2, d ≠ e → exec (.pps d e) s = .next s) ∧
    (live → c.tagState = 2 → ∃ t, exec .hlta s = .next t ∧ t.cl.tagState = 3 ∧ t.cl.proto = false ∧ t.cl.clasp = none ∧
      t.cl.sent = c.sent) ∧
    (open_ → ∃ t, exec .sDeselect s = .next t ∧ t.cl.tagState = 3 ∧ t.cl.proto = false ∧ t.cl.clasp = none ∧
      sends t [0xC2]) ∧
    -- blocks
    (open_ → c.wtx = false → exec (.chainedIBlock inf) s =
      .next { s with cl := { c with chain := m.take 1025, sent := c.sent ++ [[0xA2]] } }) ∧
    (∀ ack, open_ → exec (.rBlock ack true) s = .next { s with cl := { c with sent := c.sent ++ [c.lastBlock] } }) ∧
    (∀ b l, open_ → c.toSend = b :: l → exec (.rBlock true false) s =
      .next { s with cl := { c with toSend := l, lastBlock := b, sent := c.sent ++ [b] } }) ∧
    -- authentication
    (open_ → c.wtx = false → c.mode = s.clAsked → 3 < c.fsd → (s.up = true → s.canDraw 4 128 = true) →
      let ulen := leAt m 18 1
      let key := tget { role := 0, key := 0 } c.keys (leAt m 1 1)
      (c.actFails < 8 → m.length = 19 + ulen → leAt m 0 1 = 1 → (ulen = 4 ∨ ulen = 7 ∨ ulen = 10) → leAt m 1 1 ≤ 7 →
        key.role.toNat % 4 ≠ 0 →
        ∃ t x, exec (.auth1 inf) s = .next t ∧ t.cl.clasp = some x ∧ x.isOpen = false ∧ x.na = sub m 2 16 ∧
          x.credUid = sub m 19 ulen ∧ x.role = key.role ∧ x.k = claspKey (masterKey key) (sub m 19 ulen) ∧
          t.cl.authFails = c.authFails ∧
          sends t (((0x02 : Byte) :: x.nb ++ tagB x.k x.na x.nb x.credUid).take (c.fsd - 3))) ∧
      (c.actFails < 8 → m.length = 19 + ulen → leAt m 0 1 = 1 → (ulen = 4 ∨ ulen = 7 ∨ ulen = 10) →
        (7 < leAt m 1 1 ∨ key.role.toNat % 4 = 0) →
        ∃ t, exec (.auth1 inf) s = .next t ∧ t.cl.clasp = none ∧ t.cl.authFails = satInc c.authFails 65535 ∧
          t.cl.actFails = c.actFails + 1 ∧ t.cl.lastBlock = ([0x7F, 1] : Bytes).take (c.fsd - 3)) ∧
      (8 ≤ c.actFails → ∃ t, exec (.auth1 inf) s = .next t ∧ t.cl.clasp = none ∧ t.cl.authFails = c.authFails ∧
        t.cl.lastBlock = ([0x7F, 5] : Bytes).take (c.fsd - 3)) ∧
      (∀ x, c.clasp = some x → x.isOpen = false → m.length = 17 → leAt m 0 1 = 3 →
        (m.drop 1 = tagA x.k x.na x.nb x.credUid → x.txCtr + 1 < 0xFFFFFFFF →
          ∃ t, exec (.auth3 inf) s = .next t ∧ bit t.cl.events 2 = true ∧ t.cl.clasp = some { x with
            isOpen := true, ks := sessionKey x.k x.na x.nb, txCtr := x.txCtr + 1, lastAt := s.now }) ∧
        (m.drop 1 ≠ tagA x.k x.na x.nb x.credUid → ∃ t, exec (.auth3 inf) s = .next t ∧ t.cl.clasp = none ∧
          t.cl.authFails = satInc c.authFails 65535 ∧ t.cl.lastBlock = ([0x7F, 2] : Bytes).take (c.fsd - 3)))) ∧
    -- sessions
    (∀ x, c.clasp = some x → c.badge = none → x.lastAt + 30 * secC ≤ s.now →
      ∃ t, exec .sessionTimeout s = .next t ∧ t.cl.clasp = none) ∧
    (∀ x, c.clasp = some x → s.now < x.lastAt + 30 * secC → exec .sessionTimeout s = .next s) ∧
    (∀ x, open_ → c.wtx = false → c.badge = none → c.clasp = some x → x.isOpen = true →
      (openFrame x.ks 1 x.rxCtr m = none → ∃ t, exec (.secureFrame inf) s = .next t ∧ t.cl.clasp = none) ∧
      (openFrame x.ks 1 x.rxCtr m = some [6] → ∃ t, exec (.secureFrame inf) s = .next t ∧ t.cl.clasp = none) ∧
      (∀ b : Byte, openFrame x.ks 1 x.rxCtr m = some [b] → (b = 1 ∨ b = 2) → x.txCtr + 1 < 0xFFFFFFFF →
        ∃ t, exec (.secureFrame inf) s = .next t ∧
          t.cl.clasp = some { x with rxCtr := x.rxCtr + 1, txCtr := x.txCtr + 1, lastAt := s.now } ∧ t.fls = s.fls ∧
          t.tmp = s.tmp) ∧
      (∀ kind text i q, openFrame x.ks 1 x.rxCtr m = some ((5 : Byte) :: le 2 kind ++ le 2 text.length ++ text) →
        x.role.getLsbD 1 = true → text.length ≤ 200 → 1 ≤ kind → kind ≤ 5 → jrnNext s.fls = some i → jrnSeq s.fls = some q →
        (s.pwr.state = .field → c.fieldWrite = true) →
        ∃ t o, exec (.secureFrame inf) s = .next t ∧ t.cl.mark = some o ∧ o.index = i ∧ o.jseq = q ∧ o.made = 0 ∧
          o.aoseq = s.tmp.aoseq ∧ t.tmp.aoseq = (s.tmp.aoseq + 1) % 2 ^ 32 ∧ t.cl.wtx = true ∧ sends t [0xF2, 3] ∧
          t.fls = s.fls)) ∧
    (open_ → c.badge = none → inf.headD 0 = 0x7F → ∃ t, exec (.errorFrame inf) s = .next t ∧ t.cl.clasp = none) ∧
    (∀ o n, open_ → c.wtx = true → c.mark = some o → (o.begun = false → s.pwr.state = .field → c.fieldWrite = true) →
      (o.begun = false → s.up = true → s.fls.heldOff = false) →
      (max o.made n < 65 → ∃ t u, exec (.sWtxResponse n) s = .next t ∧ t.cl.mark = some u ∧ u.begun = true ∧
        u.made = max o.made n ∧ u.index = o.index ∧ u.jseq = o.jseq ∧ u.entry = o.entry ∧ sends t [0xF2, 3] ∧ t.cl.wtx = true) ∧
      (65 ≤ max o.made n → ∃ t, exec (.sWtxResponse n) s = .next t ∧ t.cl.mark = none ∧ t.cl.wtx = false ∧
        bit t.cl.events 5 = true)) ∧
    -- commands about the Locket
    (s.begins 0x0901 r → leAt p 0 1 ≤ 3 → leAt p 1 1 % 2 = 1 → leAt p 1 1 ≤ 15 → 51 ≤ leAt p 2 2 → leAt p 2 2 ≤ 200 →
      ∃ t, exec (.clConfig r) s = .next t ∧ fld t.cl.ctrl 1 0 = leAt p 0 1 ∧ fld t.cl.ctrl 5 2 = leAt p 1 1 ∧
        fld t.cl.ctrl 15 8 = leAt p 2 2 ∧ t.answers r 0x0901 stOk [] ∧ t.fls = s.fls) ∧
    (s.begins 0x0901 r → (3 < leAt p 0 1 ∨ leAt p 1 1 % 2 = 0) →
      exec (.clConfig r) s = .next ((s.begun 0x0901 r).holdFor true r.party 0x0901 r.tag stRejected false [])) ∧
    (s.begins 0x0903 r → (511 < leAt p 0 2 ∨ leAt p 2 2 = 0 ∨ 512 < leAt p 2 2) →
      exec (.journalRead r) s = .next ((s.begun 0x0903 r).holdFor true r.party 0x0903 r.tag stRejected false [])) ∧
    (s.begins 0x0903 r → leAt p 0 2 ≤ 511 → 1 ≤ leAt p 2 2 → leAt p 2 2 ≤ 512 → s.mayMove 0 = true →
      260 * leAt p 2 2 ≤ leAt p 12 4 →
      let torn := (((upto (leAt p 2 2)).map fun k => (leAt p 0 2 + k) % 512).filter fun i => jrnState s.fls i == 2).length
      ∃ t, exec (.journalRead r) s = .next t ∧ t.fls = s.fls ∧ t.answers r 0x0903 stOk (le 2 (leAt p 2 2) ++ le 2 torn)) ∧
    (∀ i q, s.up = true → s.lc.fw = .running → s.arc.ready = true → c.walked = false → jrnNewest s.fls = some (i, q) →
      (s.jrnPresent.any (q ≤ ·) = true → exec .journalArchive s = .next { s with cl := { c with walked := true } }) ∧
      (s.jrnPresent.any (q ≤ ·) = false → s.loop.bracketEnd.isSome = true →
        ∃ t, exec .journalArchive s = .next t ∧ t.cl.walked = true ∧ t.fls = s.fls ∧ exec .journalArchive t = .next t ∧
          (s.jrnPresent = none → c.atOnce = none → ∀ n, n < 512 → jrnState s.fls n = 1 →
            ∃ a ∈ t.arc.arrivals, a.r.typ = 0x0040 ∧ a.r.src = 5 ∧ a.r.cls = 0 ∧ a.r.body = s.markBody n)))

/-- R459 to R461, R464, R479: the reader. BADGE_READ begins with the carrier and its guard time, or answers why it may
not. REQA leaves after the guard and every 10 ms. Each answer of a card leads to the next frame: cascade levels with
the branch of 1 first at a collision, RATS, PPS at the best common rate, the first Clasp pass. AUTH2 with the right
tag is answered by AUTH3; the identity ends the operation with result 0. A card that fails before its session is open
is counted, halted, and the next one polled for; one whose session is open is not counted. Completes: BADGE_READ,
READER_GUARD_EXPIRY, REQA_RETRY, CARD_ANSWER, CARD_RESPONSE_TIMEOUT, BADGE_TIMEOUT, AUTH2, SECURE_FRAME,
ERROR_FRAME. -/
def Obligations.BadgeReader : Prop :=
  ∀ (s : State) (r : Req) (b : Badge) (inf : List (BitVec 8)), s.up = true →
    let c := s.cl
    let p := r.payload
    let ready : Prop := s.begins 0x0902 r ∧ c.badge = none ∧ 1 ≤ leAt p 0 2 ∧ leAt p 0 2 ≤ 10000
    let answer (code : Nat) : State :=
      (s.begun 0x0902 r).holdFor true r.party 0x0902 r.tag stOk false (le 1 code ++ List.replicate 27 0)
    let at_ (x : BadgeStage) : Prop := c.badge = some b ∧ b.stage = x ∧ s.readerOk = true
    let sent (t : State) (l : List Bytes) : Prop := t.cl.sent = c.sent ++ l
    let to_ (t : State) (y : Badge) (l : List Bytes) : Prop := t = { s with cl := { c with badge := some y, sent := c.sent ++ l } }
    let polls (y : Badge) : Badge := { y with stage := .polling, reqaAt := s.now, uid := [] }
    let left (t : State) (fails : Nat) : Prop := t.cl.authFails = fails ∧ t.cl.clasp = none ∧
      (b.cards < 8 → t.cl.badge = some (polls b)) ∧ (8 ≤ b.cards → t.cl.badge = none ∧ t.cl.carrier = false)
    let failed (t : State) : Prop := left t (satInc c.authFails 65535)
    let dropped (t : State) : Prop := left t c.authFails ∧ bit t.cl.events 3 = true
    (ready → 2 ≤ c.mode.toNat → s.readerOk = true → c.clasp = none → s.pwr.field < 5 →
      ∃ t x, exec (.badgeRead r) s = .next t ∧ t.cl.badge = some x ∧ x.stage = .guard ∧ x.party = r.party ∧ x.tag = r.tag ∧
        x.timeout = leAt p 0 2 ∧ x.begun = s.now ∧ s.now ≤ x.reqaAt ∧ t.cl.carrier = true ∧ t.drn.held = s.drn.held) ∧
    (ready → (c.mode.toNat < 2 ∨ s.readerOk = false) → exec (.badgeRead r) s = .next (answer 5)) ∧
    (ready → 2 ≤ c.mode.toNat → s.readerOk = true → c.clasp = none → 5 ≤ s.pwr.field →
      exec (.badgeRead r) s = .next (answer 4)) ∧
    (at_ .guard → b.reqaAt + fld c.ctrl 15 8 * (msC / 10) ≤ s.now →
      ∃ t, exec .readerGuardExpiry s = .next t ∧ to_ t (polls b) [[0x26]]) ∧
    (at_ .guard → s.now < b.reqaAt + fld c.ctrl 15 8 * (msC / 10) → exec .readerGuardExpiry s = .next s) ∧
    (at_ .polling → b.reqaAt + 10 * msC ≤ s.now → ∃ t, exec .reqaRetry s = .next t ∧ to_ t (polls b) [[0x26]]) ∧
    (at_ .polling → s.now < b.reqaAt + 10 * msC → exec .reqaRetry s = .next s) ∧
    (∀ n, at_ .polling → ∃ t, exec (.cardAnswer (.atqa n)) s = .next t ∧
      to_ t { b with stage := .anticol 1 [], uid := [] } [[0x93, 0x20]]) ∧
    (∀ l known bits, at_ (.anticol l known) → known.length + bits.length < 40 →
      let all := known ++ bits ++ [true]
      ∃ t, exec (.cardAnswer (.uidBits bits true)) s = .next t ∧ to_ t { b with stage := .anticol l all } [anticolFrame l all]) ∧
    (∀ l known bits u, at_ (.anticol l known) → (known ++ bits).length = 40 → packLow (known ++ bits) = u →
      u.drop 4 = [(u.take 4).foldl (· ^^^ ·) 0] → ∃ t, exec (.cardAnswer (.uidBits bits false)) s = .next t ∧
        to_ t { b with stage := .select l, uid := b.uid ++ levelUid u } [selByte l :: 0x70 :: u]) ∧
    (∀ l iso4, at_ (.select l) → l < 3 → ∃ t, exec (.cardAnswer (.sak true iso4)) s = .next t ∧
      to_ t { b with stage := .anticol (l + 1) [] } [[selByte (l + 1), 0x20]]) ∧
    (∀ l, at_ (.select l) → ∃ t, exec (.cardAnswer (.sak false true)) s = .next t ∧
      to_ t { b with stage := .rats, cards := b.cards + 1 } [[0xE0, 0x80]]) ∧
    (∀ ta : BitVec 8, at_ .rats → ∃ t y, exec (.cardAnswer (.ats ta)) s = .next t ∧ t.cl.badge = some y ∧ y.stage = .pps ∧
      y.capable = true ∧ t.cl.rate = BitVec.ofNat 4 (s.bestRate ta) ∧ sent t [[0xD0, 0x11, BitVec.ofNat 8 (5 * s.bestRate ta)]]) ∧
    (∀ n key, at_ .pps → s.canDraw 4 128 = true → c.keys.find? (fun e => e.2.role.getLsbD 2) = some (n, key) →
      ∃ t x, exec (.cardAnswer .pps) s = .next t ∧ t.cl.badge = some { b with stage := .auth } ∧ t.cl.clasp = some x ∧
        x.isOpen = false ∧ x.credUid = b.uid ∧ x.keyNo = n ∧ x.k = claspKey (masterKey key) b.uid ∧
        sent t [(0x01 : Byte) :: BitVec.ofNat 8 n :: x.na ++ [BitVec.ofNat 8 b.uid.length] ++ b.uid]) ∧
    ((at_ .auth ∨ at_ .session) → ∃ t, exec .cardResponseTimeout s = .next t ∧ failed t) ∧
    (at_ .identity → ∃ t, exec .cardResponseTimeout s = .next t ∧ dropped t) ∧
    (∀ l known, (at_ (.anticol l known) ∨ at_ (.select l)) → ∃ t, exec .cardResponseTimeout s = .next t ∧
      to_ t (polls b) [[0x26]]) ∧
    (c.badge = some b → b.begun + b.timeout * msC ≤ s.now → ∃ t, exec .badgeTimeout s = .next t ∧ t.cl.badge = none ∧
      t.cl.carrier = false ∧ t.cl.carrierOffAt = s.now ∧ bit t.cl.events 7 = true) ∧
    (c.badge = some b → s.now < b.begun + b.timeout * msC → exec .badgeTimeout s = .next s) ∧
    (∀ x, at_ .auth → c.clasp = some x →
      let m := c.chain ++ inf
      (m.length = 33 → leAt m 0 1 = 2 → m.drop 17 = tagB x.k x.na (sub m 1 16) x.credUid →
        ∃ t, exec (.auth2 inf) s = .next t ∧ t.cl.badge = some { b with stage := .session } ∧
          t.cl.clasp = some { x with nb := sub m 1 16, ks := sessionKey x.k x.na (sub m 1 16), lastAt := s.now } ∧
          sent t [(0x03 : Byte) :: tagA x.k x.na (sub m 1 16) x.credUid]) ∧
      ((m.length ≠ 33 ∨ leAt m 0 1 ≠ 2 ∨ m.drop 17 ≠ tagB x.k x.na (sub m 1 16) x.credUid) →
        ∃ t, exec (.auth2 inf) s = .next t ∧ failed t)) ∧
    (∀ x, c.clasp = some x →
      let f := openFrame x.ks 2 x.rxCtr (c.chain ++ inf)
      (at_ .session → f = some [0] → ∃ t y, exec (.secureFrame inf) s = .next t ∧ t.cl.badge = some { b with stage := .identity } ∧
        t.cl.clasp = some y ∧ y.isOpen = true ∧ y.rxCtr = x.rxCtr + 1 ∧ y.txCtr = x.txCtr + 1 ∧ bit t.cl.events 2 = true) ∧
      (∀ id, at_ .identity → f = some (0 :: id) → s.drn.out.contains (b.party, b.tag, 0x0902) = true →
        ∃ t h, exec (.secureFrame inf) s = .next t ∧ t.cl.badge = none ∧ t.cl.carrier = false ∧ h ∈ t.drn.held ∧
          h.party = b.party ∧ h.tag = b.tag ∧ h.status = stOk ∧
          h.payload = le 1 0 ++ le 1 b.uid.length ++ sub b.uid 0 10 ++ sub id 0 16) ∧
      (∀ e id, at_ .identity → f = some (e :: id) → e ≠ 0 → ∃ t, exec (.secureFrame inf) s = .next t ∧ dropped t) ∧
      (c.badge = some b → s.readerOk = true → f = none → ∃ t, exec (.secureFrame inf) s = .next t ∧
        (if b.stage = .identity then dropped t else failed t)) ∧
      (c.badge = some b → inf.headD 0 = 0x7F → ∃ t, exec (.errorFrame inf) s = .next t ∧
        (if b.stage = .identity then dropped t else failed t)))

/-- R482 to R487, R490, R492, R494 to R500, R502 to R505: start, loading and lifecycle. The boot ROM protects the
wrapped keys, locks the escalation addresses and hands over to the verified image of higher version, or enters the
loader; a descent that was cut goes on first, and a RETIRE owed from before blows its fuse. Firmware starts after it.
A tenant program that verifies is installed with its registers locked and measured, is started and stopped; a bundle
must be signed, fresh and of this module. Reports, certificates, the jig and the test port answer their commands. What
verifies a signature waits for an idle engine. Completes: BOOT_ROM_START, FIRMWARE_START, LOADER_IMAGE_LOAD,
FIRMWARE_STAGE, TP_LOAD, TP_START, TP_STOP, TP_STATUS, TP_SOURCES, BUNDLE, HALLMARK_GET, CERT_CHAIN_GET, JIG_ARM,
JIG_DISARM, JIG_EXPIRY, TEST_PORT_UNLOCK, TEST_PORT_PROVISION. -/
def Obligations.StartAndLifecycle : Prop :=
  ∀ (s : State) (r : Req) (data : List (BitVec 8)),
    let p := r.payload
    let held (op st : Nat) (b : Bytes) : State := (s.begun op r).holdFor true r.party op r.tag st false b
    let asked (t : State) (w : DecWhat) : Prop :=
      t.tmp.decisions.map (fun d => (d.what, d.first)) = s.tmp.decisions.map (fun d => (d.what, d.first)) ++ [(w, true)]
    let free : Prop := s.verifyWaits = false ∧ leAt p 1 3 = 0
    let okA := s.imageOk (slotBase 0)
    let okB := s.imageOk (slotBase 1)
    let verA := s.imageVersion (slotBase 0)
    let verB := s.imageVersion (slotBase 1)
    let rom : Prop := s.up = true ∧ s.lc.fw = .rom ∧ s.clk.rootOk = true ∧ s.fls.scanDone = true
    let common (t : State) : Prop := protectedSector t.fls 66 = true ∧ protectedSector t.fls 578 = true ∧
      (t.core 0).escLock = true ∧ (t.core 1).escLock = true ∧ t.tmp.policySealed = s.tmp.policyFused.getD false ∧
      t.fls.rdp = (if s.fls.rdpFuse then 2 else s.fls.rdp) ∧
      (s.tmp.heldRetire = false ∧ (∀ e ∈ s.tmp.pend, e.resp ≠ 5) → t.otp = s.otp) ∧
      (s.tmp.heldRetire = true ∨ (∃ e ∈ s.tmp.pend, e.resp = 5) → t.tmp.retireFuse = true) ∧
      ∀ k, k < 64 → protectedSector t.fls (512 + k) = true
    -- the boot ROM and firmware's start
    (rom → s.fls.marker = false → s.lc.staged = false →
      (∀ n, (n = 0 ∧ okA = true ∧ (okB = false ∨ verB ≤ verA) ∨ n = 1 ∧ okB = true ∧ (okA = false ∨ verA < verB)) →
        ∃ t, exec .bootRomStart s = .next t ∧ common t ∧ t.lc.fw = .stage1 ∧ t.lc.slot = n ∧ (t.core 0).pc = 0 ∧
          (∀ k, k < 64 → protectedSector t.fls k = true) ∧
          (s.lc.meas = [] → ∃ m, t.lc.meas = [m] ∧ m.kind = 1 ∧ m.index = BitVec.ofNat 8 n)) ∧
      (okA = false → okB = false → s.mbx.lock = false → ∃ t, exec .bootRomStart s = .next t ∧ common t ∧ t.lc.fw = .loader ∧
        (t.chan 0).valid = true ∧ (t.chan 64).valid = true ∧ t.mbx.lock = true ∧ t.lc.version = 0)) ∧
    (rom → s.fls.marker = true → s.fls.running = none → ∃ t, exec .bootRomStart s = .next t ∧
      t.fls.running = some (.descent 3) ∧ t.tmp.kek = none ∧ t.lc.fw = .rom) ∧
    ((s.clk.rootOk = false ∨ s.fls.scanDone = false) → exec .bootRomStart s = .next s) ∧
    (s.up = true → s.lc.fw = .stage1 → s.startDraws = true → ∃ t, exec .firmwareStart s = .next t ∧ t.lc.fw = .running ∧
      t.lc.bootCount = s.lc.bootCount + 1 ∧ t.hme.progLock = true ∧ (s.arc.keyStored = true → t.arc.keyLoaded = true) ∧
      protectedSector t.fls 1917 = true ∧ (s.tmp.retireFuse = true → s.lc.lifecycle ≠ 0 → t.lc.lifecycle = 3) ∧
      ∃ e ∈ t.dv.inbox, e.typ = 0x0025 ∧ e.cls = 0 ∧ e.gts = t.lc.gtsBoot) ∧
    (s.up = true → s.lc.fw = .stage1 → s.startDraws = false → ∃ t, exec .firmwareStart s = .next t ∧ t.lc = s.lc) ∧
    (s.lc.fw ≠ .stage1 → exec .firmwareStart s = .next s) ∧
    -- images
    (∀ b, s.serves r.party = true → s.turn 0x0701 r = true → s.lc.fw = .loader → s.halted = false → r.party = 1 → r.tag ≠ 0 →
      p.length = 16 → ((s.untake 1 0x0701 r.tag).outstanding 1).contains r.tag = false →
      ((s.untake 1 0x0701 r.tag).outstanding 1).length < 16 → free → leAt p 0 1 = 0xF0 → s.loadBytes r data = some b → b.length ≤ 4194304 →
      ((s.putImage 0 b).imageOk 0 = true → ∃ t h, exec (.loaderImageLoad r data) s = .next t ∧ t.lc.resetDue = true ∧
        t.fls = (s.putImage 0 b).fls ∧ h ∈ t.drn.held ∧ h.tag = r.tag ∧ h.status = stOk) ∧
      ((s.putImage 0 b).imageOk 0 = false → ∃ t h, exec (.loaderImageLoad r data) s = .next t ∧ t.lc.resetDue = s.lc.resetDue ∧
        t.fls = ((s.putImage 0 b).putImage 0 []).fls ∧ h ∈ t.drn.held ∧ h.tag = r.tag ∧ h.status = stRejected)) ∧
    (∀ b, s.begins 0x0701 r → free → leAt p 0 1 = 0xF0 → s.loadBytes r data = some b → b.length ≤ 4194304 →
      let a := s.lc.stageFirst * 65536
      let ok := (s.putImage a b).imageOk a
      ∃ t, exec (.firmwareStage r data) s = .next t ∧ t.lc.staged = ok ∧ t.fls = (s.putImage a b).fls ∧
        t.answers r 0x0701 (if ok then stOk else stRejected) (if ok then loadAnswer 0xF0 b else [])) ∧
    (∀ n b, s.begins 0x0701 r → free → leAt p 0 1 = n → n < 12 → s.coreLeaving n = false → s.lc.lifecycle ≠ 0 →
      s.loadBytes r data = some b →
      let c := n + 2
      let digest := sha512 (b.take (b.length - 132))
      let checked (st : Nat) : State := ((s.begun 0x0701 r).tenantRun b).holdFor true r.party 0x0701 r.tag st false []
      (s.tenantImageOk b = false → exec (.tpLoad r data) s = .next (checked stRejected)) ∧
      (s.tenantImageOk b = true → (s.phys .tenantCore n).isSome = true → (s.core c).run = true →
        exec (.tpLoad r data) s = .next (checked stPaState)) ∧
      (s.tenantImageOk b = true → (s.phys .tenantCore n).isSome = true → (s.core c).run = false →
        ∃ t, exec (.tpLoad r data) s = .next t ∧ (t.tenant n).loaded = true ∧ (t.tenant n).digest = digest ∧
          (t.core c).pc = BitVec.ofNat 24 (leAt b 20 4) ∧ (t.core c).escLock = true ∧ (t.core c).run = false ∧
          (t.cmem c).i = mwrite [] 0 (sub b 256 (leAt b 8 4)) ∧ (∀ k, k ≠ c → t.core k = s.core k) ∧
          t.answers r 0x0701 stOk digest)) ∧
    (s.begins 0x0701 r → free → leAt p 0 1 < 12 → s.coreLeaving (leAt p 0 1) = false → s.lc.lifecycle = 0 →
      exec (.tpLoad r data) s = .next (held 0x0701 stAccess [])) ∧
    -- tenant cores
    (∀ n, leAt p 0 1 = n → n < 12 → (s.phys .tenantCore n).isSome = true → (s.tenant n).loaded = true →
      let c := n + 2
      (s.begins 0x0702 r → (s.core c).run = false → (s.core c).lockup = false → ∃ t, exec (.tpStart r) s = .next t ∧
        (t.core c).run = true ∧ (t.core c).pc = (s.tenant n).entry ∧ fld (t.core c).sr 13 12 = 2 ∧
        t.answers r 0x0702 stOk [] ∧ ∀ k, k ≠ c → t.core k = s.core k) ∧
      (s.begins 0x0702 r → (s.core c).run = true → exec (.tpStart r) s = .next (held 0x0702 stPaState [])) ∧
      (s.begins 0x0703 r → ∃ t, exec (.tpStop r) s = .next t ∧ (t.core c).run = false ∧ (t.tenant n).stopped = true ∧
        t.answers r 0x0703 stOk [] ∧ ∀ k, k ≠ c → t.core k = s.core k) ∧
      (s.begins 0x0705 r → ∃ l, exec (.tpStatus r) s = .next (held 0x0705 stOk
        (le 4 (if (s.core c).lockup then 4 else if (s.core c).run then 2 else if (s.tenant n).stopped then 3 else 1) ++
          le 4 (s.tenant n).faults ++ l)))) ∧
    (∀ n, s.begins 0x0704 r → leAt p 0 1 = n → n < 12 → leAt p 1 1 = 0 →
      let first := leAt p 2 2
      let count := leAt p 4 2
      (0x900 ≤ first → 1 ≤ count → first + count ≤ 0xFFF → ∃ t, exec (.tpSources r) s = .next t ∧
        tget [] t.dv.ranges n = tget [] s.dv.ranges n ++ [(first, count)] ∧ t.answers r 0x0704 stOk []) ∧
      (first < 0x900 ∨ 0xFFF < first + count → exec (.tpSources r) s = .next (held 0x0704 stRejected []))) ∧
    -- bundles
    (∀ b, s.begins 0x0701 r → free → leAt p 0 1 = 0xF1 → s.loadBytes r data = some b →
      let n := if s.lc.ownerKey.isSome then 132 else 0
      let body := b.take (b.length - n)
      let signed : Prop := ∀ key, s.lc.ownerKey = some key → sigCheck key body (b.drop (b.length - 132)) = true
      let opened := gcmOpen (be 32 s.lc.bundleKey.toNat) (sub b 24 12) (sub b 0 32) ((body.drop 36).take (body.length - 52))
      let fresh : Prop := leAt b 8 8 = s.lc.serial.toNat ∧ s.lc.authSeq < leAt b 16 8 ∧
        opened.2 = body.drop (body.length - 16)
      let v : State := match s.lc.ownerKey with
        | some key => (s.begun 0x0701 r).ranVerify key body (b.drop (b.length - 132))
        | none => s.begun 0x0701 r
      let checked (st : Nat) : State := v.holdFor true r.party 0x0701 r.tag st false []
      (s.lc.lifecycle = 0 → exec (.bundle r data) s = .next (held 0x0701 stAccess [])) ∧
      (s.lc.lifecycle ≠ 0 → bundleHeaderOk b = false → exec (.bundle r data) s = .next (held 0x0701 stRejected [])) ∧
      (s.lc.lifecycle ≠ 0 → 52 + n ≤ b.length → bundleHeaderOk b = true →
        (¬ signed → exec (.bundle r data) s = .next (checked stAccess)) ∧
        (signed → ¬ fresh → exec (.bundle r data) s = .next (checked stRejected)) ∧
        (signed → fresh → opened.1 = [] → ∃ t, exec (.bundle r data) s = .next t ∧ t.lc.authSeq = leAt b 16 8 ∧
          t.answers r 0x0701 stOk (loadAnswer 0xF1 [])) ∧
        (signed → fresh → opened.1 = [0x0B, 1, 0, 1] → s.mayDeploy = true → ∃ t, exec (.bundle r data) s = .next t ∧
          asked t (.lifecycle 2 r.party r.tag) ∧ t.lc.lifecycle = s.lc.lifecycle ∧ t.drn.held = s.drn.held))) ∧
    -- reports and certificates
    (s.begins 0x0601 r →
      (leAt p 40 4 < s.reportLen → exec (.hallmarkGet r) s = .next (held 0x0601 stLength (le 4 s.reportLen))) ∧
      (s.reportLen ≤ leAt p 40 4 → ∃ t x, exec (.hallmarkGet r) s = .next t ∧ x ∈ t.lc.reports ∧ x.party = r.party ∧
        x.tag = r.tag ∧ x.body = s.report (sub p 0 32) false ∧ t.drn.held = s.drn.held)) ∧
    (∀ fn, s.begins 0x0602 r → midFn r.party = some fn →
      (leAt p 8 4 < s.certChain.length → exec (.certChainGet r) s = .next (held 0x0602 stLength (le 4 s.certChain.length))) ∧
      (s.certChain.length ≤ leAt p 8 4 → s.mayMove fn = true → ∃ t, exec (.certChainGet r) s = .next t ∧
        t.answers r 0x0602 stOk (le 4 s.certChain.length) ∧ t.lc = s.lc)) ∧
    -- the jig and the test port
    (s.begins 0x0B02 r → s.verifyWaits = false →
      (∀ t', (s.lc.lifecycle = 0 ∨ s.lc.lifecycle = 2) → jigFormOk p = true → s.jigAccept p = some t' →
        ∃ t, exec (.jigArm r) s = .next t ∧ asked t (.jig r.party r.tag p) ∧ t.lc.authSeq = t'.lc.authSeq ∧
          t.lc.jig = s.lc.jig ∧ t.drn.held = s.drn.held) ∧
      (s.lc.lifecycle = 1 → exec (.jigArm r) s = .next (held 0x0B02 stAccess [])) ∧
      (s.lc.lifecycle = 3 → exec (.jigArm r) s = .next (held 0x0B02 stAborted []))) ∧
    (s.begins 0x0B03 r → ∃ t, exec (.jigDisarm r) s = .next t ∧ t.lc.jig = none ∧ t.answers r 0x0B03 stOk []) ∧
    (∀ j, s.lc.jig = some j → (s.up = true → j.endAt ≤ s.now → ∃ t, exec .jigExpiry s = .next t ∧ t.lc.jig = none ∧
      t.ret.wJig = false) ∧ (s.now < j.endAt → exec .jigExpiry s = .next s)) ∧
    (s.up = true → s.lc.lifecycle = 0 → s.lc.testFuse = false →
      (s.lc.testPort = false → ∃ t, exec .testPortUnlock s = .next t ∧ asked t .testPort ∧ t.lc = s.lc) ∧
      (s.lc.testPort = true → s.lc.attCert ≠ some [] → ∃ t, exec .testPortProvision s = .next t ∧
        asked t (.lifecycle 1 0 0) ∧ t.lc = s.lc)) ∧
    ((s.lc.lifecycle ≠ 0 ∨ s.lc.testFuse = true) → exec .testPortUnlock s = .next s)

/-- R336, R339: the sixteen ALU operations in register, imm8 and imm32 form: the result in register d, the flags that
the table of R339 sets, and nothing else of the core or of the module but the PC. CMP and TST write no result.
Completes: MOV, ADD, ADC, SUB, SBC, CMP, AND, OR, XOR, TST, SHL, SHR, SAR, ROL, MUL, MULHU. -/
def Obligations.AluRegisterAndImmediateForms : Prop :=
  ∀ (c : Fin 14) (s : State) (i : Ins), s.runs c i →
    (i.op / 16 = 1 ∨ i.op / 16 = 2 ∨ i.op / 16 = 3) → i.spp = false →
    let k := s.core c.val
    let x := k.reg i.d
    let y := if i.op / 16 = 1 then k.reg i.s else i.imm
    let n := y.toNat % 32
    let cy := b2n (k.flag srC)
    let does (e : Instr) (r : Word) (cf vf : Option Bool) : Prop :=
      completes e c i s fun k' => onlyReg k k' i.d r k'.sr ∧ flagsOf k.sr k'.sr r cf vf
    let tests (e : Instr) (r : Word) (cf vf : Option Bool) : Prop :=
      completes e c i s fun k' => k' = { k with sr := k'.sr } ∧ flagsOf k.sr k'.sr r cf vf
    (i.op % 16 = 0x0 → completes (.mov c) c i s fun k' => onlyReg k k' i.d y k.sr) ∧
    (i.op % 16 = 0x1 → does (.add c) (x + y) (some (2 ^ 32 ≤ x.toNat + y.toNat)) (some (overflows (x.toInt + y.toInt)))) ∧
    (i.op % 16 = 0x2 → does (.adc c) (x + y + BitVec.ofNat 32 cy) (some (2 ^ 32 ≤ x.toNat + y.toNat + cy))
      (some (overflows (x.toInt + y.toInt + cy)))) ∧
    (i.op % 16 = 0x3 → does (.sub c) (x - y) (some (x.toNat < y.toNat)) (some (overflows (x.toInt - y.toInt)))) ∧
    (i.op % 16 = 0x4 → does (.sbc c) (x - y - BitVec.ofNat 32 cy) (some (x.toNat < y.toNat + cy))
      (some (overflows (x.toInt - y.toInt - cy)))) ∧
    (i.op % 16 = 0x5 → tests (.cmp c) (x - y) (some (x.toNat < y.toNat)) (some (overflows (x.toInt - y.toInt)))) ∧
    (i.op % 16 = 0x6 → does (.andI c) (x &&& y) none none) ∧
    (i.op % 16 = 0x7 → does (.orI c) (x ||| y) none none) ∧
    (i.op % 16 = 0x8 → does (.xorI c) (x ^^^ y) none none) ∧
    (i.op % 16 = 0x9 → tests (.tst c) (x &&& y) none none) ∧
    (i.op % 16 = 0xA → does (.shl c) (x <<< n) (if n = 0 then none else some (x.getLsbD (32 - n))) none) ∧
    (i.op % 16 = 0xB → does (.shr c) (x >>> n) (if n = 0 then none else some (x.getLsbD (n - 1))) none) ∧
    (i.op % 16 = 0xC → does (.sar c) (x.sshiftRight n) (if n = 0 then none else some (x.getLsbD (n - 1))) none) ∧
    (i.op % 16 = 0xD → does (.rol c) (x.rotateLeft n) (if n = 0 then none else some (x.getLsbD (32 - n))) none) ∧
    (i.op % 16 = 0xE → does (.mul c) (x * y) none none) ∧
    (i.op % 16 = 0xF → does (.mulhu c) (BitVec.ofNat 32 (x.toNat * y.toNat / 2 ^ 32)) none none)

/-- R340: the miscellaneous group. Division by 0 and the most negative number by -1 give the results that the rule
states and set V; V stays as it was otherwise (log entry 28 says so: the model's reading). Completes: NEG, NOT, SEXB,
SEXH, DIVU, DIVS, REMU, REMS, MULHS, CLZ, LEA. -/
def Obligations.MiscellaneousGroup : Prop :=
  ∀ (c : Fin 14) (s : State) (i : Ins), s.runs c i →
    let k := s.core c.val
    let x := k.reg i.d
    let y := k.reg i.s
    let does (e : Instr) (r : Word) (P : Word → Prop) : Prop :=
      completes e c i s fun k' => onlyReg k k' i.d r k'.sr ∧ P k'.sr
    let zn (r : Word) (v : Option Bool) (sr : Word) : Prop := flagsOf k.sr sr r none v
    (i.op = 0x70 → does (.neg c) (0 - y) fun sr => flagsOf k.sr sr (0 - y) (some (0 < y.toNat)) (some (y == 0x80000000))) ∧
    (i.op = 0x71 → does (.notI c) (~~~ y) (zn (~~~ y) none)) ∧
    (i.op = 0x72 → does (.sexb c) ((y.truncate 8).signExtend 32) fun sr => sr = k.sr) ∧
    (i.op = 0x73 → does (.sexh c) ((y.truncate 16).signExtend 32) fun sr => sr = k.sr) ∧
    (i.op = 0x74 → y ≠ 0 → does (.divu c) (x / y) (zn (x / y) none)) ∧
    (i.op = 0x74 → y = 0 → does (.divu c) 0xFFFFFFFF (zn 0xFFFFFFFF (some true))) ∧
    (i.op = 0x75 → y ≠ 0 → ¬ (x = 0x80000000 ∧ y = 0xFFFFFFFF) →
      let q := BitVec.ofInt 32 (x.toInt.tdiv y.toInt)
      does (.divs c) q (zn q none)) ∧
    (i.op = 0x75 → y = 0 → does (.divs c) 0xFFFFFFFF (zn 0xFFFFFFFF (some true))) ∧
    (i.op = 0x75 → x = 0x80000000 → y = 0xFFFFFFFF → does (.divs c) 0x80000000 (zn 0x80000000 (some true))) ∧
    (i.op = 0x76 → y ≠ 0 → does (.remu c) (x % y) (zn (x % y) none)) ∧
    (i.op = 0x76 → y = 0 → does (.remu c) x (zn x (some true))) ∧
    (i.op = 0x77 → y ≠ 0 → ¬ (x = 0x80000000 ∧ y = 0xFFFFFFFF) →
      let r := BitVec.ofInt 32 (x.toInt.tmod y.toInt)
      does (.rems c) r (zn r none)) ∧
    (i.op = 0x77 → y = 0 → does (.rems c) x (zn x (some true))) ∧
    (i.op = 0x77 → x = 0x80000000 → y = 0xFFFFFFFF → does (.rems c) 0 (zn 0 (some true))) ∧
    (i.op = 0x78 → let r := BitVec.ofInt 32 (x.toInt * y.toInt / 2 ^ 32)
      does (.mulhs c) r (zn r none)) ∧
    (i.op = 0x79 → let r := BitVec.ofNat 32 (clz y)
      does (.clz c) r fun sr => bit sr srZ = (r == 0) ∧ ∀ n, n ≠ srZ → bit sr n = bit k.sr n) ∧
    (i.op = 0x7A → does (.lea c) (effAddr k i) fun sr => sr = k.sr)

/-- R330, R331, R332, R337, R354, R395, R401: what an instruction's memory operand reads. From D-space: where the MPU
and the decoding allow every part and no flash stands there, the bytes of its parts, at the effective address, with
the state unchanged; where a part is refused, the fault of the first refused part. Through the SPI prefix: bytes of
I-space. A store of bytes at a D-space location is what the storing core reads there afterwards, and every other byte
that it can read in its banks and in cluster memory reads as before; no store of one core changes a byte of another
core's banks. -/
def Obligations.CoreMemoryReadsAndStores : Prop :=
  (∀ (s : State) (c access : Nat) (i : Ins),
     let k := s.core c
     let a := (effAddr k i).toNat
     (i.spi = false →
       (s.dCheck c k.pl access (dParts i.bank a i.size) = none →
         (∀ o, dLoc k.escActive (bankAddr i.bank a) ≠ .flash o) →
         s.operand c access i = .ok (s.partBytes c (dParts i.bank a i.size)) s) ∧
       ∀ f, s.dCheck c k.pl access (dParts i.bank a i.size) = some f →
         s.operand c access i = .flt f (s.flashRefused c f)) ∧
     (i.spi = true →
       (mpuCheck (s.mpu c) 0 0 k.pl vMpuData ((accessParts (a % 2 ^ 24) i.size).map (·.1)) 0 = none →
         a % 2 ^ 24 + i.size ≤ 0x40000 →
         s.operand c access i = .ok ((upto i.size).map fun n => mget (s.cmem c).i (a % 2 ^ 24 + n)) s) ∧
       ∀ f, mpuCheck (s.mpu c) 0 0 k.pl vMpuData ((accessParts (a % 2 ^ 24) i.size).map (·.1)) 0 = some f →
         s.operand c access i = .flt f s)) ∧
  (∀ (s : State) (c : Nat) (l l' : Loc) (d : Bytes),
     let base (l : Loc) : Nat := match l with
       | .x o => o
       | .y o => o
       | .esc o => o
       | .shared o => o
       | _ => 0
     let alike : Prop := match l, l' with
       | .x _, .x _ => True
       | .y _, .y _ => True
       | .esc _, .esc _ => True
       | .shared _, .shared _ => True
       | _, _ => False
     ((∃ o, l = .x o) ∨ (∃ o, l = .y o) ∨ (∃ o, l = .esc o) ∨ (∃ o, l = .shared o)) →
     (∀ o, l' ≠ .flash o) →
     (alike → base l ≤ base l' → base l' < base l + d.length →
       (s.locStore c l d).locByte c l' = d.getD (base l' - base l) 0) ∧
     (¬ (alike ∧ base l ≤ base l' ∧ base l' < base l + d.length) → (s.locStore c l d).locByte c l' = s.locByte c l') ∧
     (∀ c', c' ≠ c → ∀ o, (s.locStore c l d).locByte c' (.x o) = s.locByte c' (.x o) ∧
       (s.locStore c l d).locByte c' (.y o) = s.locByte c' (.y o)))

/-- R337, R339, R340: the operand forms that read memory: d := d op [mem] for every ALU operation, and LDSB, LDSH.
Register d and the flags take what the operation gives on the operand zero-extended (log entry 27), or sign-extended
for LDSB and LDSH; the base of modes 5 and 6 moves first; nothing else changes. CMP and TST write no result.
Completes: LDSB, LDSH. -/
def Obligations.MemoryOperandsAreLoaded : Prop :=
  ∀ (c : Fin 14) (s s1 : State) (i : Ins) (m : Bytes), s.runs c i → i.spp = false → s.operand c.val 0 i = .ok m s1 →
    let k := s1.core c.val
    let b := afterBase k i
    let x := k.reg i.d
    let y := wordOf m
    let loads (e : Instr) (n : Nat) : Prop := i.op = 0x40 + n →
      ∃ k' : Core, completesIn e c i s (s1.setCore c.val k') ∧
        k' = { b with g := k'.g, sr := aluSr n x y k.sr } ∧
        ∀ r, k'.reg r = if r = i.d ∧ n ≠ 5 ∧ n ≠ 9 then aluResult n x y (k.flag srC) else b.reg r
    let extends_ (e : Instr) : Prop :=
      ∃ k' : Core, completesIn e c i s (s1.setCore c.val k') ∧ onlyReg b k' i.d (sext i.size (ofLe m)) k.sr
    loads (.mov c) 0 ∧ loads (.add c) 1 ∧ loads (.adc c) 2 ∧ loads (.sub c) 3 ∧ loads (.sbc c) 4 ∧ loads (.cmp c) 5 ∧
    loads (.andI c) 6 ∧ loads (.orI c) 7 ∧ loads (.xorI c) 8 ∧ loads (.tst c) 9 ∧ loads (.shl c) 10 ∧
    loads (.shr c) 11 ∧ loads (.sar c) 12 ∧ loads (.rol c) 13 ∧ loads (.mul c) 14 ∧ loads (.mulhu c) 15 ∧
    (i.op = 0x7B → extends_ (.ldsb c)) ∧ (i.op = 0x7C → extends_ (.ldsh c))

/-- R337, R339, R351, R352, R353: the operand forms that store to memory. MOV stores register d or the immediate at
the operand's address where every part may be written; every other ALU operation but CMP and TST reads the operand and
stores its result there, with the flags of the operation; an ATOM form does so in the X and Y banks and faults
elsewhere. Nothing else changes but the base of modes 5 and 6. A store that cluster memory holds back, with the buffer
full, waits. -/
def Obligations.MemoryOperandsAreStored : Prop :=
  ∀ (c : Fin 14) (s : State) (i : Ins), s.runs c i → i.spp = false →
    let k := s.core c.val
    let a := (effAddr k i).toNat
    let y := if i.op / 16 = 5 then k.reg i.d else i.imm
    let v := le i.size y.toNat
    (i.op = 0x50 ∨ i.op = 0x60 → s.dCheck c.val k.pl 1 (dParts i.bank a v.length) = none →
      (s.storeHeld c.val (dParts i.bank a v.length) = false →
        completesIn (.mov c) c i s ((s.storeParts c.val (dParts i.bank a v.length) v).onCore c.val fun k => afterBase k i)) ∧
      (s.storeHeld c.val (dParts i.bank a v.length) = true → exec (.mov c) s = .next s)) ∧
    (∀ m s1, s.operand c.val 3 i = .ok m s1 →
      let x := wordOf m
      let k1 := s1.core c.val
      let parts := dParts i.bank (effAddr k1 i).toNat i.size
      let stores (e : Instr) (n : Nat) : Prop := i.op = 0x50 + n ∨ i.op = 0x60 + n →
        (i.atom = false ∨ inBanks i.bank (bankAddr i.bank a) i.size = true →
          (s1.storeHeld c.val parts = false →
            completesIn e c i s ((s1.storeParts c.val parts (le i.size (aluResult n x y (k1.flag srC)).toNat)).onCore c.val
              fun k' => { afterBase k' i with sr := aluSr n x y k1.sr })) ∧
          (s1.storeHeld c.val parts = true → exec e s = .next s)) ∧
        (i.atom = true → inBanks i.bank (bankAddr i.bank a) i.size = false →
          exec e s = .next (s.takeFault c.val (outOfBanks (bankAddr i.bank a) 3)))
      stores (.add c) 1 ∧ stores (.adc c) 2 ∧ stores (.sub c) 3 ∧ stores (.sbc c) 4 ∧ stores (.andI c) 6 ∧
      stores (.orI c) 7 ∧ stores (.xorI c) 8 ∧ stores (.shl c) 10 ∧ stores (.shr c) 11 ∧ stores (.sar c) 12 ∧
      stores (.rol c) 13 ∧ stores (.mul c) 14 ∧ stores (.mulhu c) 15) ∧
    (∀ m s1, s.operand c.val 0 i = .ok m s1 → i.atom = false →
      let tests (e : Instr) (n : Nat) : Prop := i.op = 0x50 + n ∨ i.op = 0x60 + n →
        completesIn e c i s (s1.onCore c.val fun k' => { afterBase k' i with sr := aluSr n (wordOf m) y (s1.core c.val).sr })
      tests (.cmp c) 5 ∧ tests (.tst c) 9)

/-- R342, R343, R344, R346, R384: where the PC goes when an instruction of `len` bytes completes. In sequence it moves
past the instruction; in a delay slot it takes the branch's target, or moves past the slot when the branch is not
taken; at the end of an active hardware loop it returns to LS until the count has run out. What takes effect with the
completion of a delay slot: a call's LK and its push of a call record on the stack in use, a return's pop, a bit
cleared in the core's bit RAM. -/
def Obligations.CompletionOfAnInstruction : Prop :=
  (∀ (s : State) (c len : Nat),
     let k := s.core c
     let next := k.pc + BitVec.ofNat 24 len
     (k.slot = none → ¬ (k.la = true ∧ k.pc = k.le) → s.complete c len = s.setCore c { k with pc := next }) ∧
     (k.slot = none → k.la = true → k.pc = k.le → k.lc - 1 ≠ 0 →
       s.complete c len = s.setCore c { k with lc := k.lc - 1, pc := k.ls }) ∧
     (k.slot = none → k.la = true → k.pc = k.le → k.lc - 1 = 0 →
       s.complete c len = s.setCore c { k with lc := 0, pc := next, sr := setBit k.sr srLA false }) ∧
     (∀ t, k.slot = some t → t.effect = .none →
       s.complete c len = s.setCore c { k with pc := t.target.getD next, slot := none })) ∧
  (∀ (s : State) (c len : Nat) (t : Slot), (s.core c).slot = some t →
     let k := s.core c
     let next := k.pc + BitVec.ofNat 24 len
     let dest := t.target.getD next
     (t.effect = .call → k.escActive = false →
       let ss := tset [] k.ss k.pl (ssRec next 0 0 0 false :: k.stack k.pl)
       s.complete c len = s.setCore c { k with lk := next, pc := dest, slot := none, ss := ss }) ∧
     (t.effect = .call → k.escActive = true →
       let ss := ssRec next 0 0 0 false :: k.escSs
       s.complete c len = s.setCore c { k with lk := next, pc := dest, slot := none, escSs := ss }) ∧
     (t.effect = .ret → k.escActive = false →
       s.complete c len = s.setCore c { k with pc := dest, slot := none, ss := tset [] k.ss k.pl ((k.stack k.pl).drop 1) }) ∧
     (t.effect = .ret → k.escActive = true →
       s.complete c len = s.setCore c { k with pc := dest, slot := none, escSs := k.escSs.drop 1 }) ∧
     (∀ b : BitVec 16, t.effect = .clearBit b → b.toNat < 0x8000 →
       ∃ m : CoreMem, s.complete c len = (s.setCmem c m).setCore c { k with pc := dest, slot := none } ∧
         m = { s.cmem c with bits := m.bits } ∧
         ∀ n, tget false m.bits n = if n = b.toNat then false else tget false (s.cmem c).bits n))

/-- R341, R342, R343, R384: branches, jumps and calls. Each one decides at once and leaves its delay slot as the next
instruction, its target to be taken with the slot; a conditional form not taken leaves no target, and an annulling one
then makes its slot do nothing. Bit branches read their bit where the MPU allows it. A call whose level's stack has
room, and a return whose top record is a call record with LK's address, carry their stack's change to the slot's
completion. Completes: BCC, BCC_A, JMP, CALL, BSR, RET, BBT, BBF, BBT_A, BBF_A, BBTC, BBTC_A. -/
def Obligations.BranchesLeaveADelaySlot : Prop :=
  ∀ (c : Fin 14) (s : State) (i : Ins), s.runs c i →
    let k := s.core c.val
    let next := k.pc + BitVec.ofNat 24 i.len
    let rel := next + BitVec.ofInt 24 (toSigned 16 i.disp16)
    let goes (e : Instr) (taken annul : Bool) (target : BitVec 24) (d : Defer) : Prop :=
      let sl : Slot := ⟨k.pc, if taken then some target else none, annul && !taken, if taken then d else .none⟩
      exec e s = .next (s.setCore c.val { k with pc := next, slot := some sl })
    (0x80 ≤ i.op → i.op < 0x90 → goes (.bcc c) (condTrue (i.op % 16) k.sr) false rel .none) ∧
    (0x90 ≤ i.op → i.op < 0xA0 → goes (.bccA c) (condTrue (i.op % 16) k.sr) true rel .none) ∧
    (i.op = 0xA0 → goes (.jmp c) true false (BitVec.ofNat 24 i.abs) .none) ∧
    (i.op = 0xA2 → goes (.jmp c) true false ((k.reg i.s).truncate 24) .none) ∧
    (k.callStack.length < k.callDepth →
      (i.op = 0xA1 → goes (.call c) true false (BitVec.ofNat 24 i.abs) .call) ∧
      (i.op = 0xA3 → goes (.call c) true false ((k.reg i.s).truncate 24) .call) ∧
      (i.op = 0xAA → goes (.bsr c) true false rel .call)) ∧
    (∀ r rest, k.callStack = r :: rest → r.kind = 0 → r.pc = k.lk → i.op = 0x05 → goes (.ret c) true false k.lk .ret) ∧
    (s.bitCheck c.val 0 [i.b0] = none →
      (i.op = 0xA4 → goes (.bbt c) (s.bitRead c.val i.b0) false rel .none) ∧
      (i.op = 0xA5 → goes (.bbf c) (!s.bitRead c.val i.b0) false rel .none) ∧
      (i.op = 0xA6 → goes (.bbtA c) (s.bitRead c.val i.b0) true rel .none) ∧
      (i.op = 0xA7 → goes (.bbfA c) (!s.bitRead c.val i.b0) true rel .none)) ∧
    (s.bitCheck c.val 3 [i.b0] = none →
      (i.op = 0xA8 → goes (.bbtc c) (s.bitRead c.val i.b0) false rel (.clearBit (BitVec.ofNat 16 i.b0))) ∧
      (i.op = 0xA9 → goes (.bbtcA c) (s.bitRead c.val i.b0) true rel (.clearBit (BitVec.ofNat 16 i.b0))))

/-- R334, R350, R401: the bit group on the core's bit RAM, where the MPU allows the access: a bit written takes its
new value and no other bit of the core does; F takes its new value and no other bit of SR does. Completes: SETB, CLRB,
CPLB, MOVB_TO_F, MOVB_FROM_F, ANDB, ORB, XORB, ANDNB, ORNB, TSTB, BOP. -/
def Obligations.BitGroup : Prop :=
  ∀ (c : Fin 14) (s : State) (i : Ins), s.runs c i →
    let k := s.core c.val
    let a := if 0xBC ≤ i.op then fld (k.reg i.s) 15 0 else i.b0
    let f := k.flag srF
    let b := tget false (s.cmem c.val).bits a
    let puts (e : Instr) (at_ : Nat) (v : Bool) : Prop :=
      ∃ m : CoreMem, completesIn e c i s (s.setCmem c.val m) ∧ m = { s.cmem c.val with bits := m.bits } ∧
        ∀ n, tget false m.bits n = if n = at_ then v else tget false (s.cmem c.val).bits n
    let toF (e : Instr) (v : Bool) : Prop := completes e c i s fun k' => k' = { k with sr := setBit k.sr srF v }
    (a < 0x8000 → s.bitCheck c.val 1 [a] = none →
      (i.op = 0xB0 ∨ i.op = 0xBC → puts (.setb c) a true) ∧
      (i.op = 0xB1 ∨ i.op = 0xBD → puts (.clrb c) a false) ∧
      (i.op = 0xB4 ∨ i.op = 0xBF → puts (.movbFromF c) a f)) ∧
    (a < 0x8000 → s.bitCheck c.val 3 [a] = none → i.op = 0xB2 → puts (.cplb c) a (!b)) ∧
    (a < 0x8000 → s.bitCheck c.val 0 [a] = none →
      (i.op = 0xB3 ∨ i.op = 0xBE → toF (.movbToF c) b) ∧
      (i.op = 0xB5 → toF (.andb c) (f && b)) ∧
      (i.op = 0xB6 → toF (.orb c) (f || b)) ∧
      (i.op = 0xB7 → toF (.xorb c) (f ^^ b)) ∧
      (i.op = 0xB8 → toF (.andnb c) (f && !b)) ∧
      (i.op = 0xB9 → toF (.ornb c) (f || !b))) ∧
    (i.op = 0xBA → i.b0 < 0x8000 → s.bitCheck c.val 3 [i.b0] = none →
      ∃ m : CoreMem, completesIn (.tstb c) c i s ((s.setCore c.val { k with sr := setBit k.sr srF b }).setCmem c.val m) ∧
        m = { s.cmem c.val with bits := m.bits } ∧
        ∀ n, tget false m.bits n = if n = i.b0 then true else tget false (s.cmem c.val).bits n) ∧
    (i.op = 0xBA → 0x8000 ≤ i.b0 → s.bitCheck c.val 3 [i.b0] = none → exec (.tstb c) s =
      .next (s.takeFault c.val { vec := vBus, addr := BitVec.ofNat 32 i.b0, space := 3, access := 3 })) ∧
    (i.op = 0xBB → i.b0 < 0x8000 → i.b1 < 0x8000 → i.b2 < 0x8000 → s.bitCheck c.val 0 [i.b1, i.b2] = none →
      s.bitCheck c.val 1 [i.b0] = none →
      let x := tget false (s.cmem c.val).bits i.b1
      let y := tget false (s.cmem c.val).bits i.b2
      (i.ctl = 0 → puts (.bop c) i.b0 (x && y)) ∧ (i.ctl = 1 → puts (.bop c) i.b0 (x || y)) ∧
      (i.ctl = 2 → puts (.bop c) i.b0 (x ^^ y)) ∧ (i.ctl = 3 → puts (.bop c) i.b0 (x && !y)))

/-- R351, R352, R353: the atomics. TAS reads its byte in a bank, writes 0xFF over it and sets Z when it was 0; LDR.RS
loads an aligned word and reserves its 32-byte granule; STC stores, with Z set, while the core holds the reservation
of the word's granule, and otherwise stores nothing, with Z clear; either way it gives the reservation up. While
cluster memory holds the granule back for another core, LDR.RS waits, and an STC that would store. CLRRS gives the
reservation up. Completes: TAS, LDR_RS, STC, CLRRS. -/
def Obligations.AtomicsAndReservations : Prop :=
  ∀ (c : Fin 14) (s : State) (i : Ins), s.runs c i →
    let k := s.core c.val
    let a := bankAddr i.bank (effAddr k i).toNat
    (i.op = 0xC0 → i.spi = false → inBanks i.bank a 1 = true →
      ∀ b, s.dLoad c.val k.pl 3 i.bank (effAddr k i).toNat 1 = .ok b s →
        completesIn (.tas c) c i s ((s.storeParts c.val (dParts i.bank (effAddr k i).toNat 1) [0xFF]).onCore c.val
          fun k' => { afterBase k' i with sr := setBit (afterBase k' i).sr srZ (wordOf b == 0) })) ∧
    let apart : Prop := (dLoc k.escActive a).inShared = true → s.heldBack c.val (a - 0x10000000) 4 = false
    (i.op = 0xC1 → a % 4 = 0 → mpuCheck (s.mpu c.val) 1 0 k.pl vMpuData [a] 0 = none →
      (∀ o, dLoc k.escActive a ≠ .flash o) →
      (apart → ∀ b s1, (s.drain c.val 4).dLoad c.val k.pl 0 i.bank a 4 = .ok b s1 →
        completesIn (.ldrRs c) c i s
          (s1.onCore c.val fun k => { k.setReg i.d (wordOf b) with rsv := some (a / 32), rsvAt := s1.now })) ∧
      (¬ apart → exec (.ldrRs c) s = .next s)) ∧
    (i.op = 0xC2 → a % 4 = 0 → s.dCheck c.val k.pl 1 [(a, 4)] = none →
      (k.rsv = some (a / 32) → ¬ apart → exec (.stc c) s = .next s) ∧
      (k.rsv = some (a / 32) → apart → ((dLoc k.escActive a).inShared = true → ((s.drain c.val 4).cmem c.val).stores = []) → completesIn (.stc c) c i s
        ((((s.drain c.val 4).storeParts c.val [(a, 4)] (le 4 (k.reg i.d).toNat)).drain c.val 4).onCore c.val
          fun k => { afterBase k i with sr := setBit (afterBase k i).sr srZ true, rsv := none })) ∧
      (k.rsv ≠ some (a / 32) → completesIn (.stc c) c i s
        (s.onCore c.val fun k => { afterBase k i with sr := setBit (afterBase k i).sr srZ false, rsv := none }))) ∧
    (i.op = 0x07 → completes (.clrrs c) c i s fun k' => k' = { k with rsv := none })

/-- R355, R356, R358, R401: the accumulators. MAC multiplies the words at XP in bank X and YP in bank Y, where the MPU
allows both fetches, and steps the pointers unless CTL says otherwise; MACR multiplies d and s; the sum is exact to 96
bits, with AV set when it leaves the range of the mode; ACSR, ACSRA and ACSAT read an accumulator that is not
poisoned; ACCLR clears it. Completes: MAC, MACR, ACSR, ACSRA, ACSAT, ACCLR. -/
def Obligations.AccumulatorGroup : Prop :=
  ∀ (c : Fin 14) (s : State) (i : Ins), s.runs c i →
    let k := s.core c.val
    let a := i.ctl % 2
    let sums (x y : Word) (k' : Core) : Prop :=
      let p := macProduct (i.ctl / 2 % 4) x y
      let q := macSum (i.ctl / 2 % 4) (if i.ctl / 16 % 2 = 1 then 0 else k.acc a) (if i.ctl / 8 % 2 = 1 then -p else p)
      k'.acc a = q.1 ∧ k'.acc (1 - a) = k.acc (1 - a) ∧ bit k'.sr srAV = (bit k.sr srAV || q.2) ∧
      (∀ n, n ≠ srAV → bit k'.sr n = bit k.sr n) ∧ ∀ n, k'.reg n = k.reg n
    (i.op = 0xD0 → mpuCheck (s.mpu c.val) 1 0 k.pl vMpuData [k.xp.toNat] 0 = none →
      mpuCheck (s.mpu c.val) 1 0 k.pl vMpuData [0x20000 + k.yp.toNat] 0 = none →
      completes (.mac c) c i s fun k' =>
        sums (wordOf (s.dBytes c.val k.xp.toNat 4)) (wordOf (s.dBytes c.val (0x20000 + k.yp.toNat) 4)) k' ∧
        (i.ctl / 32 % 2 = 1 → k'.xp = k.xp ∧ k'.yp = k.yp) ∧
        (i.ctl / 32 % 2 = 0 → k'.xp = macStep k.xp k.xm ∧ k'.yp = macStep k.yp k.ym)) ∧
    (i.op = 0xD1 → completes (.macr c) c i s fun k' => sums (k.reg i.d) (k.reg i.s) k' ∧ k'.xp = k.xp ∧ k'.yp = k.yp) ∧
    (k.poison i.s = none →
      (i.op = 0xD2 → completes (.acsr c) c i s fun k' =>
        k'.acc i.s = k.acc i.s >>> 32 ∧ ∀ n, k'.reg n = if n = i.d then (k.acc i.s).truncate 32 else k.reg n) ∧
      (i.op = 0xD3 → completes (.acsra c) c i s fun k' =>
        k'.acc i.s = (k.acc i.s).sshiftRight 32 ∧ ∀ n, k'.reg n = if n = i.d then (k.acc i.s).truncate 32 else k.reg n) ∧
      (i.op = 0xD4 → completes (.acsat c) c i s fun k' =>
        onlyReg k k' i.d (acSat (k.acc i.s) i.imm.toNat).1 (setBit k.sr srV (acSat (k.acc i.s) i.imm.toNat).2))) ∧
    (i.op = 0xD5 → i.s ≤ 1 → completes (.acclr c) c i s fun k' =>
      k'.acc i.s = 0 ∧ k'.poison i.s = none ∧ k'.acc (1 - i.s) = k.acc (1 - i.s) ∧ k'.sr = k.sr ∧ ∀ n, k'.reg n = k.reg n)

/-- R333, R346, R347, R352, R354, R359, R360: NOP changes nothing but the PC; WAIT stops the core unless a request or
a mailbox signal stands, and the core's clock runs again on WAIT_WAKE; ISYNC forgets what I-space held before; FENCE
makes every buffered store visible; BRK and UDF take their faults. LOOP and LOOPI with a count other than 0 set LS, LE
and LC, set LA and go to LS; with a count of 0 they clear LA and go past the instruction at LE, where one decodes;
BREAKL clears LA and keeps the loop registers. A FENCE whose stores cluster memory holds back waits. Completes: NOP,
WAIT, WAIT_WAKE, BRK, ISYNC, FENCE, UDF, LOOP, LOOPI, BREAKL. -/
def Obligations.ControlGroupAndHardwareLoops : Prop :=
  (∀ (c : Fin 14) (s : State),
     (s.coreRuns c.val = true → (s.core c.val).waiting = true → s.wakes c.val = true →
       exec (.waitWake c) s = .next (s.setCore c.val { s.core c.val with waiting := false })) ∧
     ∀ i : Ins, s.runs c i →
       (i.op = 0x00 → completesIn (.nop c) c i s s) ∧
       (i.op = 0x01 → s.wakes c.val = true → completesIn (.wait c) c i s s) ∧
       (i.op = 0x01 → s.wakes c.val = false →
         exec (.wait c) s = .next ((s.complete c.val i.len).onCore c.val fun k => { k with waiting := true })) ∧
       (i.op = 0x02 → exec (.brk c) s = .next (s.takeFault c.val { vec := 8 })) ∧
       (i.op = 0x03 → completesIn (.isync c) c i s (s.setCmem c.val { s.cmem c.val with stale := [] })) ∧
       (i.op = 0x04 → ((s.drain c.val 4).cmem c.val).stores = [] → completesIn (.fence c) c i s (s.drain c.val 4)) ∧
       (i.op = 0x04 → ((s.drain c.val 4).cmem c.val).stores ≠ [] → exec (.fence c) s = .next s) ∧
       (i.op = 0x0F → exec (.udf c) s = .next (s.takeFault c.val { vec := 1 }))) ∧
  (∀ (c : Fin 14) (s : State) (i : Ins), s.runs c i →
     let k := s.core c.val
     let ls := k.pc + BitVec.ofNat 24 i.len
     let le := ls + BitVec.ofNat 24 i.disp16
     let starts (e : Instr) (n : Word) : Prop :=
       (n ≠ 0 → exec e s = .next (s.setCore c.val { k with ls := ls, le := le, lc := n, pc := ls, sr := setBit k.sr srLA true })) ∧
       (n = 0 → ∀ j, s.insAt c.val le.toNat = .ok j →
         let past := le + BitVec.ofNat 24 j.len
         exec e s = .next (s.setCore c.val { k with ls := ls, le := le, lc := 0, pc := past, sr := setBit k.sr srLA false }))
     (i.op = 0xAC → starts (.loopI_ c) (k.reg i.s)) ∧
     (i.op = 0xAD → starts (.loopi c) i.imm) ∧
     (i.op = 0x0C → completes (.breakl c) c i s fun k' => k' = { k with sr := setBit k.sr srLA false }))

/-- R383, R391, R392, R393: a system call that its SCE register allows saves the return address in LK and a record on
the target level's stack, and goes to the handler at the level and mask that SCE names; RETX from the handler, with
the record on top and LK its address, restores level, mask level and LA, keeps the flags and goes to LK; with another
address in LK it escalates with cause 3, and where its two decisions disagree it raises DISAGREE with code 7 and
escalates with cause 4. The decisions take a byte of the noise harvest, or do without one once it is exhausted.
Completes: SC, RETX. -/
def Obligations.SystemCallsAndTheirReturn : Prop :=
  ∀ (c : Fin 14) (s : State) (i : Ins), s.runs c i →
    let k := s.core c.val
    let s1 : State := if s.nh.exhausted then s else (s.draw 1 8).2
    let noise : Prop := s.nh.exhausted = true ∨ s.canDraw 1 8 = true
    (0x08 ≤ i.op → i.op ≤ 0x0B →
      let e := if i.op = 0x08 then k.sce0 else if i.op = 0x09 then k.sce1 else if i.op = 0x0A then k.sce2 else k.sce3
      let t := fld e 25 24
      let ret := k.pc + BitVec.ofNat 24 i.len
      bit e 31 = true → (k.pl = 3 → bit e 30 = true) → ceiling c.val ≤ t → t ≤ k.pl → (k.stack t).length < 256 →
      ∃ k' : Core, exec (.sc c) s = .next (s.setCore c.val k') ∧ k'.lk = ret ∧ k'.pc = BitVec.ofNat 24 (fld e 23 0) ∧
        k'.pl = t ∧ k'.ml = fld e 29 26 ∧ k'.la = false ∧ k'.stack t = ssRec ret 2 k.pl k.ml k.la :: k.stack t ∧
        ∀ n, k'.reg n = k.reg n) ∧
    (∀ r rest, i.op = 0x06 → noise → k.escActive = false → k.stack k.pl = r :: rest → r.kind = 2 → k.lk = r.pc →
      ceiling c.val ≤ r.pl →
      ∃ (k' : Core), exec (.retx c false) s = .next (s1.setCore c.val k') ∧ s1.lol = s.lol ∧ k'.pc = k.lk ∧ k'.pl = r.pl ∧
        k'.ml = r.ml ∧ k'.la = r.la ∧ fld k'.sr 5 0 = fld k.sr 5 0 ∧ k'.rsv = none ∧ k'.stack k.pl = rest ∧
        ∀ n, k'.reg n = k.reg n) ∧
    (∀ r rest, i.op = 0x06 → noise → k.escActive = false → k.stack k.pl = r :: rest → r.kind = 2 →
      exec (.retx c true) s = .next ((s1.disagree 7).escalate c.val 4 { vec := 0 }) ∧
      (k.lk ≠ r.pc → exec (.retx c false) s = .next (s1.escalate c.val 3 { vec := 0 })))

/-- R329, R370: MFS reads, MTS writes: at PL0 every special register, below it those that are not PL0's. A write
changes its own register alone; a write of SR changes the flags, and the mask level too but at PL3. Completes: MFS,
MTS. -/
def Obligations.SpecialRegisters : Prop :=
  ∀ (c : Fin 14) (s : State) (i : Ins), s.runs c i →
    let k := s.core c.val
    let n := i.imm.toNat
    let v := k.reg i.s
    (i.op = 0xE4 → (sprPl0 n = false ∨ k.pl = 0) → completes (.mfs c) c i s fun k' => onlyReg k k' i.d (k.spr n) k.sr) ∧
    (i.op = 0xE4 → sprPl0 n = true → k.pl ≠ 0 → exec (.mfs c) s = .next (s.takeFault c.val { vec := 2 })) ∧
    (i.op = 0xE5 → (sprPl0 n = false ∨ k.pl = 0) →
      let sets (P : Core → Prop) : Prop := completes (.mts c) c i s P
      (n = 0x00 → sets fun k' => k' = { k with sr := k'.sr } ∧ fld k'.sr 5 0 = fld v 5 0 ∧ k'.pl = k.pl ∧
        k'.la = k.la ∧ (k.pl ≠ 3 → k'.ml = fld v 11 8) ∧ (k.pl = 3 → k'.ml = k.ml)) ∧
      (n = 0x01 → sets fun k' => k' = { k with lk := v.truncate 24 }) ∧
      (n = 0x02 → sets fun k' => k' = { k with lc := v }) ∧
      (n = 0x03 → sets fun k' => k' = { k with ls := v.truncate 24 }) ∧
      (n = 0x04 → sets fun k' => k' = { k with le := v.truncate 24, sr := if k.lc = 0 then k.sr else setBit k.sr srLA true }) ∧
      (n = 0x05 → sets fun k' => k' = { k with xp := k'.xp } ∧ k'.xp.toNat = v.toNat % 0x20000 / 4 * 4) ∧
      (n = 0x06 → sets fun k' => k' = { k with yp := k'.yp } ∧ k'.yp.toNat = v.toNat % 0x20000 / 4 * 4) ∧
      (n = 0x07 → sets fun k' => k' = { k with xm := v }) ∧
      (n = 0x08 → sets fun k' => k' = { k with ym := v }) ∧
      (∀ j < 3, (n = 0x09 + j → sets fun k' => k' = { k with ac0 := accWord k.ac0 j v, poison0 := none }) ∧
        (n = 0x0C + j → sets fun k' => k' = { k with ac1 := accWord k.ac1 j v, poison1 := none })) ∧
      (n = 0x10 → sets fun k' => k' = { k with edtb := v &&& 0xFFFFFC00 }) ∧
      (n = 0x11 → sets fun k' => k' = { k with sce0 := v }) ∧
      (n = 0x12 → sets fun k' => k' = { k with sce1 := v }) ∧
      (n = 0x13 → sets fun k' => k' = { k with sce2 := v }) ∧
      (n = 0x14 → sets fun k' => k' = { k with sce3 := v }) ∧
      (n = 0x15 ∨ n = 0x16 → sets fun k' => k' = k))

/-- R82, R361, R362, R371, R401: IN and OUT where the port's block and the core's MPU allow the access: the port's
value goes into register d, register d into the port. Where the block forbids the level, the privilege fault is taken
with nothing read or written. MOV with the P-space prefix does the same at the port that its address names (R335).
EVPOST by a core that may post the source number, with room in its post queue, sends an event of the class and source
in register s, stamped at the core's own edge (R26), to Dovetail and sets F; with 8 of its events still on their way,
a reserved bit of s set, or a source that it may not post (which posts an event of the core's own), it clears F. The
event's body is free (log entry 12). Completes: IN, OUT, EVPOST. -/
def Obligations.PortsAndPostedEvents : Prop :=
  (∀ (c : Fin 14) (s : State) (i : Ins), s.runs c i →
     let k := s.core c.val
     let ins (e : Instr) (port : Nat) (fin : Core → Core) : Prop :=
       (∀ w t, s.pread c.val k.pl port = .ok w t → mpuCheck (s.mpu c.val) 2 0 k.pl vMpuData [port] 0 = none →
         completesIn e c i s (t.onCore c.val fun k => (fin k).setReg i.d w)) ∧
       (mayReadPort c.val k.pl port = false →
         exec e s = .next (s.takeFault c.val { vec := 2, addr := BitVec.ofNat 32 port, space := 2, access := 0 }))
     let outs (e : Instr) (port : Nat) (fin : Core → Core) : Prop :=
       (∀ t, s.pwrite c.val k.pl port (k.reg i.d) = some t → mpuCheck (s.mpu c.val) 2 1 k.pl vMpuData [port] 0 = none →
         completesIn e c i s (t.onCore c.val fin)) ∧
       (mayWritePort c.val k.pl port = false →
         exec e s = .next (s.takeFault c.val { vec := 2, addr := BitVec.ofNat 32 port, space := 2, access := 1 }))
     (i.op = 0xE0 → ins (.inP c) (i.imm.toNat % 65536) id) ∧
     (i.op = 0xE2 → ins (.inP c) ((k.reg i.s).toNat % 65536) id) ∧
     (i.op = 0xE1 → outs (.outP c) (i.imm.toNat % 65536) id) ∧
     (i.op = 0xE3 → outs (.outP c) ((k.reg i.s).toNat % 65536) id) ∧
     (i.op = 0x40 → i.spp = true → ins (.mov c) ((effAddr k i).toNat % 65536) fun k => afterBase k i) ∧
     (i.op = 0x50 → i.spp = true → outs (.mov c) ((effAddr k i).toNat % 65536) fun k => afterBase k i)) ∧
  (∀ (c : Fin 14) (s : State) (i : Ins), s.runs c i → i.op = 0xE6 →
     let k := s.core c.val
     let w := k.reg i.s
     (2 ^ 14 ≤ w.toNat → completes (.evpost c) c i s fun k' => k' = { k with sr := setBit k.sr srF false }) ∧
     (w.toNat < 2 ^ 14 → (s.mayPost c.val (fld w 11 0) = true → s.posted c.val < 8 →
       ∃ e : DvEv, completesIn (.evpost c) c i s
           (({ s with dv := { s.dv with inbox := s.dv.inbox ++ [e] } } : State).onCore c.val fun k => k.setFlag srF true) ∧
         e.src = fld w 11 0 ∧ e.cls.toNat = fld w 13 12 ∧ e.gts = s.stampAt 5 ∧ e.core = some c.val) ∧
     (s.mayPost c.val (fld w 11 0) = true → 8 ≤ s.posted c.val →
       completes (.evpost c) c i s fun k' => k' = { k with sr := setBit k.sr srF false }) ∧
     (s.mayPost c.val (fld w 11 0) = false → ∃ e : DvEv, completesIn (.evpost c) c i s
         (({ s with dv := { s.dv with inbox := s.dv.inbox ++ [e] } } : State).onCore c.val fun k => k.setFlag srF false) ∧
       e.src = coreSrc c.val ∧ e.cls = 1)))

/-- R372 to R375, R378: a fault with a descriptor in use whose target and mask level take it is entered through that
descriptor: the frame's 32 bytes go below the stack pointer (the present one at the same level, the descriptor's
otherwise), register 15 points to them, the PC is the handler's, the level is the more privileged of the target and
the present one, the mask level is the descriptor's, LA is clear, the reservation is lost, and a record of the
interrupted PC, level, mask level and LA is pushed. The frame holds the PC that RETX resumes, the saved SR, the
previous stack pointer, the cause, the faulting PC, the fault's address and LC. -/
def Obligations.FaultsEnterThroughTheirDescriptor : Prop :=
  ∀ (s : State) (c : Nat) (f : Flt) (b : Bytes),
    let k := s.core c
    let d := descOf b
    let e := min d.target k.pl
    let frame := (if e = k.pl then k.reg 15 else d.sp) - 32
    let body := frameBytes k.resumePc k.savedSr (k.reg 15) f k.pc k.lc
    let parts := (upto 8).map fun n => ((frame.toNat + 4 * n) % 2 ^ 32, 4)
    s.loadWords c (ceiling c) (k.edtb.toNat + 16 * f.vec) 4 = .ok b s → d.ok = true → ceiling c ≤ d.target → k.ml < d.faultLevel →
    ¬ (f.vec = vShadow ∧ f.ssLevel ≤ e) → frame.toNat % 8 = 0 → (k.stack e).length < 256 →
    (∀ p ∈ parts, s.dCheck c e 1 [p] = none) →
    let ss := tset [] k.ss e (ssRec k.resumePc 1 k.pl k.ml k.la :: k.stack e)
    let sr := srMode k.sr e d.newMl false
    let g := tset 0 k.g 15 frame
    s.enter c f none = (s.storeParts c parts body).setCore c
      { k with g := g, pc := d.handler, sr := sr, rsv := none, slot := none, waiting := false, ss := ss }

/-- R372, R376, R377, R378, R387, R388, R389: FAULT_ENTRY takes the fault of a fetch or an encoding that cannot run;
INTERRUPT_ENTRY enters the highest pending level above ML through its vector, at a boundary at which no fault is due.
RETX from a frame whose saved PC is that of the exception record on top, and whose saved level is at or below the
record's and reachable, its two decisions agreeing and the harvest giving the delay between them (R525), resumes
there: SR, the stack pointer, the PC and LC come from the frame's words at 0, 4, 8 and 0x18 (LC by log entry 92, the
model's reading), LA from the record, the record leaves the stack and the reservation is lost. Completes: FAULT_ENTRY,
INTERRUPT_ENTRY. -/
def Obligations.EntriesAndReturns : Prop :=
  (∀ (c : Fin 14) (s : State), s.coreRuns c.val = true →
     (∀ f, (s.core c.val).waiting = false → s.insAt c.val (s.core c.val).pc.toNat = .error f →
       exec (.faultEntry c none) s = .next (s.takeFault c.val f)) ∧
     (∀ i (e : MemErr), (s.core c.val).waiting = false → s.insAt c.val (s.core c.val).pc.toNat = .ok i → c.val < 2 →
       exec (.faultEntry c (some e)) s = .next (if e.corrected = true then s
         else s.takeFault c.val { vec := 10, addr := e.addr, space := e.space })) ∧
     (∀ n, s.faultDue c.val = false → (s.core c.val).slot = none → (s.core c.val).escActive = false →
       (s.core c.val).ml < n → n < 16 → bit (s.core c.val).irqPend n = true →
       (∀ m, n < m → m < 16 → bit (s.core c.val).irqPend m = false) →
       exec (.interruptEntry c) s = .next (s.enter c.val { vec := 32 + n } (some n)))) ∧
  (∀ (c : Fin 14) (s : State) (i : Ins) (r : SsRec) (rest : List SsRec) (b : Bytes), s.runs c i → i.op = 0x06 →
     let k := s.core c.val
     let sr : Word := BitVec.ofNat 32 (leAt b 4 4)
     k.escActive = false → k.stack k.pl = r :: rest → r.kind = 1 → (s.nh.exhausted = true ∨ s.canDraw 1 8 = true) →
     s.frameWords c.val (k.reg 15).toNat = .ok b s →
     leAt b 0 4 = r.pc.toNat → r.pl ≤ fld sr 13 12 → ceiling c.val ≤ fld sr 13 12 →
     ∃ (s1 : State) (k' : Core), exec (.retx c false) s = .next (s1.setCore c.val k') ∧ s1.lol = s.lol ∧ k'.pc = r.pc ∧ k'.pl = fld sr 13 12 ∧
       k'.ml = fld sr 11 8 ∧ fld k'.sr 5 0 = fld sr 5 0 ∧ k'.la = r.la ∧ k'.lc = BitVec.ofNat 32 (leAt b 12 4) ∧ k'.rsv = none ∧ k'.stack k.pl = rest ∧
       (∀ n, k'.reg n = if n = 15 then BitVec.ofNat 32 (leAt b 8 4) else k.reg n))

/-- R394, R395, R397: an escalation with a valid handler saves PC, SR and the stack pointer, uses the escalation
stacks, and goes to the handler at the core's ceiling with every level masked; without one, or while one is active,
the core locks up and raises the lockup source. -/
def Obligations.EscalationAndLockup : Prop :=
  ∀ (s : State) (c cause : Nat) (f : Flt),
    let k := s.core c
    (k.escActive = false → k.hndlValid = true →
      ∃ (k' : Core) (m : CoreMem), s.escalate c cause f = (s.setCmem c m).setCore c k' ∧ k'.escActive = true ∧ k'.escPc = k.resumePc ∧
        k'.escSr = k.savedSr ∧ k'.escSp = k.reg 15 ∧ k'.escResume = k.resumePc ∧ k'.escSs = [] ∧ k'.rsv = none ∧
        k'.pc = k.hndl ∧ k'.pl = ceiling c ∧ k'.ml = 15 ∧ k'.la = false ∧ k'.escCount = min (k.escCount + 1) (max k.escCount 255) ∧
        k'.ss = k.ss ∧ (∀ n, k'.reg n = if n = 15 then 0x1FFE0 else k.reg n) ∧ m = { s.cmem c with esc := m.esc }) ∧
    (k.escActive = true ∨ k.hndlValid = false →
      ∃ x : Src, s.escalate c cause f = (s.setCore c { k with lockup := true, slot := none }).setSrc 20 x ∧
        x.detail = coreMid c) ∧
    (s.up = true → (s.setCore c { k with lockup := true }).coreRuns c = false)

/-- R369, R376, R386, R390, R405, R406: the local block's rows. SS_SPILL takes the oldest record of the selected, less
privileged stack into a register and counts it; SS_FILL puts a record at its bottom and counts it back; a level that
is not less privileged faults. SS_REDIRECT changes the PC of the top exception or system-call record alone. IRQ_SWSET
sets the pending levels that its value names, never level 0. RUN starts a tenant core that a physical core serves, at
PL2, and stops it; RESET returns its registers, shadow stacks, escalation and lockup to their reset values and keeps
its SRAM and MPU; ESC_LOCK is set. Completes: SS_SPILL, SS_FILL, SS_REDIRECT, IRQ_SWSET, CORE_RUN, CORE_RESET,
ESC_LOCK. -/
def Obligations.LocalBlockAndCoreControl : Prop :=
  (∀ (c : Fin 14) (s : State), s.coreRuns c.val = true →
     let k := s.core c.val
     let l := k.ssSel.toNat
     (∀ (d : Fin 16) r t, k.pl < l → k.stack l = t ++ [r] →
       ∃ k' : Core, exec (.ssSpill c d) s = .next (s.setCore c.val k') ∧ k'.stack l = t ∧ k'.spill1 = r.w1 ∧
         (k.spills l < 65535 → k'.spills l = k.spills l + 1) ∧ ∀ n, k'.reg n = if n = d.val then r.w0 else k.reg n) ∧
     (∀ (d : Fin 16), l ≤ k.pl →
       exec (.ssSpill c d) s = .next (s.takeFault c.val { vec := 2, addr := 0x0104, space := 2, access := 0 })) ∧
     (∀ v, k.pl < l → (k.stack l).length < 256 →
       ∃ k' : Core, exec (.ssFill c v) s = .next (s.setCore c.val k') ∧ k'.stack l = k.stack l ++ [⟨v, k.spill1⟩] ∧
         k'.spills l = k.spills l - 1 ∧ k'.g = k.g) ∧
     (∀ v r rest, k.stack k.pl = r :: rest → (r.kind = 1 ∨ r.kind = 2) →
       ∃ (k' : Core) (r' : SsRec), exec (.ssRedirect c v) s = .next (s.setCore c.val k') ∧ k'.stack k.pl = r' :: rest ∧
         fld r'.w0 23 0 = fld v 23 0 ∧ fld r'.w0 31 24 = fld r.w0 31 24 ∧ r'.w1 = r.w1 ∧ k'.g = k.g ∧ k'.pc = k.pc) ∧
     (∀ v, exec (.irqSwset c v) s =
       .next (s.setCore c.val { k with irqPend := k.irqPend ||| (v &&& 0xFFFE) }))) ∧
  (∀ (s : State) (n : Fin 12), s.up = true →
     let c := n.val + 2
     let mid := 0x54 + n.val
     let k := s.core c
     ((s.phys .tenantCore n.val).isSome = true →
       (k.run = false → s.halted = false →
         ∃ k' : Core, exec (.coreRun mid true) s = .next (s.setCore c k') ∧ k' = { k with run := true, sr := k'.sr } ∧ k'.pl = 2) ∧
       exec (.coreRun mid false) s = .next (s.setCore c { k with run := false })) ∧
     exec (.coreReset mid) s = .next (s.setCore c {}) ∧
     exec (.escLock mid) s = .next (s.setCore c { k with escLock := true }))

/-- R29, R402: a DMA engine in service, with no parity error on its way, moves a descriptor whose every part its MPU
allows: each byte of the destination in a bank is the source's byte; every other byte of that bank is as before. A
descriptor that the MPU refuses moves nothing: the engine's MPU records the first refused part, and the job or command
that asked ends with ACCESS. Each of `n` parity errors is a strike against the engine and the descriptor is run again;
it ends with RETIRED on an engine that they retire (log entry 102). Completes: DMA_DESCRIPTOR. -/
def Obligations.DmaDescriptors : Prop :=
  ∀ (e : Fin 8) (d : DmaDesc) (s : State), s.up = true → (s.phys .dmaEngine e.val).isSome = true →
    (let t := s.dmaParity e.val d.parityErrors
     t.condemned .dmaEngine e.val = true → exec (.dmaDescriptor e d) s = .next (t.failOp d.op stRetired)) ∧
    (d.parityErrors = 0 → s.condemned .dmaEngine e.val = false →
    (∀ f, dmaRefused (s.mpu (16 + e.val)) d.src d.dst d.len = some f →
      ∀ v, f.viol = some v → exec (.dmaDescriptor e d) s =
        .next ((s.mpuRecord (16 + e.val) (0x60 + e.val) { v with part := min v.part 31 }).failOp d.op stAccess)) ∧
    (dmaRefused (s.mpu (16 + e.val)) d.src d.dst d.len = none → d.src.space = 1 → d.dst.space = 1 →
      d.src.addr + d.len ≤ 0x20000 → d.dst.addr + d.len ≤ 0x20000 →
      ∃ t, exec (.dmaDescriptor e d) s = .next t ∧
        (∀ n, mget (t.cmem d.dst.core.val).x n =
          if d.dst.addr ≤ n ∧ n < d.dst.addr + d.len then mget (s.cmem d.src.core.val).x (d.src.addr + (n - d.dst.addr))
          else mget (s.cmem d.dst.core.val).x n) ∧
        ∀ c, t.core c = s.core c))

/-- The block's step: with commands waiting, it takes the front one and runs it with the queue's rest; with none, one
cycle of D0 passes (log entry 2: the model's choice). -/
def Obligations.StepRunsTheFrontCommand : Prop :=
  ∀ (s : State),
    (∀ c l, s.pending = c :: l → step s = exec c { s with pending := l }) ∧
    (s.pending = [] → step s = .next s.tick ∧ s.tick.now = s.now + 1 ∧ s.tick.pending = [])

/-- Every step answers a next state, whatever the state and the command, and takes one command from the queue: no
command stops the block, and no command's effect reaches the queue. -/
def Obligations.EveryStepAnswersAndTakesOneCommand : Prop :=
  ∀ (s : State), ∃ t, step s = .next t ∧ t.pending = s.pending.drop 1

/-- R321, R435, R447, R448, R483, R499, R505: what is blown in OTP is blown for good. No step, of any command or of
the idle block, and no module reset among them, unblows a zeroize fuse, the retire fuse, the read-out protection fuse
or the test-port fuse, changes a policy once it is written, or lowers the least security version; and at most 32
zeroize fuses are blown. -/
def Obligations.FusesNeverUnblow : Prop :=
  ∀ (s t : State), s.tmp.zfuses ≤ 32 → step s = .next t → s.otp.le t.otp ∧ t.tmp.zfuses ≤ 32

/-- R42, R60, R138, R217, R328, R430, R448, R482: what the module finds when module reset is first released: the
always-on island has come from OFF, the root is not ready, firmware pair A stands at the boot ROM's entry at PL0 with
every level masked, no queue pair is enabled, no key is loaded, no fuse is blown. The queue of commands is empty. -/
def Obligations.ResetState : Prop :=
  let s := State.reset
  s.pending = [] ∧ s.up = true ∧ s.pwr.state = .main ∧ s.clk.rootOk = false ∧ s.tmp.flags = 0x20 ∧ s.tmp.aoLost = true ∧
  s.lc.fw = .rom ∧ s.tim.qual = 3 ∧ s.tim.sec = 0 ∧ s.tim.acc = 0 ∧
  (∀ c, c < 2 → (s.core c).pc = 0xFC0000 ∧ (s.core c).pl = 0 ∧ (s.core c).ml = 15) ∧
  (∀ c, 2 ≤ c → (s.core c).run = false) ∧ (∀ q, (s.qw q).en = false ∧ (s.qw q).destroying = false) ∧
  (∀ n, kState (s.krow n) = kEmpty) ∧ s.tmp.zfuses = 0 ∧ s.tmp.retireFuse = false ∧ s.tmp.policyFused = none ∧
  Memory.wf 0 s.lol.shared = true ∧ (∀ c, Memory.wf 0 (s.cmem c).i = true ∧ Memory.wf 0 (s.cmem c).x = true ∧
  Memory.wf 0 (s.cmem c).y = true) ∧ Memory.wf 0xFF s.fls.cells = true
end

