-- ==== Sys2Proof/Laws/Bits.lean ====
section
/-! SUPPORT. Sys2Proof/Laws/Bits.lean: bits and fields of a word after a write of one, and the fields of SR. -/

namespace Sys2Proof.Machine

theorem getLsbD_bitW (n k : Nat) : (bitW n).getLsbD k = (decide (k < 32) && decide (k = n)) := by
  unfold bitW
  rw [BitVec.getLsbD_ofNat, Nat.testBit_two_pow]
  by_cases h : k = n
  · simp [h]
  · simp [h, Ne.symm h]

/-- A bit after a write of one bit. -/
@[simp] theorem bit_setBit (w : Word) (n m : Nat) (b : Bool) :
    bit (setBit w n b) m = if m = n ∧ n < 32 then b else bit w m := by
  unfold bit setBit
  cases b with
  | true =>
    simp only [if_true, BitVec.getLsbD_or, getLsbD_bitW]
    by_cases h : m = n
    · subst h
      by_cases h2 : m < 32 <;> simp [h2]
    · simp [h]
  | false =>
    simp only [Bool.false_eq_true, if_false, BitVec.getLsbD_and, BitVec.getLsbD_not, getLsbD_bitW]
    by_cases h : m = n
    · subst h
      by_cases h2 : m < 32
      · simp [h2]
      · simp only [h2, and_false, if_false, decide_false, Bool.false_and, Bool.and_false]
        rw [BitVec.getLsbD_of_ge _ _ (by omega)]
    · by_cases h2 : m < 32
      · simp [h, h2]
      · simp only [h, false_and, if_false, decide_false, h2, Bool.false_and, Bool.and_false]
        rw [BitVec.getLsbD_of_ge _ _ (by omega)]

theorem getLsbD_bf (hi lo v k : Nat) :
    (bf hi lo v).getLsbD k = (decide (k < 32) && decide (lo ≤ k) && decide (k - lo < hi + 1 - lo) && v.testBit (k - lo)) := by
  unfold bf
  rw [BitVec.getLsbD_ofNat, ← Nat.shiftLeft_eq, Nat.testBit_shiftLeft, Nat.testBit_mod_two_pow]
  by_cases h : lo ≤ k <;> simp [h, Bool.and_assoc]

/-- A bit after a write of a field. -/
theorem bit_setFld (w : Word) (hi lo v k : Nat) :
    bit (setFld w hi lo v) k =
      if lo ≤ k ∧ k - lo < hi + 1 - lo ∧ k < 32 then v.testBit (k - lo) else bit w k := by
  unfold bit setFld
  simp only [BitVec.getLsbD_or, BitVec.getLsbD_and, BitVec.getLsbD_not, getLsbD_bf, Nat.testBit_two_pow_sub_one]
  by_cases h3 : k < 32
  · by_cases h1 : lo ≤ k <;> by_cases h2 : k - lo < hi + 1 - lo <;> simp [h1, h2, h3]
  · rw [BitVec.getLsbD_of_ge _ _ (by omega)]
    simp [h3]

/-- A bit of a field. -/
theorem testBit_fld (w : Word) (hi lo j : Nat) :
    (fld w hi lo).testBit j = (decide (j < hi + 1 - lo) && bit w (lo + j)) := by
  unfold fld bit
  rw [Nat.testBit_mod_two_pow, Nat.testBit_div_two_pow]
  rw [show lo + j = j + lo from Nat.add_comm _ _]
  rfl

/-- A field is below its range. -/
theorem fld_lt (w : Word) (hi lo : Nat) : fld w hi lo < 2 ^ (hi + 1 - lo) := Nat.mod_lt _ (Nat.two_pow_pos _)

/-- A field after a write of it. -/
theorem fld_setFld_same (w : Word) (hi lo v : Nat) (h : hi < 32) :
    fld (setFld w hi lo v) hi lo = v % 2 ^ (hi + 1 - lo) := by
  apply Nat.eq_of_testBit_eq
  intro j
  rw [testBit_fld, bit_setFld, Nat.testBit_mod_two_pow]
  by_cases h1 : j < hi + 1 - lo
  · have h2 : lo ≤ lo + j ∧ lo + j - lo < hi + 1 - lo ∧ lo + j < 32 := by omega
    simp [h1, h2]
  · simp [h1]

/-- A field after a write of another one. -/
theorem fld_setFld_other (w : Word) (hi lo hi' lo' v : Nat) (h : hi < lo' ∨ hi' < lo) :
    fld (setFld w hi' lo' v) hi lo = fld w hi lo := by
  apply Nat.eq_of_testBit_eq
  intro j
  rw [testBit_fld, testBit_fld, bit_setFld]
  by_cases h1 : j < hi + 1 - lo
  · have h2 : ¬ (lo' ≤ lo + j ∧ lo + j - lo' < hi' + 1 - lo' ∧ lo + j < 32) := by omega
    simp [h2]
  · simp [h1]

/-- A field after a write of a bit outside it. -/
theorem fld_setBit_other (w : Word) (hi lo n : Nat) (b : Bool) (h : hi < n ∨ n < lo) :
    fld (setBit w n b) hi lo = fld w hi lo := by
  apply Nat.eq_of_testBit_eq
  intro j
  rw [testBit_fld, testBit_fld, bit_setBit]
  by_cases h1 : j < hi + 1 - lo
  · have h2 : ¬ (lo + j = n ∧ n < 32) := by omega
    simp [h2]
  · simp [h1]

/-- A bit after a write of a field that does not hold it. -/
theorem bit_setFld_other (w : Word) (hi lo v k : Nat) (h : k < lo ∨ hi < k) : bit (setFld w hi lo v) k = bit w k := by
  rw [bit_setFld, if_neg (by omega)]

/-! ### SR -/

/-- A flag is no part of the privilege level or of the mask level. -/
@[simp] theorem pl_setFlag (k : Core) (n : Nat) (b : Bool) (h : n < 12 := by decide) : (k.setFlag n b).pl = k.pl :=
  fld_setBit_other _ _ _ _ _ (.inr h)

@[simp] theorem flag_setFlag (k : Core) (n m : Nat) (b : Bool) :
    (k.setFlag n b).flag m = if m = n ∧ n < 32 then b else k.flag m := bit_setBit _ _ _ _

end Sys2Proof.Machine
end

