-- ==== Sys2Proof/Laws/Tables.lean ====
section
/-! SUPPORT. Sys2Proof/Laws/Tables.lean: reading a table or a memory after writing it, and the canonical form that every
table and memory operation keeps. -/

namespace Sys2Proof.Machine

theorem tget_tdel {α : Type} (d : α) (t : Tab α) (n m : Nat) : tget d (tdel n t) m = if m = n then d else tget d t m := by
  induction t with
  | nil => simp [tdel, tget]
  | cons e t ih =>
    obtain ⟨k, w⟩ := e
    unfold tdel at ih ⊢
    by_cases hk : k = n
    · subst hk
      by_cases hm : m = k
      · subst hm; simpa [tget] using ih
      · simp [tget, hm, ih, Ne.symm hm]
    · by_cases hm : m = n
      · subst hm; simpa [tget, hk] using ih
      · simp only [List.filter_cons, bne_iff_ne, ne_eq, hk, not_false_eq_true, if_true, tget, ih, hm, if_false]

theorem tget_tins {α : Type} (d : α) (t : Tab α) (n m : Nat) (v : α) :
    tget d (tins n v t) m = if m = n then (if t.any (fun e => e.1 == n && decide (e.1 < n)) then tget d t m else v)
      else tget d t m := by
  induction t with
  | nil =>
    by_cases hm : m = n
    · simp [tins, tget, hm]
    · simp [tins, tget, hm, Ne.symm hm]
  | cons e t ih =>
    obtain ⟨k, w⟩ := e
    unfold tins
    by_cases h1 : k < n
    · have h2 : k ≠ n := by omega
      by_cases hm : m = n
      · subst hm; simp [h1, tget, ih, h2]
      · simp [h1, tget, ih, hm]
    · by_cases hm : m = n
      · subst hm
        simp only [h1, if_false, tget, if_true]
        have : (((k, w) :: t).any fun e => e.1 == m && decide (e.1 < m)) = false := by
          rw [Bool.eq_false_iff]; intro h
          simp only [List.any_eq_true, Bool.and_eq_true, beq_iff_eq, decide_eq_true_eq] at h
          obtain ⟨e, _, h3, h4⟩ := h
          omega
        simp [this]
      · simp [h1, tget, hm, Ne.symm hm]

section
variable {α : Type} [DecidableEq α]

/-- Reading after writing: the entry written, and every other as before. -/
@[simp] theorem tget_tset (d : α) (t : Tab α) (n m : Nat) (v : α) :
    tget d (tset d t n v) m = if m = n then v else tget d t m := by
  unfold tset
  by_cases hv : v = d
  · simp [hv, tget_tdel]
  · rw [if_neg hv, tget_tins]
    have : ((tdel n t).any fun e => e.1 == n && decide (e.1 < n)) = false := by
      rw [Bool.eq_false_iff]; intro h
      simp only [List.any_eq_true, Bool.and_eq_true, beq_iff_eq, decide_eq_true_eq] at h
      obtain ⟨e, _, h3, h4⟩ := h
      omega
    by_cases hm : m = n
    · simp [hm, this]
    · simp [hm, tget_tdel]

theorem tdel_tdel (n : Nat) (t : Tab α) : tdel n (tdel n t) = tdel n t := by
  unfold tdel; simp

theorem tdel_tins (n : Nat) (v : α) (t : Tab α) : tdel n (tins n v t) = tdel n t := by
  induction t with
  | nil => simp [tins, tdel]
  | cons e t ih =>
    obtain ⟨k, w⟩ := e
    unfold tins
    unfold tdel at ih ⊢
    split
    · rw [List.filter_cons, List.filter_cons, ih]
    · simp

/-- A second write of one entry replaces the first. -/
@[simp] theorem tset_tset (d : α) (t : Tab α) (n : Nat) (v w : α) : tset d (tset d t n v) n w = tset d t n w := by
  unfold tset
  by_cases hv : v = d <;> simp [hv, tdel_tins, tdel_tdel]

@[simp] theorem mget_mset (m : Mem) (a b : Nat) (v : Byte) : mget (mset m a v) b = if b = a then v else mget m b := by
  unfold mget mset
  exact tget_tset 0 m a b v

/-- A run of bytes written is read back, and every byte outside it reads as before. -/
theorem mget_mwrite (l : Bytes) : ∀ (m : Mem) (a b : Nat),
    mget (mwrite m a l) b = if h : a ≤ b ∧ b < a + l.length then l[b - a]'(by omega) else mget m b := by
  induction l with
  | nil => intro m a b; simp [mwrite]
  | cons x t ih =>
    intro m a b
    rw [mwrite, ih, mget_mset]
    by_cases h1 : b = a
    · subst h1; simp
    · by_cases h2 : a ≤ b ∧ b < a + (x :: t).length
      · have h3 : a + 1 ≤ b ∧ b < a + 1 + t.length := by simp at h2; omega
        have h4 : b - a = (b - (a + 1)) + 1 := by omega
        simp only [h3, and_self, h2, dite_true]
        simp [h4]
      · have h3 : ¬ (a + 1 ≤ b ∧ b < a + 1 + t.length) := by simp at h2; omega
        simp only [h3, dite_false, h1, if_false, h2]

/-! ### The canonical form -/

theorem twf_cons (d : α) (k : Nat) (w : α) (t : Tab α) :
    twf d ((k, w) :: t) = true ↔ w ≠ d ∧ (∀ e ∈ t, k < e.1) ∧ twf d t = true := by
  induction t generalizing k w with
  | nil => simp [twf]
  | cons e t ih =>
    obtain ⟨k', w'⟩ := e
    simp only [twf, Bool.and_eq_true, decide_eq_true_eq, ih k' w', List.mem_cons, forall_eq_or_imp]
    constructor
    · rintro ⟨⟨h1, h2⟩, h3, h4, h5⟩
      exact ⟨h1, ⟨h2, fun e he => by have := h4 e he; omega⟩, h3, h4, h5⟩
    · rintro ⟨h1, ⟨h2, _⟩, h3, h4, h5⟩
      exact ⟨⟨h1, h2⟩, h3, h4, h5⟩

theorem twf_filter (d : α) (p : Nat × α → Bool) (t : Tab α) (h : twf d t = true) : twf d (t.filter p) = true := by
  induction t with
  | nil => rfl
  | cons e t ih =>
    obtain ⟨k, w⟩ := e
    obtain ⟨h1, h2, h3⟩ := (twf_cons d k w t).1 h
    rw [List.filter_cons]
    split
    · exact (twf_cons _ _ _ _).2 ⟨h1, fun e he => h2 e (List.mem_filter.1 he).1, ih h3⟩
    · exact ih h3

theorem twf_tdel (d : α) (n : Nat) (t : Tab α) (h : twf d t = true) : twf d (tdel n t) = true := twf_filter d _ t h

theorem mem_tins (t : Tab α) (n : Nat) (v : α) (e : Nat × α) (h : e ∈ tins n v t) : e.1 = n ∨ e ∈ t := by
  induction t with
  | nil => left; simp [tins] at h; simp [h]
  | cons x t ih =>
    obtain ⟨k, w⟩ := x
    unfold tins at h
    split at h
    · rcases List.mem_cons.1 h with h | h
      · exact .inr (by simp [h])
      · rcases ih h with h | h
        · exact .inl h
        · exact .inr (List.mem_cons_of_mem _ h)
    · rcases List.mem_cons.1 h with h | h
      · exact .inl (by simp [h])
      · exact .inr h

theorem twf_tins (d : α) (t : Tab α) (n : Nat) (v : α) (hv : v ≠ d) (h : twf d t = true) (hn : ∀ e ∈ t, e.1 ≠ n) :
    twf d (tins n v t) = true := by
  induction t with
  | nil => simp [tins, twf, hv]
  | cons e t ih =>
    obtain ⟨k, w⟩ := e
    obtain ⟨h1, h2, h3⟩ := (twf_cons d k w t).1 h
    unfold tins
    split
    · next hk =>
      refine (twf_cons _ _ _ _).2 ⟨h1, fun e he => ?_, ih h3 fun e he => hn e (List.mem_cons_of_mem _ he)⟩
      rcases mem_tins t n v e he with he | he
      · omega
      · exact h2 e he
    · next hk =>
      refine (twf_cons _ _ _ _).2 ⟨hv, fun e he => ?_, h⟩
      have h4 : k ≠ n := hn (k, w) (by simp)
      rcases List.mem_cons.1 he with he | he
      · subst he; simp; omega
      · have := h2 e he; omega

/-- Writing a table keeps its canonical form. -/
theorem twf_tset (d : α) (t : Tab α) (n : Nat) (v : α) (h : twf d t = true) : twf d (tset d t n v) = true := by
  unfold tset
  split
  · exact twf_tdel d n t h
  · next hv =>
    refine twf_tins d _ n v hv (twf_tdel d n t h) fun e he => ?_
    have := (List.mem_filter.1 he).2
    simpa using this

theorem twf_tclear (d : α) (t : Tab α) (lo n : Nat) (h : twf d t = true) : twf d (tclear t lo n) = true :=
  twf_filter d _ t h

theorem mem_tmap (d : α) (f : Nat → α → α) (t : Tab α) (e : Nat × α) (he : e ∈ tmap d f t) : ∃ e' ∈ t, e'.1 = e.1 := by
  induction t with
  | nil => simp [tmap] at he
  | cons x t ih =>
    obtain ⟨k, w⟩ := x
    unfold tmap at he
    split at he
    · obtain ⟨e', h1, h2⟩ := ih he
      exact ⟨e', List.mem_cons_of_mem _ h1, h2⟩
    · rcases List.mem_cons.1 he with he | he
      · exact ⟨(k, w), by simp, by simp [he]⟩
      · obtain ⟨e', h1, h2⟩ := ih he
        exact ⟨e', List.mem_cons_of_mem _ h1, h2⟩

theorem twf_tmap (d : α) (f : Nat → α → α) (t : Tab α) (h : twf d t = true) : twf d (tmap d f t) = true := by
  induction t with
  | nil => rfl
  | cons e t ih =>
    obtain ⟨k, w⟩ := e
    obtain ⟨h1, h2, h3⟩ := (twf_cons d k w t).1 h
    unfold tmap
    split
    · exact ih h3
    · next hv =>
      refine (twf_cons _ _ _ _).2 ⟨hv, fun e he => ?_, ih h3⟩
      obtain ⟨e', h4, h5⟩ := mem_tmap d f t e he
      have := h2 e' h4
      omega

end

/-- Every memory operation keeps the canonical form of a memory: a byte or a run written, bytes cleared. -/
theorem memory_wf (m : Mem) (h : Memory.wf 0 m = true) :
    (∀ a v, Memory.wf 0 (mset m a v) = true) ∧ (∀ a l, Memory.wf 0 (mwrite m a l) = true) ∧
    (∀ a n, Memory.wf 0 (tclear m a n) = true) := by
  have h1 : ∀ (m : Mem), Memory.wf 0 m = true → ∀ a v, Memory.wf 0 (mset m a v) = true :=
    fun m h a v => twf_tset 0 m a v h
  refine ⟨h1 m h, fun a l => ?_, fun a n => twf_tclear 0 m a n h⟩
  induction l generalizing m a with
  | nil => exact h
  | cons b t ih => exact ih _ (h1 m h a b) _

end Sys2Proof.Machine
end

