-- ==== Sys2Proof/Laws/State.lean ====
section
/-! SUPPORT. Sys2Proof/Laws/State.lean: what each named update of State changes, and what it leaves as it was. -/

namespace Sys2Proof.Machine

/-- `setCore` writes one entry. -/
@[simp] theorem setCore_get (s : State) (i j : Nat) (x : Core) :
    (s.setCore i x).core j = if j = i then x else s.core j := tget_tset _ _ i j x

/-- A second write of one entry replaces the first. -/
@[simp] theorem setCore_setCore (s : State) (i : Nat) (x y : Core) :
    (s.setCore i x).setCore i y = s.setCore i y := by simp [State.setCore]

/-- `setCore` leaves every other part of the state. -/
@[simp] theorem setCore_parts (s : State) (i : Nat) (x : Core) :
    (s.setCore i x).now = s.now ∧ (s.setCore i x).free = s.free ∧ (s.setCore i x).clk = s.clk ∧
    (s.setCore i x).tim = s.tim ∧ (s.setCore i x).loop = s.loop ∧ (s.setCore i x).dv = s.dv ∧
    (s.setCore i x).pci = s.pci ∧ (s.setCore i x).mbx = s.mbx ∧ (s.setCore i x).drn = s.drn ∧
    (s.setCore i x).qps = s.qps ∧ (s.setCore i x).pas = s.pas ∧ (s.setCore i x).bch = s.bch ∧
    (s.setCore i x).key = s.key ∧ (s.setCore i x).hme = s.hme ∧ (s.setCore i x).nh = s.nh ∧
    (s.setCore i x).arc = s.arc ∧ (s.setCore i x).pwr = s.pwr ∧ (s.setCore i x).tmp = s.tmp ∧
    (s.setCore i x).ret = s.ret ∧ (s.setCore i x).fls = s.fls ∧ (s.setCore i x).cl = s.cl ∧
    (s.setCore i x).lc = s.lc ∧ (s.setCore i x).lnk = s.lnk ∧ (s.setCore i x).pending = s.pending :=
  ⟨rfl, rfl, rfl, rfl, rfl, rfl, rfl, rfl, rfl, rfl, rfl, rfl, rfl, rfl, rfl, rfl, rfl, rfl, rfl, rfl, rfl, rfl, rfl, rfl⟩

@[simp] theorem setCore_others (s : State) (i j : Nat) (x : Core) :
    (s.setCore i x).cmem j = s.cmem j ∧ (s.setCore i x).mpu j = s.mpu j ∧ (s.setCore i x).chan j = s.chan j ∧
    (s.setCore i x).fun_ j = s.fun_ j ∧ (s.setCore i x).pin j = s.pin j ∧ (s.setCore i x).qw j = s.qw j ∧
    (s.setCore i x).qrun j = s.qrun j ∧ (s.setCore i x).pa j = s.pa j ∧ (s.setCore i x).lane j = s.lane j ∧
    (s.setCore i x).krow j = s.krow j ∧ (s.setCore i x).hunit j = s.hunit j ∧ (s.setCore i x).eng j = s.eng j ∧
    (s.setCore i x).cell j = s.cell j ∧ (s.setCore i x).src j = s.src j ∧ (s.setCore i x).nblk j = s.nblk j ∧
    (s.setCore i x).nch j = s.nch j ∧ (s.setCore i x).tenant j = s.tenant j ∧ (s.setCore i x).loupe j = s.loupe j ∧
    (s.setCore i x).link j = s.link j :=
  ⟨rfl, rfl, rfl, rfl, rfl, rfl, rfl, rfl, rfl, rfl, rfl, rfl, rfl, rfl, rfl, rfl, rfl, rfl, rfl⟩

/-- `setCmem` writes one entry. -/
@[simp] theorem setCmem_get (s : State) (i j : Nat) (x : CoreMem) :
    (s.setCmem i x).cmem j = if j = i then x else s.cmem j := tget_tset _ _ i j x

/-- A second write of one entry replaces the first. -/
@[simp] theorem setCmem_setCmem (s : State) (i : Nat) (x y : CoreMem) :
    (s.setCmem i x).setCmem i y = s.setCmem i y := by simp [State.setCmem]

/-- `setCmem` leaves every other part of the state. -/
@[simp] theorem setCmem_parts (s : State) (i : Nat) (x : CoreMem) :
    (s.setCmem i x).now = s.now ∧ (s.setCmem i x).free = s.free ∧ (s.setCmem i x).clk = s.clk ∧
    (s.setCmem i x).tim = s.tim ∧ (s.setCmem i x).loop = s.loop ∧ (s.setCmem i x).dv = s.dv ∧
    (s.setCmem i x).pci = s.pci ∧ (s.setCmem i x).mbx = s.mbx ∧ (s.setCmem i x).drn = s.drn ∧
    (s.setCmem i x).qps = s.qps ∧ (s.setCmem i x).pas = s.pas ∧ (s.setCmem i x).bch = s.bch ∧
    (s.setCmem i x).key = s.key ∧ (s.setCmem i x).hme = s.hme ∧ (s.setCmem i x).nh = s.nh ∧
    (s.setCmem i x).arc = s.arc ∧ (s.setCmem i x).pwr = s.pwr ∧ (s.setCmem i x).tmp = s.tmp ∧
    (s.setCmem i x).ret = s.ret ∧ (s.setCmem i x).fls = s.fls ∧ (s.setCmem i x).cl = s.cl ∧
    (s.setCmem i x).lc = s.lc ∧ (s.setCmem i x).lnk = s.lnk ∧ (s.setCmem i x).pending = s.pending :=
  ⟨rfl, rfl, rfl, rfl, rfl, rfl, rfl, rfl, rfl, rfl, rfl, rfl, rfl, rfl, rfl, rfl, rfl, rfl, rfl, rfl, rfl, rfl, rfl, rfl⟩

@[simp] theorem setCmem_others (s : State) (i j : Nat) (x : CoreMem) :
    (s.setCmem i x).core j = s.core j ∧ (s.setCmem i x).mpu j = s.mpu j ∧ (s.setCmem i x).chan j = s.chan j ∧
    (s.setCmem i x).fun_ j = s.fun_ j ∧ (s.setCmem i x).pin j = s.pin j ∧ (s.setCmem i x).qw j = s.qw j ∧
    (s.setCmem i x).qrun j = s.qrun j ∧ (s.setCmem i x).pa j = s.pa j ∧ (s.setCmem i x).lane j = s.lane j ∧
    (s.setCmem i x).krow j = s.krow j ∧ (s.setCmem i x).hunit j = s.hunit j ∧ (s.setCmem i x).eng j = s.eng j ∧
    (s.setCmem i x).cell j = s.cell j ∧ (s.setCmem i x).src j = s.src j ∧ (s.setCmem i x).nblk j = s.nblk j ∧
    (s.setCmem i x).nch j = s.nch j ∧ (s.setCmem i x).tenant j = s.tenant j ∧ (s.setCmem i x).loupe j = s.loupe j ∧
    (s.setCmem i x).link j = s.link j :=
  ⟨rfl, rfl, rfl, rfl, rfl, rfl, rfl, rfl, rfl, rfl, rfl, rfl, rfl, rfl, rfl, rfl, rfl, rfl, rfl⟩

/-- `setMpu` writes one entry. -/
@[simp] theorem setMpu_get (s : State) (i j : Nat) (x : Mpu) :
    (s.setMpu i x).mpu j = if j = i then x else s.mpu j := tget_tset _ _ i j x

/-- A second write of one entry replaces the first. -/
@[simp] theorem setMpu_setMpu (s : State) (i : Nat) (x y : Mpu) :
    (s.setMpu i x).setMpu i y = s.setMpu i y := by simp [State.setMpu]

/-- `setMpu` leaves every other part of the state. -/
@[simp] theorem setMpu_parts (s : State) (i : Nat) (x : Mpu) :
    (s.setMpu i x).now = s.now ∧ (s.setMpu i x).free = s.free ∧ (s.setMpu i x).clk = s.clk ∧
    (s.setMpu i x).tim = s.tim ∧ (s.setMpu i x).loop = s.loop ∧ (s.setMpu i x).dv = s.dv ∧
    (s.setMpu i x).pci = s.pci ∧ (s.setMpu i x).mbx = s.mbx ∧ (s.setMpu i x).drn = s.drn ∧
    (s.setMpu i x).qps = s.qps ∧ (s.setMpu i x).pas = s.pas ∧ (s.setMpu i x).bch = s.bch ∧
    (s.setMpu i x).key = s.key ∧ (s.setMpu i x).hme = s.hme ∧ (s.setMpu i x).nh = s.nh ∧ (s.setMpu i x).arc = s.arc ∧
    (s.setMpu i x).pwr = s.pwr ∧ (s.setMpu i x).tmp = s.tmp ∧ (s.setMpu i x).ret = s.ret ∧
    (s.setMpu i x).fls = s.fls ∧ (s.setMpu i x).cl = s.cl ∧ (s.setMpu i x).lc = s.lc ∧ (s.setMpu i x).lnk = s.lnk ∧
    (s.setMpu i x).pending = s.pending :=
  ⟨rfl, rfl, rfl, rfl, rfl, rfl, rfl, rfl, rfl, rfl, rfl, rfl, rfl, rfl, rfl, rfl, rfl, rfl, rfl, rfl, rfl, rfl, rfl, rfl⟩

@[simp] theorem setMpu_others (s : State) (i j : Nat) (x : Mpu) :
    (s.setMpu i x).core j = s.core j ∧ (s.setMpu i x).cmem j = s.cmem j ∧ (s.setMpu i x).chan j = s.chan j ∧
    (s.setMpu i x).fun_ j = s.fun_ j ∧ (s.setMpu i x).pin j = s.pin j ∧ (s.setMpu i x).qw j = s.qw j ∧
    (s.setMpu i x).qrun j = s.qrun j ∧ (s.setMpu i x).pa j = s.pa j ∧ (s.setMpu i x).lane j = s.lane j ∧
    (s.setMpu i x).krow j = s.krow j ∧ (s.setMpu i x).hunit j = s.hunit j ∧ (s.setMpu i x).eng j = s.eng j ∧
    (s.setMpu i x).cell j = s.cell j ∧ (s.setMpu i x).src j = s.src j ∧ (s.setMpu i x).nblk j = s.nblk j ∧
    (s.setMpu i x).nch j = s.nch j ∧ (s.setMpu i x).tenant j = s.tenant j ∧ (s.setMpu i x).loupe j = s.loupe j ∧
    (s.setMpu i x).link j = s.link j :=
  ⟨rfl, rfl, rfl, rfl, rfl, rfl, rfl, rfl, rfl, rfl, rfl, rfl, rfl, rfl, rfl, rfl, rfl, rfl, rfl⟩

/-- `setChan` writes one entry. -/
@[simp] theorem setChan_get (s : State) (i j : Nat) (x : Chan) :
    (s.setChan i x).chan j = if j = i then x else s.chan j := tget_tset _ _ i j x

/-- A second write of one entry replaces the first. -/
@[simp] theorem setChan_setChan (s : State) (i : Nat) (x y : Chan) :
    (s.setChan i x).setChan i y = s.setChan i y := by simp [State.setChan]

/-- `setChan` leaves every other part of the state. -/
@[simp] theorem setChan_parts (s : State) (i : Nat) (x : Chan) :
    (s.setChan i x).now = s.now ∧ (s.setChan i x).free = s.free ∧ (s.setChan i x).clk = s.clk ∧
    (s.setChan i x).tim = s.tim ∧ (s.setChan i x).loop = s.loop ∧ (s.setChan i x).dv = s.dv ∧
    (s.setChan i x).pci = s.pci ∧ (s.setChan i x).drn = s.drn ∧ (s.setChan i x).qps = s.qps ∧
    (s.setChan i x).pas = s.pas ∧ (s.setChan i x).bch = s.bch ∧ (s.setChan i x).key = s.key ∧
    (s.setChan i x).hme = s.hme ∧ (s.setChan i x).nh = s.nh ∧ (s.setChan i x).arc = s.arc ∧
    (s.setChan i x).pwr = s.pwr ∧ (s.setChan i x).tmp = s.tmp ∧ (s.setChan i x).ret = s.ret ∧
    (s.setChan i x).fls = s.fls ∧ (s.setChan i x).lol = s.lol ∧ (s.setChan i x).cl = s.cl ∧
    (s.setChan i x).lc = s.lc ∧ (s.setChan i x).lnk = s.lnk ∧ (s.setChan i x).pending = s.pending :=
  ⟨rfl, rfl, rfl, rfl, rfl, rfl, rfl, rfl, rfl, rfl, rfl, rfl, rfl, rfl, rfl, rfl, rfl, rfl, rfl, rfl, rfl, rfl, rfl, rfl⟩

@[simp] theorem setChan_others (s : State) (i j : Nat) (x : Chan) :
    (s.setChan i x).core j = s.core j ∧ (s.setChan i x).cmem j = s.cmem j ∧ (s.setChan i x).mpu j = s.mpu j ∧
    (s.setChan i x).fun_ j = s.fun_ j ∧ (s.setChan i x).pin j = s.pin j ∧ (s.setChan i x).qw j = s.qw j ∧
    (s.setChan i x).qrun j = s.qrun j ∧ (s.setChan i x).pa j = s.pa j ∧ (s.setChan i x).lane j = s.lane j ∧
    (s.setChan i x).krow j = s.krow j ∧ (s.setChan i x).hunit j = s.hunit j ∧ (s.setChan i x).eng j = s.eng j ∧
    (s.setChan i x).cell j = s.cell j ∧ (s.setChan i x).src j = s.src j ∧ (s.setChan i x).nblk j = s.nblk j ∧
    (s.setChan i x).nch j = s.nch j ∧ (s.setChan i x).tenant j = s.tenant j ∧ (s.setChan i x).loupe j = s.loupe j ∧
    (s.setChan i x).link j = s.link j :=
  ⟨rfl, rfl, rfl, rfl, rfl, rfl, rfl, rfl, rfl, rfl, rfl, rfl, rfl, rfl, rfl, rfl, rfl, rfl, rfl⟩

/-- `setFun` writes one entry. -/
@[simp] theorem setFun_get (s : State) (i j : Nat) (x : Fun) :
    (s.setFun i x).fun_ j = if j = i then x else s.fun_ j := tget_tset _ _ i j x

/-- A second write of one entry replaces the first. -/
@[simp] theorem setFun_setFun (s : State) (i : Nat) (x y : Fun) :
    (s.setFun i x).setFun i y = s.setFun i y := by simp [State.setFun]

/-- `setFun` leaves every other part of the state. -/
@[simp] theorem setFun_parts (s : State) (i : Nat) (x : Fun) :
    (s.setFun i x).now = s.now ∧ (s.setFun i x).free = s.free ∧ (s.setFun i x).clk = s.clk ∧
    (s.setFun i x).tim = s.tim ∧ (s.setFun i x).loop = s.loop ∧ (s.setFun i x).dv = s.dv ∧
    (s.setFun i x).mbx = s.mbx ∧ (s.setFun i x).drn = s.drn ∧ (s.setFun i x).qps = s.qps ∧
    (s.setFun i x).pas = s.pas ∧ (s.setFun i x).bch = s.bch ∧ (s.setFun i x).key = s.key ∧
    (s.setFun i x).hme = s.hme ∧ (s.setFun i x).nh = s.nh ∧ (s.setFun i x).arc = s.arc ∧ (s.setFun i x).pwr = s.pwr ∧
    (s.setFun i x).tmp = s.tmp ∧ (s.setFun i x).ret = s.ret ∧ (s.setFun i x).fls = s.fls ∧
    (s.setFun i x).lol = s.lol ∧ (s.setFun i x).cl = s.cl ∧ (s.setFun i x).lc = s.lc ∧ (s.setFun i x).lnk = s.lnk ∧
    (s.setFun i x).pending = s.pending :=
  ⟨rfl, rfl, rfl, rfl, rfl, rfl, rfl, rfl, rfl, rfl, rfl, rfl, rfl, rfl, rfl, rfl, rfl, rfl, rfl, rfl, rfl, rfl, rfl, rfl⟩

@[simp] theorem setFun_others (s : State) (i j : Nat) (x : Fun) :
    (s.setFun i x).core j = s.core j ∧ (s.setFun i x).cmem j = s.cmem j ∧ (s.setFun i x).mpu j = s.mpu j ∧
    (s.setFun i x).chan j = s.chan j ∧ (s.setFun i x).pin j = s.pin j ∧ (s.setFun i x).qw j = s.qw j ∧
    (s.setFun i x).qrun j = s.qrun j ∧ (s.setFun i x).pa j = s.pa j ∧ (s.setFun i x).lane j = s.lane j ∧
    (s.setFun i x).krow j = s.krow j ∧ (s.setFun i x).hunit j = s.hunit j ∧ (s.setFun i x).eng j = s.eng j ∧
    (s.setFun i x).cell j = s.cell j ∧ (s.setFun i x).src j = s.src j ∧ (s.setFun i x).nblk j = s.nblk j ∧
    (s.setFun i x).nch j = s.nch j ∧ (s.setFun i x).tenant j = s.tenant j ∧ (s.setFun i x).loupe j = s.loupe j ∧
    (s.setFun i x).link j = s.link j :=
  ⟨rfl, rfl, rfl, rfl, rfl, rfl, rfl, rfl, rfl, rfl, rfl, rfl, rfl, rfl, rfl, rfl, rfl, rfl, rfl⟩

/-- `setPin` writes one entry. -/
@[simp] theorem setPin_get (s : State) (i j : Nat) (x : Pin) :
    (s.setPin i x).pin j = if j = i then x else s.pin j := tget_tset _ _ i j x

/-- A second write of one entry replaces the first. -/
@[simp] theorem setPin_setPin (s : State) (i : Nat) (x y : Pin) :
    (s.setPin i x).setPin i y = s.setPin i y := by simp [State.setPin]

/-- `setPin` leaves every other part of the state. -/
@[simp] theorem setPin_parts (s : State) (i : Nat) (x : Pin) :
    (s.setPin i x).now = s.now ∧ (s.setPin i x).free = s.free ∧ (s.setPin i x).clk = s.clk ∧
    (s.setPin i x).tim = s.tim ∧ (s.setPin i x).loop = s.loop ∧ (s.setPin i x).pci = s.pci ∧
    (s.setPin i x).mbx = s.mbx ∧ (s.setPin i x).drn = s.drn ∧ (s.setPin i x).qps = s.qps ∧
    (s.setPin i x).pas = s.pas ∧ (s.setPin i x).bch = s.bch ∧ (s.setPin i x).key = s.key ∧
    (s.setPin i x).hme = s.hme ∧ (s.setPin i x).nh = s.nh ∧ (s.setPin i x).arc = s.arc ∧ (s.setPin i x).pwr = s.pwr ∧
    (s.setPin i x).tmp = s.tmp ∧ (s.setPin i x).ret = s.ret ∧ (s.setPin i x).fls = s.fls ∧
    (s.setPin i x).lol = s.lol ∧ (s.setPin i x).cl = s.cl ∧ (s.setPin i x).lc = s.lc ∧ (s.setPin i x).lnk = s.lnk ∧
    (s.setPin i x).pending = s.pending :=
  ⟨rfl, rfl, rfl, rfl, rfl, rfl, rfl, rfl, rfl, rfl, rfl, rfl, rfl, rfl, rfl, rfl, rfl, rfl, rfl, rfl, rfl, rfl, rfl, rfl⟩

@[simp] theorem setPin_others (s : State) (i j : Nat) (x : Pin) :
    (s.setPin i x).core j = s.core j ∧ (s.setPin i x).cmem j = s.cmem j ∧ (s.setPin i x).mpu j = s.mpu j ∧
    (s.setPin i x).chan j = s.chan j ∧ (s.setPin i x).fun_ j = s.fun_ j ∧ (s.setPin i x).qw j = s.qw j ∧
    (s.setPin i x).qrun j = s.qrun j ∧ (s.setPin i x).pa j = s.pa j ∧ (s.setPin i x).lane j = s.lane j ∧
    (s.setPin i x).krow j = s.krow j ∧ (s.setPin i x).hunit j = s.hunit j ∧ (s.setPin i x).eng j = s.eng j ∧
    (s.setPin i x).cell j = s.cell j ∧ (s.setPin i x).src j = s.src j ∧ (s.setPin i x).nblk j = s.nblk j ∧
    (s.setPin i x).nch j = s.nch j ∧ (s.setPin i x).tenant j = s.tenant j ∧ (s.setPin i x).loupe j = s.loupe j ∧
    (s.setPin i x).link j = s.link j :=
  ⟨rfl, rfl, rfl, rfl, rfl, rfl, rfl, rfl, rfl, rfl, rfl, rfl, rfl, rfl, rfl, rfl, rfl, rfl, rfl⟩

/-- `setQw` writes one entry. -/
@[simp] theorem setQw_get (s : State) (i j : Nat) (x : QpWord) :
    (s.setQw i x).qw j = if j = i then x else s.qw j := tget_tset _ _ i j x

/-- A second write of one entry replaces the first. -/
@[simp] theorem setQw_setQw (s : State) (i : Nat) (x y : QpWord) :
    (s.setQw i x).setQw i y = s.setQw i y := by simp [State.setQw]

/-- `setQw` leaves every other part of the state. -/
@[simp] theorem setQw_parts (s : State) (i : Nat) (x : QpWord) :
    (s.setQw i x).now = s.now ∧ (s.setQw i x).free = s.free ∧ (s.setQw i x).clk = s.clk ∧ (s.setQw i x).tim = s.tim ∧
    (s.setQw i x).loop = s.loop ∧ (s.setQw i x).dv = s.dv ∧ (s.setQw i x).pci = s.pci ∧ (s.setQw i x).mbx = s.mbx ∧
    (s.setQw i x).drn = s.drn ∧ (s.setQw i x).pas = s.pas ∧ (s.setQw i x).bch = s.bch ∧ (s.setQw i x).key = s.key ∧
    (s.setQw i x).hme = s.hme ∧ (s.setQw i x).nh = s.nh ∧ (s.setQw i x).arc = s.arc ∧ (s.setQw i x).pwr = s.pwr ∧
    (s.setQw i x).tmp = s.tmp ∧ (s.setQw i x).ret = s.ret ∧ (s.setQw i x).fls = s.fls ∧ (s.setQw i x).lol = s.lol ∧
    (s.setQw i x).cl = s.cl ∧ (s.setQw i x).lc = s.lc ∧ (s.setQw i x).lnk = s.lnk ∧
    (s.setQw i x).pending = s.pending :=
  ⟨rfl, rfl, rfl, rfl, rfl, rfl, rfl, rfl, rfl, rfl, rfl, rfl, rfl, rfl, rfl, rfl, rfl, rfl, rfl, rfl, rfl, rfl, rfl, rfl⟩

@[simp] theorem setQw_others (s : State) (i j : Nat) (x : QpWord) :
    (s.setQw i x).core j = s.core j ∧ (s.setQw i x).cmem j = s.cmem j ∧ (s.setQw i x).mpu j = s.mpu j ∧
    (s.setQw i x).chan j = s.chan j ∧ (s.setQw i x).fun_ j = s.fun_ j ∧ (s.setQw i x).pin j = s.pin j ∧
    (s.setQw i x).qrun j = s.qrun j ∧ (s.setQw i x).pa j = s.pa j ∧ (s.setQw i x).lane j = s.lane j ∧
    (s.setQw i x).krow j = s.krow j ∧ (s.setQw i x).hunit j = s.hunit j ∧ (s.setQw i x).eng j = s.eng j ∧
    (s.setQw i x).cell j = s.cell j ∧ (s.setQw i x).src j = s.src j ∧ (s.setQw i x).nblk j = s.nblk j ∧
    (s.setQw i x).nch j = s.nch j ∧ (s.setQw i x).tenant j = s.tenant j ∧ (s.setQw i x).loupe j = s.loupe j ∧
    (s.setQw i x).link j = s.link j :=
  ⟨rfl, rfl, rfl, rfl, rfl, rfl, rfl, rfl, rfl, rfl, rfl, rfl, rfl, rfl, rfl, rfl, rfl, rfl, rfl⟩

/-- `setQrun` writes one entry. -/
@[simp] theorem setQrun_get (s : State) (i j : Nat) (x : QpRun) :
    (s.setQrun i x).qrun j = if j = i then x else s.qrun j := tget_tset _ _ i j x

/-- A second write of one entry replaces the first. -/
@[simp] theorem setQrun_setQrun (s : State) (i : Nat) (x y : QpRun) :
    (s.setQrun i x).setQrun i y = s.setQrun i y := by simp [State.setQrun]

/-- `setQrun` leaves every other part of the state. -/
@[simp] theorem setQrun_parts (s : State) (i : Nat) (x : QpRun) :
    (s.setQrun i x).now = s.now ∧ (s.setQrun i x).free = s.free ∧ (s.setQrun i x).clk = s.clk ∧
    (s.setQrun i x).tim = s.tim ∧ (s.setQrun i x).loop = s.loop ∧ (s.setQrun i x).dv = s.dv ∧
    (s.setQrun i x).pci = s.pci ∧ (s.setQrun i x).mbx = s.mbx ∧ (s.setQrun i x).drn = s.drn ∧
    (s.setQrun i x).pas = s.pas ∧ (s.setQrun i x).bch = s.bch ∧ (s.setQrun i x).key = s.key ∧
    (s.setQrun i x).hme = s.hme ∧ (s.setQrun i x).nh = s.nh ∧ (s.setQrun i x).arc = s.arc ∧
    (s.setQrun i x).pwr = s.pwr ∧ (s.setQrun i x).tmp = s.tmp ∧ (s.setQrun i x).ret = s.ret ∧
    (s.setQrun i x).fls = s.fls ∧ (s.setQrun i x).lol = s.lol ∧ (s.setQrun i x).cl = s.cl ∧
    (s.setQrun i x).lc = s.lc ∧ (s.setQrun i x).lnk = s.lnk ∧ (s.setQrun i x).pending = s.pending :=
  ⟨rfl, rfl, rfl, rfl, rfl, rfl, rfl, rfl, rfl, rfl, rfl, rfl, rfl, rfl, rfl, rfl, rfl, rfl, rfl, rfl, rfl, rfl, rfl, rfl⟩

@[simp] theorem setQrun_others (s : State) (i j : Nat) (x : QpRun) :
    (s.setQrun i x).core j = s.core j ∧ (s.setQrun i x).cmem j = s.cmem j ∧ (s.setQrun i x).mpu j = s.mpu j ∧
    (s.setQrun i x).chan j = s.chan j ∧ (s.setQrun i x).fun_ j = s.fun_ j ∧ (s.setQrun i x).pin j = s.pin j ∧
    (s.setQrun i x).qw j = s.qw j ∧ (s.setQrun i x).pa j = s.pa j ∧ (s.setQrun i x).lane j = s.lane j ∧
    (s.setQrun i x).krow j = s.krow j ∧ (s.setQrun i x).hunit j = s.hunit j ∧ (s.setQrun i x).eng j = s.eng j ∧
    (s.setQrun i x).cell j = s.cell j ∧ (s.setQrun i x).src j = s.src j ∧ (s.setQrun i x).nblk j = s.nblk j ∧
    (s.setQrun i x).nch j = s.nch j ∧ (s.setQrun i x).tenant j = s.tenant j ∧ (s.setQrun i x).loupe j = s.loupe j ∧
    (s.setQrun i x).link j = s.link j :=
  ⟨rfl, rfl, rfl, rfl, rfl, rfl, rfl, rfl, rfl, rfl, rfl, rfl, rfl, rfl, rfl, rfl, rfl, rfl, rfl⟩

/-- `setPa` writes one entry. -/
@[simp] theorem setPa_get (s : State) (i j : Nat) (x : Pa) :
    (s.setPa i x).pa j = if j = i then x else s.pa j := tget_tset _ _ i j x

/-- A second write of one entry replaces the first. -/
@[simp] theorem setPa_setPa (s : State) (i : Nat) (x y : Pa) :
    (s.setPa i x).setPa i y = s.setPa i y := by simp [State.setPa]

/-- `setPa` leaves every other part of the state. -/
@[simp] theorem setPa_parts (s : State) (i : Nat) (x : Pa) :
    (s.setPa i x).now = s.now ∧ (s.setPa i x).free = s.free ∧ (s.setPa i x).clk = s.clk ∧ (s.setPa i x).tim = s.tim ∧
    (s.setPa i x).loop = s.loop ∧ (s.setPa i x).dv = s.dv ∧ (s.setPa i x).pci = s.pci ∧ (s.setPa i x).mbx = s.mbx ∧
    (s.setPa i x).drn = s.drn ∧ (s.setPa i x).qps = s.qps ∧ (s.setPa i x).bch = s.bch ∧ (s.setPa i x).key = s.key ∧
    (s.setPa i x).hme = s.hme ∧ (s.setPa i x).nh = s.nh ∧ (s.setPa i x).arc = s.arc ∧ (s.setPa i x).pwr = s.pwr ∧
    (s.setPa i x).tmp = s.tmp ∧ (s.setPa i x).ret = s.ret ∧ (s.setPa i x).fls = s.fls ∧ (s.setPa i x).lol = s.lol ∧
    (s.setPa i x).cl = s.cl ∧ (s.setPa i x).lc = s.lc ∧ (s.setPa i x).lnk = s.lnk ∧
    (s.setPa i x).pending = s.pending :=
  ⟨rfl, rfl, rfl, rfl, rfl, rfl, rfl, rfl, rfl, rfl, rfl, rfl, rfl, rfl, rfl, rfl, rfl, rfl, rfl, rfl, rfl, rfl, rfl, rfl⟩

@[simp] theorem setPa_others (s : State) (i j : Nat) (x : Pa) :
    (s.setPa i x).core j = s.core j ∧ (s.setPa i x).cmem j = s.cmem j ∧ (s.setPa i x).mpu j = s.mpu j ∧
    (s.setPa i x).chan j = s.chan j ∧ (s.setPa i x).fun_ j = s.fun_ j ∧ (s.setPa i x).pin j = s.pin j ∧
    (s.setPa i x).qw j = s.qw j ∧ (s.setPa i x).qrun j = s.qrun j ∧ (s.setPa i x).lane j = s.lane j ∧
    (s.setPa i x).krow j = s.krow j ∧ (s.setPa i x).hunit j = s.hunit j ∧ (s.setPa i x).eng j = s.eng j ∧
    (s.setPa i x).cell j = s.cell j ∧ (s.setPa i x).src j = s.src j ∧ (s.setPa i x).nblk j = s.nblk j ∧
    (s.setPa i x).nch j = s.nch j ∧ (s.setPa i x).tenant j = s.tenant j ∧ (s.setPa i x).loupe j = s.loupe j ∧
    (s.setPa i x).link j = s.link j :=
  ⟨rfl, rfl, rfl, rfl, rfl, rfl, rfl, rfl, rfl, rfl, rfl, rfl, rfl, rfl, rfl, rfl, rfl, rfl, rfl⟩

/-- `setLane` writes one entry. -/
@[simp] theorem setLane_get (s : State) (i j : Nat) (x : Lane) :
    (s.setLane i x).lane j = if j = i then x else s.lane j := tget_tset _ _ i j x

/-- A second write of one entry replaces the first. -/
@[simp] theorem setLane_setLane (s : State) (i : Nat) (x y : Lane) :
    (s.setLane i x).setLane i y = s.setLane i y := by simp [State.setLane]

/-- `setLane` leaves every other part of the state. -/
@[simp] theorem setLane_parts (s : State) (i : Nat) (x : Lane) :
    (s.setLane i x).now = s.now ∧ (s.setLane i x).free = s.free ∧ (s.setLane i x).clk = s.clk ∧
    (s.setLane i x).tim = s.tim ∧ (s.setLane i x).loop = s.loop ∧ (s.setLane i x).dv = s.dv ∧
    (s.setLane i x).pci = s.pci ∧ (s.setLane i x).mbx = s.mbx ∧ (s.setLane i x).drn = s.drn ∧
    (s.setLane i x).qps = s.qps ∧ (s.setLane i x).pas = s.pas ∧ (s.setLane i x).key = s.key ∧
    (s.setLane i x).hme = s.hme ∧ (s.setLane i x).nh = s.nh ∧ (s.setLane i x).arc = s.arc ∧
    (s.setLane i x).pwr = s.pwr ∧ (s.setLane i x).tmp = s.tmp ∧ (s.setLane i x).ret = s.ret ∧
    (s.setLane i x).fls = s.fls ∧ (s.setLane i x).lol = s.lol ∧ (s.setLane i x).cl = s.cl ∧
    (s.setLane i x).lc = s.lc ∧ (s.setLane i x).lnk = s.lnk ∧ (s.setLane i x).pending = s.pending :=
  ⟨rfl, rfl, rfl, rfl, rfl, rfl, rfl, rfl, rfl, rfl, rfl, rfl, rfl, rfl, rfl, rfl, rfl, rfl, rfl, rfl, rfl, rfl, rfl, rfl⟩

@[simp] theorem setLane_others (s : State) (i j : Nat) (x : Lane) :
    (s.setLane i x).core j = s.core j ∧ (s.setLane i x).cmem j = s.cmem j ∧ (s.setLane i x).mpu j = s.mpu j ∧
    (s.setLane i x).chan j = s.chan j ∧ (s.setLane i x).fun_ j = s.fun_ j ∧ (s.setLane i x).pin j = s.pin j ∧
    (s.setLane i x).qw j = s.qw j ∧ (s.setLane i x).qrun j = s.qrun j ∧ (s.setLane i x).pa j = s.pa j ∧
    (s.setLane i x).krow j = s.krow j ∧ (s.setLane i x).hunit j = s.hunit j ∧ (s.setLane i x).eng j = s.eng j ∧
    (s.setLane i x).cell j = s.cell j ∧ (s.setLane i x).src j = s.src j ∧ (s.setLane i x).nblk j = s.nblk j ∧
    (s.setLane i x).nch j = s.nch j ∧ (s.setLane i x).tenant j = s.tenant j ∧ (s.setLane i x).loupe j = s.loupe j ∧
    (s.setLane i x).link j = s.link j :=
  ⟨rfl, rfl, rfl, rfl, rfl, rfl, rfl, rfl, rfl, rfl, rfl, rfl, rfl, rfl, rfl, rfl, rfl, rfl, rfl⟩

/-- `setKrow` writes one entry. -/
@[simp] theorem setKrow_get (s : State) (i j : Nat) (x : KRow) :
    (s.setKrow i x).krow j = if j = i then x else s.krow j := tget_tset _ _ i j x

/-- A second write of one entry replaces the first. -/
@[simp] theorem setKrow_setKrow (s : State) (i : Nat) (x y : KRow) :
    (s.setKrow i x).setKrow i y = s.setKrow i y := by simp [State.setKrow]

/-- `setKrow` leaves every other part of the state. -/
@[simp] theorem setKrow_parts (s : State) (i : Nat) (x : KRow) :
    (s.setKrow i x).now = s.now ∧ (s.setKrow i x).free = s.free ∧ (s.setKrow i x).clk = s.clk ∧
    (s.setKrow i x).tim = s.tim ∧ (s.setKrow i x).loop = s.loop ∧ (s.setKrow i x).dv = s.dv ∧
    (s.setKrow i x).pci = s.pci ∧ (s.setKrow i x).mbx = s.mbx ∧ (s.setKrow i x).drn = s.drn ∧
    (s.setKrow i x).qps = s.qps ∧ (s.setKrow i x).pas = s.pas ∧ (s.setKrow i x).bch = s.bch ∧
    (s.setKrow i x).hme = s.hme ∧ (s.setKrow i x).nh = s.nh ∧ (s.setKrow i x).arc = s.arc ∧
    (s.setKrow i x).pwr = s.pwr ∧ (s.setKrow i x).tmp = s.tmp ∧ (s.setKrow i x).ret = s.ret ∧
    (s.setKrow i x).fls = s.fls ∧ (s.setKrow i x).lol = s.lol ∧ (s.setKrow i x).cl = s.cl ∧
    (s.setKrow i x).lc = s.lc ∧ (s.setKrow i x).lnk = s.lnk ∧ (s.setKrow i x).pending = s.pending :=
  ⟨rfl, rfl, rfl, rfl, rfl, rfl, rfl, rfl, rfl, rfl, rfl, rfl, rfl, rfl, rfl, rfl, rfl, rfl, rfl, rfl, rfl, rfl, rfl, rfl⟩

@[simp] theorem setKrow_others (s : State) (i j : Nat) (x : KRow) :
    (s.setKrow i x).core j = s.core j ∧ (s.setKrow i x).cmem j = s.cmem j ∧ (s.setKrow i x).mpu j = s.mpu j ∧
    (s.setKrow i x).chan j = s.chan j ∧ (s.setKrow i x).fun_ j = s.fun_ j ∧ (s.setKrow i x).pin j = s.pin j ∧
    (s.setKrow i x).qw j = s.qw j ∧ (s.setKrow i x).qrun j = s.qrun j ∧ (s.setKrow i x).pa j = s.pa j ∧
    (s.setKrow i x).lane j = s.lane j ∧ (s.setKrow i x).hunit j = s.hunit j ∧ (s.setKrow i x).eng j = s.eng j ∧
    (s.setKrow i x).cell j = s.cell j ∧ (s.setKrow i x).src j = s.src j ∧ (s.setKrow i x).nblk j = s.nblk j ∧
    (s.setKrow i x).nch j = s.nch j ∧ (s.setKrow i x).tenant j = s.tenant j ∧ (s.setKrow i x).loupe j = s.loupe j ∧
    (s.setKrow i x).link j = s.link j :=
  ⟨rfl, rfl, rfl, rfl, rfl, rfl, rfl, rfl, rfl, rfl, rfl, rfl, rfl, rfl, rfl, rfl, rfl, rfl, rfl⟩

/-- `setHunit` writes one entry. -/
@[simp] theorem setHunit_get (s : State) (i j : Nat) (x : HashUnit) :
    (s.setHunit i x).hunit j = if j = i then x else s.hunit j := tget_tset _ _ i j x

/-- A second write of one entry replaces the first. -/
@[simp] theorem setHunit_setHunit (s : State) (i : Nat) (x y : HashUnit) :
    (s.setHunit i x).setHunit i y = s.setHunit i y := by simp [State.setHunit]

/-- `setHunit` leaves every other part of the state. -/
@[simp] theorem setHunit_parts (s : State) (i : Nat) (x : HashUnit) :
    (s.setHunit i x).now = s.now ∧ (s.setHunit i x).free = s.free ∧ (s.setHunit i x).clk = s.clk ∧
    (s.setHunit i x).tim = s.tim ∧ (s.setHunit i x).loop = s.loop ∧ (s.setHunit i x).dv = s.dv ∧
    (s.setHunit i x).pci = s.pci ∧ (s.setHunit i x).mbx = s.mbx ∧ (s.setHunit i x).drn = s.drn ∧
    (s.setHunit i x).qps = s.qps ∧ (s.setHunit i x).pas = s.pas ∧ (s.setHunit i x).bch = s.bch ∧
    (s.setHunit i x).key = s.key ∧ (s.setHunit i x).nh = s.nh ∧ (s.setHunit i x).arc = s.arc ∧
    (s.setHunit i x).pwr = s.pwr ∧ (s.setHunit i x).tmp = s.tmp ∧ (s.setHunit i x).ret = s.ret ∧
    (s.setHunit i x).fls = s.fls ∧ (s.setHunit i x).lol = s.lol ∧ (s.setHunit i x).cl = s.cl ∧
    (s.setHunit i x).lc = s.lc ∧ (s.setHunit i x).lnk = s.lnk ∧ (s.setHunit i x).pending = s.pending :=
  ⟨rfl, rfl, rfl, rfl, rfl, rfl, rfl, rfl, rfl, rfl, rfl, rfl, rfl, rfl, rfl, rfl, rfl, rfl, rfl, rfl, rfl, rfl, rfl, rfl⟩

@[simp] theorem setHunit_others (s : State) (i j : Nat) (x : HashUnit) :
    (s.setHunit i x).core j = s.core j ∧ (s.setHunit i x).cmem j = s.cmem j ∧ (s.setHunit i x).mpu j = s.mpu j ∧
    (s.setHunit i x).chan j = s.chan j ∧ (s.setHunit i x).fun_ j = s.fun_ j ∧ (s.setHunit i x).pin j = s.pin j ∧
    (s.setHunit i x).qw j = s.qw j ∧ (s.setHunit i x).qrun j = s.qrun j ∧ (s.setHunit i x).pa j = s.pa j ∧
    (s.setHunit i x).lane j = s.lane j ∧ (s.setHunit i x).krow j = s.krow j ∧ (s.setHunit i x).eng j = s.eng j ∧
    (s.setHunit i x).cell j = s.cell j ∧ (s.setHunit i x).src j = s.src j ∧ (s.setHunit i x).nblk j = s.nblk j ∧
    (s.setHunit i x).nch j = s.nch j ∧ (s.setHunit i x).tenant j = s.tenant j ∧ (s.setHunit i x).loupe j = s.loupe j ∧
    (s.setHunit i x).link j = s.link j :=
  ⟨rfl, rfl, rfl, rfl, rfl, rfl, rfl, rfl, rfl, rfl, rfl, rfl, rfl, rfl, rfl, rfl, rfl, rfl, rfl⟩

/-- `setEng` writes one entry. -/
@[simp] theorem setEng_get (s : State) (i j : Nat) (x : Engine) :
    (s.setEng i x).eng j = if j = i then x else s.eng j := tget_tset _ _ i j x

/-- A second write of one entry replaces the first. -/
@[simp] theorem setEng_setEng (s : State) (i : Nat) (x y : Engine) :
    (s.setEng i x).setEng i y = s.setEng i y := by simp [State.setEng]

/-- `setEng` leaves every other part of the state. -/
@[simp] theorem setEng_parts (s : State) (i : Nat) (x : Engine) :
    (s.setEng i x).now = s.now ∧ (s.setEng i x).free = s.free ∧ (s.setEng i x).clk = s.clk ∧
    (s.setEng i x).tim = s.tim ∧ (s.setEng i x).loop = s.loop ∧ (s.setEng i x).dv = s.dv ∧
    (s.setEng i x).pci = s.pci ∧ (s.setEng i x).mbx = s.mbx ∧ (s.setEng i x).drn = s.drn ∧
    (s.setEng i x).qps = s.qps ∧ (s.setEng i x).pas = s.pas ∧ (s.setEng i x).bch = s.bch ∧
    (s.setEng i x).key = s.key ∧ (s.setEng i x).nh = s.nh ∧ (s.setEng i x).arc = s.arc ∧ (s.setEng i x).pwr = s.pwr ∧
    (s.setEng i x).tmp = s.tmp ∧ (s.setEng i x).ret = s.ret ∧ (s.setEng i x).fls = s.fls ∧
    (s.setEng i x).lol = s.lol ∧ (s.setEng i x).cl = s.cl ∧ (s.setEng i x).lc = s.lc ∧ (s.setEng i x).lnk = s.lnk ∧
    (s.setEng i x).pending = s.pending :=
  ⟨rfl, rfl, rfl, rfl, rfl, rfl, rfl, rfl, rfl, rfl, rfl, rfl, rfl, rfl, rfl, rfl, rfl, rfl, rfl, rfl, rfl, rfl, rfl, rfl⟩

@[simp] theorem setEng_others (s : State) (i j : Nat) (x : Engine) :
    (s.setEng i x).core j = s.core j ∧ (s.setEng i x).cmem j = s.cmem j ∧ (s.setEng i x).mpu j = s.mpu j ∧
    (s.setEng i x).chan j = s.chan j ∧ (s.setEng i x).fun_ j = s.fun_ j ∧ (s.setEng i x).pin j = s.pin j ∧
    (s.setEng i x).qw j = s.qw j ∧ (s.setEng i x).qrun j = s.qrun j ∧ (s.setEng i x).pa j = s.pa j ∧
    (s.setEng i x).lane j = s.lane j ∧ (s.setEng i x).krow j = s.krow j ∧ (s.setEng i x).hunit j = s.hunit j ∧
    (s.setEng i x).cell j = s.cell j ∧ (s.setEng i x).src j = s.src j ∧ (s.setEng i x).nblk j = s.nblk j ∧
    (s.setEng i x).nch j = s.nch j ∧ (s.setEng i x).tenant j = s.tenant j ∧ (s.setEng i x).loupe j = s.loupe j ∧
    (s.setEng i x).link j = s.link j :=
  ⟨rfl, rfl, rfl, rfl, rfl, rfl, rfl, rfl, rfl, rfl, rfl, rfl, rfl, rfl, rfl, rfl, rfl, rfl, rfl⟩

/-- `setCell` writes one entry. -/
@[simp] theorem setCell_get (s : State) (i j : Nat) (x : Cell) :
    (s.setCell i x).cell j = if j = i then x else s.cell j := tget_tset _ _ i j x

/-- A second write of one entry replaces the first. -/
@[simp] theorem setCell_setCell (s : State) (i : Nat) (x y : Cell) :
    (s.setCell i x).setCell i y = s.setCell i y := by simp [State.setCell]

/-- `setCell` leaves every other part of the state. -/
@[simp] theorem setCell_parts (s : State) (i : Nat) (x : Cell) :
    (s.setCell i x).now = s.now ∧ (s.setCell i x).free = s.free ∧ (s.setCell i x).clk = s.clk ∧
    (s.setCell i x).tim = s.tim ∧ (s.setCell i x).loop = s.loop ∧ (s.setCell i x).dv = s.dv ∧
    (s.setCell i x).pci = s.pci ∧ (s.setCell i x).mbx = s.mbx ∧ (s.setCell i x).drn = s.drn ∧
    (s.setCell i x).qps = s.qps ∧ (s.setCell i x).pas = s.pas ∧ (s.setCell i x).bch = s.bch ∧
    (s.setCell i x).key = s.key ∧ (s.setCell i x).hme = s.hme ∧ (s.setCell i x).arc = s.arc ∧
    (s.setCell i x).pwr = s.pwr ∧ (s.setCell i x).tmp = s.tmp ∧ (s.setCell i x).ret = s.ret ∧
    (s.setCell i x).fls = s.fls ∧ (s.setCell i x).lol = s.lol ∧ (s.setCell i x).cl = s.cl ∧
    (s.setCell i x).lc = s.lc ∧ (s.setCell i x).lnk = s.lnk ∧ (s.setCell i x).pending = s.pending :=
  ⟨rfl, rfl, rfl, rfl, rfl, rfl, rfl, rfl, rfl, rfl, rfl, rfl, rfl, rfl, rfl, rfl, rfl, rfl, rfl, rfl, rfl, rfl, rfl, rfl⟩

@[simp] theorem setCell_others (s : State) (i j : Nat) (x : Cell) :
    (s.setCell i x).core j = s.core j ∧ (s.setCell i x).cmem j = s.cmem j ∧ (s.setCell i x).mpu j = s.mpu j ∧
    (s.setCell i x).chan j = s.chan j ∧ (s.setCell i x).fun_ j = s.fun_ j ∧ (s.setCell i x).pin j = s.pin j ∧
    (s.setCell i x).qw j = s.qw j ∧ (s.setCell i x).qrun j = s.qrun j ∧ (s.setCell i x).pa j = s.pa j ∧
    (s.setCell i x).lane j = s.lane j ∧ (s.setCell i x).krow j = s.krow j ∧ (s.setCell i x).hunit j = s.hunit j ∧
    (s.setCell i x).eng j = s.eng j ∧ (s.setCell i x).src j = s.src j ∧ (s.setCell i x).nblk j = s.nblk j ∧
    (s.setCell i x).nch j = s.nch j ∧ (s.setCell i x).tenant j = s.tenant j ∧ (s.setCell i x).loupe j = s.loupe j ∧
    (s.setCell i x).link j = s.link j :=
  ⟨rfl, rfl, rfl, rfl, rfl, rfl, rfl, rfl, rfl, rfl, rfl, rfl, rfl, rfl, rfl, rfl, rfl, rfl, rfl⟩

/-- `setSrc` writes one entry. -/
@[simp] theorem setSrc_get (s : State) (i j : Nat) (x : Src) :
    (s.setSrc i x).src j = if j = i then x else s.src j := tget_tset _ _ i j x

/-- A second write of one entry replaces the first. -/
@[simp] theorem setSrc_setSrc (s : State) (i : Nat) (x y : Src) :
    (s.setSrc i x).setSrc i y = s.setSrc i y := by simp [State.setSrc]

/-- `setSrc` leaves every other part of the state. -/
@[simp] theorem setSrc_parts (s : State) (i : Nat) (x : Src) :
    (s.setSrc i x).now = s.now ∧ (s.setSrc i x).free = s.free ∧ (s.setSrc i x).clk = s.clk ∧
    (s.setSrc i x).tim = s.tim ∧ (s.setSrc i x).loop = s.loop ∧ (s.setSrc i x).dv = s.dv ∧
    (s.setSrc i x).pci = s.pci ∧ (s.setSrc i x).mbx = s.mbx ∧ (s.setSrc i x).drn = s.drn ∧
    (s.setSrc i x).qps = s.qps ∧ (s.setSrc i x).pas = s.pas ∧ (s.setSrc i x).bch = s.bch ∧
    (s.setSrc i x).key = s.key ∧ (s.setSrc i x).hme = s.hme ∧ (s.setSrc i x).nh = s.nh ∧ (s.setSrc i x).arc = s.arc ∧
    (s.setSrc i x).pwr = s.pwr ∧ (s.setSrc i x).ret = s.ret ∧ (s.setSrc i x).fls = s.fls ∧
    (s.setSrc i x).lol = s.lol ∧ (s.setSrc i x).cl = s.cl ∧ (s.setSrc i x).lc = s.lc ∧ (s.setSrc i x).lnk = s.lnk ∧
    (s.setSrc i x).pending = s.pending :=
  ⟨rfl, rfl, rfl, rfl, rfl, rfl, rfl, rfl, rfl, rfl, rfl, rfl, rfl, rfl, rfl, rfl, rfl, rfl, rfl, rfl, rfl, rfl, rfl, rfl⟩

@[simp] theorem setSrc_others (s : State) (i j : Nat) (x : Src) :
    (s.setSrc i x).core j = s.core j ∧ (s.setSrc i x).cmem j = s.cmem j ∧ (s.setSrc i x).mpu j = s.mpu j ∧
    (s.setSrc i x).chan j = s.chan j ∧ (s.setSrc i x).fun_ j = s.fun_ j ∧ (s.setSrc i x).pin j = s.pin j ∧
    (s.setSrc i x).qw j = s.qw j ∧ (s.setSrc i x).qrun j = s.qrun j ∧ (s.setSrc i x).pa j = s.pa j ∧
    (s.setSrc i x).lane j = s.lane j ∧ (s.setSrc i x).krow j = s.krow j ∧ (s.setSrc i x).hunit j = s.hunit j ∧
    (s.setSrc i x).eng j = s.eng j ∧ (s.setSrc i x).cell j = s.cell j ∧ (s.setSrc i x).nblk j = s.nblk j ∧
    (s.setSrc i x).nch j = s.nch j ∧ (s.setSrc i x).tenant j = s.tenant j ∧ (s.setSrc i x).loupe j = s.loupe j ∧
    (s.setSrc i x).link j = s.link j :=
  ⟨rfl, rfl, rfl, rfl, rfl, rfl, rfl, rfl, rfl, rfl, rfl, rfl, rfl, rfl, rfl, rfl, rfl, rfl, rfl⟩

/-- `setNblk` writes one entry. -/
@[simp] theorem setNblk_get (s : State) (i j : Nat) (x : NandBlk) :
    (s.setNblk i x).nblk j = if j = i then x else s.nblk j := tget_tset _ _ i j x

/-- A second write of one entry replaces the first. -/
@[simp] theorem setNblk_setNblk (s : State) (i : Nat) (x y : NandBlk) :
    (s.setNblk i x).setNblk i y = s.setNblk i y := by simp [State.setNblk]

/-- `setNblk` leaves every other part of the state. -/
@[simp] theorem setNblk_parts (s : State) (i : Nat) (x : NandBlk) :
    (s.setNblk i x).now = s.now ∧ (s.setNblk i x).free = s.free ∧ (s.setNblk i x).clk = s.clk ∧
    (s.setNblk i x).tim = s.tim ∧ (s.setNblk i x).loop = s.loop ∧ (s.setNblk i x).dv = s.dv ∧
    (s.setNblk i x).pci = s.pci ∧ (s.setNblk i x).mbx = s.mbx ∧ (s.setNblk i x).drn = s.drn ∧
    (s.setNblk i x).qps = s.qps ∧ (s.setNblk i x).pas = s.pas ∧ (s.setNblk i x).bch = s.bch ∧
    (s.setNblk i x).key = s.key ∧ (s.setNblk i x).hme = s.hme ∧ (s.setNblk i x).nh = s.nh ∧
    (s.setNblk i x).pwr = s.pwr ∧ (s.setNblk i x).tmp = s.tmp ∧ (s.setNblk i x).ret = s.ret ∧
    (s.setNblk i x).fls = s.fls ∧ (s.setNblk i x).lol = s.lol ∧ (s.setNblk i x).cl = s.cl ∧
    (s.setNblk i x).lc = s.lc ∧ (s.setNblk i x).lnk = s.lnk ∧ (s.setNblk i x).pending = s.pending :=
  ⟨rfl, rfl, rfl, rfl, rfl, rfl, rfl, rfl, rfl, rfl, rfl, rfl, rfl, rfl, rfl, rfl, rfl, rfl, rfl, rfl, rfl, rfl, rfl, rfl⟩

@[simp] theorem setNblk_others (s : State) (i j : Nat) (x : NandBlk) :
    (s.setNblk i x).core j = s.core j ∧ (s.setNblk i x).cmem j = s.cmem j ∧ (s.setNblk i x).mpu j = s.mpu j ∧
    (s.setNblk i x).chan j = s.chan j ∧ (s.setNblk i x).fun_ j = s.fun_ j ∧ (s.setNblk i x).pin j = s.pin j ∧
    (s.setNblk i x).qw j = s.qw j ∧ (s.setNblk i x).qrun j = s.qrun j ∧ (s.setNblk i x).pa j = s.pa j ∧
    (s.setNblk i x).lane j = s.lane j ∧ (s.setNblk i x).krow j = s.krow j ∧ (s.setNblk i x).hunit j = s.hunit j ∧
    (s.setNblk i x).eng j = s.eng j ∧ (s.setNblk i x).cell j = s.cell j ∧ (s.setNblk i x).src j = s.src j ∧
    (s.setNblk i x).nch j = s.nch j ∧ (s.setNblk i x).tenant j = s.tenant j ∧ (s.setNblk i x).loupe j = s.loupe j ∧
    (s.setNblk i x).link j = s.link j :=
  ⟨rfl, rfl, rfl, rfl, rfl, rfl, rfl, rfl, rfl, rfl, rfl, rfl, rfl, rfl, rfl, rfl, rfl, rfl, rfl⟩

/-- `setNch` writes one entry. -/
@[simp] theorem setNch_get (s : State) (i j : Nat) (x : NandCh) :
    (s.setNch i x).nch j = if j = i then x else s.nch j := tget_tset _ _ i j x

/-- A second write of one entry replaces the first. -/
@[simp] theorem setNch_setNch (s : State) (i : Nat) (x y : NandCh) :
    (s.setNch i x).setNch i y = s.setNch i y := by simp [State.setNch]

/-- `setNch` leaves every other part of the state. -/
@[simp] theorem setNch_parts (s : State) (i : Nat) (x : NandCh) :
    (s.setNch i x).now = s.now ∧ (s.setNch i x).free = s.free ∧ (s.setNch i x).clk = s.clk ∧
    (s.setNch i x).tim = s.tim ∧ (s.setNch i x).loop = s.loop ∧ (s.setNch i x).dv = s.dv ∧
    (s.setNch i x).pci = s.pci ∧ (s.setNch i x).mbx = s.mbx ∧ (s.setNch i x).drn = s.drn ∧
    (s.setNch i x).qps = s.qps ∧ (s.setNch i x).pas = s.pas ∧ (s.setNch i x).bch = s.bch ∧
    (s.setNch i x).key = s.key ∧ (s.setNch i x).hme = s.hme ∧ (s.setNch i x).nh = s.nh ∧ (s.setNch i x).pwr = s.pwr ∧
    (s.setNch i x).tmp = s.tmp ∧ (s.setNch i x).ret = s.ret ∧ (s.setNch i x).fls = s.fls ∧
    (s.setNch i x).lol = s.lol ∧ (s.setNch i x).cl = s.cl ∧ (s.setNch i x).lc = s.lc ∧ (s.setNch i x).lnk = s.lnk ∧
    (s.setNch i x).pending = s.pending :=
  ⟨rfl, rfl, rfl, rfl, rfl, rfl, rfl, rfl, rfl, rfl, rfl, rfl, rfl, rfl, rfl, rfl, rfl, rfl, rfl, rfl, rfl, rfl, rfl, rfl⟩

@[simp] theorem setNch_others (s : State) (i j : Nat) (x : NandCh) :
    (s.setNch i x).core j = s.core j ∧ (s.setNch i x).cmem j = s.cmem j ∧ (s.setNch i x).mpu j = s.mpu j ∧
    (s.setNch i x).chan j = s.chan j ∧ (s.setNch i x).fun_ j = s.fun_ j ∧ (s.setNch i x).pin j = s.pin j ∧
    (s.setNch i x).qw j = s.qw j ∧ (s.setNch i x).qrun j = s.qrun j ∧ (s.setNch i x).pa j = s.pa j ∧
    (s.setNch i x).lane j = s.lane j ∧ (s.setNch i x).krow j = s.krow j ∧ (s.setNch i x).hunit j = s.hunit j ∧
    (s.setNch i x).eng j = s.eng j ∧ (s.setNch i x).cell j = s.cell j ∧ (s.setNch i x).src j = s.src j ∧
    (s.setNch i x).nblk j = s.nblk j ∧ (s.setNch i x).tenant j = s.tenant j ∧ (s.setNch i x).loupe j = s.loupe j ∧
    (s.setNch i x).link j = s.link j :=
  ⟨rfl, rfl, rfl, rfl, rfl, rfl, rfl, rfl, rfl, rfl, rfl, rfl, rfl, rfl, rfl, rfl, rfl, rfl, rfl⟩

/-- `setTenant` writes one entry. -/
@[simp] theorem setTenant_get (s : State) (i j : Nat) (x : Tenant) :
    (s.setTenant i x).tenant j = if j = i then x else s.tenant j := tget_tset _ _ i j x

/-- A second write of one entry replaces the first. -/
@[simp] theorem setTenant_setTenant (s : State) (i : Nat) (x y : Tenant) :
    (s.setTenant i x).setTenant i y = s.setTenant i y := by simp [State.setTenant]

/-- `setTenant` leaves every other part of the state. -/
@[simp] theorem setTenant_parts (s : State) (i : Nat) (x : Tenant) :
    (s.setTenant i x).now = s.now ∧ (s.setTenant i x).free = s.free ∧ (s.setTenant i x).clk = s.clk ∧
    (s.setTenant i x).tim = s.tim ∧ (s.setTenant i x).loop = s.loop ∧ (s.setTenant i x).dv = s.dv ∧
    (s.setTenant i x).pci = s.pci ∧ (s.setTenant i x).mbx = s.mbx ∧ (s.setTenant i x).drn = s.drn ∧
    (s.setTenant i x).qps = s.qps ∧ (s.setTenant i x).pas = s.pas ∧ (s.setTenant i x).bch = s.bch ∧
    (s.setTenant i x).key = s.key ∧ (s.setTenant i x).hme = s.hme ∧ (s.setTenant i x).nh = s.nh ∧
    (s.setTenant i x).arc = s.arc ∧ (s.setTenant i x).pwr = s.pwr ∧ (s.setTenant i x).tmp = s.tmp ∧
    (s.setTenant i x).ret = s.ret ∧ (s.setTenant i x).fls = s.fls ∧ (s.setTenant i x).lol = s.lol ∧
    (s.setTenant i x).cl = s.cl ∧ (s.setTenant i x).lnk = s.lnk ∧ (s.setTenant i x).pending = s.pending :=
  ⟨rfl, rfl, rfl, rfl, rfl, rfl, rfl, rfl, rfl, rfl, rfl, rfl, rfl, rfl, rfl, rfl, rfl, rfl, rfl, rfl, rfl, rfl, rfl, rfl⟩

@[simp] theorem setTenant_others (s : State) (i j : Nat) (x : Tenant) :
    (s.setTenant i x).core j = s.core j ∧ (s.setTenant i x).cmem j = s.cmem j ∧ (s.setTenant i x).mpu j = s.mpu j ∧
    (s.setTenant i x).chan j = s.chan j ∧ (s.setTenant i x).fun_ j = s.fun_ j ∧ (s.setTenant i x).pin j = s.pin j ∧
    (s.setTenant i x).qw j = s.qw j ∧ (s.setTenant i x).qrun j = s.qrun j ∧ (s.setTenant i x).pa j = s.pa j ∧
    (s.setTenant i x).lane j = s.lane j ∧ (s.setTenant i x).krow j = s.krow j ∧
    (s.setTenant i x).hunit j = s.hunit j ∧ (s.setTenant i x).eng j = s.eng j ∧ (s.setTenant i x).cell j = s.cell j ∧
    (s.setTenant i x).src j = s.src j ∧ (s.setTenant i x).nblk j = s.nblk j ∧ (s.setTenant i x).nch j = s.nch j ∧
    (s.setTenant i x).loupe j = s.loupe j ∧ (s.setTenant i x).link j = s.link j :=
  ⟨rfl, rfl, rfl, rfl, rfl, rfl, rfl, rfl, rfl, rfl, rfl, rfl, rfl, rfl, rfl, rfl, rfl, rfl, rfl⟩

/-- `setLoupe` writes one entry. -/
@[simp] theorem setLoupe_get (s : State) (i j : Nat) (x : Loupe) :
    (s.setLoupe i x).loupe j = if j = i then x else s.loupe j := tget_tset _ _ i j x

/-- A second write of one entry replaces the first. -/
@[simp] theorem setLoupe_setLoupe (s : State) (i : Nat) (x y : Loupe) :
    (s.setLoupe i x).setLoupe i y = s.setLoupe i y := by simp [State.setLoupe]

/-- `setLoupe` leaves every other part of the state. -/
@[simp] theorem setLoupe_parts (s : State) (i : Nat) (x : Loupe) :
    (s.setLoupe i x).now = s.now ∧ (s.setLoupe i x).free = s.free ∧ (s.setLoupe i x).tim = s.tim ∧
    (s.setLoupe i x).loop = s.loop ∧ (s.setLoupe i x).dv = s.dv ∧ (s.setLoupe i x).pci = s.pci ∧
    (s.setLoupe i x).mbx = s.mbx ∧ (s.setLoupe i x).drn = s.drn ∧ (s.setLoupe i x).qps = s.qps ∧
    (s.setLoupe i x).pas = s.pas ∧ (s.setLoupe i x).bch = s.bch ∧ (s.setLoupe i x).key = s.key ∧
    (s.setLoupe i x).hme = s.hme ∧ (s.setLoupe i x).nh = s.nh ∧ (s.setLoupe i x).arc = s.arc ∧
    (s.setLoupe i x).pwr = s.pwr ∧ (s.setLoupe i x).tmp = s.tmp ∧ (s.setLoupe i x).ret = s.ret ∧
    (s.setLoupe i x).fls = s.fls ∧ (s.setLoupe i x).lol = s.lol ∧ (s.setLoupe i x).cl = s.cl ∧
    (s.setLoupe i x).lc = s.lc ∧ (s.setLoupe i x).lnk = s.lnk ∧ (s.setLoupe i x).pending = s.pending :=
  ⟨rfl, rfl, rfl, rfl, rfl, rfl, rfl, rfl, rfl, rfl, rfl, rfl, rfl, rfl, rfl, rfl, rfl, rfl, rfl, rfl, rfl, rfl, rfl, rfl⟩

@[simp] theorem setLoupe_others (s : State) (i j : Nat) (x : Loupe) :
    (s.setLoupe i x).core j = s.core j ∧ (s.setLoupe i x).cmem j = s.cmem j ∧ (s.setLoupe i x).mpu j = s.mpu j ∧
    (s.setLoupe i x).chan j = s.chan j ∧ (s.setLoupe i x).fun_ j = s.fun_ j ∧ (s.setLoupe i x).pin j = s.pin j ∧
    (s.setLoupe i x).qw j = s.qw j ∧ (s.setLoupe i x).qrun j = s.qrun j ∧ (s.setLoupe i x).pa j = s.pa j ∧
    (s.setLoupe i x).lane j = s.lane j ∧ (s.setLoupe i x).krow j = s.krow j ∧ (s.setLoupe i x).hunit j = s.hunit j ∧
    (s.setLoupe i x).eng j = s.eng j ∧ (s.setLoupe i x).cell j = s.cell j ∧ (s.setLoupe i x).src j = s.src j ∧
    (s.setLoupe i x).nblk j = s.nblk j ∧ (s.setLoupe i x).nch j = s.nch j ∧ (s.setLoupe i x).tenant j = s.tenant j ∧
    (s.setLoupe i x).link j = s.link j :=
  ⟨rfl, rfl, rfl, rfl, rfl, rfl, rfl, rfl, rfl, rfl, rfl, rfl, rfl, rfl, rfl, rfl, rfl, rfl, rfl⟩

/-- `setLink` writes one entry. -/
@[simp] theorem setLink_get (s : State) (i j : Nat) (x : Link) :
    (s.setLink i x).link j = if j = i then x else s.link j := tget_tset _ _ i j x

/-- A second write of one entry replaces the first. -/
@[simp] theorem setLink_setLink (s : State) (i : Nat) (x y : Link) :
    (s.setLink i x).setLink i y = s.setLink i y := by simp [State.setLink]

/-- `setLink` leaves every other part of the state. -/
@[simp] theorem setLink_parts (s : State) (i : Nat) (x : Link) :
    (s.setLink i x).now = s.now ∧ (s.setLink i x).free = s.free ∧ (s.setLink i x).clk = s.clk ∧
    (s.setLink i x).tim = s.tim ∧ (s.setLink i x).loop = s.loop ∧ (s.setLink i x).dv = s.dv ∧
    (s.setLink i x).pci = s.pci ∧ (s.setLink i x).mbx = s.mbx ∧ (s.setLink i x).drn = s.drn ∧
    (s.setLink i x).qps = s.qps ∧ (s.setLink i x).pas = s.pas ∧ (s.setLink i x).bch = s.bch ∧
    (s.setLink i x).key = s.key ∧ (s.setLink i x).hme = s.hme ∧ (s.setLink i x).nh = s.nh ∧
    (s.setLink i x).arc = s.arc ∧ (s.setLink i x).pwr = s.pwr ∧ (s.setLink i x).tmp = s.tmp ∧
    (s.setLink i x).ret = s.ret ∧ (s.setLink i x).fls = s.fls ∧ (s.setLink i x).lol = s.lol ∧
    (s.setLink i x).cl = s.cl ∧ (s.setLink i x).lc = s.lc ∧ (s.setLink i x).pending = s.pending :=
  ⟨rfl, rfl, rfl, rfl, rfl, rfl, rfl, rfl, rfl, rfl, rfl, rfl, rfl, rfl, rfl, rfl, rfl, rfl, rfl, rfl, rfl, rfl, rfl, rfl⟩

@[simp] theorem setLink_others (s : State) (i j : Nat) (x : Link) :
    (s.setLink i x).core j = s.core j ∧ (s.setLink i x).cmem j = s.cmem j ∧ (s.setLink i x).mpu j = s.mpu j ∧
    (s.setLink i x).chan j = s.chan j ∧ (s.setLink i x).fun_ j = s.fun_ j ∧ (s.setLink i x).pin j = s.pin j ∧
    (s.setLink i x).qw j = s.qw j ∧ (s.setLink i x).qrun j = s.qrun j ∧ (s.setLink i x).pa j = s.pa j ∧
    (s.setLink i x).lane j = s.lane j ∧ (s.setLink i x).krow j = s.krow j ∧ (s.setLink i x).hunit j = s.hunit j ∧
    (s.setLink i x).eng j = s.eng j ∧ (s.setLink i x).cell j = s.cell j ∧ (s.setLink i x).src j = s.src j ∧
    (s.setLink i x).nblk j = s.nblk j ∧ (s.setLink i x).nch j = s.nch j ∧ (s.setLink i x).tenant j = s.tenant j ∧
    (s.setLink i x).loupe j = s.loupe j :=
  ⟨rfl, rfl, rfl, rfl, rfl, rfl, rfl, rfl, rfl, rfl, rfl, rfl, rfl, rfl, rfl, rfl, rfl, rfl, rfl⟩

end Sys2Proof.Machine
end

