-- ==== Sys2Proof/Laws/Driner.lean ====
section
/-! SUPPORT. Sys2Proof/Laws/Driner.lean: a Driner command that begins, once for all commands. -/

namespace Sys2Proof.Machine

@[simp] theorem begun_out (s : State) (op : Nat) (r : Req) :
    (s.begun op r).drn.out = (s.untake r.party op r.tag).drn.out ++ [(r.party, r.tag, op)] := rfl

/-- A command begun is among those outstanding. -/
theorem begun_contains (s : State) (op : Nat) (r : Req) :
    (s.begun op r).drn.out.contains (r.party, r.tag, op) = true := by
  simp

/-- A command that may begin goes on to its own work. -/
theorem driner_begins {s : State} {op : Nat} {r : Req} (h : s.begins op r) (body : State → State) :
    driner op r s body = .next (body (s.begun op r)) := by
  obtain ⟨h1, h0, h2, h3, h4, h5, h6, row, h7, h8, h9⟩ := h
  have h10 : (s.begun op r).lc = s.lc := by unfold State.begun State.untake; split <;> rfl
  have h11 : (s.begun op r).tmp = s.tmp := by unfold State.begun State.untake; split <;> rfl
  have h12 : (s.begun op r).halted = false := by rw [← h3]; unfold State.halted; rw [h10, h11]
  unfold driner
  rw [if_neg (by simp [h1, h0])]
  dsimp only
  rw [if_neg (by simp only [h5, Bool.and_false]; decide), if_neg (by simp [Nat.not_le.2 h6]), h7]
  dsimp only
  change (if (s.begun op r).lc.fw == .loader && op != 0x0101 && !(op == 0x0701 && leAt r.payload 0 1 == 0xF0) then _
    else if (s.begun op r).halted && !row.halt then _ else _) = _
  rw [if_neg (by rw [h10, h2]; simp), if_neg (by simp [h12]), if_neg (by simp [h8]), if_neg (by simp [h9, h4])]
  rfl

/-- A command that answers at once: the response is held. -/
theorem drinerNow_begins {s : State} {op : Nat} {r : Req} (h : s.begins op r) (body : State → State × Nat × Bytes) :
    drinerNow op r s body =
      .next ((body (s.begun op r)).1.reply r.party r.tag op (body (s.begun op r)).2.1 (body (s.begun op r)).2.2) := by
  unfold drinerNow
  rw [driner_begins h]

/-- A response to a command still outstanding is held. -/
theorem reply_of_out {s : State} {party tag op : Nat} (h : s.drn.out.contains (party, tag, op) = true) (st : Nat) (p : Bytes) :
    s.reply party tag op st p = s.holdFor true party op tag st false p := by
  unfold State.reply
  rw [if_pos h]

/-- The parts of a state that beginning a command leaves as they were. -/
@[simp] theorem begun_parts (s : State) (op : Nat) (r : Req) :
    (s.begun op r).now = s.now ∧ (s.begun op r).free = s.free ∧ (s.begun op r).clk = s.clk ∧ (s.begun op r).tim = s.tim ∧
    (s.begun op r).loop = s.loop ∧ (s.begun op r).dv = s.dv ∧ (s.begun op r).pci = s.pci ∧ (s.begun op r).mbx = s.mbx ∧
    (s.begun op r).qps = s.qps ∧ (s.begun op r).pas = s.pas ∧ (s.begun op r).bch = s.bch ∧ (s.begun op r).key = s.key ∧
    (s.begun op r).hme = s.hme ∧ (s.begun op r).nh = s.nh ∧ (s.begun op r).arc = s.arc ∧ (s.begun op r).pwr = s.pwr ∧
    (s.begun op r).tmp = s.tmp ∧ (s.begun op r).ret = s.ret ∧ (s.begun op r).fls = s.fls ∧ (s.begun op r).lol = s.lol ∧
    (s.begun op r).cl = s.cl ∧ (s.begun op r).lc = s.lc ∧ (s.begun op r).lnk = s.lnk ∧
    (s.begun op r).pending = s.pending := by
  unfold State.begun State.untake
  split <;> simp

end Sys2Proof.Machine
end

