-- ==== Sys2Proof/Laws/Lolan.lean ====
section
/-! SUPPORT. Sys2Proof/Laws/Lolan.lean: how a row of the Lolan-32 instruction set runs, once for all rows. -/

namespace Sys2Proof.Machine

/-- What an instruction's own work becomes: the state after it. -/
def Eff.after (e : Eff) (c len : Nat) (s : State) : State :=
  match e with
  | .done s => s.complete c len
  | .flt f s => s.takeFault c f
  | .branch taken annul target d => s.branchTo c len taken annul target d
  | .went s => s
  | .hold => s

/-- A row that serves the instruction a core runs carries out that instruction's work. -/
theorem lrun_runs {c : Fin 14} {s : State} {i : Ins} (h : s.runs c i) (serves : Ins → Bool)
    (body : Ins → State → Eff) (hs : serves i = true) :
    lrun c serves s body = .next ((body i s).after c.val i.len s) := by
  obtain ⟨h1, h2, h3, h4, h5⟩ := h
  unfold lrun
  rw [h1, h2]
  simp only [Bool.not_true, Bool.false_eq_true, if_false, hs, if_true, State.runIns, h3, h4]
  cases hs : (s.core c.val).slot with
  | none =>
    simp only [Bool.false_eq_true, if_false]
    unfold Eff.after
    cases body i s <;> rfl
  | some t =>
    simp only [h5 t hs, Bool.false_eq_true, if_false]
    unfold Eff.after
    cases body i s <;> rfl

/-- A core's registers after a change of them. -/
@[simp] theorem core_onCore (s : State) (c j : Nat) (f : Core → Core) :
    (s.onCore c f).core j = if j = c then f (s.core c) else s.core j := setCore_get _ _ _ _

/-- A general register after a write of one. -/
@[simp] theorem reg_setReg (k : Core) (n m : Nat) (v : Word) :
    (k.setReg n v).reg m = if m = n then v else k.reg m := tget_tset _ _ _ _ _

/-- A shadow stack after a write of one. -/
@[simp] theorem stack_setStack (k : Core) (n m : Nat) (v : List SsRec) :
    (k.setStack n v).stack m = if m = n then v else k.stack m := tget_tset _ _ _ _ _

end Sys2Proof.Machine
end

