-- ==== Sys2Proof/Laws/LolanAlu.lean ====
section
/-! SUPPORT. Sys2Proof/Laws/LolanAlu.lean: the ALU operations of Lolan-32 in register and immediate form. -/

namespace Sys2Proof.Machine

/-- SR after an ALU operation other than MOV: Z and N of its result, its carry and its overflow, and nothing else. -/
theorem flagsOf_alu (n : Nat) (x y sr : Word) (h : n ≠ 0) :
    flagsOf sr (aluSr n x y sr) (aluResult n x y (bit sr srC)) (aluCarry n x y (bit sr srC)) (aluOverflow n x y (bit sr srC)) := by
  unfold flagsOf aluSr
  simp only [h, if_false]
  unfold optFlag srZN
  cases aluCarry n x y (bit sr srC) <;> cases aluOverflow n x y (bit sr srC) <;>
    simp [srZ, srN, srC, srV] <;> (intro m h1 h2 h3 h4; simp [h1, h2, h3, h4])

/-- An ALU operation on registers and immediates changes registers alone. -/
theorem alu_reg {c : Fin 14} {s : State} {i : Ins} (n : Nat) (hop : i.op / 16 = 1 ∨ i.op / 16 = 2 ∨ i.op / 16 = 3) :
    s.alu c.val n i = .done (s.onCore c.val (aluInto n i.d ((s.core c.val).reg i.d)
      (if i.op / 16 = 1 then (s.core c.val).reg i.s else i.imm))) := by
  unfold State.alu
  rcases hop with h | h | h <;> simp [h]

/-- An ALU row in a register or immediate form completes. -/
theorem aluRow_reg {c : Fin 14} {s : State} {i : Ins} (h : s.runs c i) (n : Nat)
    (hop : i.op / 16 = 1 ∨ i.op / 16 = 2 ∨ i.op / 16 = 3) (hn : i.op % 16 = n) :
    aluRow n c s = .next ((s.onCore c.val (aluInto n i.d ((s.core c.val).reg i.d)
      (if i.op / 16 = 1 then (s.core c.val).reg i.s else i.imm))).complete c.val i.len) := by
  unfold aluRow
  rw [lrun_runs h]
  · simp only [alu_reg n hop]; rfl
  · simp [aluOp, hn]; omega

end Sys2Proof.Machine
end

