-- ==== Sys2Proof/Machine/Package.lean ====
section
/-! DEFINITION. Sys2Proof/Machine/Package.lean: the ball array (R507 to R509) and the group whose levels a signal ball follows
(R513). No command reads it: it says where each pin of State stands. -/

namespace Sys2Proof.Machine

/-- What a ball carries (R509); `n` counts lanes or event pins. -/
inductive Ball where
  | perP (n : Nat) | perN (n : Nat) | petP (n : Nat) | petN (n : Nat)
  | clkinP | clkinN | perstN | wakeN | mrstN | alertN | timeIn | ppso
  | evt (n : Nat)
  | antA | antB | vfield | vbat
  | tck | tms | tdi | tdo | trstN
  | reserved | vddCore | vin3v3 | vddIo | vddNq | vddNc | vss
  deriving DecidableEq, Repr

/-- The letters of the rows, A first (R507): I, O, Q, R, S, X and Z are not used. -/
def rowLetters : List String :=
  ["A", "B", "C", "D", "E", "F", "G", "H", "J", "K", "L", "M", "N", "P", "T", "U", "V", "W", "Y"]

/-- The name of row index `i`, 1 to 49: A to Y, AA to AY, BA to BL (R507). -/
def rowName (i : Nat) : String :=
  let at_ (k : Nat) : String := rowLetters.getD k ""
  if i ≤ 19 then at_ (i - 1) else if i ≤ 38 then "A" ++ at_ (i - 20) else "B" ++ at_ (i - 39)

/-- The unpopulated positions of the centre (R508): rows AB to AK in columns 21 to 29, column 25 of rows V to AA and AL to AP,
row AF in columns 17 to 20 and 30 to 33. -/
def unpopulated (r c : Nat) : Bool :=
  (21 ≤ r && r ≤ 29 && 21 ≤ c && c ≤ 29) || (c = 25 && ((17 ≤ r && r ≤ 20) || (30 ≤ r && r ≤ 33))) ||
  (r = 25 && ((17 ≤ c && c ≤ 20) || (30 ≤ c && c ≤ 33)))

/-- The lane whose pairs stand in a row (R509): rows 3 n + 3 for n = 0 to 15. -/
def laneOfRow (r : Nat) : Option Nat := if r % 3 = 0 && 3 ≤ r && r ≤ 48 then some (r / 3 - 1) else none

/-- The signal balls that R509 names one by one: row index, column, ball. -/
def namedBalls : List (Nat × Nat × Ball) :=
  [(1, 8, .clkinP), (1, 9, .clkinN), (3, 8, .perstN), (3, 9, .wakeN), (3, 10, .mrstN), (3, 11, .alertN), (5, 8, .timeIn),
   (5, 10, .ppso), (49, 41, .antA), (49, 43, .antB), (49, 45, .vfield), (48, 38, .vbat), (48, 39, .vbat),
   (1, 40, .tck), (1, 41, .tms), (1, 42, .tdi), (1, 43, .tdo), (1, 45, .trstN)] ++
  ((upto 4).map fun k => (3, 40 + k, Ball.reserved)) ++ ((upto 4).map fun k => (5, 40 + k, Ball.reserved)) ++
  (upto 16).map fun k => (47, 13 + 2 * k, Ball.evt k)

/-- The ball at a row index and a column; none where the position is unpopulated (R508, R509). -/
def ballAt (r c : Nat) : Option Ball :=
  if r = 0 || 49 < r || c = 0 || 49 < c || unpopulated r c then none
  else match laneOfRow r, c with
  | some n, 1 => some (.perP n)
  | some n, 2 => some (.perN n)
  | some n, 4 => some (.petP n)
  | some n, 5 => some (.petN n)
  | _, _ =>
    match namedBalls.find? fun b => b.1 == r && b.2.1 == c with
    | some b => some b.2.2
    | none =>
      if 12 ≤ r && r ≤ 38 && 12 ≤ c && c ≤ 38 && (r + c) % 2 = 0 then some .vddCore
      else if r = 49 && 13 ≤ c && c ≤ 36 then some .vin3v3
      else if r = 1 && 13 ≤ c && c ≤ 36 then some .vddIo
      else if c = 44 && r ≤ 48 then some .vddNq
      else if c = 47 then some .vddNc
      else some .vss

/-- The groups of signal balls (R513). -/
inductive PinGroup where
  | in18 | out18 | in33 | openDrain33
  deriving DecidableEq, Repr

/-- The group of a signal ball, where R513 gives one. -/
def pinGroup : Ball → Option PinGroup
  | .timeIn => some .in18
  | .evt _ => some .in18
  | .tck => some .in18
  | .tms => some .in18
  | .tdi => some .in18
  | .trstN => some .in18
  | .ppso => some .out18
  | .tdo => some .out18
  | .perstN => some .in33
  | .mrstN => some .in33
  | .alertN => some .openDrain33
  | .wakeN => some .openDrain33
  | _ => none

end Sys2Proof.Machine
end

