-- ==== Sys2Proof/Tests/Slice0.lean ====
section
/-! SUPPORT. Sys2Proof/Tests/Slice0.lean: tests of this model: an ill-formed term for each check of WellFormed.lean; for
each statement a witness, a concrete state and operands that meet the hypotheses of each of its clauses; and figures that
the spec's worked examples give. -/

namespace Sys2Proof.Tests

set_option Elab.async false

open Sys2Proof.Machine

/-! ### Helpers: small states and the decidable forms of the terms of Safety.lean -/

/-- The module at work: firmware runs on pair A, PF0 and VF1 are served, and a few mask draws stand. -/
def on : State :=
  { State.reset with
    bch := { State.reset.bch with reserve := [1, 2], general := [3, 4, 5, 6] }
    lc := { State.reset.lc with fw := .running, fwReady := true }
    pci := { State.reset.pci with fns := [(0, { fwReady := true, bme := true }), (1, { fwReady := true, bme := true })] } }

/-- `State.begins` as a test. -/
def beginsB (s : State) (op : Nat) (r : Req) : Bool :=
  s.serves r.party && s.turn op r && s.lc.fw == .running && !s.halted && r.tag != 0 &&
  !((s.untake r.party op r.tag).outstanding r.party).contains r.tag &&
  decide (((s.untake r.party op r.tag).outstanding r.party).length < 16) &&
  match cmdRow op with
  | some row => mayIssue row.issuer r.party && r.payload.length == row.size
  | none => false

theorem begins_of (s : State) (op : Nat) (r : Req) (h : beginsB s op r = true) : s.begins op r := by
  unfold beginsB at h
  cases hc : cmdRow op with
  | none => simp [hc] at h
  | some row =>
    simp only [hc, Bool.and_eq_true, beq_iff_eq, bne_iff_ne, Bool.not_eq_true', decide_eq_true_eq] at h
    obtain ⟨⟨⟨⟨⟨⟨⟨h1, h0⟩, h2⟩, h3⟩, h4⟩, h5⟩, h6⟩, h7, h8⟩ := h
    exact ⟨h1, h0, h2, h3, h4, h5, h6, row, hc, h7, h8⟩

/-- A request of PF0 under tag 1. -/
def ask (n : Nat) : Req := { party := 1, tag := 1, payload := List.replicate n 0 }


/-! ### WellFormed: an ill-formed term for each check, and a well-formed one beside it -/

def anyTry : Try := { parityOk := true, seqOk := true }

/-- MIDs of R22 and the operation that a transfer belongs to. -/
theorem test_wellFormed_mids :
    wellFormed (.transfer 7 0 0 anyTry anyTry .none) = false ∧ wellFormed (.transfer 7 1 0 anyTry anyTry .none) = true ∧
    wellFormed (.transfer 7 1 0 anyTry anyTry (.driner 0x68 1)) = false ∧
    wellFormed (.transfer 7 1 0 anyTry anyTry (.driner 1 65536)) = false ∧ wellFormed (.linkAckTimeout 7 0x41 .none) = false ∧
    wellFormed (.keyNhRandRead 0x4F) = false ∧ wellFormed (.nhRandTimeout 0x72) = false ∧ wellFormed (.coreRun 0 true) = false ∧
    wellFormed (.coreReset 0) = false ∧ wellFormed (.escLock 0) = false ∧ wellFormed (.mbxBindWrite 0 0 0 false 0) = false ∧
    wellFormed (.flUnlockWrite 0 0 0) = false ∧ wellFormed (.program 0 0 0) = false ∧ wellFormed (.erase 0 0 0) = false ∧
    wellFormed (.suspend 0 0 0) = false ∧ wellFormed (.resume 0 0 0) = false ∧ wellFormed (.marginCheck 0 0 0) = false ∧
    wellFormed (.rdpRaise 0 0 0) = false ∧ wellFormed (.rdpDescend 0 0 0) = false ∧ wellFormed (.kindSet 0 0 0) = false ∧
    wellFormed (.flWpWrite 0 0 0 0) = false ∧ wellFormed (.registerWrite (.port 0 0 0) 0) = false := by decide +kernel

/-- Resources of a class, channel windows and queue pairs. -/
theorem test_wellFormed_numbers :
    wellFormed (.retirement .fwPair [true, true, true]) = false ∧ wellFormed (.assayDone .engine 5 true) = false ∧
    wellFormed (.assayDone .engine 4 true) = true ∧ wellFormed (.periodicAssay .lane 544) = false ∧
    wellFormed (.periodicAssay .engine 0) = false ∧ wellFormed (.mbxSend 1 256) = false ∧ wellFormed (.mbxPop 1 256) = false ∧
    wellFormed (.mbxDbWrite 1 256 0) = false ∧ wellFormed (.mbxDbMaskWrite 1 256 0) = false ∧
    wellFormed (.mbxSend 1 255) = true ∧ wellFormed (.coalesceTimeout 1048576) = false ∧
    wellFormed (.qpDestroyFinish 1048576) = false ∧ wellFormed (.jobAdmit 1048576) = false ∧ wellFormed (.jobAdmit 1048575) = true := by
  decide +kernel

/-- The host's accesses and completions. -/
theorem test_wellFormed_host :
    wellFormed (.doorbell 0 0x7FFFF9 (List.replicate 8 0) true) = false ∧ wellFormed (.doorbell 0 0 [] true) = false ∧
    wellFormed (.doorbell 0 0x7FFFF8 (List.replicate 8 0) true) = true ∧ wellFormed (.configWrite (.maxPayload 1024)) = false ∧
    wellFormed (.configWrite (.maxRead 8192)) = false ∧ wellFormed (.configWrite (.vfEnable true 64)) = false ∧
    wellFormed (.linkUp 0 16) = false ∧ wellFormed (.linkUp 5 16) = false ∧ wellFormed (.linkRetrain 4 3) = false ∧
    wellFormed (.hostReadCompletion 1024 .abort) = false ∧ wellFormed (.completionTimeout 1024) = false ∧
    wellFormed (.registerWrite (.bar 0 2 0 4) 0) = false ∧ wellFormed (.registerWrite (.bar 0 0 0 9) 0) = false ∧
    wellFormed (.flashWindowRead 1 0 0x7FFFFFF 2 .clean) = false ∧ wellFormed (.flashWindowRead 1 0 0 0 .clean) = false ∧
    wellFormed (.hostRegisterRead 0 1 0 ⟨4, false⟩) = false := by
  decide +kernel

theorem test_wellFormed_completion :
    (Cpl.data (List.replicate 4097 0)).ok = false ∧ (Cpl.data (List.replicate 4096 0)).ok = true := by decide +kernel

/-- Requests: tag, issuer and length. -/
theorem test_wellFormed_requests :
    wellFormed (.timeGet { party := 1, tag := 65536, payload := [] }) = false ∧
    wellFormed (.timeGet { party := 0, tag := 1, payload := [] }) = false ∧
    wellFormed (.timeGet { party := 1, tag := 1, payload := List.replicate 897 0 }) = false ∧
    wellFormed (.timeGet { party := 1, tag := 1, payload := List.replicate 896 0 }) = true := by decide +kernel

/-- Cores' and DMA engines' operands, and frames of the contactless port. -/
theorem test_wellFormed_rest :
    wellFormed (.faultEntry 0 (some { space := 2, addr := 0 })) = false ∧
    wellFormed (.dmaDescriptor 0 ⟨⟨2, 0, 0⟩, ⟨1, 0, 0⟩, 4, .none, 0⟩) = false ∧
    wellFormed (.dmaDescriptor 0 ⟨⟨1, 0, 0⟩, ⟨1, 0, 4294967296⟩, 4, .none, 0⟩) = false ∧
    wellFormed (.dmaDescriptor 0 ⟨⟨1, 0, 0⟩, ⟨1, 0, 0⟩, 4294967296, .none, 0⟩) = false ∧
    wellFormed (.anticollision 0 0 0) = false ∧ wellFormed (.anticollision 1 33 0) = false ∧ wellFormed (.selectI 4 0 0) = false ∧
    wellFormed (.auth1 (List.replicate 254 0)) = false ∧ wellFormed (.auth1 (List.replicate 253 0)) = true ∧
    wellFormed (.cardAnswer (.atqa 3)) = false ∧ wellFormed (.cardAnswer (.uidBits (List.replicate 41 true) false)) = false := by
  decide +kernel

/-! ### Witnesses: chapters 1 and 2 -/

/-- The link to lane 3, which is retired. -/
def laneGone : State := { on with ret := { on.ret with lane := { retired := [3] } } }

/-- A link on which the jig has dropped a transfer. -/
def dropped : State := { on with lnk := { links := [(7, { phase := 1 })] } }

/-- HandshakeTransfers: its clauses in order; the tries at their edges; a key load over the bus. -/
theorem witness_HandshakeTransfers :
    (on.up = true ∧ on.midAppears 1 = true ∧ on.midAppears 0x71 = true ∧ on.midAppears 0 = false) ∧
    ((on.link 0).phase = 0 ∧ on.gateShut 0 = false ∧ on.jigMode 0 = none ∧ keyBus 0 = none) ∧
    (keyBus 0x2000000 = some 0 ∧ keyBus (0x2000000 + 617) = some 617 ∧ keyBus (0x2000000 + 618) = none ∧
      on.gateShut 0x2000000 = false ∧ (on.link 0x2000000).phase = 0 ∧ on.jigMode 0x2000000 = none ∧
      on.phys .keyRow 9000 = some 9000) ∧
    (laneGone.up = true ∧ laneGone.gateShut 0x100003 = true ∧ (laneGone.link 0x100003).phase = 0 ∧
      laneGone.gateShut 0x100004 = false ∧ (laneGone.link 0x100004).phase ≠ 1 ∧ laneGone.gateShut 0x2000003 = true) ∧
    (dropped.up = true ∧ dropped.gateShut 7 = false ∧ (dropped.link 7).phase = 1) := by decide +kernel

/-- A lane waits to be retired. -/
def laneDue : State :=
  { on with ret := { on.ret with waiting := [{ cls := .lane, phys := 543, errors := 3, at_ := 0 }] } }

/-- A lane, a hash unit or an engine is under assay. -/
def assaying (c : ResClass) (p : Nat) : State := { on with ret := { on.ret with assays := [(c, p, true, none)] } }

/-- A spare lane is under assay for number 3, which is vacant. -/
def spareAssay : State :=
  { on with ret := { on.ret with
      assays := [(.lane, 543, true, none)]
      lane := { retired := [3], bringIn := some ({ cls := .lane, phys := 3, errors := 3, at_ := 0, num := some 3 }, 543) } } }

/-- The module 24 hours after start. -/
def aDayOn : State := { on with now := 86400 * secC }

/-- RetirementsAndAssays. -/
theorem witness_RetirementsAndAssays :
    (laneDue.up = true ∧ (laneDue.ret.get .lane).bringIn = none ∧
      laneDue.ret.waiting.findIdx? (·.cls == .lane) = some 0 ∧ (laneDue.ret.waiting[0]?).isSome = true) ∧
    (∀ c ∈ [ResClass.lane, .hashUnit, .engine], let s := assaying c 1
      s.up = true ∧ c ≠ .noiseCell ∧ s.assayRuns c 1 = true ∧ (s.ret.get c).bringIn = none ∧ (s.ret.get c).retired.contains 1 = false) ∧
    (spareAssay.up = true ∧ spareAssay.assayRuns .lane 543 = true ∧ (543 : Nat) ≠ gone ∧
      (spareAssay.ret.get .lane).bringIn.any (fun b => b.1.num == some 3 && b.1.cls == .lane && b.2 == 543) = true) ∧
    (511 ∈ aDayOn.activeLanes ∧ aDayOn.logical .lane 511 = some 511 ∧ aDayOn.logical .hashUnit 63 = some 63 ∧
      aDayOn.up = true ∧ aDayOn.lc.fw = .running ∧
      aDayOn.mayAssay .lane 511 = true ∧ aDayOn.mayAssay .hashUnit 63 = true ∧
      aDayOn.assayedAt .lane 511 + 86400 * secC = aDayOn.now ∧ aDayOn.assayedAt .hashUnit 63 + 86400 * secC = aDayOn.now) ∧
    (on.phys .fwPair 0 = some 0 ∧ on.phys .fwPair 1 = some 1 ∧ (on.src 19).armed = true) := by decide +kernel

/-- Job 7 runs on lane 5, or on hash unit 9; it has been rerun twice as job 8. -/
def running7 (n : Nat) : Job :=
  { id := n, qpn := 0, fn := 0, cls := 0, sqe := sqeOf (List.replicate 64 0), stage := .running, lanes := [5], hashUnit := some 9,
    reruns := if n = 8 then 2 else 0 }
def jobs7 : State := { on with qps := { on.qps with jobs := [running7 7, running7 8] } }

/-- A unit hashes for the archive. -/
def unitWorks : State := { on with hme := { on.hme with units := [(9, { workTill := 100 })] }, now := 99 }

/-- BenchAndHashRows: the counts and numbers at their limits. -/
theorem witness_BenchAndHashRows :
    (on.up = true ∧ on.assayBusy .lane = false ∧ on.mayAssay .lane 543 = true ∧ on.mayAssay .lane 544 = false ∧
      on.assayBusy .hashUnit = false ∧ on.mayAssay .hashUnit 67 = true ∧ on.mayAssay .hashUnit 68 = false) ∧
    (fld 0x120 7 0 = 32 ∧ fld 0x180 7 0 = 128 ∧ fld 0x11F 7 0 = 31 ∧ fld 0x181 7 0 = 129) ∧
    (let r := { ask 2 with payload := le 2 128 }
     beginsB on 0x0A03 r = true ∧ leAt r.payload 0 1 = 128 ∧ leAt r.payload 1 1 = 0) ∧
    (∀ n ∈ [7, 8], jobs7.job? n = some (running7 n) ∧ (running7 n).stage = .running ∧ (running7 n).lanes.contains 5 = true ∧
      (running7 n).hashUnit = some 9) ∧ (running7 7).reruns < 2 ∧ 2 ≤ (running7 8).reruns ∧
    (unitWorks.up = true ∧ (unitWorks.logical .hashUnit 9).isSome = true ∧ (unitWorks.hunit 9).job = none ∧
      unitWorks.now < (unitWorks.hunit 9).workTill) := by decide +kernel

/-- The root runs. -/
def ck : State := { on with clk := { on.clk with rootOk := true } }

/-- ClockRows. -/
theorem witness_ClockRows :
    (let s : State := { on with clk := { on.clk with startCount := 65536 } }
     s.up = true ∧ s.clk.rootOk = false ∧ 65536 ≤ s.clk.startCount) ∧
    (ck.up = true ∧ ck.clk.rootOk = true ∧ ck.clk.switchBusy = 0 ∧ ck.c0Enabled = false ∧
      (BitVec.ofNat 5 1).getLsbD 0 = true ∧ (BitVec.ofNat 5 30).getLsbD 0 = false) ∧
    ({ ck with clk := { ck.clk with switchBusy := 1 } } : State).clk.switchBusy ≠ 0 ∧
    (ck.timeOwned 7 = false ∧ fld 0x99 3 0 < 0xA ∧ fld 0x99 7 4 < 0xA) ∧
    (let s := ck.setLoupe 7 { busy := true }
     s.up = true ∧ s.timeOwned 7 = false ∧ (s.loupe 7).busy = true ∧ bit (0 : Word) 31 = false) ∧
    (let s := ck.setLoupe 7 { busy := true, ended := some (2 ^ 40 + 1), stat := 2 }
     (s.loupe 7).busy = true ∧ (s.loupe 7).ended = some (2 ^ 40 + 1) ∧ fld (s.loupe 7).ctrl 3 0 ≠ 8 ∧
     bit (s.loupe 7).stat 1 = true) ∧
    (let s : State := { ck with now := 2 * secC }.setLoupe 7 { busy := true }
     (s.loupe 7).busy = true ∧ (s.loupe 7).ended = none ∧ (s.loupe 7).refAt + 2 * secC ≤ s.now) ∧
    (let s : State := { ck with clk := { ck.clk with mcArmed := true } }
     s.up = true ∧ s.clk.mcArmed = true ∧ s.pwr.clkin = true) := by decide +kernel

/-! ### Witnesses: chapter 3 -/

/-- The root runs and TIM_CTRL holds a value. -/
def timed (ctrl : Word) : State := { ck with now := 5 * secC, tim := { ck.tim with ctrl := ctrl } }

/-- A valid reference whose last edge came `d` D0 cycles ago. -/
def edged (d : Nat) : State :=
  let s := timed 0x119
  { s with tim := { s.tim with tinValid := true, tinLast := some (s.now - d) } }

/-- 1970-01-01 00:00:60 as an IRIG-B frame. -/
def frame60 : Irig :=
  { markersOk := true, sec := 60, min := 0, hour := 0, day := 1, year := some 1970, sbs := none, parityOk := true,
    cfYear := none, lsp := true, lsDelete := false, offset := 0, quality := 4 }

/-- IRIG-B without its IEEE 1344 extension, before the first frame; and with it, after the frame of second 59. -/
def irigFirst : State := timed 0x112
def irigNext : State :=
  let s := timed 0x11A
  { s with tim := { s.tim with utc := 0x10000, irigPrev := some (59, false), irigRun := 1 } }

/-- The reference is lost: with no source, with PTM to hand over to, and with none. -/
def lostRef (ptm : Bool) (src : BitVec 2) : State :=
  let s := edged 3000000000
  { s with tim := { s.tim with src := src, qual := 1, ptmValid := ptm }, loop := { s.loop with inBoundPtm := 8 } }

/-- The marker before this one was `d` D0 cycles ago. -/
def marked (d : Nat) : State :=
  let s := timed 0x112
  { s with tim := { s.tim with markAt := some (s.now - d) } }

/-- TimeInput: pulse widths and edge distances at their bounds; a frame after its predecessor. -/
theorem witness_TimeInput :
    ((timed 0x119).up = true ∧ (timed 0x119).clk.rootOk = true ∧ fld (timed 0x119).tim.ctrl 1 0 = 1 ∧
      bit (timed 0x119).tim.ctrl 2 = false ∧ (timed 0x119).tim.tinValid = false) ∧
    (∀ d ∈ [secC - 10 * usC, secC + 10 * usC], (edged d).tim.tinLast = some ((edged d).now - d) ∧
      (marked d).tim.markAt = some ((marked d).now - d) ∧ secC ≤ d + 10 * usC ∧ d ≤ secC + 10 * usC) ∧
    (let s := irigFirst
     s.up = true ∧ s.clk.rootOk = true ∧ fld s.tim.ctrl 1 0 = 2 ∧ bit s.tim.ctrl 3 = false ∧ s.tim.irigPrev = none ∧
      s.tim.irigRun = 0 ∧ frame60.markersOk = true ∧ s.tim.markAt = none) ∧
    (let s := irigNext
     s.up = true ∧ s.clk.rootOk = true ∧ fld s.tim.ctrl 1 0 = 2 ∧ bit s.tim.ctrl 3 = true ∧ bit s.tim.utc 16 = true ∧
      bit s.tim.utc 17 = false ∧ irigUtc s frame60 = 60 ∧ s.tim.irigPrev = some (59, false) ∧ frame60.parityOk = true ∧
      frame60.sec = 60) ∧
    (∀ s ∈ [lostRef true 0, lostRef true 3, lostRef true 1, lostRef false 2],
      s.up = true ∧ s.clk.rootOk = true ∧ s.tim.tinValid = true ∧ s.tim.tinLast = some 3000000000 ∧
      3000000000 + 3000000000 ≤ s.now ∧ s.tim.qual.toNat < 2 ∧ s.loop.ptmDropped = false ∧ 8 ≤ s.loop.inBoundPtm) := by
  decide +kernel

/-- PTM is enabled on a trained link. -/
def ptmOn : State := { ck with pci := { ck.pci with up := true, ptmEn := true }, now := 1000 * msC }

/-- A dialog is under way: the first, and one that a dialog precedes under a map. -/
def dialog1 : State := { ptmOn with loop := { ptmOn.loop with ptmT1 := some 7 } }
def dialog2 : State := { dialog1 with loop := { dialog1.loop with ptmPrev := some (1, 2), mapNow := some {} } }

/-- PtmDialogs. -/
theorem witness_PtmDialogs :
    (ptmOn.up = true ∧ ptmOn.clk.rootOk = true ∧ ptmOn.pci.up = true ∧ ptmOn.pci.ptmEn = true ∧ bit ptmOn.tim.ctrl 4 = true ∧
      (ptmOn.fun_ 0).d3hot = false ∧ ptmOn.loop.ptmQueued = false ∧
      ptmOn.loop.ptmT1 = none ∧ ptmOn.loop.ptmAt + fld ptmOn.tim.loop 17 8 * msC ≤ ptmOn.now) ∧
    (dialog1.up = true ∧ dialog1.loop.ptmT1 = some 7 ∧ dialog1.loop.ptmPrev = none ∧ dialog1.loop.ptmSent + msC ≤ dialog1.now) ∧
    (dialog2.loop.ptmT1 = some 7 ∧ dialog2.loop.ptmPrev = some (1, 2) ∧ dialog2.loop.mapNow = some {}) := by decide +kernel

/-- One second boundary past, 1PPS alone, with an offset. -/
def boundary (θ : Int) (qual : BitVec 2) (hold : Bool) : State :=
  let s := timed 0x119
  { s with tim := { s.tim with sec := 1, tinTheta := some θ, tinValid := true, qual := qual }
           loop := { s.loop with startHold := hold, seeded := 1 } }

/-- A second boundary with no offset and no source. -/
def silent : State := { boundary 0 1 false with tim := { (boundary 0 1 false).tim with tinTheta := none, tinValid := false, src := 1 } }

/-- Holdover's estimate is over the limit; the cross-check dropped TIME_IN 60 s ago. -/
def overLimit : State := { timed 0x119 with tim := { (timed 0x119).tim with qual := 2 }, loop := { ck.loop with eLock := 1001 } }
def xchkOver : State := { timed 0x119 with now := 60 * secC, tim := { (timed 0x119).tim with xchkHold := true } }

/-- DisciplineLoop: offsets at the bounds of 10 us and 10 ms. -/
theorem witness_DisciplineLoop :
    (∀ s ∈ [boundary 655359999 1 true, boundary 655359999 1 false, boundary 655360000 1 false,
        boundary 655360000 2 false, boundary (-655360000001) 3 false],
      s.up = true ∧ s.clk.rootOk = true ∧ s.loop.lastSec < s.tim.sec ∧ s.tim.tinValid = true ∧
      s.tim.tinDropped = false ∧ s.tim.xchkHold = false ∧ s.pci.ptmEn = false ∧ fld s.tim.ctrl 1 0 = 1 ∧
      s.loop.rejected < 2) ∧
    ((655359999 : Int).natAbs < 10000 * 65536 ∧ 10000 * 65536 ≤ (655360000 : Int) ∧
      (-655360000001 : Int) < -(10000000 * 65536)) ∧
    (silent.loop.lastSec < silent.tim.sec ∧ silent.tim.tinTheta = none ∧ silent.pci.ptmEn = false ∧ silent.loop.startHold = false ∧
      silent.tim.src ≠ 3 ∧ silent.up = true ∧ silent.clk.rootOk = true ∧ silent.tim.sec + 1 ≠ silent.tim.sec) ∧
    (overLimit.tim.qual = 2 ∧ fld overLimit.tim.hold 31 16 * secC < overLimit.loop.eLock * secC +
      fld overLimit.tim.hold 15 0 * (overLimit.now - overLimit.loop.lossAt)) ∧
    (xchkOver.up = true ∧ xchkOver.tim.xchkHold = true ∧ xchkOver.loop.xchkAt + 60 * secC ≤ xchkOver.now) := by decide +kernel

/-- TIM_LOAD is ahead of the counter; a period of the shadow is over; 60 s have passed since the load. -/
def loadAhead : State := { ck with tim := { ck.tim with load := unitsGts 1 0 } }
def shadowDue : State := { ck with tim := { ck.tim with acc := 2 ^ 61 }, loop := { ck.loop with armed := true } }
def bracketOver : State := { ck with now := 60 * secC, loop := { ck.loop with startHold := false } }

/-- PPSO's boundary lies in the third quarter of this cycle; a pulse is over. -/
def ppsoDue : State :=
  { ck with tim := { ck.tim with sec := 1, qual := 1, ppsoCtrl := 0x186A07, acc := 1000000000 * 2 ^ 40 - 0x70000000000 % 0xD555555555 } }
def ppsoOver : State := { ck with now := 9, loop := { ck.loop with ppsoOn := true, ppsoEnd := 9 } }

/-- TimeSetting. -/
theorem witness_TimeSetting :
    (loadAhead.up = true ∧ loadAhead.clk.rootOk = true ∧ loadAhead.tim.qual = 3 ∧ loadAhead.units < gtsUnits loadAhead.tim.load) ∧
    (ck.tim.qual = 3 ∧ gtsUnits ck.tim.load ≤ ck.units ∧ ck.loop.armed = false ∧ ck.loop.startHold = true) ∧
    (shadowDue.up = true ∧ shadowDue.loop.armed = true ∧ shadowDue.units / 65536 / 2 ^ 20 ≠ shadowDue.loop.shadowIdx) ∧
    (bracketOver.up = true ∧ bracketOver.loop.startHold = false ∧ bracketOver.loop.bracketEnd = none ∧
      bracketOver.loop.loadAt + 60 * secC ≤ bracketOver.now) ∧
    (let s := ppsoDue
     s.up = true ∧ s.clk.rootOk = true ∧ bit s.tim.ppsoCtrl 0 = true ∧ s.loop.ppsoOn = false ∧ s.loop.stepped = false ∧
      s.tim.qual.toNat ≤ fld s.tim.ppsoCtrl 3 2 ∧
      ((s.tim.ppsoOfs.toInt * 2 ^ 40 - (s.tim.acc : Int)).emod (1000000000 * 2 ^ 40)).toNat < s.tim.inc) ∧
    (ppsoOver.up = true ∧ ppsoOver.loop.ppsoOn = true ∧ ppsoOver.loop.ppsoEnd ≤ ppsoOver.now) := by decide +kernel


/-- Pin 15 with a control value, its raw level and a pending change. -/
def pinned (ctrl : Word) (raw : Bool) (pend : Option PinPend) : State :=
  { (ck.setPin 15 { ctrl := ctrl, raw := raw, pend := pend }) with now := secC }

/-- EventPins: pin 15, enabled for both edges; a filter run that has just ended. -/
theorem witness_EventPins :
    (on.up = true ∧ (on.pin 15).raw = false ∧ bit (on.pin 15).ctrl 0 = false ∧ on.clk.rootOk = false ∧
      65536 ≤ ({ on with clk := { on.clk with startCount := 65536 } } : State).clk.startCount) ∧
    (let p := (pinned 0x47 false none).pin 15
     bit p.ctrl 0 = true ∧ p.raw ≠ true ∧ p.pend = none ∧ true ≠ p.accepted ∧ pinLen p.ctrl ≠ 0) ∧
    (let s := pinned 0x47 true (some { first := 0, run := 0, runAt := secC - pinLen 0x47, bounces := 0 })
     let p := s.pin 15
     (∃ d ∈ p.pend, d.runAt + pinLen p.ctrl ≤ s.now) ∧ p.raw ≠ p.accepted ∧ bit p.ctrl 1 = true ∧ bit p.ctrl 2 = true ∧
      s.pinQueue 15 < 32) ∧
    (let s := pinned 0x41 true (some { first := 0, run := 0, runAt := secC - pinLen 0x41, bounces := 0 })
     bit (s.pin 15).ctrl 1 = false ∧ (s.pin 15).raw ≠ (s.pin 15).accepted) ∧
    (let s := pinned 0x47 false (some { first := 0, run := 0, runAt := secC - pinLen 0x47, bounces := 0 })
     (s.pin 15).raw = (s.pin 15).accepted ∧ (s.pin 15).raw ≠ true ∧ bit (s.pin 15).ctrl 0 = true) ∧
    (let e : DvEv := { typ := 0x0010, src := 0x1F, cls := 1, gts := 0 }
     32 ≤ ({ ck with dv := { ck.dv with inbox := List.replicate 32 e } } : State).pinQueue 15) ∧
    (fld 0x10000 16 15 ≠ 3 ∧ fld 0x18000 16 15 = 3) := by decide +kernel

/-- An event on its link, and a store of `n` events, with a last release at time `l`. -/
def dovetail (e : DvEv) (n : Nat) (l : Option Nat) : State :=
  { ck with dv := { ck.dv with inbox := [e], store := List.replicate n { typ := 0x0010, src := 0x300, cls := 2, gts := 0 },
                               lastRel := l } }

/-- DovetailOrder: store lengths at 6,144, 6,145 and 8,191; a stamp at the last release and one below. -/
theorem witness_DovetailOrder :
    (∀ x ∈ [(3, 6144, true), (0, 8191, true), (2, 6145, false), (1, 6145, false)],
      let e : DvEv := { typ := 0x0010, src := 0x301, cls := BitVec.ofNat 2 x.1, gts := 40 }
      let s := dovetail e x.2.1 (some 10)
      s.up = true ∧ s.dv.inbox[0]? = some e ∧ (s.dv.inbox.take 0).any (·.src == e.src) = false ∧
      s.dv.store.length < 8192 ∧ 10 ≤ gtsTime e.gts ∧ decide (dvReserved e = true ∨ s.dv.store.length ≤ 6144) = x.2.2) ∧
    (gtsTime (39 : Gts) < 10) ∧
    (let s := { dovetail { typ := 0x0010, src := 0x301, cls := 1, gts := 4 } 1 none with
                tim := { ck.tim with sec := 9 } }
     let e : DvEv := { typ := 0x0010, src := 0x300, cls := 2, gts := 0 }
     s.dvHead = some (0, e) ∧ (gtsUnits e.gts : Int) < s.horizon) ∧
    (let s := dovetail { typ := 0x0010, src := 0x301, cls := 1, gts := 4 } 1 none
     s.dvHead.isSome = true ∧ s.horizon ≤ 0) := by decide +kernel

/-! ### Witnesses: chapter 4 -/

/-- The link is up at 32 GT/s, x16. -/
def linked : State := { ck with pci := { ck.pci with up := true, speed := 4, width := 16 }, now := secC }

def tlp (id : Nat) (kind : TlpKind) (n : Nat) : Tlp :=
  { id := id, fn := 0, kind := kind, addr := 0, data := List.replicate n 0, job := some 5 }

/-- The endpoint's two queues and its credit. -/
def egress (prio gen : List Tlp) (c : Credit) : State :=
  { linked with pci := { linked.pci with prio := prio, gen := gen, credit := c } }

/-- A read of payload for job 5 stands at the head, under tag 3; a job of class 0 with number 5 stands in the job table. -/
def readHead : State :=
  let s := egress [tlp 1 (.read 3) 0] [] { nh := 1 }
  { s with pci := { s.pci with tags := [(3, { why := .payload 5 0, fn := 0, c0 := true, addr := 0, len := 64 })] } }

/-- The head has waited, and the wait has been counted; credit has now come. -/
def lateHead : State :=
  let s := egress [tlp 1 .write 16, tlp 2 .write 16] [] { ph := 1, pd := 1 }
  { s with pci := { s.pci with waitAt := some 0, waitCounted := true }
           qps := { s.qps with jobs := [{ running7 5 with outside := 0 }] } }

/-- A write that waits for credit since more than 100 ns, with the read of queue pair 9's run 4 behind it. -/
def starving : State :=
  let s := egress [tlp 1 .write 17, { tlp 4 (.read 3) 0 with job := none }] [] { ph := 1, pd := 1 }
  { s with pci := { s.pci with waitAt := some (secC - 121),
                               tags := [(3, { why := .sqRun 9 4 0, fn := 0, c0 := true, addr := 0, len := 64 })] }
           qps := { s.qps with jobs := [{ running7 5 with outside := 0 }],
                               run := [(9, { runs := [{ id := 4, first := 0, count := 1 }] })] } }

def passer : State := egress [tlp 1 .write 17] [tlp 2 .write 1, tlp 3 (.read 0) 0] { ph := 1, pd := 1, nh := 1 }
def generalOnly : State := egress [] [tlp 2 .write 17, tlp 3 (.read 0) 0] { ph := 1, pd := 1, nh := 1 }
def ptmHead : State := egress [{ tlp 1 .ptm 0 with job := none }] [] { ph := 1 }

/-- Transmitter: credit for 16 bytes of posted data exactly, and for none. -/
theorem witness_Transmitter :
    (creditCovers { ph := 1, pd := 1 } (tlp 1 .write 16) = true ∧ creditCovers { ph := 1, pd := 1 } (tlp 1 .write 17) = false) ∧
    (∀ s ∈ [readHead, lateHead, ptmHead], s.up = true ∧ s.pci.up = true ∧
      s.pci.prio.head?.any (creditCovers s.pci.credit) = true) ∧
    (readHead.pci.tags.find? (·.1 == 3)).isSome = true ∧
    (lateHead.pci.waitAt.isSome && lateHead.pci.waitCounted) = true ∧
    (let s := passer
     s.pci.prio.head?.any (creditCovers s.pci.credit) = false ∧ s.pci.gen[1]? = some (tlp 3 (.read 0) 0)) ∧
    (let s := generalOnly
     s.pci.prio = [] ∧ s.pci.gen[1]? = some (tlp 3 (.read 0) 0) ∧ creditCovers s.pci.credit (tlp 3 (.read 0) 0) = true ∧
      (tlp 2 .write 17).typ ≠ (tlp 3 (.read 0) 0).typ ∧ creditCovers s.pci.credit (tlp 2 .write 17) = false) ∧
    (let s := starving
     s.pci.waitAt = some (secC - 121) ∧ s.pci.waitCounted = false ∧ s.pci.prio.head? = some (tlp 1 .write 17) ∧
      creditCovers s.pci.credit (tlp 1 .write 17) = false ∧ secC - 121 + 120 < s.now ∧
      s.pci.prio[1]?.bind s.readWhy = some (.sqRun 9 4 0)) ∧
    linked.headLacks = false := by decide +kernel

/-- LinkAndConfiguration. -/
theorem witness_LinkAndConfiguration :
    (ck.up = true ∧ ck.clk.rootOk = true ∧ ck.pci.up = false ∧ ck.lc.fw = .running) ∧
    (linked.up = true ∧ linked.pci.up = true ∧ linked.pci.vfEnable = false ∧ linked.fnEnabled 0 = true) ∧
    (({ linked with pci := { linked.pci with vfEnable := true, numVFs := 63 } } : State).fnEnabled 63 = true) ∧
    (aerSeverity .badTlp = 0 ∧ aerSeverity .poisoned ≠ 0) ∧
    (linked.lc.fw = .running ∧ linked.pci.beatAt + msC ≤ linked.now) := by decide +kernel

/-- PF0 and VF63 with jobs, a queue pair and a read of each. -/
def busyHost : State :=
  let job (n fn : Nat) : Job := { running7 n with fn := fn, qpn := n, lanes := [], hashUnit := none, stage := .ready }
  { linked with
    pci := { linked.pci with
      vfEnable := true, numVFs := 63, fns := [(0, { bme := true, first := 0, count := 8 }), (63, { bme := true, first := 8, count := 8 })]
      tags := [(3, { why := .payload 9 0, fn := 63, c0 := false, addr := 0, len := 64 })] }
    qps := { linked.qps with jobs := [job 1 0, job 9 63], words := [(1, { en := true }), (9, { en := true, owner := 63 })] } }

/-- HostResets: PF0, and VF63 for the causes that act on one function. -/
theorem witness_HostResets :
    busyHost.up = true ∧ busyHost.pci.up = true ∧ busyHost.fnEnabled 0 = true ∧ busyHost.fnEnabled 63 = true ∧
    (busyHost.fun_ 63).bme = true ∧ (busyHost.fun_ 63).d3hot = false := by decide +kernel

/-- Queue pair 100 of VF1 stands with a context of 16 entries in the cache. -/
def ctx16 : Ctx := { sqLog := 4, cqLog := 4 }

def queued (c : Ctx) : State :=
  { linked with
    pci := { linked.pci with vfEnable := true, numVFs := 63,
                             fns := [(0, { fwReady := true, bme := true }), (1, { fwReady := true, bme := true, first := 100, count := 8 })] }
    qps := { linked.qps with words := [(100, { en := true, cls := 0, owner := 1 })], cache := [(100, c)], lru := [100],
                             run := [(100, { unsig := 1, due := 0 })] } }

/-- The context is being fetched. -/
def fetching16 : State :=
  let s := queued ctx16
  { s with qps := { s.qps with cache := [], run := [(100, { fetching := true })] } }

/-- Doorbells: units 0, 7 and 8 of a range of 8; values 15 and 16 of a ring of 16. -/
theorem witness_Doorbells :
    (let s := queued ctx16
     s.up = true ∧ s.pci.up = true ∧ s.fnEnabled 1 = true ∧ s.ownsQp 1 100 = true ∧ s.ownsQp 1 107 = true ∧
      s.ownsQp 1 108 = false ∧ (s.qw 107).en = false ∧ s.ownsQp 0 0 = false ∧
      (s.fun_ 1).fwReady = true ∧ s.halted = false ∧ s.tmp.zeroized = false ∧ (s.qw 100).en = true ∧
      (s.qw 100).destroying = false ∧ s.ctx? 100 = some ctx16 ∧ 4 ≤ ctx16.cqLog.toNat ∧ eventQ ctx16 = false ∧
      15 < sqSize ctx16 ∧ sqSize ctx16 ≤ 16 ∧ 15 < cqSize ctx16 ∧ (s.qw 100).cls = 0 ∧
      s.unfetched 100 { ctx16 with sqTail := 15 } ≠ 0 ∧
      ringDiff (sqSize ctx16) ctx16.sqTail.toNat ctx16.sqHead.toNat ≤ ringDiff (sqSize ctx16) 15 ctx16.sqHead.toNat ∧
      (s.fun_ 1).d3hot = false ∧ (s.qrun 100).unsig ≠ 0 ∧ (s.qrun 100).due ≤ s.now) ∧
    (let c := { ctx16 with cqTail := 3 }
     (queued c).ctx? 100 = some c ∧ ringDiff (cqSize c) 3 c.cqHead.toNat ≤ ringDiff (cqSize c) c.cqTail.toNat c.cqHead.toNat) ∧
    (eventQ { ctx16 with flags := 2 } = true) ∧
    (fetching16.ctx? 100 = none ∧ (fetching16.qrun 100).fetching = true) ∧
    (bit (linked.fun_ 1).dbErr 31 = false ∧ bit (0x80000000 : Word) 31 = true) := by decide +kernel

/-- Tenant core 2 runs at PL3. -/
def coreUp : State := linked.setCore 2 { run := true }

/-- RegisterAccesses: an open BAR; a port that PL3 may not write, on core 2. -/
theorem witness_RegisterAccesses :
    (linked.up = true ∧ linked.barOpen 0 = true ∧ barAligned 2 4 = false ∧ barAligned 0 3 = false) ∧
    (let s := coreUp
     midCore 0x54 = some 2 ∧ s.coreRuns 2 = true ∧ mayWritePort 2 3 0x0401 = false ∧ midCore 0x50 = some 0 ∧
      (s.pwrite 0 0 0x0601 64).isSome = true) := by decide +kernel

/-- A channel from PF0 to firmware pair A, with messages waiting. -/
def boxed (n : Nat) : State :=
  linked.setChan 7 { valid := true, sender := 1, receiver := 0x60, fifo := List.replicate n (List.replicate 16 0), timeoutUs := 1 }

/-- A response is held for PF0, whose channel holds `n` messages. -/
def respHeld : Held := { party := 1, opcode := 0x0101, tag := 9, status := 0, dup := false, payload := [], begun := true }
def fits (n : Nat) : State :=
  let s := linked.setChan 64 { fifo := List.replicate n (List.replicate 16 0) }
  { s with drn := { s.drn with held := [respHeld], out := [(1, 9, 0x0101)] } }

/-- Mailboxes: 15 and 16 messages held; a response that fits its channel exactly. -/
theorem witness_Mailboxes :
    (let s := boxed 15
     s.up = true ∧ s.mbxOpen 1 = true ∧ s.windowChan 1 0 = some 7 ∧ (s.chan 7).sender.toNat = 1 ∧
      s.midRetired (s.chan 7).receiver.toNat = false ∧ (s.chan 7).fifo.length < 16 ∧
      s.windowChan 0x60 0 = some 7 ∧ s.mbxOpen 0x60 = true ∧ (s.chan 7).receiver.toNat = 0x60 ∧
      (s.chan 7).headAt + (s.chan 7).timeoutUs * usC ≤ s.now ∧ (s.chan 7).fifo ≠ []) ∧
    (16 ≤ ((boxed 16).chan 7).fifo.length ∧ ((boxed 0).chan 7).fifo = []) ∧
    (linked.fwMid 0x50 = true ∧ linked.fwMid 0x53 = true ∧ linked.fwMid 0x54 = false ∧ linked.mbx.lock = false) ∧
    (∀ n ∈ [0, 15], (fits n).drn.held[0]? = some respHeld ∧ respChan 1 = 64 ∧
      ((fits n).chan 64).fifo.length + msgCount respHeld.payload.length ≤ 16 ∧ (fits n).midRetired ((fits n).chan 64).receiver.toNat = false ∧
      (fits n).pci.gen = []) ∧
    (16 < ((fits 16).chan 64).fifo.length + msgCount respHeld.payload.length) := by decide +kernel

/-! ### Witnesses: chapter 6 -/

def sqeOf (op : Nat) : Sqe :=
  { opcode := op, flags := 0, cid := 1, target := 9000, keysel := 0, tagLen := 16, src := 0x1000, dst := 0x2000, length := 16,
    aadLen := 0, iv := List.replicate 12 0, tag := List.replicate 16 0, resOk := true }

def jobOf (op : Nat) (stage : Stage) : Job := { id := 5, qpn := 100, fn := 1, cls := 1, sqe := sqeOf op, stage := stage }

/-- One read outstanding under tag 3, at the first instant at which its timeout of 50 ms may fall. -/
def reading (why : RdWhy) : State :=
  let s := queued ctx16
  { s with pci := { s.pci with tags := [(3, { why := why, fn := 0, c0 := false, addr := 0, len := 64, sentAt := some 0 })] }
           qps := { s.qps with jobs := [{ jobOf 0x20 .reading with need := 1 }], cache := [] }, now := 49 * msC }

/-- The 64 bytes of a context whose MAC is right under the key of GEN 0 and whose SEQ is `seq`. -/
def ctxBytes (seq : Nat) : Bytes :=
  let b : Bytes := List.replicate 18 4 ++ List.replicate 36 0 ++ le 2 seq
  b ++ ctxMac ((reading (.context 100)).ctxKey false) 100 b

/-- HostReads: a timeout at its instant and a cycle before; SEQ equal and unequal. -/
theorem witness_HostReads :
    (let s := reading (.payload 5 0)
     s.up = true ∧ s.pci.up = true ∧ s.pci.waitTag = [] ∧ s.pci.tags.find? (·.1 == 4) = none ∧
      (s.pci.tags.find? (·.1 == 3)).isSome = true ∧ (s.job? 5).isSome = true ∧
      98 * cplTimeout s.pci.ctv s.pci.ctDisable = s.now * 100 ∧
      (s.now - 1) * 100 < 98 * cplTimeout s.pci.ctv s.pci.ctDisable) ∧
    (let s := reading (.context 100)
     (s.qw 100).en = true ∧ (s.qrun 100).units = [] ∧ (s.qrun 100).queryBy = [] ∧ s.qps.cache.length < 16384 ∧
      ∀ seq ∈ [0, 1], let b := ctxBytes seq
        4 ≤ (ctxOf b).cqLog.toNat ∧ ctxMac (s.ctxKey (s.qw 100).gen) 100 (sub b 0 56) = sub b 56 8 ∧
        leAt b 0x36 2 = seq ∧ (s.qw 100).seq.toNat = 0) ∧
    (let s := reading (.context 100)
     let b := (ctxBytes 0).set 0 7
     ctxMac (s.ctxKey (s.qw 100).gen) 100 (sub b 0 56) ≠ sub b 56 8) := by decide +kernel

def req (party : Nat) (payload : Bytes) : Req := { party := party, tag := 1, payload := payload }

/-- A QP_CREATE image of VF1: 16 and 16 entries, class 1. -/
def image16 : Bytes := List.replicate 16 0 ++ le 1 4 ++ le 1 4 ++ le 1 1 ++ le 1 0 ++ le 2 2 ++
  le 1 1 ++ le 1 0 ++ le 2 0 ++ le 2 1 ++ List.replicate 36 0

/-- Queue pair 100 with a table for 128 queue pairs; under destruction; and under a key sweep. -/
def tabled : State := { queued ctx16 with qps := { (queued ctx16).qps with table := some (0, 128) } }
def dying : State :=
  let s := queued ctx16
  { s with qps := { s.qps with words := [(100, { en := true, destroying := true })], run := [(100, { destroyBy := some (2, 1) })] }
           drn := { s.drn with out := [(2, 1, 0x0304)] } }
def sweeping (n : Nat) : State :=
  let s := queued ctx16
  { s with qps := { s.qps with sweep := some n, gen := true, words := [(99, { gen := true }), (101, { seq := 9 })] } }
def unassigned : State := { queued ctx16 with qps := {} }

/-- QueuePairCommands. -/
theorem witness_QueuePairCommands :
    (let r := req 1 (le 4 63 ++ le 4 (2 ^ 20 - 32768) ++ le 4 32768)
     beginsB linked 0x0301 r = true ∧ linked.anyEnabled (linked.fun_ 63).first (linked.fun_ 63).count = false ∧
      linked.anyEnabled (2 ^ 20 - 32768) 32768 = false ∧ ∀ k < 64, (linked.fun_ k).count = 0) ∧
    (let r := req 1 (le 4 2 ++ le 4 107 ++ le 4 1)
     let s := unassigned
     beginsB s 0x0301 r = true ∧ s.anyEnabled 107 1 = false ∧ s.anyEnabled (s.fun_ 2).first (s.fun_ 2).count = false ∧
      (s.fun_ 1).count ≠ 0 ∧ 107 < (s.fun_ 1).first + (s.fun_ 1).count ∧ (s.fun_ 1).first < 107 + 1) ∧
    (beginsB linked 0x0302 (req 1 (le 8 4096 ++ le 4 64)) = true ∧ linked.anyEnabled 0 (2 ^ 20) = false ∧
      (queued ctx16).anyEnabled 0 (2 ^ 20) = true) ∧
    (let s := tabled
     beginsB s 0x0303 (req 2 (le 4 107 ++ image16)) = true ∧ s.ownsQp 1 107 = true ∧ s.ownsQp 1 108 = false ∧
      imageOk 1 (sub (le 4 107 ++ image16) 4 64) = true ∧ (s.qw 107).en = false ∧ (s.qw 107).destroying = false ∧
      s.mayMove 0 = true ∧ s.qps.table = some (0, 128) ∧ s.c0Qps < 4096 ∧ s.qps.sweep = none ∧ (s.qw 107).seq.toNat < 0xFE00 ∧
      beginsB s 0x0303 (req 2 (le 4 100 ++ image16)) = true ∧ (s.qw 100).en = true ∧
      beginsB s 0x0304 (req 2 (le 4 100)) = true ∧ (s.qw 100).destroying = false ∧
      beginsB s 0x0304 (req 2 (le 4 99)) = true ∧ s.ownsQp 1 99 = false ∧
      beginsB s 0x0305 (req 2 (le 4 100)) = true ∧ s.ctx? 100 = some ctx16) ∧
    (let s := dying
     s.up = true ∧ (s.qw 100).destroying = true ∧ s.inFlight 100 = 0 ∧ (s.qrun 100).fetching = false ∧ s.postedStill 100 = false ∧
      (s.qrun 100).destroyBy = some (2, 1) ∧ (2, 1, 0x0304) ∈ s.drn.out) ∧
    (∀ n ∈ [0, 102], (sweeping n).up = true ∧ (sweeping n).sweepReading = false ∧ (sweeping n).qps.sweepNext = []) ∧
    (let s := sweeping 0
     ((s.qps.words.filter fun e => 0 ≤ e.1 && e.2.gen != s.qps.gen).head?.any fun e => e.1 == 101 && !(s.qw e.1).en) = true) ∧
    (∀ e ∈ (sweeping 102).qps.words, e.1 < 102 ∨ e.2.gen = (sweeping 102).qps.gen) := by decide +kernel

/-- Queue pair 100 may fetch: its ring of 16 has been rung to entry 15. -/
def rung : State :=
  let s := queued { ctx16 with sqTail := 15, inflightMax := 8 }
  { s with qps := { s.qps with c0Order := [100] } }

/-- Queue pair 100 with one entry read: a NOP, or a cipher job on a slot that is empty. -/
def fetched (op : Nat) : State :=
  let s := queued ctx16
  let e : Bytes := le 1 op ++ List.replicate 63 0
  { s with qps := { s.qps with run := [(100, { runs := [{ id := 0, first := 0, count := 1, data := some e }] })] } }

/-- A CTR job is ready, and its slot holds a key; the same with no mask draw in the general pool. -/
def readyOne : State :=
  { linked with qps := { linked.qps with jobs := [jobOf 0x14 .ready] }
                key := { linked.key with rows := [(9000, { s0 := 7, s1 := 9, attr := 5 })] } }
def noMask : State := { readyOne with bch := { readyOne.bch with general := [] } }

/-- JobsEnterTheBench. -/
theorem witness_JobsEnterTheBench :
    (rung.up = true ∧ rung.qps.c0Order.find? (fun q => 0 < rung.fetchable q) = some 100 ∧ (rung.ctx? 100).isSome = true ∧
      rung.fetchable 100 = 8) ∧
    (linked.qps.c0Order = [] ∧ linked.qps.cache = [] ∧ (∀ e ∈ linked.qps.run, e.2.posted = false) ∧ (linked.qrun 100).runs = []) ∧
    (∀ op ∈ [0, 0xFF], let s := fetched op
      let e := Sys2Proof.Machine.sqeOf (le 1 op ++ List.replicate 63 0)
      (s.qrun 100).runs.length = 1 ∧ s.qps.jobs.length < 7680 ∧ s.halted = false ∧ s.tmp.zeroized = false ∧ isAssoc e.opcode = false ∧
      s.admitCheck (s.qw 100).owner.toNat (s.qw 100).cls e = (if op = 0 then none else some stRejected) ∧
      fence e = false ∧ e.opcode ≠ 0x30) ∧
    (readyOne.readyJobs = [jobOf 0x14 .ready] ∧ (readyOne.dispatch (jobOf 0x14 .ready)).isSome = true ∧
      readyOne.job? 5 = some (jobOf 0x14 .ready) ∧ (jobOf 0x14 .ready).cls ≠ 0 ∧ readyOne.halted = false ∧
      readyOne.pickLanes 1 1 none = some [64] ∧ readyOne.bch.general = [3, 4, 5, 6]) ∧
    (noMask.bch.general = [] ∧ linked.readyJobs = []) := by decide +kernel

/-- A done job of queue pair 100, of a ring of 16 whose tail stands at its last entry. -/
def ended (op : Nat) (quietJob : Bool) : State × Job × Ctx :=
  let c := { ctx16 with cqTail := 15 }
  let j := { jobOf op .done with sqe := { sqeOf op with flags := if quietJob then 2 else 0 } }
  ({ queued c with qps := { (queued c).qps with jobs := [j] } }, j, c)

/-- A NOP runs; an event stands before its queue, whose tail is at `t`. -/
def nopJob : State := { linked with qps := { linked.qps with jobs := [jobOf 0 .running] } }
def eventHead (t : Nat) : State :=
  let s := queued { ctx16 with flags := 2, cqTail := BitVec.ofNat 16 t }
  { s with qps := { s.qps with events := [{ qpn := 100, gts := 0, result := [] }] } }

/-- Completions: the last slot of a ring; a full event queue. -/
theorem witness_Completions :
    (∀ b ∈ [true, false], let (s, j, c) := ended 0x20 b
      s.up = true ∧ s.job? j.id = some j ∧ j.stage = .done ∧ j.waitRec = false ∧ isAssoc j.sqe.opcode = false ∧
      s.ctx? j.qpn = some c ∧ 4 ≤ c.cqLog.toNat ∧ (quiet j.sqe = true ↔ b = true) ∧ j.status = stOk ∧ j.cls ≠ 0 ∧
      j.result.length = 8) ∧
    (let s := nopJob
     s.job? 5 = some (jobOf 0 .running) ∧ s.up = true ∧ s.halted = false ∧ s.tmp.zeroized = false ∧
      (jobOf 0 .running).stage ≠ .done ∧ (jobOf 0 .running).waitRec = false ∧ (jobOf 0 .running).sqe.opcode = 0) ∧
    (∀ t ∈ [0, 15], let c : Ctx := { ctx16 with flags := 2, cqTail := BitVec.ofNat 16 t }
      let s := eventHead t
      s.up = true ∧ (s.qw 100).en = true ∧ (s.qw 100).destroying = false ∧ s.ctx? 100 = some c ∧ 4 ≤ c.cqLog.toNat ∧ eventQ c = true ∧
      (s.cqFree 100 c ≠ 0 ↔ t = 0) ∧ c.ovf.toNat < 2 ^ 32 - 1) := by decide +kernel

/-! ### Witnesses: chapter 7 -/

/-- The parameter block of an association: algorithm, FLAGS, SMP_RATE, GEN_TAG_LEN and GEN_SEQ_OFS. -/
def params (alg flags rate tag ofs : Nat) : Bytes :=
  le 1 alg ++ le 1 flags ++ List.replicate 18 0 ++ le 2 rate ++ List.replicate 3 0 ++ le 1 tag ++ le 2 ofs ++ List.replicate 20 0

/-- A GOOSE frame and an SV frame from address 0 to address 0, APPID 0, AES-128-GMAC-64, with key ID 7 and an
initialization vector, the authentication value not yet computed. -/
def gooseFrame : Bytes :=
  List.replicate 12 0 ++ [0x88, 0xB8, 0, 0, 0, 26, 0, 30, 0, 0] ++ [0x61, 16, 0x84, 8, 0, 0, 0, 9, 0, 0, 0, 0, 0x85, 1, 5] ++
  [0x86, 1, 0] ++ [0x82, 4, 0, 0, 0, 7, 0x83, 12, 0, 0, 0, 7, 0, 0, 0, 0, 0, 0, 0, 1, 0x85, 8, 0, 0, 0, 0, 0, 0, 0, 0]

def svFrame : Bytes :=
  List.replicate 12 0 ++ [0x88, 0xBA, 0, 0, 0, 24, 0, 30, 0, 0] ++ [0x60, 14, 0x80, 1, 1, 0xA2, 9, 0x30, 7, 0x82, 2, 0, 5] ++
  [0x85, 1, 1] ++ [0x82, 4, 0, 0, 0, 7, 0x83, 12, 0, 0, 0, 7, 0, 0, 0, 0, 0, 0, 0, 1, 0x85, 8, 0, 0, 0, 0, 0, 0, 0, 0]

/-- A frame tagged as its publisher tags it, under the zero key. -/
def tagged (f p : Bytes) (sv : Bool) : Bytes :=
  match parseFrame f sv p with
  | .ok fr => tagFrame 0 f p fr (List.replicate 16 0) 7 1
  | .error _ => []

/-- An association job on association 0, whose slots hold zero keys under key ID 7: its state and the job. -/
def assoc (op kind : Nat) (p data : Bytes) (aad len : Nat) (mark : Mark) : State × Job :=
  let rx := op % 2 = 0
  let i := if rx then 2 else 0
  let j : Job := { jobOf op .running with
    sqe := { sqeOf op with target := 0, tagLen := 0, aadLen := aad, length := len }
    need := 1, got := [(0, data)], holds := [{ role := 0, slot := i, epoch := 1, keyId := 7 }] }
  ({ linked with
      qps := { linked.qps with jobs := [j] }
      key := { linked.key with rows := [(i, { attr := 5, holds := 1 })] }
      tim := { linked.tim with qual := 1, utc := 0x80000000 }
      pas := [(0, { state := .active, kind := BitVec.ofNat 8 kind, params := p, mark := mark
                    keys := [(i, { epoch := 1, keyId := 7, mark := mark })] })] }, j)

/-- `State.jobOn` as a test. -/
def jobOnB (x : State × Job) (op : Nat) : Bool :=
  x.1.up && !x.1.halted && !x.1.tmp.zeroized && x.1.job? x.2.id == some x.2 && x.2.stage == .running && !x.2.waitRec &&
  x.2.sqe.opcode == op

/-- What a receive job comes to: its tag compares, its replay test passes, its freshness. -/
def verdict (x : State × Job) (op : Nat) : Option (Bool × Bool × Option Bool) :=
  let (s, j) := x
  let a := s.pa 0
  match s.sequencer j, j.holds.head?, j.holds.head?.bind s.heldKey with
  | .frame fr kid, some h, some key =>
    let aad := (jobData j).take j.sqe.aadLen
    let fresh := s.freshness a.params (3 ≤ op) fr
    if pickKey j (.frame fr kid) = some h && (frameSpan aad a.params fr).length ≤ 1024 then
      some (sub aad fr.auth 8 == spanTag j.lanes.length (paAlg a.params) key (sub aad fr.iv 12) (frameSpan aad a.params fr),
        (replayTest a (h.slot % 4) (3 ≤ op) fr (sub aad fr.iv 12) fresh).isSome, fresh)
    else none
  | _, _, _ => none

/-- A GOOSE job, with FLAGS, on a tagged frame. -/
def goose (op flags : Nat) (mark : Mark) : State × Job :=
  let p := params 1 flags 0 0 0
  assoc op (if op = 2 then 8 else 4) p (tagged gooseFrame p false) 70 0 mark

def sampled (op flags : Nat) (mark : Mark) : State × Job :=
  let p := params 1 flags 4000 0 0
  assoc op (if op = 4 then 9 else 5) p (tagged svFrame p true) 68 0 mark

/-- A generic job: 12 octets of AAD with key ID 7 and count 1, 16 octets of message, and on receive its tag. -/
def generic (op : Nat) (mark : Mark) : State × Job :=
  let aad : Bytes := be 4 7 ++ be 8 1
  let x := gcmSeal (List.replicate 16 0) (frameIv 7 1) aad (List.replicate 16 0)
  assoc op (if op = 6 then 10 else 6) (params 8 1 0 16 4) (aad ++ x.1 ++ x.2) 12 16 mark

/-- AssociationJobs: the jobs that run, and a transmission that has its key. -/
theorem witness_AssociationJobs :
    jobOnB (goose 1 0 {}) 1 = true ∧ jobOnB (sampled 3 0 {}) 3 = true ∧ jobOnB (generic 5 {}) 5 = true ∧
    jobOnB (goose 2 0 {}) 2 = true ∧ jobOnB (sampled 4 0 {}) 4 = true ∧ jobOnB (generic 6 {}) 6 = true ∧
    ∀ x ∈ [goose 1 0 {}, sampled 3 0 {}, generic 5 {}], x.1.txUsable 0 0 = true ∧
      (x.2.holds.head?.bind x.1.heldKey).isSome = true := by decide +kernel

/-- AssociationJobs: each verdict of R179 on a GOOSE frame; a mark at the frame's own count. -/
theorem witness_AssociationJobs_goose :
    verdict (goose 2 0 {}) 2 = some (true, true, none) ∧
    verdict (goose 2 0 { mode := 1, hi := 5 }) 2 = some (true, false, none) ∧
    verdict (goose 2 8 {}) 2 = some (true, true, some false) ∧
    verdict ((goose 2 0 {}).1, { (goose 2 0 {}).2 with got := [(0, gooseFrame)] }) 2 = some (false, true, none) := by
  decide +kernel

/-- AssociationJobs: the same on an SV frame. -/
theorem witness_AssociationJobs_sv :
    verdict (sampled 4 0 {}) 4 = some (true, true, none) ∧
    verdict (sampled 4 0 { mode := 1, hi := 5, seen := 1 }) 4 = some (true, false, none) ∧
    verdict (sampled 4 8 {}) 4 = some (true, true, some false) ∧
    verdict ((sampled 4 0 {}).1, { (sampled 4 0 {}).2 with got := [(0, svFrame)] }) 4 = some (false, true, none) := by
  decide +kernel

/-- What the sequencer finds in a job: nothing it can read, or a key it does not hold. -/
def finds (x : State × Job) : Option Bool :=
  match x.1.sequencer x.2 with
  | .bad _ => none
  | q => some (pickKey x.2 q).isSome

/-- AssociationJobs: a generic receive at its mark, malformed data, and a frame whose key is not held. -/
theorem witness_AssociationJobs_rest :
    finds (generic 6 { mode := 1, hi := 1, seen := 1 }) = some true ∧
    windowTest (paKey ((generic 6 { mode := 1, hi := 1, seen := 1 }).1.pa 0) 2).mark 0 0 1 = none ∧
    (windowTest (paKey ((generic 6 {}).1.pa 0) 2).mark 0 0 1).isSome = true ∧
    (∀ op ∈ [1, 2, 3, 4, 5, 6], finds (assoc op 4 (params (if op < 5 then 1 else 8) 1 0 16 8) [1, 2, 3] 3 0 {}) = none) ∧
    finds ((goose 2 0 {}).1, { (goose 2 0 {}).2 with holds := [] }) = some false := by decide +kernel

/-! ### Witnesses: chapters 8 and 9 -/

/-- A job on a general slot that holds the zero key, or whose row has been lost. -/
def cipher (op attr : Nat) : State × Job :=
  let j : Job := { jobOf op .running with need := 1, got := [(0, List.replicate 16 0)], holds := [{ role := 0, slot := 9000 }] }
  ({ linked with qps := { linked.qps with jobs := [j] }
                 key := { linked.key with rows := [(9000, { attr := BitVec.ofNat 64 attr })] } }, j)

/-- CipherAndHashJobs. -/
theorem witness_CipherAndHashJobs :
    (∀ op ∈ [0x10, 0x11, 0x12, 0x13, 0x14, 0x20, 0x21, 0x22, 0x30], jobOnB (cipher op 5) op = true ∧
      ((cipher op 5).2.holds.head?.bind (cipher op 5).1.heldKey).isSome = true ∧ jobOnB (cipher op 0) op = true ∧
      (cipher op 0).2.holds.head?.bind (cipher op 0).1.heldKey = none ∧ (cipher op 5).2.stage ≠ .done) := by decide +kernel

/-- Association 2047 as a state, with directions. -/
def pa2047 (st : PaState) (kind : Nat) (tx rx : Dir) : State :=
  { linked with pas := [(2047, { state := st, kind := BitVec.ofNat 8 kind, params := params 8 1 0 16 4, tx := tx, rx := rx
                                 keys := [(0, { epoch := 1 }), (2, { epoch := 1 })] })]
                key := { linked.key with rows := [(8190, { attr := 5 })] } }

def oneKey (i : Nat) : Dir := { cur := some i }

/-- The receive direction has a next key; a roll and a grace end are due at `g`. -/
def rollable (qual : BitVec 2) : State :=
  let s := pa2047 .active 14 (oneKey 0) { cur := some 2, next := some 3 }
  { s with tim := { s.tim with qual := qual } }
def rolling (g : Gts) : State :=
  pa2047 .active 14 { cur := some 0, next := some 1, roll := some g } { cur := some 3, prev := some 2, graceEnd := some g }

/-- Queue pair 100 is an event queue of PF0; association 2047 waits to be freed. -/
def eventful : State := { queued ctx16 with qps := { (queued ctx16).qps with words := [(100, { en := true, evq := true })] } }
def freeingPa (jobs : List Job) : State :=
  let s := pa2047 .active 10 {} {}
  { s with pas := [(2047, { state := .active, freeing := some (1, 1) })], qps := { s.qps with jobs := jobs }
           drn := { s.drn with out := [(1, 1, 0x0404)] } }

/-- Associations: numbers 2047 and 2048; a roll and a grace end at their instants. -/
theorem witness_Associations :
    (let p := params 8 1 0 16 4
     let r := req 1 (le 2 2047 ++ le 2 10 ++ p)
     beginsB linked 0x0401 r = true ∧ paCreateBad 10 p = false ∧ paEventQ p < 2 ^ 31 ∧ (linked.pa 2047).state = .free ∧
      paRestore p = false ∧ ((pa2047 .idle 10 {} {}).pa 2047).state ≠ .free) ∧
    (let p := params 8 1 0 16 4 |>.set 0x23 0x80 |>.set 0x20 100
     paCreateBad 10 p = false ∧ paEventQ p = 2 ^ 31 + 100 ∧ (eventful.qw 100).en = true ∧ (eventful.qw 100).owner = 0 ∧
      (eventful.qw 100).evq = true ∧ beginsB eventful 0x0401 (req 1 (le 2 2047 ++ le 2 10 ++ p)) = true ∧ (linked.qw 100).en = false) ∧
    (beginsB linked 0x0401 (req 1 (le 2 2048 ++ List.replicate 50 0)) = true) ∧
    (∀ v ∈ [0, 2, 3, 0x10], beginsB linked 0x0404 (req 1 (le 2 2047 ++ le 2 v)) = true) ∧
    (let a := (pa2047 .idle 14 (oneKey 0) (oneKey 2)).pa 2047
     a.state = .idle ∧ a.freeing = none ∧ paTx a = true ∧ a.tx.cur.isSome = true ∧ paRx a = true ∧ a.rx.cur.isSome = true) ∧
    (let a := (pa2047 .active 6 {} {}).pa 2047
     a.state = .active ∧ paTx a = true ∧ a.tx.cur = none) ∧
    (let s := freeingPa []
     s.up = true ∧ (s.pa 2047).freeing = some (1, 1) ∧ s.paJobs 2047 = [] ∧ kState (s.krow (4 * 2047 + 2)) = kLoaded ∧
      (1, 1, 0x0404) ∈ s.drn.out ∧
      (freeingPa [{ jobOf 2 .running with sqe := { sqeOf 2 with target := 2047 } }]).paJobs 2047 ≠ []) ∧
    (beginsB linked 0x0405 (req 1 (le 2 2047)) = true) := by
  decide +kernel

theorem witness_Associations_keys :
    (∀ d ∈ [0, 1], let s := pa2047 .active 14 (oneKey 0) (oneKey 2)
      let r := req 1 (le 2 2047 ++ le 1 d ++ le 1 2 ++ List.replicate 80 0)
      beginsB s 0x0402 r = true ∧ s.key.unwrap = none ∧ (s.pa 2047).state ≠ .free ∧ (s.pa 2047).freeing = none ∧
      (dirOf (s.pa 2047) (d = 1)).roll = none ∧ (dirOf (s.pa 2047) (d = 1)).prev = none ∧
      ∀ i ∈ (dirOf (s.pa 2047) (d = 1)).cur, (paKey (s.pa 2047) i).epoch ≠ 2) ∧
    (beginsB linked 0x0402 (req 1 (le 2 2047 ++ List.replicate 82 0)) = true) ∧
    (let s := rollable 3
     let r := req 1 (le 2 2047 ++ le 2 1 ++ le 12 (unitsGts 1 0).toNat)
     beginsB s 0x0403 r = true ∧ (dirOf (s.pa 2047) false).next = none ∧ (dirOf (s.pa 2047) true).next.isSome = true ∧
      s.tim.qual = 3 ∧ gtsTime s.gts < gtsTime (unitsGts 1 0) ∧ ¬ gtsTime s.gts < gtsTime 0 ∧
      (rollable 1).tim.qual ≠ 3) ∧
    (let s := rolling 0
     (s.pa 2047).tx.roll = some 0 ∧ (s.pa 2047).tx.next = some 1 ∧ gtsTime 0 ≤ gtsTime s.gts ∧
      gtsTime s.gts < gtsTime (unitsGts 1 0) ∧ (s.pa 2047).rx.prev = some 2 ∧ (s.pa 2047).rx.graceEnd = some 0) := by
  decide +kernel

/-- One row of the key store. -/
def keyed (n : Nat) (row : KRow) : State := { linked with key := { linked.key with rows := [(n, row)] } }

/-- A sealed key for slot 9,000 under the transport key 1 of identifier 7, as R224's example seals it. -/
def sealedKey : Bytes :=
  let h : Bytes := [1, 0x20, 0, 0, 0x7A, 1, 0xC, 0x42, 3, 3, 0, 0, 0, 0, 0, 0]
  let x := gcmSeal (le 32 1) (List.replicate 12 0) (h ++ le 4 7 ++ le 8 5) (List.replicate 32 0xA5)
  h ++ List.replicate 12 0 ++ x.1 ++ x.2 ++ le 4 7

def unwrap9000 (b : Bytes) : Unwrap :=
  { slot := 9000, epoch := 0, sealB := b, party := 1, tag := 1, pa := none, replace := false }

/-- The transport key 1 of identifier 7, wrapped under KEK 0, stands in its row. -/
def transported : State :=
  { linked with lc := { linked.lc with serial := 5 }, tmp := { linked.tmp with kek := some 0 }
                key := { linked.key with transRow := some (wrapTransport 0 (List.replicate 12 0) 1 7, 7) } }
def unwrapping : State := { transported with key := { transported.key with unwrap := some (unwrap9000 sealedKey) } }

/-- The harvest has 256 bits for firmware. -/
def noisy (s : State) : State := { s with nh := { s.nh with b4 := List.replicate 256 true } }

def loaded8192 : State := keyed 8192 { attr := 9, loads := 65536, s0 := 7, s1 := 9 }
def erasing (h : Nat) : State := keyed 16383 { attr := 11, holds := h, byCmd := true }
def selected : State := { keyed 8200 { attr := 9, s0 := 3 } with key := { (keyed 8200 { attr := 9, s0 := 3 }).key with slotSel := 8200 } }
def throttled : State := { linked with now := 60 * secC, key := { linked.key with throttledAt := some 0 } }

/-- KeyStore: slots 8,191 and 8,192; 65,535 and 65,536 loads; the throttle's end and the cycle before. -/
theorem witness_KeyStore :
    (let s := loaded8192
     s.up = true ∧ kState (s.krow 8192) = kLoaded ∧ beginsB s 0x0408 (req 1 (le 2 8192)) = true ∧
      beginsB s 0x0408 (req 1 (le 2 8191)) = true ∧ beginsB s 0x0408 (req 1 (le 2 16384)) = true ∧
      65536 ≤ (s.krow 8192).loads ∧ (s.krow 0).loads < 65536 ∧
      beginsB s 0x0407 (req 1 (le 2 16383)) = true ∧ beginsB s 0x0407 (req 2 (le 2 8192)) = true ∧
      beginsB s 0x0407 (req 0x54 (le 2 8192)) = true ∧ s.canDraw 4 256 = false ∧ (noisy s).canDraw 4 256 = true ∧
      (noisy s).up = true ∧ kState ((noisy s).krow 8192) = kLoaded) ∧
    (∀ h ∈ [0, 1], let s := erasing h
      kState (s.krow 16383) = kErasing ∧ (s.krow 16383).holds = h ∧ s.key.unwrap = none ∧ s.phys .keyRow 16383 = some 16383) ∧
    (let s := noisy selected
     kState (s.krow s.key.slotSel.toNat) = kLoaded ∧ s.canDraw 4 256 = true) ∧
    (let r := req 1 (le 4 9000 ++ sealedKey)
     let s := transported
     beginsB s 0x0406 r = true ∧ s.key.unwrap = none ∧ s.unwrapCheck (unwrap9000 sealedKey) true true = none ∧
      s.key.transRow.any (·.2 == BitVec.ofNat 32 (leAt sealedKey 0x4C 4)) = true ∧ s.wrapOpens = true ∧
      s.unwrapCheck (unwrap9000 []) true true = some stRejected ∧
      unwrapping.key.unwrap.isSome = true ∧ (unwrapping.outstanding 1).length < 16) ∧
    (fld 0x2328 13 0 = 9000 ∧ fld 0x2328 21 14 = 0 ∧ fld 0x5FFF 13 0 = 8191) ∧
    (throttled.key.throttledAt = some 0 ∧ 0 + 60 * secC ≤ throttled.now ∧ throttled.now - 1 < 0 + 60 * secC) := by decide +kernel

/-- Engine 3 with operands 1 and 2 on pages 1 and 2, a modulus on page 3, the result for page 47, PAR as given. -/
def engined (m par : Nat) (running : Bool) : State :=
  let e : Engine := { ops := 0x2F030201, par := BitVec.ofNat 32 par, running := running
                      mem := tset 0 [(256, 1), (512, 2)] 768 (BitVec.ofNat 32 m) }
  { linked.setEng 3 e with
    hme := { (linked.setEng 3 e).hme with progs := true }
    key := { linked.key with modRows := [(1, (7, 0))] } }

/-- The harvest holds a signature's 1,106 bits, of which the first 521 are its nonce. -/
def signReady : State :=
  let s := engined 3 0x10000 false
  { s with nh := { s.nh with b3 := true :: List.replicate 1105 false } }

/-- Engine 3 ends with a result, or with none; one was retired as it ran; and one's data window stands at an address. -/
def ending (x : Option (List Word)) : State :=
  let s := engined 3 0 true
  s.setEng 3 { s.eng 3 with out := x, resPage := 47 }
def awayEngine : State :=
  let s := engined 3 0 true
  { s with hme := { s.hme with away := [(3, { running := true })] } }
def paged (a : Nat) (secret : BitVec 64) : State := linked.setEng 3 { addr := BitVec.ofNat 14 a, secret := secret }

/-- ModularEngines: sizes 1 and 256, result pages 47 and 48, moduli 2, 3 and 4. -/
theorem witness_ModularEngines :
    (∀ m ∈ [3, 4, 2], let s := engined m 0x10000 false
      let e := s.eng 3
      s.up = true ∧ e.running = false ∧ e.waitsGo = false ∧ s.engineReady 3 = true ∧ s.halted = false ∧ fld e.ops 29 24 = 47 ∧
      pageNum e (fld e.ops 5 0) 0 1 = 1 ∧ pageNum e (fld e.ops 13 8) 0 1 = 2 ∧ pageNum e (fld e.ops 21 16) 0 1 = m ∧
      fld e.ops 29 24 ≠ fld e.ops 21 16) ∧
    (BitVec.ofNat 9 256).toNat = 256 ∧ 256 < (BitVec.ofNat 9 257).toNat ∧ fld 0x30030201 29 24 = 48 ∧
    (let s := signReady
     (s.eng 3).running = false ∧ (s.eng 3).waitsGo = false ∧ s.engineReady 3 = true ∧ s.secretOf (s.eng 3).par 17 = some (7, []) ∧
      0 < 7 ∧ 7 < ecN ∧ s.hme.progs = true ∧ s.canDraw 3 signNoise = true ∧ 0 < (s.draw 3 521).1 ∧ (s.draw 3 521).1 < ecN ∧
      (engined 3 0x10000 false).canDraw 3 signNoise = false) ∧
    ((engined 3 0 true).eng 3).running = true ∧ (engined 3 0 true).hme.away = [] ∧
    (∀ x ∈ [some [1, 2], some (List.replicate 256 0), none], let e := (ending x).eng 3
      e.drop = false ∧ e.running = true ∧ e.resPage < 48 ∧ (x.getD []).length ≤ 256) ∧
    (awayEngine.hme.away.find? (·.1 == 3)).isSome = true ∧
    (∀ q ∈ [((0x3FFF : Nat), (BitVec.ofNat 64 (2 ^ 63) : BitVec 64)), (0x2FFF, 0), (0x3FFF, 0)],
      ((paged q.1 q.2).eng 3).addr.toNat = q.1 ∧ isSecret ((paged q.1 q.2).eng 3) (q.1 / 256) = (q.2 != 0) ∧
      (paged q.1 q.2).hme.progLock = false) ∧
    (linked.assayBusy .engine = false ∧ fld 4 2 0 ≤ 4 ∧ linked.mayAssay .engine (fld 4 2 0) = true ∧ 4 < fld 5 2 0) := by
  decide +kernel

/-- `n` raw bits: alternating; all 0; a 1 after every 40 zeros. -/
def alternating (n : Nat) : BitVec n := BitVec.ofNat n ((2 ^ n - 1) / 3)
def sparse (n : Nat) : BitVec n := BitVec.ofNat n ((2 ^ (41 * (n / 41 + 1)) - 1) / (2 ^ 41 - 1) * 2 ^ 40)

/-- Cell 271 serves, as a spare brought in, and has passed or not. -/
def celled (passed : Bool) : State :=
  let s := { ck with ret := { ck.ret with noiseCell := { map := [(0, 271)] } } }
  s.setCell 271 { passed := passed }

/-- The harvest runs and wants bits; a block of it is wanted for a decision; it stands in prepare. -/
def harvesting : State := { ck with nh := { ck.nh with started := true, windows := List.replicate 1152 true } }
def wanting : State := { ck with nh := { ck.nh with w1 := 9 } }
def preparing : State := { ck with pwr := { ck.pwr with prepare := true } }

/-- A core's read waits since the start, or its wait is over; the software pool holds a word. -/
def randWaits (b : Bool) : State := { ck with now := 10 * usC, nh := { ck.nh with waits := [(0x50, 0, b)], soft := [7] } }

/-- A cell under assay; and the Factory state. -/
def cellAssay : State :=
  let s := celled false
  { s with ret := { s.ret with assays := [(.noiseCell, 271, true, none)] } }
def factory : State := { ck with lc := { ck.lc with lifecycle := 0 }, nh := { ck.nh with testEn := true } }

set_option maxRecDepth 100000 in
/-- NoiseHarvest: 1,024 and 4,096 bits that pass both tests, fail the first, or fail the second. -/
theorem witness_NoiseHarvest :
    (let s := celled true
     s.up = true ∧ s.clk.rootOk = true ∧ s.cellServes 271 = true ∧ (s.cell 271).passed = true ∧ s.nh.testEn = false) ∧
    (let r (n : Nat) (v : BitVec n) := ((rct (rawBits v n) false 0 false).1, (windowsOf (rawBits v n)).any aptBad)
     r 1024 (alternating 1024) = (false, false) ∧ (r 1024 0).1 = true ∧ r 1024 (sparse 1024) = (false, true) ∧
      r 4096 (alternating 4096) = (false, false) ∧ r 4096 (sparse 4096) = (false, true)) ∧
    (((celled false).cell 271).passed = false ∧ (celled false).cellServes 271 = true ∧
      (celled false).underAssay .noiseCell 271 = false ∧ cellAssay.underAssay .noiseCell 271 = true) ∧
    (harvesting.nh.started = true ∧ harvesting.noiseWanted = true ∧ 1152 ≤ harvesting.nh.windows.length) ∧
    ((List.replicate 512 true).length = 512 ∧ ck.nh.w1 = 0 ∧ ck.bch.reserve.length ≤ 1016) ∧
    ((List.replicate 9 true).length ≤ wanting.nh.w1 ∧ wanting.tmp.decisions = []) ∧ preparing.pwr.prepare = true ∧
    (midCore 0x5F = some 13 ∧ ck.nh.soft = [] ∧ ck.nh.waits = [] ∧ ck.nh.exhausted = false) ∧
    ((randWaits false).nh.waits = [(0x50, 0, false)] ∧ 0 + 10 * usC ≤ (randWaits false).now ∧ (randWaits false).nh.soft = 7 :: [] ∧
      (randWaits true).nh.waits.find? (·.1 == 0x50) = some (0x50, 0, true)) ∧
    (ck.lc.lifecycle ≠ 0 ∧ factory.lc.lifecycle = 0 ∧ factory.nh.testEn = true) := by decide +kernel

/-! ### Witnesses: chapter 11 -/

def recOf (cls : Nat) (n : Nat) : Rec := { typ := 0x8000, src := 0x20, cls := BitVec.ofNat 2 cls, gts := 0, body := List.replicate n 0 }

def drawer7 : Drawer := { num := 7, firstDseq := 40, seg0 := 9, openedAt := 0, gtsFirst := 0, gtsLast := 0 }

/-- The archive takes records into an open drawer. -/
def archived : State :=
  { linked with arc := { linked.arc with ready := true, begun := true, keyLoaded := true, openDrawer := some drawer7, nextDrawer := 8,
                                         nextDseq := 41, committed := 40 } }

def arriving (cls : Nat) (used : Nat) : State :=
  { archived with arc := { archived.arc with arrivals := [{ r := recOf cls 64 }], genUsed := used } }

/-- A C1 record that repeats the last one of its source arrives in INCIDENT. -/
def repeating : State :=
  let s := arriving 1 0
  { s with pwr := { s.pwr with profile := .incident }
           arc := { s.arc with lastC1 := [(0x20, (0x8000, sha512t (recOf 1 64).body, 1))] } }

/-- A record is staged before a drawer with room for it exactly. -/
def drawerFull : Drawer := { drawer7 with len := drawerMax - 128 - 320 - padded 64 }
def staging : State := { archived with arc := { archived.arc with staged := [⟨recOf 1 64, .none⟩], openDrawer := some drawerFull } }

/-- A segment that its stream has passed stands in block 3. -/
def seg9 : Seg := { num := 9, fill := 64, prog := 0, closed := true }
def programming : State := { archived with arc := { archived.arc with segs := [seg9], blocks := [(3, { segs := [9] })] } }

/-- A record of drawer 7, large and read for the second time or not; INCIDENT has been calm since the start; a run and a gap are old. -/
def arec : ARec := { r := recOf 1 64, drawer := 7, off := 0, seg0 := 9 }
def calming (large : Bool) : State :=
  { archived with
    arc := { archived.arc with recs := [arec], large := if large then [(0, .none)] else [], calmAt := some 0, auto := true
                               gaps := [{ cls := 2, cause := 1, records := 1, bytes := 64, first := 0, last := 0, openedAt := 0 }] }
    now := 10 * secC }

/-- ArchiveIntake: the general area at three quarters; a drawer with room for one more record exactly. -/
theorem witness_ArchiveIntake :
    (∀ s ∈ [arriving 0 0, arriving 2 (3 * 1048576 * 3), repeating, staging, programming, calming true, calming false, archived],
      s.up = true ∧ s.arc.ready = true) ∧
    ((arriving 0 0).arc.arrivals = [{ r := recOf 0 64 }] ∧ (arriving 0 0).heldNow { r := recOf 0 64 } = false ∧
      (arriving 0 0).arc.full = false) ∧
    (let s := arriving 2 (3 * 1048576 * 3)
     s.arc.arrivals = [{ r := recOf 2 64 }] ∧ s.heldNow { r := recOf 2 64 } = false ∧ s.arc.full = false ∧ 3 * genArea = 4 * s.arc.genUsed) ∧
    (repeating.heldNow { r := recOf 1 64 } = false ∧ repeating.isRepeat (recOf 1 64) = true ∧ repeating.arc.full = false) ∧
    (let s := staging
     s.arc.openDrawer = some drawerFull ∧ drawerFull.len + padded 64 + s.backRoom drawerFull = drawerMax ∧ s.arc.large = [] ∧
      (s.arc.segs.filter fun g => g.prog < g.fill || !g.closed).length + s.segsFor (padded 64) ≤ 32) ∧
    (let v := programming.govern
     v.arc.segs.find? (·.num == 9) = some seg9 ∧ v.blockOf 9 = some 3 ∧ v.arc.programs.contains 9 = true ∧ v.largeIn 9 = false ∧
      v.arc.programs.contains 8 = false) ∧
    (let s := calming true
     arec ∈ s.arc.recs ∧ s.arc.large.find? (·.1 == 0) = some (0, .none) ∧ s.arc.recs.find? (·.r.dseq == 0) = some arec ∧
      (calming false).programmed arec = true ∧ s.arc.openDrawer = some drawer7 ∧
      s.arc.calmAt = some 0 ∧ 0 + 10 * secC ≤ s.now ∧ s.now - 1 < 0 + 10 * secC ∧ s.arc.runs = []) ∧
    (archived.arc.arrivals = [] ∧ archived.arc.staged = []) := by decide +kernel

/-- The open drawer holds its SEAL and content 60 s on; its close was asked for 1 s ago; the archive's key has just been loaded. -/
def sealed7 : Drawer := { drawer7 with hasSeal := true, content := true }
def closable : State := { archived with now := 60 * secC, arc := { archived.arc with openDrawer := some sealed7 } }
def deferred (now : Nat) : State :=
  { archived with now := now, arc := { archived.arc with openDrawer := some { drawer7 with closeAt := some 0 } } }
def opening (begun : Bool) : State := { archived with arc := { archived.arc with ready := false, begun := begun, emPend := [[5, 6]] } }

/-- Block 3 is due for a refresh and holds segment 9; block 4 is being erased for a purpose. -/
def nand (f : EraseFor) : State :=
  { archived with arc := { archived.arc with recs := [arec], blocks := [(3, { segs := [9], due := true }), (4, { erasing := some f })] } }

/-- A committed record; a closed drawer with its seal. -/
def reads1 : State := { archived with arc := { archived.arc with recs := [{ arec with committed := true }] } }
def sealed6 : State := { archived with arc := { archived.arc with closed := [{ drawer7 with num := 6, sealB := some [1] }] } }
def append2 (party : Nat) : Req := req party (le 2 0x8000 ++ le 1 3 ++ le 1 1 ++ le 2 0x20 ++ List.replicate 10 0 ++ le 4 2)
def arcRead (n : Nat) : Req := req 1 (le 8 0 ++ le 4 n ++ le 8 0 ++ le 4 128)

/-- Tenant core 2 is served; its source range holds 0x300. -/
def tenantOn : State :=
  { archived with dv := { archived.dv with ranges := [(0, [(0x300, 4)])] }, lol := (archived.setCore 2 { run := true }).lol }
def append3 : Req := req 0x54 (le 2 0x8000 ++ le 1 3 ++ le 1 0 ++ le 2 0x300 ++ List.replicate 10 0 ++ le 4 2)

/-- ArchiveUpkeep: intervals at their instants; 3 and 4 shifts; an append, 600 the longest interval. -/
theorem witness_ArchiveUpkeep :
    (let s := closable
     s.up = true ∧ s.arc.ready = true ∧ s.arc.openDrawer = some sealed7 ∧ sealed7.hasSeal = true ∧ sealed7.closeAt = none ∧
      s.arc.prepare = false ∧ sealed7.content = true ∧ sealed7.openedAt + s.closeInt ≤ s.now) ∧
    (archived.arc.openDrawer = some drawer7 ∧ drawer7.hasSeal = false ∧ drawer7.closeAt = none ∧ archived.halted = false ∧
      archived.noEngine = false) ∧
    ((deferred secC).arc.openDrawer = some { drawer7 with closeAt := some 0 } ∧ 0 + secC ≤ (deferred secC).now ∧
      (deferred (secC - 1)).now < 0 + secC) ∧
    ((opening true).lc.fw = .running ∧ (opening true).arc.ready = false ∧ (opening true).arc.keyLoaded = true ∧
      (opening true).arc.begun = true ∧ (opening false).arc.begun = false ∧ (opening true).arc.openDrawer = some drawer7 ∧
      (opening true).arc.emPend = [[5, 6]]) ∧
    (let s := nand .ahead
     s.blockOf 9 = some 3 ∧ s.arc.ready = true ∧ s.pwr.shed = 0 ∧ s.arc.segs = [] ∧ s.newWords 9 1 = [144] ∧
      (s.newWords 9 1).any (inWord arec) = true ∧ (s.nblk 3).due = true ∧ (s.nblk 3).retired = false ∧ 0 < s.arc.headroom ∧
      ((s.diesOf (3 / 163840)).findSome? (fun d => s.freeBlock (3 / 163840) d [3] 20480)).isSome = true) ∧
    ((archived.nch 7).retired = false ∧ (archived.nch 7).timeouts = []) := by decide +kernel

theorem witness_ArchiveUpkeep_erase :
    (∀ f ∈ [EraseFor.ahead, .headroom, .reuse], let v := (nand f).govern
      (v.nblk 4).erasing = some f ∧ v.arc.erases.contains 4 = true) := by decide +kernel

theorem witness_ArchiveUpkeep_commands :
    (beginsB archived 0x0501 (append2 1) = true ∧ archived.mayUseSource 1 0x20 = true ∧ archived.partyMoves 1 = true ∧
      archived.arc.full = false ∧ beginsB archived 0x0501 (req 1 (le 2 0x7FFF ++ List.replicate 18 0)) = true) ∧
    (beginsB tenantOn 0x0501 append3 = true ∧ tenantOn.mayUseSource 0x54 0x300 = true ∧
      ((tenantOn.begun 0x0501 append3).readBuffer 0x54 0 2).2 = some [0, 0]) ∧
    (beginsB reads1 0x0502 (arcRead 0) = true ∧ beginsB reads1 0x0502 (arcRead 1) = true ∧ reads1.mayMove 0 = true ∧
      (reads1.arc.recs.dropWhile fun a => a.r.dseq < 0).takeWhile (·.committed) = [{ arec with committed := true }] ∧
      padded arec.r.body.length ≤ 128 ∧ (recStream arec.r (standing { arec with committed := true })).length = padded arec.r.body.length ∧
      arec.unreadable = false) ∧
    (beginsB sealed6 0x0503 (req 1 (le 8 6)) = true ∧ (sealed6.drawer? 6).bind (·.sealB) = some [1] ∧ 6 < sealed6.arc.nextDrawer ∧
      beginsB sealed6 0x0503 (req 1 (le 8 8)) = true ∧ sealed6.arc.nextDrawer ≤ 8) ∧
    (beginsB archived 0x0504 (req 0x54 []) = true ∧ beginsB archived 0x0505 (req 1 (le 2 600)) = true) := by decide +kernel

/-! ### Witnesses: chapter 12 -/

/-- The code flash with a command code in FL_CMD, its addresses and data, and the unlock sequence ready to complete. -/
def flash (op a d0 : Nat) : State :=
  { on with now := secC
            fls := { on.fls with seq := 5, seqMid := 0x60, seqAt := secC - 100 * usC, cmd := BitVec.ofNat 32 op,
                                 addr := BitVec.ofNat 32 a, data0 := BitVec.ofNat 32 d0 } }

/-- `flash` with an operation running. -/
def flashRuns (op : Nat) (r : FlOp) (resumed : Bool) (erasedAt : Nat) : State :=
  let s := flash op 0 0
  { s with fls := { s.fls with running := some r, resumed := resumed, erasedAt := erasedAt } }

/-- The parts that every completion of the sequence needs. -/
def armedB (s : State) (op : Nat) : Bool :=
  s.up && s.fls.seq == 5 && s.fls.seqMid == 0x60 && s.now ≤ s.fls.seqAt + 100 * usC && fld s.fls.cmd 3 0 == op

def scanned (done : Bool) : State := { on with fls := { on.fls with scanDone := done } }

/-- FlashCommands: the sequence at its last instant; words of both kinds; an erase 1 ms old and a cycle less. -/
theorem witness_FlashCommands :
    (on.up = true ∧ on.fls.seq = 0 ∧ fld (0x5A17 : Word) 15 0 = 0x5A17 ∧ fld (0x5A18 : Word) 15 0 ≠ 0x5A17) ∧
    (let s := { on with now := secC, fls := { on.fls with seq := 1, seqMid := 0x60, seqAt := secC - 100 * usC } }
     s.now ≤ s.fls.seqAt + 100 * usC ∧ fld (0xC3E8 : Word) 15 0 = 0xC3E8 ∧ s.fls.seqMid ≠ 0x61 ∧
      s.fls.seqAt + 100 * usC < s.now + 1) ∧
    (let s := flash 1 0x640000 0
     armedB s 1 = true ∧ s.fls.running = none ∧ s.fls.heldOff = false ∧ s.fls.susp = none ∧
      protectedSector s.fls 100 = false ∧ s.fls.incomplete.contains (physSector s.fls 100) = false ∧
      rawSector s.fls 100 = false ∧
      s.fls.bad.contains 100 = false ∧ written s.fls 0x640000 = false ∧
      written { s.fls with cells := [(0x640007, 0xFE)] } 0x640000 = true) ∧
    (let s := flash 1 0x64FFFC 0
     let f := { s.fls with kinds := [(100, true)] }
     armedB { s with fls := f } 1 = true ∧ rawSector f 100 = true ∧ flCount f 0x64FFFC ≠ 0 ∧
      f.data0 &&& ~~~ BitVec.ofNat 32 (ofLe (flBytes f 0x64FFFC 4)) = 0 ∧
      flCount { f with counts := [(physSector f 100 * 16384 + 0x3FFF, 0)] } 0x64FFFC = 0) ∧
    (let s := flashRuns 0 (.program 0x64FFF8 1 2) false 0
     s.up = true ∧ s.fls.running = some (.program 0x64FFF8 1 2) ∧ 0x64FFF8 % 65536 + 8 ≤ 65536) ∧
    (let s := flash 2 0x640000 0
     armedB s 2 = true ∧ protectedSector s.fls 100 = false ∧ protectedSector { s.fls with wp := [(3, 0x10)] } 100 = true ∧
      s.fls.bad.contains 100 = false) ∧
    (let s := flashRuns 3 (.erase 100) true (secC - msC)
     let u := flashRuns 3 (.erase 100) true (secC - msC + 1)
     armedB s 3 = true ∧ s.fls.erasedAt + msC ≤ s.now ∧ u.now < u.fls.erasedAt + msC ∧ s.fls.suspHeld = false ∧
      ({ s.fls with suspHeld := true }).running = some (.erase 100)) ∧
    (let s := flash 4 0 0
     let f := { s.fls with susp := some { sector := 100, own := false } }
     armedB { s with fls := f } 4 = true ∧ protectedSector f 100 = false ∧ s.fls.susp = none) ∧
    (armedB (flash 5 0x64FFFC 4) 5 = true ∧ 0x64FFFC % 65536 + 4 ≤ 65536 ∧
      (flashRuns 5 (.margin 0x64FFFC 4 true) false 0).fls.running = some (.margin 0x64FFFC 4 true) ∧
      bit (flash 5 0 0).fls.fault 31 = false) ∧
    (armedB (flash 6 0 2) 6 = true ∧ on.fls.rdp = 1 ∧ armedB (flash 6 0 1) 6 = true ∧ armedB (flash 7 0 0) 7 = true ∧
      ({ on.fls with rdp := 0 } : Fls).rdp ≠ 1) ∧
    (let s := { flash 8 0x640000 1 with lc := { on.lc with lifecycle := 0 } }
     let s := { s with fls := { s.fls with rdp := 0 } }
     armedB s 8 = true ∧ s.fls.running = none ∧ fixedSector 100 = false ∧ fixedSector 0 = true ∧ s.lc.lifecycle = 0 ∧
      on.lc.lifecycle ≠ 0) ∧
    (scanned true).fls.scanDone = true ∧ (scanned false).fls.scanDone = false := by decide +kernel

/-- FlashCommands: a read of the window at its last byte, its bank idle, in the line that it holds and in another. -/
theorem witness_FlashCommands_window :
    (let f := (scanned true).fls
     f.scanDone = true ∧ f.susp.any (·.sector == 2045) = false ∧ bankErasing f 3 = false ∧ bankProgramming f 3 = false ∧
      f.incomplete.contains (physSector f 2045) = false ∧ rawSector f 2045 = false ∧ 134086655 / 65536 = 2045 ∧
      tget 0 f.lines 3 ≠ 134086655 / 32 + 1 ∧
      tget 0 { f with lines := [(3, 4190208)] }.lines 3 = 134086655 / 32 + 1) := by decide +kernel

/-! ### Witnesses: rows of chapters 8 and 9, and the commands of chapter 3 -/

/-- The owner key that is the base point, so that its secret is 1, and a module whose serial number is 5. -/
def owned : State := { linked with lc := { linked.lc with serial := 5, ownerKey := some (be 66 ecG.1 ++ be 66 ecG.2) } }

/-- A request's bytes with the authorization that the owner signs under secret 1 and AUTH_SEQ 1 (R501). -/
def signed (op : Nat) (p : Bytes) : Bytes :=
  let msg := [0x47, 0x4C, 0x41, 0x55] ++ le 8 5 ++ le 2 op ++ le 8 1 ++ Sys2Proof.Machine.sha512 p
  let x := ecdsaSign 1 (ecDigest (Sys2Proof.Machine.sha512 msg)) 1
  p ++ le 4 1 ++ le 8 1 ++ be 66 x.1 ++ be 66 x.2

/-- Whether the owner's authorization of a signed request stands: that of each command that asks for one is made alike. -/
theorem witness_owner : (owned.ownerAuth 0x0207 (signed 0x0207 (le 12 0))).isSome = true ∧
    owned.ownerAuth 0x0208 (signed 0x0207 (le 12 0)) = none := by decide +kernel

/-- TimeCommands: fields at the ends of their ranges; a load just above the time of day. -/
theorem witness_TimeCommands :
    (beginsB linked 0x0201 (req 1 []) = true ∧ beginsB linked 0x0202 (req 1 []) = true) ∧
    (∀ n ∈ [1, 1000], beginsB linked 0x0203 (req 1 (le 6 2 ++ [15, 0] ++ le 2 n ++ le 2 0 ++ le 4 (2 ^ 20 - 1) ++ le 4 0)) = true) ∧
    (beginsB linked 0x0204 (req 1 (le 8 0 ++ le 12 (unitsGts 1 0).toNat ++ le 4 0 ++ le 4 65535)) = true ∧
      gtsNsec (unitsGts 1 0) ≤ 999999999) ∧
    (beginsB linked 0x0205 (req 1 (le 2 37 ++ le 2 1)) = true) ∧
    (let g := unitsGts (linked.units + 1) 0
     let s := { linked with tim := { linked.tim with qual := 3 } }
     beginsB s 0x0206 (req 1 (le 12 g.toNat)) = true ∧ gtsNsec g ≤ 999999999 ∧ s.tim.qual = 3 ∧ s.units < gtsUnits g ∧
      gtsUnits (unitsGts s.units 0) ≤ s.units) ∧
    (beginsB owned 0x0207 (req 1 (signed 0x0207 (le 12 0))) = true ∧ gtsNsec (BitVec.ofNat 96 0) ≤ 999999999 ∧
      linked.ownerAuth 0x0207 (le 156 0) = none ∧ beginsB linked 0x0207 (req 1 (le 156 0)) = true) ∧
    (∀ w ∈ [1, 500000], beginsB linked 0x0208 (req 1 ([1, 1, 3, 0] ++ le 4 w ++ le 4 (2 ^ 32 - 499999999))) = true ∧
      (BitVec.ofNat 32 (2 ^ 32 - 499999999) : Word).toInt.natAbs ≤ 499999999) ∧
    (beginsB linked 0x0209 (req 1 (le 1 15 ++ le 4 0x97 ++ le 4 100)) = true ∧ fld (BitVec.ofNat 32 0x97 : Word) 16 15 ≠ 3 ∧
      bit (BitVec.ofNat 32 0x97 : Word) 20 = false) ∧
    (beginsB linked 0x020A (req 1 (le 1 15)) = true) := by decide +kernel

/-! ### Witnesses: chapters 0 and 15 -/

/-- Supplies: MAIN with module reset held, at the release's first instant. -/
def held (decs : List Dec) : State :=
  { on with now := msC, tmp := { on.tmp with decisions := decs }
            pwr := { on.pwr with inReset := true, okSince := 0 } }

def shedding (n groups mw : Nat) : State :=
  { on with now := 10 * msC, pwr := { on.pwr with shed := n, shedGroups := groups, mw := mw, underAt := some 0 } }

/-- PowerSupervision: VIN_3V3 at its bounds of 2,850, 3,050 and 3,100 mV; instants at their ends and a cycle before. -/
theorem witness_PowerSupervision :
    (let s := { on with pwr := { on.pwr with state := .backup } }
     s.pwr.state ≠ .main ∧ on.pwr.state = .main) ∧
    ((held []).pwr.state = .main ∧ (held []).pwr.mrstN = true ∧ (held []).pwr.okSince + msC ≤ (held []).now ∧
      (held []).tmp.decisions = [] ∧ (held [⟨.testPort, true, none, 0⟩]).tmp.decisions ≠ [] ∧
      ({ held [] with now := msC - 1 } : State).now < (held []).pwr.okSince + msC) ∧
    (on.up = true ∧ on.pwr.prepare = false) ∧
    (let s := { on with pwr := { on.pwr with prepare := true } }
     s.up = true ∧ s.arc.ready = false ∧ s.pwr.recoverMet = false) ∧
    (archived.arc.ready = true ∧ ({ archived.arc with staged := [⟨recOf 1 64, .none⟩] } : Arc).staged ≠ []) ∧
    (let s := { on with pwr := { on.pwr with recovering := true }
                        fls := { on.fls with susp := some { sector := 100, own := true } } }
     s.up = true ∧ s.pwr.prepare = false ∧ s.pwr.heldProfile = none ∧ s.fls.susp = some { sector := 100, own := true }) ∧
    ((0xE : BitVec 4) ≠ 0xF ∧ 2850 < on.pwr.vin ∧ on.pwr.mrstN = true ∧
      ({ on.pwr with mrstN := false } : Pwr).mrstN = false) ∧
    (on.vbatOk = true ∧ (2000 ≤ 2200 && 2200 ≤ 3600) = true ∧ (2000 ≤ 1999 && 1999 ≤ 3600) ≠ on.vbatOk ∧
      (2000 ≤ 3601 && 3601 ≤ 3600) ≠ on.vbatOk) ∧
    (∀ n ∈ [0, 1, 2, 3, 4], let s := shedding n 0 (on.powerCap + 1)
      s.up = true ∧ s.pwr.prepare = false ∧ s.pwr.recovering = false ∧ s.powerCap < s.pwr.mw ∧
      s.pwr.shedAt + 100 * usC ≤ s.now ∧ s.pwr.underAt = some 0 ∧ 0 + 10 * msC ≤ s.now ∧ s.pwr.shed = n) ∧
    ((shedding 0 0 on.powerCap).pwr.mw ≤ on.powerCap ∧ on.pwr.underAt = none) ∧
    ((shedding 3 on.laneGroups 0).pwr.shedGroups = on.laneGroups ∧ 1 < on.laneGroups) := by decide +kernel

/-- ModuleCommands: profiles 3 and 4, the last resource of a class and one past it. -/
theorem witness_ModuleCommands :
    (beginsB linked 0x0101 (req 1 []) = true ∧ beginsB linked 0x0102 (req 2 []) = true ∧ midFn 2 = some 1 ∧
      beginsB linked 0x0103 (req 1 []) = true ∧ beginsB linked 0x0A02 (req 1 []) = true ∧
      beginsB linked 0x0A04 (req 1 []) = true) ∧
    (∀ q ∈ [0, 1, 2, 3], beginsB linked 0x0A01 (req 1 [BitVec.ofNat 8 q]) = true ∧ (profileOf q).isSome = true) ∧
    (linked.pwr.prepare = false ∧ linked.pwr.recovering = false ∧ linked.arc.auto = false ∧ linked.pwr.profile ≠ .incident) ∧
    (beginsB linked 0x0A01 (req 1 [4]) = true ∧ profileOf 4 = none) ∧
    (let s := { linked with pwr := { linked.pwr with recovering := true } }
     beginsB s 0x0A01 (req 1 [1]) = true ∧ s.pwr.recovering = true) ∧
    (let s := { linked with arc := { linked.arc with auto := true } }
     beginsB s 0x0A01 (req 1 [1]) = true ∧ s.arc.auto = true) ∧
    (let s := { linked with pwr := { linked.pwr with profile := .incident } }
     beginsB s 0x0A01 (req 1 [1]) = true ∧ s.pwr.profile = .incident ∧ 4 * s.arc.genUsed < 3 * genArea ∧ s.arc.runs = [] ∧
      s.arc.gaps = []) ∧
    (linked.serves 9 = false ∧ linked.serves 1 = true) ∧
    (let s := { linked with drn := { linked.drn with out := [(1, 1, 0x0101)] } }
     s.turn 0x0A04 (req 1 []) = true ∧ s.wasTaken 0x0A04 (req 1 []) = false ∧ ((s.untake 1 0x0A04 1).outstanding 1).contains 1 = true) ∧
    (let l := (List.range 16).map fun i => (1, i + 2, 0x0101)
     let s := { linked with drn := { linked.drn with out := l } }
     ((s.untake 1 0x0A04 1).outstanding 1).contains 1 = false ∧ 16 ≤ ((s.untake 1 0x0A04 1).outstanding 1).length) ∧
    (beginsB linked 0x0B01 (req 1 (le 1 9 ++ le 1 0 ++ le 2 0)) = true ∧ assayClass 9 = none ∧
      beginsB linked 0x0B01 (req 1 (le 1 1 ++ le 1 1 ++ le 2 0)) = true ∧ beginsB linked 0x0B01 (req 1 (le 1 1 ++ le 1 0 ++ le 2 543)) = true ∧ assayClass 1 = some .lane ∧
      classSize .lane = 544 ∧ linked.mayAssay .lane 543 = true ∧ laneGone.mayAssay .lane 3 = false ∧
      (laneGone.ret.get .lane).retired.contains 3 = true) ∧
    (let s := { linked with ret := { linked.ret with assays := [(.lane, 543, false, none)] } }
     beginsB s 0x0B01 (req 1 (le 1 1 ++ le 1 0 ++ le 2 543)) = true ∧ s.underAssay .lane 543 = true ∧
      (s.ret.get .lane).retired.contains 543 = false) := by decide +kernel

/-! ### Witnesses: chapter 16 -/

/-- Source `i` of a module at work. -/
def sourced (i : Nat) (x : Src) : State := { linked.setSrc i x with now := secC }

/-- Every engine runs an operation. -/
def signing4 : State :=
  { linked with hme := { linked.hme with engines := (upto 4).map fun n => (n, { linked.eng n with running := true }) } }

/-- TamperSources: sources of samples and of events one short of their filter lengths, and at them. -/
theorem witness_TamperSources :
    (∀ n ∈ [0, 7], let s := sourced 4 { count := n }
      s.srcRuns 4 = true ∧ sensed 4 = true ∧ (s.srcRow 4).isSome = true ∧ ((s.srcRow 4).any (·.isEvent)) = false ∧
      (s.src 4).armed = true ∧ s.srcFilt 4 = 4) ∧
    (let s := sourced 4 { count := 3 }
     s.srcFilt 4 ≤ (s.src 4).count + 1) ∧
    (let s := sourced 4 { armed := false, quiet := 3 }
     (s.src 4).armed = false ∧ s.srcFilt 4 ≤ (s.src 4).quiet + 1) ∧
    (let s := sourced 0 { count := 14 }
     s.srcRuns 0 = true ∧ sensed 0 = true ∧ (s.srcRow 0).any (·.isEvent) = true ∧ (s.src 0).armed = true ∧
      (s.src 0).count + 1 < s.srcFilt 0 ∧ (s.src 0).lastAt + secC ≤ s.now ∧ (s.src 0).count ≠ 0 ∧ s.pwr.state = .main) ∧
    (linked.srcRuns 8 = true ∧ linked.srcRuns 11 = true ∧ (linked.src 11).armed = true ∧ linked.pwr.state ≠ .off) ∧
    (let s := sourced 19 { count := 1 }
     s.srcRuns 19 = true ∧ sensed 19 = false ∧ s.srcFilt 19 ≤ (s.src 19).count ∧ 4 ≤ s.carriedAs 19 (s.srcResp 19)) ∧
    (let s := sourced 1 { count := 3 }
     s.srcFilt 1 ≤ (s.src 1).count + 1 ∧ s.carriedAs 1 (s.srcResp 1) = 3 ∧ s.up = true) ∧
    (∀ n ∈ [15, 16], let p : Pend := { index := 4, resp := 2, state := 2, seq := 0 }
      let s := sourced 4 { count := 3 }
      let s := { s with pwr := { s.pwr with state := .backup }, tmp := { s.tmp with pend := List.replicate n p } }
      s.srcRuns 4 = true ∧ s.up = false ∧ s.carriedAs 4 (s.srcResp 4) ≤ 3 ∧ s.tmp.pend.length = n) := by
  decide +kernel

theorem witness_TamperSources_commands :
    (linked.vbatOk = true ∧ linked.up = true ∧ (linked.srcRow linked.tmp.srcSel.toNat).isSome = true ∧
      linked.clearBusy = false ∧
      ({ linked with tmp := { linked.tmp with decisions := [⟨.flagClear 1 none none, true, none, 0⟩] } } : State).clearBusy = true ∧
      (linked.src 31).armed = true ∧ ((sourced 31 { armed := false }).src 31).armed = false) ∧
    (beginsB linked 0x0801 (req 1 []) = true ∧ beginsB owned 0x0802 (req 1 (signed 0x0802 [1, 1, 2, 0])) = true ∧
      owned.verifyWaits = false ∧ linked.verifyWaits = false ∧ signing4.verifyWaits = true ∧
      (owned.ownerAuth 0x0802 (signed 0x0802 [1, 1, 2, 0])).isSome = true ∧ (owned.srcRow 1).any (·.least ≤ 2) = true ∧
      beginsB owned 0x0803 (req 1 (signed 0x0803 (le 8 (2 ^ 32 - 1)))) = true ∧
      beginsB owned 0x0804 (req 1 (signed 0x0804 [])) = true ∧
      beginsB linked 0x0802 (req 1 (le 148 0)) = true ∧ beginsB linked 0x0803 (req 1 (le 152 0)) = true ∧
      beginsB linked 0x0804 (req 1 (le 144 0)) = true ∧ linked.ownerAuth 0x0804 (le 144 0) = none ∧
      linked.ownerAuth 0x0802 (le 148 0) = none ∧ linked.ownerAuth 0x0803 (le 152 0) = none) ∧
    (∀ k ∈ [3, 4], let p : Pend := { index := 4, resp := k, state := 2, seq := 0 }
      let s := { linked with tmp := { linked.tmp with pend := [p] }, loop := { linked.loop with bracketEnd := some default } }
      s.lc.fw = .running ∧ s.loop.bracketEnd.isSome = true ∧ s.tmp.pendDone = false ∧ s.tmp.zeroized = false ∧ p ∈ s.tmp.pend) := by
  decide +kernel

/-- A decision that stands, made `b` at first. -/
def decided (w : DecWhat) (b : Bool) (n : Nat := secC) : State :=
  { linked with tmp := { linked.tmp with decisions := [{ what := w, first := b, r := some 7 }] }, now := n }

def deciding (l : Nat) (b : Bool) : State :=
  { decided (.rdp l) b with fls := { linked.fls with running := some (.decide l) } }
def releasing (k : Nat) (b : Bool) (n : Nat) : State :=
  { decided (if k = 0 then .kekUnwrap else .keyRelease) b n with
    key := { linked.key with unwrap := some { unwrap9000 sealedKey with stage := k } } }

/-- DoubleDecisions: each kind of decision stands with either first evaluation, its delay just passed; and one whose delay has not. -/
theorem witness_DoubleDecisions :
    (∀ b ∈ [true, false], ∀ w ∈ [DecWhat.respond 4 4 0, .flagClear 0xFFFFFFFF (some 1) (some 1), .lifecycle 2 1 1, .lifecycle 3 0 0,
        .testPort, .jig 1 1 []], let s := decided w b
      s.tmp.decisions.find? s.delayOver = some ⟨w, b, some 7, 0⟩ ∧ s.up = true ∧ s.halted = false ∧
      s.fusePower = true ∧ s.lc.lifecycle ≠ 0) ∧
    (∀ l ∈ [0, 1, 2], let s := { deciding l true with now := 276 }
      s.tmp.decisions.find? s.delayOver = some ⟨.rdp l, true, some 7, 0⟩ ∧ s.fls.running = some (.decide l)) ∧
    (∀ k ∈ [0, 1], let s := releasing k true 35
      s.tmp.decisions.find? s.delayOver = some ⟨if k = 0 then .kekUnwrap else .keyRelease, true, some 7, 0⟩ ∧
      s.key.unwrap = some { unwrap9000 sealedKey with stage := k }) ∧
    (decided (.rdp 1) true 275).tmp.decisions.find? (decided (.rdp 1) true 275).delayOver = none ∧
    (releasing 1 true 34).tmp.decisions.find? (releasing 1 true 34).delayOver = none := by decide +kernel

/-! ### Witnesses: chapter 17 -/

/-- The module answers as a tag, in a state of ISO/IEC 14443-3 and with its protocol open or not. -/
def tag (st : Nat) (proto : Bool) : State :=
  { linked with
    cl := { linked.cl with mode := 1, ctrl := 0x333D, fieldTag := true, uid := some 0x12345608, tagState := BitVec.ofNat 2 st,
                           proto := proto } }

def claspKey5 : ClaspKey := { role := 7, key := 1 }

/-- An exchange with key 0, before and after its third pass. -/
def exchange (o : Bool) : Clasp :=
  { isOpen := o, keyNo := 0, role := 7, credUid := [1, 2, 3, 4], na := List.replicate 16 1, nb := List.replicate 16 2
    k := List.replicate 16 3, ks := List.replicate 16 4, lastAt := 0 }

def inSession (o : Bool) : State := { tag 2 true with cl := { (tag 2 true).cl with clasp := some (exchange o) }, now := 30 * secC }

/-- TagAndClasp, the activation: fields of 1.2, 1.3 and 1.5 A/m; anticollision of 0 and of 32 bits. -/
theorem witness_TagAndClasp :
    (linked.cl.fieldTag = false ∧ (tag 0 false).cl.fieldTag = true ∧ linked.cl.badge = none) ∧
    (let s := { tag 0 false with pwr := { linked.pwr with state := .field } }
     let t := { s with cl := { s.cl with uid := none } }
     t.pwr.state = .field ∧ t.cl.fieldTag = true ∧ t.cl.uid = none ∧ t.cl.silent = false ∧
      t.cl.cellsFailed ||| BitVec.ofNat 2 (2 ^ 0) ≠ 3 ∧
      ({ t.cl with cellsFailed := 2 } : Cl).cellsFailed ||| BitVec.ofNat 2 (2 ^ 0) = 3) ∧
    (let o : MarkOp := { index := 0, jseq := 0, aoseq := 0, entry := [], begun := true, made := 64 }
     let s := { tag 2 true with pwr := { linked.pwr with state := .field }, cl := { (tag 2 true).cl with mark := some o } }
     s.cl.fieldTag = true ∧ s.cl.badge = none ∧ s.pwr.state = .field ∧ s.cl.mark = some o ∧ o.begun = true ∧ o.made < 65) ∧
    (∀ k ∈ [0, 1, 2, 3], (tag k false).tagLive = true ∧ (tag k false).cl.proto = false ∧
      (tag k false).cl.tagState.toNat = k) ∧
    (linked.tagLive = false) ∧
    (let u : BitVec 32 := 0x12345608
     (tag 1 false).cl.uid = some u ∧ u.toNat % 2 ^ 32 = u.toNat % 2 ^ 32 ∧ (0 : BitVec 32).toNat % 2 ^ 0 = u.toNat % 2 ^ 0 ∧
      (0 : BitVec 32).toNat % 2 ^ 32 ≠ u.toNat % 2 ^ 32) ∧
    ((tag 2 true).tagOpen = true ∧ (tag 2 true).ta1 / 2 ^ (3 - 1) % 2 = 1 ∧ (tag 2 true).cl.wtx = false ∧
      ({ (tag 2 true).cl with toSend := [[2, 7]] } : Cl).toSend = [2, 7] :: []) := by decide +kernel

/-- TagAndClasp, the passes: eight failures and seven; a right tag and a wrong one. -/
theorem witness_TagAndClasp_passes :
    (let m : Bytes := (1 : Byte) :: (0 : Byte) :: List.replicate 16 5 ++ [4, 1, 2, 3, 4]
     let s := noisy { tag 2 true with cl := { (tag 2 true).cl with keys := [(0, claspKey5)], actFails := 7 } }
     s.tagOpen = true ∧ s.canDraw 4 128 = true ∧ s.cl.wtx = false ∧ s.cl.mode = s.clAsked ∧ 3 < s.cl.fsd ∧ s.cl.actFails < 8 ∧
      m.length = 19 + leAt m 18 1 ∧ leAt m 0 1 = 1 ∧ leAt m 18 1 = 4 ∧ leAt m 1 1 ≤ 7 ∧
      (tget { role := 0, key := 0 } s.cl.keys (leAt m 1 1)).role.toNat % 4 ≠ 0 ∧
      (tget { role := 0, key := 0 } (tag 2 true).cl.keys (leAt m 1 1)).role.toNat % 4 = 0 ∧
      8 ≤ ({ s.cl with actFails := 8 } : Cl).actFails) ∧
    (let x := exchange false
     let m : Bytes := (3 : Byte) :: tagA x.k x.na x.nb x.credUid
     (inSession false).cl.clasp = some x ∧ x.isOpen = false ∧ m.length = 17 ∧ leAt m 0 1 = 3 ∧ x.txCtr + 1 < 0xFFFFFFFF ∧
      (inSession false).cl.actFails < 8 ∧ (m.set 1 0).drop 1 ≠ tagA x.k x.na x.nb x.credUid) ∧
    (inSession true).cl.badge = none ∧ (exchange true).lastAt + 30 * secC ≤ (inSession true).now ∧
    (tag 0 false).now < (exchange true).lastAt + 30 * secC := by decide +kernel

/-- TagAndClasp, a session: each kind of frame, a MARK of 200 bytes, and its writing before and at its last program. -/
theorem witness_TagAndClasp_session :
    (let s := inSession true
     let x := exchange true
     let f (b : Bytes) : Bytes := secureFrame x.ks 1 x.rxCtr b
     s.tagOpen = true ∧ s.cl.wtx = false ∧ s.cl.clasp = some x ∧ x.isOpen = true ∧ openFrame x.ks 1 x.rxCtr [] = none ∧
      (∀ b ∈ [[1], [2], [6], (5 : Byte) :: le 2 5 ++ le 2 200 ++ List.replicate 200 0x41], openFrame x.ks 1 x.rxCtr (f b) = some b) ∧
      x.role.getLsbD 1 = true ∧ x.txCtr + 1 < 0xFFFFFFFF ∧ jrnNext s.fls = some 0 ∧ jrnSeq s.fls = some 0 ∧
      s.pwr.state = .main) ∧
    (let o : MarkOp := { index := 0, jseq := 0, aoseq := 0, entry := [], made := 0 }
     let s := { inSession true with cl := { (inSession true).cl with wtx := true, mark := some o } }
     s.tagOpen = true ∧ s.cl.wtx = true ∧ s.cl.mark = some o ∧ s.pwr.state ≠ .field ∧ s.fls.heldOff = false) ∧
    (beginsB linked 0x0901 (req 1 (le 1 3 ++ le 1 15 ++ le 2 200)) = true ∧
      beginsB linked 0x0901 (req 1 (le 1 4 ++ le 1 15 ++ le 2 51)) = true ∧
      beginsB linked 0x0903 (req 1 (le 2 511 ++ le 2 512 ++ le 8 0 ++ le 4 (260 * 512))) = true ∧
      beginsB linked 0x0903 (req 1 (le 2 512 ++ le 2 1 ++ le 12 0)) = true ∧ linked.mayMove 0 = true) := by decide +kernel

/-- A journal of one entry, JSEQ 0, and the archive at work, without a record of it or with one of `q`. -/
def journal (q : Option Nat) : State :=
  let o := 2046 * 65536
  let rec_ (n : Nat) : ARec :=
    { r := { typ := 0x40, src := 5, cls := 0, gts := 0, body := List.replicate 4 0 ++ le 4 (16 * n) ++ List.replicate 252 0 }
      drawer := 0, off := 0, seg0 := 0, committed := true }
  { linked with fls := { linked.fls with cells := [(o, 0), (o + 1, 0), (o + 2, 0), (o + 3, 0)], counts := [(2046 * 16384, 0)] }
                arc := { linked.arc with ready := true, recs := q.toList.map rec_ }
                loop := { linked.loop with bracketEnd := some default } }

/-- TagAndClasp, the journal: its newest entry is in the archive or is not. -/
theorem witness_TagAndClasp_journal :
    (∀ q ∈ [none, some 0], let s := journal q
      s.up = true ∧ s.lc.fw = .running ∧ s.arc.ready = true ∧ s.cl.walked = false ∧ jrnNewest s.fls = some (0, 0) ∧
      s.loop.bracketEnd.isSome = true ∧ s.cl.atOnce = none ∧ s.jrnPresent = q ∧ jrnState s.fls 0 = 1) := by decide +kernel

/-- BADGE_READ runs under tag 1 and stands at a stage. -/
def reading14443 (st : BadgeStage) (cards : Nat) : Badge × State :=
  let b : Badge := { party := 1, tag := 1, timeout := 100, begun := secC, stage := st, reqaAt := secC, uid := [1, 2, 3, 4], cards := cards }
  let s := { linked with clk := { linked.clk with domPll := 0x1F }, drn := { linked.drn with out := [(1, 1, 0x0902)] } }
  (b, { s with cl := { s.cl with mode := 2, ctrl := 0x333E, badge := some b, keys := [(0, claspKey5)], carrier := true } })

/-- BadgeReader, the polling: instants at their ends, the last cascade level, a UID of 40 bits. -/
theorem witness_BadgeReader :
    (∀ t ∈ [1, 10000], let s := { (reading14443 .guard 0).2 with drn := linked.drn }
      let s := { s with cl := { s.cl with badge := none } }
      beginsB s 0x0902 (req 1 (le 2 t)) = true ∧ s.cl.badge = none ∧ 2 ≤ s.cl.mode.toNat ∧ s.readerOk = true ∧
      s.cl.clasp = none ∧ s.pwr.field < 5) ∧
    (beginsB linked 0x0902 (req 1 (le 2 1)) = true ∧ linked.cl.mode.toNat < 2) ∧
    (∀ st ∈ [BadgeStage.guard, .polling, .anticol 3 [true], .select 2, .rats, .pps, .auth, .session, .identity],
      ∀ n ∈ [7, 8], let x := reading14443 st n
      x.2.up = true ∧ x.2.readerOk = true ∧ x.2.cl.badge = some x.1 ∧ x.1.stage = st ∧ x.1.cards = n) ∧
    (let x := reading14443 .guard 0
     let at_ (n : Nat) : State := { x.2 with now := secC + n }
     x.1.reqaAt + fld x.2.cl.ctrl 15 8 * (msC / 10) ≤ (at_ (0x33 * (msC / 10))).now ∧
      (at_ (0x33 * (msC / 10) - 1)).now < x.1.reqaAt + fld x.2.cl.ctrl 15 8 * (msC / 10) ∧
      x.1.reqaAt + 10 * msC ≤ (at_ (10 * msC)).now ∧ (at_ (10 * msC - 1)).now < x.1.reqaAt + 10 * msC ∧
      x.1.begun + x.1.timeout * msC ≤ (at_ (100 * msC)).now ∧ (at_ (100 * msC - 1)).now < x.1.begun + x.1.timeout * msC) ∧
    (let bits := [true] ++ List.replicate 39 true
     bits.length = 40 ∧ [true].length + (List.replicate 38 true).length < 40 ∧ packLow bits = [0xFF, 0xFF, 0xFF, 0xFF, 0xFF] ∧
      let all := List.replicate 32 false ++ List.replicate 8 false
      packLow all = [0, 0, 0, 0, 0] ∧ ([0, 0, 0, 0, 0] : Bytes).drop 4 = [(([0, 0, 0, 0, 0] : Bytes).take 4).foldl (· ^^^ ·) 0]) ∧
    ((noisy (reading14443 .pps 0).2).canDraw 4 128 = true ∧ (reading14443 .pps 0).2.cl.keys.find? (fun e => e.2.role.getLsbD 2) = some (0, claspKey5)) := by decide +kernel

/-- BadgeReader, the card's frames: the right tag, a wrong one, an empty acceptance and an identity. -/
theorem witness_BadgeReader_session :
    let x := exchange true
    let f (b : Bytes) : Bytes := secureFrame x.ks 2 x.rxCtr b
    let m : Bytes := (2 : Byte) :: List.replicate 16 2 ++ tagB x.k x.na (List.replicate 16 2) x.credUid
    m.length = 33 ∧ leAt m 0 1 = 2 ∧ m.drop 17 = tagB x.k x.na (sub m 1 16) x.credUid ∧
    (m.set 20 (m.getD 20 0 + 1)).drop 17 ≠ tagB x.k x.na (sub m 1 16) x.credUid ∧
    openFrame x.ks 2 x.rxCtr (f [0]) = some [0] ∧
    openFrame x.ks 2 x.rxCtr (f ((0 : Byte) :: List.replicate 16 9)) = some ((0 : Byte) :: List.replicate 16 9) ∧
    openFrame x.ks 2 x.rxCtr [] = none ∧ (reading14443 .identity 0).2.drn.out.contains (1, 1, 0x0902) = true := by
  decide +kernel

/-! ### Witnesses: chapter 18 -/

/-- The public key whose secret is 1, and a signature under it. -/
def ownKey : Bytes := be 66 ecG.1 ++ be 66 ecG.2
def sign132 (msg : Bytes) : Bytes :=
  let x := ecdsaSign 1 (ecDigest (Sys2Proof.Machine.sha512 msg)) 1
  be 66 x.1 ++ be 66 x.2

/-- A boot image of a version, its stage 1 and body empty (R483). -/
def bootImage (v : Nat) : Bytes :=
  let h : Bytes := [0x47, 0x4C, 0x42, 0x49] ++ le 2 1 ++ le 2 0 ++ le 4 0 ++ le 4 v ++ le 8 0 ++ List.replicate (0x16C - 0x18) 0
  h ++ sign132 h ++ List.replicate 16 0

theorem tget_flPut (b : Bytes) : ∀ (f : Fls) (a : Nat), f.remap = [] → f.torn = [] →
    (flPut f a b).remap = [] ∧ (flPut f a b).torn = [] ∧ ∀ n, tget 0xFF (flPut f a b).cells n =
      if a ≤ n ∧ n < a + b.length then tget 0xFF f.cells n &&& b.getD (n - a) 0 else tget 0xFF f.cells n := by
  induction b with
  | nil => intro f a hr ht; exact ⟨hr, ht, fun n => by simp [flPut]⟩
  | cons x t ih =>
    intro f a hr ht
    obtain ⟨h1, h2, h3⟩ := ih { f with cells := tset 0xFF f.cells a (tget 0xFF f.cells a &&& x) } (a + 1) hr ht
    have hp : physSector f (a / 65536) * 65536 + a % 65536 = a := by simp [physSector, hr]; omega
    simp only [flPut, hp]
    refine ⟨h1, h2, fun n => ?_⟩
    rw [h3]
    by_cases hn : n = a
    · subst hn; simp [tget_tset]
    · have e1 : ((a + 1 ≤ n ∧ n < a + 1 + t.length) ↔ (a ≤ n ∧ n < a + (t.length + 1))) := by omega
      simp only [tget_tset, hn, if_false, List.length_cons, e1]
      split
      · rename_i h
        have : n - a = (n - (a + 1)) + 1 := by omega
        rw [this]; simp
      · rfl

theorem flBytes_of (f : Fls) (hr : f.remap = []) (ht : f.torn = []) (l : Bytes) : ∀ a,
    (∀ k, k < l.length → tget 0xFF f.cells (a + k) = l.getD k 0) → flBytes f a l.length = l := by
  induction l with
  | nil => intro a _; rfl
  | cons x t ih =>
    intro a h
    have h0 := h 0 (by simp)
    have hp : physSector f (a / 65536) * 65536 + a % 65536 = a := by simp [physSector, hr]; omega
    simp only [List.length_cons, flBytes, flByte, ht, List.find?_nil, hp]
    rw [ih (a + 1) fun k hk => by have := h (k + 1) (by simpa using hk); rw [show a + 1 + k = a + (k + 1) by omega, this]; simp]
    simpa using h0

/-- An image verifies by its own bytes, wherever it stands. -/
theorem image_stands (s : State) (a v : Nat) (hr : s.fls.remap = []) (ht : s.fls.torn = [])
    (hb : ∀ k, k < (bootImage v).length → tget 0xFF s.fls.cells (a + k) = (bootImage v).getD k 0)
    (hl : (bootImage v).length = 512) (h0 : leAt (bootImage v) 0x10 4 + leAt (bootImage v) 0x14 4 = 0)
    (hm : s.lc.minSvn = 0) :
    s.imageOk a = (headerOk (bootImage v) && sigCheck s.lc.ranmorKey ((bootImage v).take 0x16C) (sub (bootImage v) 0x16C 132)) := by
  have h := flBytes_of s.fls hr ht (bootImage v) a hb
  rw [hl] at h
  have z (n : Nat) : flBytes s.fls n 0 = [] := rfl
  simp only [State.imageOk, h, h0, hm, z, Nat.zero_le, decide_true, Bool.and_true, List.append_nil]

/-- At the boot ROM, with images of version 7 in slot A and of 8 in slot B, or with none. -/
def atRom (both : Bool) : State :=
  let s := { ck with lc := { ck.lc with ranmorKey := ownKey, fw := .rom }, fls := { ck.fls with scanDone := true } }
  if both then { s with fls := flPut (flPut s.fls 0 (bootImage 7)) (slotBase 1) (bootImage 8) } else s

/-- StartAndLifecycle, the boot ROM: no image. -/
theorem witness_StartAndLifecycle :
    (let s := atRom false
     s.up = true ∧ s.lc.fw = .rom ∧ s.clk.rootOk = true ∧ s.fls.scanDone = true ∧ s.fls.marker = false ∧ s.lc.staged = false ∧
      s.imageOk (slotBase 0) = false ∧ s.imageOk (slotBase 1) = false ∧ s.fls.running = none ∧
      ({ s.fls with marker := true } : Fls).marker = true ∧
      s.tmp.heldRetire = false ∧ s.tmp.pend = [] ∧ ({ s.tmp with heldRetire := true } : Tmp).heldRetire = true) ∧
    (on.clk.rootOk = false ∧ on.lc.lifecycle ≠ 0 ∧ on.lc.fw ≠ .stage1 ∧ ({ on.lc with fw := .stage1 } : Lc).fw = .stage1) := by decide +kernel

theorem checked (v : Nat) (h : v = 7 ∨ v = 8) :
    (bootImage v).length = 512 ∧ leAt (bootImage v) 0x10 4 + leAt (bootImage v) 0x14 4 = 0 ∧
    (headerOk (bootImage v) && sigCheck ownKey ((bootImage v).take 0x16C) (sub (bootImage v) 0x16C 132)) = true ∧
    leAt (sub (bootImage v) 12 4) 0 4 = v := by
  rcases h with rfl | rfl <;> decide +kernel

/-- What an image's bytes read as where nothing stood before. -/
theorem image_reads (f : Fls) (a v : Nat) (hr : f.remap = []) (ht : f.torn = [])
    (hl : (bootImage v).length = 512) (h : ∀ k, k < 512 → tget 0xFF f.cells (a + k) = 0xFF) (k : Nat) (hk : k < (bootImage v).length) :
    tget 0xFF (flPut f a (bootImage v)).cells (a + k) = (bootImage v).getD k 0 := by
  rw [(tget_flPut (bootImage v) f a hr ht).2.2, h k (by omega), if_pos (by omega), show a + k - a = k by omega]
  exact BitVec.allOnes_and

/-- StartAndLifecycle: the image of slot A verifies, and a later one in slot B beside it. -/
theorem witness_StartAndLifecycle_images :
    (atRom true).imageOk (slotBase 0) = true ∧ (atRom true).imageOk (slotBase 1) = true := by
  obtain ⟨l7, -, c7, -⟩ := checked 7 (.inl rfl)
  obtain ⟨l8, -, c8, -⟩ := checked 8 (.inr rfl)
  have e : ck.fls.cells = [] := by decide +kernel
  have r0 : ({ ck.fls with scanDone := true } : Fls).remap = [] := by decide +kernel
  have t0 : ({ ck.fls with scanDone := true } : Fls).torn = [] := by decide +kernel
  obtain ⟨r1, t1, g1⟩ := tget_flPut (bootImage 7) { ck.fls with scanDone := true } 0 r0 t0
  obtain ⟨r2, t2, g2⟩ := tget_flPut (bootImage 8) (flPut { ck.fls with scanDone := true } 0 (bootImage 7)) (slotBase 1) r1 t1
  have b1 : slotBase 1 = 33554432 := rfl
  constructor
  · rw [image_stands (atRom true) (slotBase 0) 7 r2 t2 ?_ (checked 7 (.inl rfl)).1 (checked 7 (.inl rfl)).2.1 (by decide +kernel)]
    · exact c7
    · intro k hk
      have := image_reads { ck.fls with scanDone := true } 0 7 r0 t0 l7 (fun k _ => by simp [e, tget]) k hk
      rw [← this]
      show tget 0xFF (flPut (flPut { ck.fls with scanDone := true } 0 (bootImage 7)) (slotBase 1) (bootImage 8)).cells (0 + k) = _
      rw [g2, if_neg (by omega)]
  · rw [image_stands (atRom true) (slotBase 1) 8 r2 t2 ?_ (checked 8 (.inr rfl)).1 (checked 8 (.inr rfl)).2.1 (by decide +kernel)]
    · exact c8
    · intro k hk
      show tget 0xFF (flPut (flPut { ck.fls with scanDone := true } 0 (bootImage 7)) (slotBase 1) (bootImage 8)).cells (slotBase 1 + k) = _
      refine image_reads (flPut { ck.fls with scanDone := true } 0 (bootImage 7)) (slotBase 1) 8 r1 t1 l8 (fun k _ =>
        (g1 (slotBase 1 + k)).trans ?_) k hk
      have hn : ¬ (0 ≤ slotBase 1 + k ∧ slotBase 1 + k < 0 + (bootImage 7).length) := by
        rw [l7]; generalize slotBase 1 = m at b1; omega
      rw [if_neg hn]
      show tget 0xFF ck.fls.cells _ = 0xFF
      rw [e]; rfl

/-- StartAndLifecycle: an image that the loader is given stands in slot A once it has been put there. -/
theorem witness_StartAndLifecycle_put :
    let s := { linked with lc := { linked.lc with fw := .loader, ranmorKey := ownKey } }
    (s.putImage 0 (bootImage 7)).imageOk 0 = true := by
  intro s
  obtain ⟨hl, h0, c, -⟩ := checked 7 (.inl rfl)
  let f := (upto 64).foldl (fun f k => flWipe f (physSector f (0 / 65536 + k))) s.fls
  have e : f.cells = [] ∧ f.remap = [] ∧ f.torn = [] := by decide +kernel
  obtain ⟨r1, t1, -⟩ := tget_flPut (bootImage 7) f 0 e.2.1 e.2.2
  rw [image_stands (s.putImage 0 (bootImage 7)) 0 7 r1 t1 ?_ hl h0 rfl]
  · exact c
  · exact image_reads f 0 7 e.2.1 e.2.2 hl fun k _ => by simp [e.1, tget]

def load (core n : Nat) : Bytes := le 4 core ++ le 8 0x1000 ++ le 4 n

/-- StartAndLifecycle, loading: the loader serves PF0; a tenant program of no bytes, signed, and one that is not. -/
theorem witness_StartAndLifecycle_loads :
    (let s := { linked with lc := { linked.lc with fw := .loader, ranmorKey := ownKey } }
     s.serves 1 = true ∧ s.lc.fw = .loader ∧ s.halted = false ∧ s.drn.out = [] ∧
      s.loadBytes (req 1 (load 0xF0 512)) (bootImage 7) = some (bootImage 7) ∧ (bootImage 7).length = 512 ∧
      (s.putImage 0 []).imageOk 0 = false) ∧
    (let h : Bytes := [0x47, 0x4C, 0x54, 0x50] ++ le 2 1 ++ le 2 0 ++ List.replicate 248 0
     let s := { linked with lc := { linked.lc with programKey := some ownKey } }
     beginsB s 0x0701 (req 1 (load 11 388)) = true ∧ s.coreLeaving 11 = false ∧ s.lc.lifecycle ≠ 0 ∧
      s.loadBytes (req 1 (load 11 388)) (h ++ sign132 h) = some (h ++ sign132 h) ∧ s.tenantImageOk (h ++ sign132 h) = true ∧
      s.tenantImageOk [] = false ∧ s.phys .tenantCore 11 = some 11 ∧ (s.core 13).run = false ∧
      beginsB s 0x0701 (req 1 (load 0xF0 4)) = true) := by decide +kernel

/-- StartAndLifecycle, tenant cores: core 11 loaded, running or not; source ranges at their ends. -/
theorem witness_StartAndLifecycle_tenants :
    (∀ b ∈ [true, false], let s := linked.setCore 13 { run := b }
      let s := { s with lc := { s.lc with tenants := [(11, { loaded := true })] } }
      (s.phys .tenantCore 11).isSome = true ∧ (s.tenant 11).loaded = true ∧ (s.core 13).run = b ∧ (s.core 13).lockup = false ∧
      beginsB s 0x0702 (req 1 [11]) = true ∧ beginsB s 0x0703 (req 1 [11]) = true ∧ beginsB s 0x0705 (req 1 [11]) = true) ∧
    (beginsB linked 0x0704 (req 1 ([11, 0] ++ le 2 0x900 ++ le 2 (0xFFF - 0x900))) = true ∧
      beginsB linked 0x0704 (req 1 ([11, 0] ++ le 2 0x8FF ++ le 2 1)) = true) ∧
    (let s := { linked with lc := { linked.lc with lifecycle := 0 } }
     beginsB s 0x0701 (req 1 (load 0 4)) = true ∧ s.lc.lifecycle = 0 ∧ (s.loadBytes (req 1 (load 0 4)) []).isSome = true) := by
  decide +kernel

/-- A bundle for the module of serial number 5, of AUTH_SEQ 1, its items sealed under the zero key and the whole signed. -/
def bundle (items : Bytes) : Bytes :=
  let h : Bytes := [0x47, 0x4C, 0x42, 0x4E] ++ le 2 1 ++ le 2 0 ++ le 8 5 ++ le 8 1 ++ List.replicate 12 0
  let x := gcmSeal (List.replicate 32 0) (List.replicate 12 0) (sub h 0 32) items
  let b := h ++ x.1 ++ x.2
  b ++ sign132 b

def bundled : State :=
  { linked with lc := { linked.lc with serial := 5, bundleKey := 0, ownerKey := some ownKey, programKey := some [], transport := some ([1], 1),
                                       sealCert := [1] }
                tmp := { linked.tmp with policyFused := some false }, cl := { linked.cl with keys := [(0, claspKey5)] } }

/-- StartAndLifecycle, bundles: one without items and one that deploys; a false header and a false signature. -/
theorem witness_StartAndLifecycle_bundles :
    (∀ items ∈ [[], [0x0B, 1, 0, 1]], let b := bundle items
      let s := bundled
      let r := req 1 (load 0xF1 b.length)
      beginsB s 0x0701 r = true ∧ s.loadBytes r b = some b ∧ s.lc.lifecycle ≠ 0 ∧ bundleHeaderOk b = true ∧ 52 + 132 ≤ b.length ∧
      sigCheck ownKey (b.take (b.length - 132)) (b.drop (b.length - 132)) = true ∧
      leAt b 8 8 = s.lc.serial.toNat ∧ s.lc.authSeq < leAt b 16 8 ∧
      gcmOpen (be 32 s.lc.bundleKey.toNat) (sub b 24 12) (sub b 0 32) (((b.take (b.length - 132)).drop 36).take (b.length - 184)) =
        (items, (b.take (b.length - 132)).drop (b.length - 148))) ∧
    bundled.mayDeploy = true ∧ bundleHeaderOk [] = false ∧
    sigCheck ownKey ((bundle []).take 52) (List.replicate 132 0) = false := by decide +kernel

/-- A jig token of this boot, on every link, for 3,600 s (R502). -/
def token (boot : Nat) : Bytes :=
  let t : Bytes := [1, 0, 0x1F, 0] ++ List.replicate 12 0 ++ le 4 boot ++ le 4 3600 ++ le 8 1
  t ++ sign132 ([0x47, 0x4C, 0x4A, 0x47] ++ le 8 5 ++ t)

/-- StartAndLifecycle, reports, certificates, the jig and the test port. -/
theorem witness_StartAndLifecycle_rest :
    (∀ n ∈ [linked.reportLen - 1, linked.reportLen], beginsB linked 0x0601 (req 1 (List.replicate 40 0 ++ le 4 n)) = true) ∧
    (∀ n ∈ [0, 2 ^ 32 - 1], beginsB linked 0x0602 (req 1 (le 8 0 ++ le 4 n)) = true) ∧ midFn 1 = some 0 ∧ linked.mayMove 0 = true ∧
    (∀ l ∈ [0, 2], let s := { owned with lc := { owned.lc with lifecycle := BitVec.ofNat 2 l } }
      beginsB s 0x0B02 (req 1 (token 0)) = true ∧ s.lc.lifecycle.toNat = l ∧ jigFormOk (token 0) = true ∧
      (s.jigAccept (token 0)).isSome = true) ∧
    (beginsB linked 0x0B02 (req 1 (List.replicate 164 0)) = true ∧ linked.lc.lifecycle = 1 ∧
      beginsB { linked with lc := { linked.lc with lifecycle := 3 } } 0x0B02 (req 1 (List.replicate 164 0)) = true ∧
      beginsB linked 0x0B03 (req 1 []) = true) ∧
    (let j : Jig := { links := 1, modes := [], endAt := linked.now }
     let s := { linked with lc := { linked.lc with jig := some j } }
     s.lc.jig = some j ∧ j.endAt ≤ s.now ∧ s.now < ({ j with endAt := s.now + 1 } : Jig).endAt) ∧
    (∀ b ∈ [true, false], let s := { linked with lc := { linked.lc with lifecycle := 0, testFuse := false, testPort := b } }
      s.up = true ∧ s.lc.lifecycle = 0 ∧ s.lc.testFuse = false ∧ s.lc.testPort = b ∧ s.lc.attCert ≠ some []) := by decide +kernel

/-- StartAndLifecycle, the certificate chain: longer than the room given, and within it wherever Ranmor's own certificates are (their
lengths are open; log entry 150). -/
theorem witness_StartAndLifecycle_chain :
    (let s := { linked with lc := { linked.lc with sealCert := [1] } }
     beginsB s 0x0602 (req 1 (le 8 0 ++ le 4 0)) = true ∧ leAt (le 8 0 ++ le 4 0 : Bytes) 8 4 < s.certChain.length) ∧
    ((Config.openText 1).length ≤ 65536 →
      let s := { linked with lc := { linked.lc with attCert := some [] } }
      beginsB s 0x0602 (req 1 (le 8 0 ++ le 4 65536)) = true ∧ s.certChain.length ≤ leAt (le 8 0 ++ le 4 65536 : Bytes) 8 4) := by
  have e0 : leAt (le 8 0 ++ le 4 0 : Bytes) 8 4 = 0 := by decide +kernel
  have e1 : leAt (le 8 0 ++ le 4 65536 : Bytes) 8 4 = 65536 := by decide +kernel
  have e2 : linked.lc.sealCert = [] := by decide +kernel
  refine ⟨⟨by decide +kernel, ?_⟩, fun h => ⟨by decide +kernel, ?_⟩⟩
  · rw [e0]; simp [State.certChain]
  · rw [e1]; simpa [State.certChain, e2] using h

/-- StartAndLifecycle, firmware's start: with its draws, and without them. -/
theorem witness_StartAndLifecycle_start :
    (∀ n ∈ [0, 2], let s : State := { ck with
        lc := { ck.lc with fw := .stage1 }
        nh := { ck.nh with b4 := List.replicate (1280 * n) true, b3 := List.replicate (1280 * n) true } }
      s.up = true ∧ s.lc.fw = .stage1 ∧ s.startDraws = (n == 2)) ∧
    linked.verifyWaits = false ∧ (atRom false).mbx.lock = false ∧ (atRom true).lc.meas = [] := by decide +kernel

/-! ### Witnesses: chapters 13 and 14 -/

/-- Core 0 stands at I-space address 0x100, where the bytes of an instruction stand, its registers as `f` leaves them. -/
def atIns (b : Bytes) (f : Core → Core) : State :=
  let s := ck.setCmem 0 { ck.cmem 0 with i := mwrite [] 0x100 b, stale := [] }
  s.setCore 0 (f { ck.core 0 with pc := 0x100 })

/-- `State.runs` of core 0, as a test, at an instruction of which `P` holds. -/
def runsB (s : State) (P : Ins → Bool) : Bool :=
  s.ready 0 && match s.insAt 0 (s.core 0).pc.toNat with
  | .ok i => predHolds i (s.core 0).sr && !barred (s.core 0) i && (s.core 0).slot.all (fun t => !t.annul) && P i
  | .error _ => false

theorem runs_of (s : State) (P : Ins → Bool) (h : runsB s P = true) : ∃ i, s.runs 0 i ∧ P i = true := by
  unfold runsB at h
  cases hi : s.insAt 0 (s.core 0).pc.toNat with
  | error f => simp [hi] at h
  | ok i =>
    simp only [hi, Bool.and_eq_true, Bool.not_eq_true'] at h
    obtain ⟨hr, ⟨⟨hp, hb⟩, hs⟩, hP⟩ := h
    refine ⟨i, ⟨hr, hi, hp, hb, fun t ht => ?_⟩, hP⟩
    rw [show ((0 : Fin 14) : Nat) = 0 from rfl] at ht
    rw [ht] at hs
    simpa using hs

def opIs (n : Nat) (i : Ins) : Bool := i.op == n

/-- AluRegisterAndImmediateForms: every operation in its three forms (R336, R339). -/
theorem witness_AluRegisterAndImmediateForms :
    ∀ k ∈ upto 16,
      runsB (atIns [BitVec.ofNat 8 (0x10 + k), 0x12] id) (fun i => opIs (0x10 + k) i && i.d == 1 && i.s == 2 && !i.spp) = true ∧
      runsB (atIns [BitVec.ofNat 8 (0x20 + k), 0xF0, 0x80] id)
        (fun i => opIs (0x20 + k) i && i.d == 15 && i.imm == 0xFFFFFF80 && i.len == 3) = true ∧
      runsB (atIns [BitVec.ofNat 8 (0x30 + k), 0xF0, 1, 2, 3, 0x84] id)
        (fun i => opIs (0x30 + k) i && i.imm == 0x84030201 && i.len == 6) = true := by decide +kernel

/-- A core whose registers 1 and 2 hold two words. -/
def regs12 (x y : Word) (k : Core) : Core := (k.setReg 1 x).setReg 2 y

/-- MiscellaneousGroup: the corners of division. -/
theorem witness_MiscellaneousGroup :
    (∀ n ∈ [0x70, 0x71, 0x72, 0x73, 0x74, 0x75, 0x76, 0x77, 0x78, 0x79],
      runsB (atIns [BitVec.ofNat 8 n, 0x12] (regs12 7 2)) (opIs n) = true ∧
      runsB (atIns [BitVec.ofNat 8 n, 0x12] (regs12 7 0)) (opIs n) = true ∧
      runsB (atIns [BitVec.ofNat 8 n, 0x12] (regs12 0x80000000 0xFFFFFFFF)) (opIs n) = true) ∧
    ((atIns [] (regs12 7 0)).core 0).reg 2 = 0 ∧ ((atIns [] (regs12 0x80000000 0xFFFFFFFF)).core 0).reg 1 = 0x80000000 ∧
    ((atIns [] (regs12 0x80000000 0xFFFFFFFF)).core 0).reg 2 = 0xFFFFFFFF ∧
    runsB (atIns [0x7A, 0x12, 0x20, 0xFF] id) (fun i => opIs 0x7A i && i.disp == 0xFFFFFFFF) = true := by decide +kernel

/-- Whether an operand or a load was given. -/
def gave {α : Type} : Acc α → Bool
  | .ok _ _ => true
  | _ => false

/-- CoreMemoryReadsAndStores: an operand at the last word of bank Y, one past it, and one in I-space. -/
theorem witness_CoreMemoryReadsAndStores :
    (let s := atIns [] (regs12 0 0x3FFFC)
     let i : Ins := { op := 0x40, d := 1, s := 2, mode := 0 }
     (effAddr (s.core 0) i).toNat = 0x3FFFC ∧ s.dCheck 0 0 0 (dParts 0 0x3FFFC 4) = none ∧
      (dLoc (s.core 0).escActive (bankAddr 0 0x3FFFC) = .y 0x1FFFC) ∧
      (s.dCheck 0 0 0 (dParts 0 0x40000 4)).isSome = true) ∧
    (let s := atIns [] (regs12 0 0x3FFFC)
     mpuCheck (s.mpu 0) 0 0 0 vMpuData ((accessParts 0x3FFFC 4).map (·.1)) 0 = none ∧ 0x3FFFC % 2 ^ 24 + 4 ≤ 0x40000 ∧
      (mpuCheck { s.mpu 0 with base := [(0, 0x3FFE0)], attr := [(0, 0x29)] } 0 0 0 vMpuData ((accessParts 0x3FFFC 4).map (·.1)) 0).isSome = true) ∧
    (dLoc false 0 = .x 0 ∧ dLoc false 0x10000000 = .shared 0 ∧ dLoc true 0x1FFFF = .esc 0xFFF) := by decide +kernel

/-- MemoryOperandsAreLoaded: each form at a word that ends bank X. -/
theorem witness_MemoryOperandsAreLoaded :
    ∀ n ∈ (upto 16).map (0x40 + ·) ++ [0x7B, 0x7C],
      let s := atIns [BitVec.ofNat 8 n, 0x12, 0] (regs12 5 0x1FFFC)
      runsB s (fun i => opIs n i && !i.spp && gave (s.operand 0 0 i)) = true := by decide +kernel

/-- Core 0's buffer is full, and its oldest store is held back by core 1's reservation. -/
def heldStore (s : State) : State :=
  (s.setCmem 0 { s.cmem 0 with stores := List.replicate 4 (0x200, [1]) }).setCore 1
    { s.core 1 with rsv := some (0x10000200 / 32), rsvAt := s.now }

/-- MemoryOperandsAreStored: both formats of each form; an ATOM form in a bank and in cluster memory. -/
theorem witness_MemoryOperandsAreStored :
    (∀ n ∈ upto 16, let s := atIns [BitVec.ofNat 8 (0x50 + n), 0x12, 0] (regs12 5 0x1FFFC)
      runsB s (fun i => opIs (0x50 + n) i && !i.spp && gave (s.operand 0 3 i) &&
        (s.dCheck 0 0 1 (dParts i.bank 0x1FFFC 4)).isNone) = true ∧
      let s := atIns [BitVec.ofNat 8 (0x60 + n), 0x02, 0, 1, 2, 3, 4] (regs12 5 0x1FFFC)
      runsB s (fun i => opIs (0x60 + n) i && i.imm == 0x04030201 && gave (s.operand 0 0 i)) = true) ∧
    (∀ a ∈ [0x3FFFC, 0x10000000], let s := atIns [0xF2, 0x51, 0x12, 0] (regs12 5 (BitVec.ofNat 32 a))
      runsB s (fun i => opIs 0x51 i && i.atom && (inBanks i.bank (bankAddr i.bank a) i.size == decide (a < 0x40000))) = true) ∧
    (∀ h ∈ [true, false], let s := atIns [0x51, 0x12, 0] (regs12 5 0x10000000)
      let s := if h then heldStore s else s
      runsB s (fun i => opIs 0x51 i && gave (s.operand 0 3 i) && s.storeHeld 0 (dParts i.bank 0x10000000 4) == h) = true) := by
  decide +kernel

/-- A completed branch's slot with what takes effect with it. -/
def inSlot (e : Defer) (esc : Bool) : State :=
  atIns [0x00] fun k => { k with slot := some ⟨0x80, some 0x200, false, e⟩, escActive := esc }

/-- CompletionOfAnInstruction: a loop's last pass and the one before; each effect of a slot; bits 0 and 0x7FFF. -/
theorem witness_CompletionOfAnInstruction :
    (∀ n ∈ [1, 2], let k := (atIns [0x00] fun k =>
        { k with sr := setBit k.sr srLA true, le := 0x100, lc := BitVec.ofNat 32 n }).core 0
      k.slot = none ∧ k.la = true ∧ k.pc = k.le ∧ (k.lc - 1 = 0 ↔ n = 1)) ∧
    (let k := (atIns [0x00] id).core 0
     k.slot = none ∧ ¬ (k.la = true ∧ k.pc = k.le)) ∧
    (∀ e ∈ [Defer.none, .call, .ret, .clearBit 0, .clearBit 0x7FFF], ∀ b ∈ [true, false],
      ((inSlot e b).core 0).slot = some ⟨0x80, some 0x200, false, e⟩ ∧ ((inSlot e b).core 0).escActive = b) := by decide +kernel

/-- BranchesLeaveADelaySlot: each opcode; a stack one short of full; a return to its record. -/
theorem witness_BranchesLeaveADelaySlot :
    (∀ n ∈ (upto 16).map (0x80 + ·) ++ (upto 15).map (0x91 + ·),
      runsB (atIns [BitVec.ofNat 8 n, 0xFC, 0xFF] id) (fun i => opIs n i && i.disp16 == 0xFFFC) = true) ∧
    (∀ n ∈ [0xA0, 0xA1], runsB (atIns [BitVec.ofNat 8 n, 1, 2, 3] id) (fun i => opIs n i && i.abs == 0x030201) = true) ∧
    (∀ n ∈ [0xA2, 0xA3], runsB (atIns [BitVec.ofNat 8 n, 0x01] id) (fun i => opIs n i && i.s == 1) = true) ∧
    runsB (atIns [0xAA, 0, 1] id) (opIs 0xAA) = true ∧
    (let k := (atIns [] fun k => { k with ss := [(0, List.replicate 255 ⟨0, 0⟩)] }).core 0
     k.callStack.length = 255 ∧ k.callStack.length < k.callDepth) ∧
    (let s := atIns [0x05] fun k => { k with lk := 0x1234, ss := [(0, [ssRec 0x1234 0 0 0 false])] }
     runsB s (opIs 0x05) = true ∧ (s.core 0).callStack = ssRec 0x1234 0 0 0 false :: [] ∧
      (ssRec 0x1234 0 0 0 false).kind = 0 ∧ (ssRec 0x1234 0 0 0 false).pc = (s.core 0).lk) ∧
    (∀ n ∈ [0xA4, 0xA5, 0xA6, 0xA7, 0xA8, 0xA9], ∀ a ∈ [0, 0x7FFF],
      let s := atIns ([BitVec.ofNat 8 n] ++ le 2 a ++ [0, 1]) id
      runsB s (fun i => opIs n i && i.b0 == a && (s.bitCheck 0 0 [i.b0]).isNone && (s.bitCheck 0 3 [i.b0]).isNone) = true) := by
  decide +kernel

/-- BitGroup: bits 0, 0x7FFF and 0x8000. -/
theorem witness_BitGroup :
    (∀ n ∈ (upto 11).map (0xB0 + ·), ∀ a ∈ [0, 0x7FFF], let s := atIns ([BitVec.ofNat 8 n] ++ le 2 a) id
      runsB s (fun i => opIs n i && i.b0 == a && (s.bitCheck 0 0 [a]).isNone && (s.bitCheck 0 1 [a]).isNone &&
        (s.bitCheck 0 3 [a]).isNone) = true) ∧
    (∀ n ∈ [0xBC, 0xBD, 0xBE, 0xBF], let s := atIns [BitVec.ofNat 8 n, 0x02] (regs12 0 0x7FFF)
      runsB s (fun i => opIs n i && fld ((s.core 0).reg i.s) 15 0 == 0x7FFF) = true) ∧
    (let s := atIns [0xBA, 0x00, 0x80] id
     runsB s (fun i => opIs 0xBA i && i.b0 == 0x8000 && (s.bitCheck 0 3 [i.b0]).isNone) = true) ∧
    (∀ n ∈ [0, 1, 2, 3], let s := atIns [0xBB, 0, 0, 1, 0, 0xFF, 0x7F, BitVec.ofNat 8 n] id
      runsB s (fun i => opIs 0xBB i && i.b0 == 0 && i.b1 == 1 && i.b2 == 0x7FFF && i.ctl == n &&
        (s.bitCheck 0 0 [i.b1, i.b2]).isNone && (s.bitCheck 0 1 [i.b0]).isNone) = true) := by decide +kernel

/-- AtomicsAndReservations: a byte at a bank's end; a reservation held, and another one's. -/
theorem witness_AtomicsAndReservations :
    (let s := atIns [0xC0, 0x02, 0] (regs12 0 0x3FFFF)
     runsB s (fun i => opIs 0xC0 i && !i.spi && inBanks i.bank (bankAddr i.bank 0x3FFFF) 1 &&
       gave (s.dLoad 0 0 3 i.bank (effAddr (s.core 0) i).toNat 1)) = true) ∧
    (let s := atIns [0xC1, 0x12, 0] (regs12 0 0x10000000)
     runsB s (fun i => opIs 0xC1 i && bankAddr i.bank (effAddr (s.core 0) i).toNat % 4 == 0 &&
       gave ((s.drain 0 4).dLoad 0 0 0 i.bank 0x10000000 4) && (mpuCheck (s.mpu 0) 1 0 0 vMpuData [0x10000000] 0).isNone) = true ∧
      dLoc false 0x10000000 = .shared 0) ∧
    (∀ r ∈ [0x10000000 / 32, 0x10000020 / 32], let s := atIns [0xC2, 0x12, 0] (fun k => { regs12 0 0x10000000 k with rsv := some r })
      runsB s (fun i => opIs 0xC2 i && (s.dCheck 0 0 1 [(0x10000000, 4)]).isNone &&
        (((s.core 0).rsv == some (bankAddr i.bank (effAddr (s.core 0) i).toNat / 32)) == decide (r = 0x10000000 / 32))) = true) ∧
    (∀ n ∈ [0xC1, 0xC2], let s := atIns [BitVec.ofNat 8 n, 0x12, 0] (fun k => { regs12 0 0x10000200 k with rsv := some (0x10000200 / 32) })
      runsB (heldStore s) (opIs n) = true ∧ (heldStore s).heldBack 0 0x200 4 = true ∧ s.heldBack 0 0x200 4 = false ∧
        ((s.drain 0 4).cmem 0).stores = []) ∧
    runsB (atIns [0x07] id) (opIs 0x07) = true := by decide +kernel

/-- AccumulatorGroup: signed, unsigned and fractional sums, cleared and negated, with the pointers kept or moved. -/
theorem witness_AccumulatorGroup :
    (∀ n ∈ [0, 3, 5, 8, 16, 32, 0x3C], let s := atIns [0xD0, BitVec.ofNat 8 n] id
      runsB s (fun i => opIs 0xD0 i && i.ctl == n) = true ∧
      mpuCheck (s.mpu 0) 1 0 0 vMpuData [0] 0 = none ∧ mpuCheck (s.mpu 0) 1 0 0 vMpuData [0x20000] 0 = none ∧
      runsB (atIns [0xD1, 0x12, BitVec.ofNat 8 (n % 32)] id) (fun i => opIs 0xD1 i && i.ctl == n % 32) = true) ∧
    (∀ n ∈ [0xD2, 0xD3], runsB (atIns [BitVec.ofNat 8 n, 0x11] id) (fun i => opIs n i && i.s == 1 && i.d == 1) = true) ∧
    runsB (atIns [0xD4, 0x11, 63] id) (fun i => opIs 0xD4 i && i.s == 1 && i.imm == 63) = true ∧
    ((atIns [] id).core 0).poison 1 = none ∧ runsB (atIns [0xD5, 0x01] id) (fun i => opIs 0xD5 i && i.s == 1) = true := by
  decide +kernel

/-- ControlGroupAndHardwareLoops: a wait that a request ends and one that none does; counts 0 and 1. -/
theorem witness_ControlGroupAndHardwareLoops :
    (∀ n ∈ [0x00, 0x01, 0x02, 0x03, 0x04, 0x0F, 0x0C], runsB (atIns [BitVec.ofNat 8 n] id) (opIs n) = true) ∧
    (let s := atIns [0x01] fun k => { k with irqPend := 2, sr := 0xF00 }
     s.wakes 0 = true ∧ runsB s (opIs 0x01) = true ∧
      ({ s.core 0 with waiting := true } : Core).waiting = true ∧ s.coreRuns 0 = true) ∧
    ((atIns [0x01] id).wakes 0 = false) ∧
    (let s := heldStore (atIns [0x04] id)
     runsB s (opIs 0x04) = true ∧ ((s.drain 0 4).cmem 0).stores ≠ []) ∧
    (∀ n ∈ [0, 1], let s := atIns [0xAC, 0x01, 2, 0, 0, 0] (regs12 (BitVec.ofNat 32 n) 0)
      runsB s (fun i => opIs 0xAC i && i.s == 1 && i.disp16 == 2) = true ∧ (s.insAt 0 0x106).isOk = true) ∧
    (∀ n ∈ [0, 1], runsB (atIns [0xAD, BitVec.ofNat 8 n, 0, 2, 0] id) (fun i => opIs 0xAD i && i.imm.toNat == n) = true) := by
  decide +kernel

/-- SystemCallsAndTheirReturn: a call that SCE allows, with 255 records; a return to its record, and from another address. -/
theorem witness_SystemCallsAndTheirReturn :
    (∀ n ∈ [0x08, 0x09, 0x0A, 0x0B], let s := atIns [BitVec.ofNat 8 n] fun k =>
        { k with sce0 := 0xFF001000, sce1 := 0xFF001000, sce2 := 0xFF001000, sce3 := 0xFF001000
                 ss := [(3, List.replicate 255 ⟨0, 0⟩)], sr := 0x3000 }
      runsB s (opIs n) = true ∧ bit (s.core 0).sce0 31 = true ∧ bit (s.core 0).sce0 30 = true ∧ fld (s.core 0).sce0 25 24 = 3 ∧
      (s.core 0).pl = 3 ∧ ceiling 0 ≤ 3 ∧ ((s.core 0).stack 3).length = 255) ∧
    (∀ l ∈ [0x104, 0x108], let r := ssRec 0x104 2 3 0 false
      let s := atIns [0x06] fun k => { k with lk := BitVec.ofNat 24 l, ss := [(0, [r])] }
      runsB s (opIs 0x06) = true ∧ (s.core 0).escActive = false ∧ (s.core 0).stack (s.core 0).pl = r :: [] ∧ r.kind = 2 ∧
      ((s.core 0).lk = r.pc ↔ l = 0x104) ∧ ceiling 0 ≤ r.pl ∧
      ({ s with nh := { s.nh with b1 := List.replicate 8 true } } : State).canDraw 1 8 = true) := by decide +kernel

/-- A core with a privilege level in SR. -/
def atLevel (l : Nat) (k : Core) : Core := { k with sr := BitVec.ofNat 32 (0xF00 + 4096 * l) }

/-- SpecialRegisters: every register by number, and PL0's own at PL3. -/
theorem witness_SpecialRegisters :
    (∀ n ∈ [0, 1, 2, 3, 4, 5, 6, 7, 8, 9, 10, 11, 12, 13, 14, 0x10, 0x11, 0x12, 0x13, 0x14, 0x15, 0x16],
      runsB (atIns [0xE4, 0x10, BitVec.ofNat 8 n] id) (fun i => opIs 0xE4 i && i.imm.toNat == n) = true ∧
      runsB (atIns [0xE5, 0x01, BitVec.ofNat 8 n] id) (fun i => opIs 0xE5 i && i.imm.toNat == n) = true) ∧
    (let s := atIns [0xE4, 0x10, 0x10] (atLevel 3)
     runsB s (fun i => opIs 0xE4 i && sprPl0 i.imm.toNat) = true ∧ (s.core 0).pl ≠ 0) ∧
    sprPl0 0x01 = false := by decide +kernel

/-- Whether a port's read is possible. -/
def portRead (s : State) (p : Nat) : Bool :=
  match s.pread 0 (s.core 0).pl p with
  | .ok _ _ => true
  | _ => false

/-- Core 2, which no source range lets post, stands at EVPOST. -/
def posting2 : State :=
  let s := ck.setCmem 2 { ck.cmem 2 with i := mwrite [] 0x100 [0xE6, 0x12], stale := [] }
  s.setCore 2 (regs12 5 0x3FFF { ck.core 2 with pc := 0x100, run := true })

/-- PortsAndPostedEvents: a port of each way, one that PL3 may not reach, posts with 7 and 8 on their way. -/
theorem witness_PortsAndPostedEvents :
    (∀ n ∈ [0xE0, 0xE1], let s := atIns [BitVec.ofNat 8 n, 0x10, 0x01, 0x04] id
      runsB s (fun i => opIs n i && i.imm.toNat % 65536 == 0x0401) = true) ∧
    (∀ n ∈ [0xE2, 0xE3], let s := atIns [BitVec.ofNat 8 n, 0x12] (regs12 5 0x0401)
      runsB s (fun i => opIs n i && ((s.core 0).reg i.s).toNat % 65536 == 0x0401) = true) ∧
    (∀ n ∈ [0x40, 0x50], let s := atIns [0xF5, BitVec.ofNat 8 n, 0x12, 0x00] (regs12 5 0x0401)
      runsB s (fun i => opIs n i && i.spp && (effAddr (s.core 0) i).toNat % 65536 == 0x0401) = true) ∧
    (let s := atIns [] id
     portRead s 0x0401 = true ∧ (s.pwrite 0 0 0x0401 5).isSome = true ∧
      mpuCheck (s.mpu 0) 2 0 0 vMpuData [0x0401] 0 = none ∧ mpuCheck (s.mpu 0) 2 1 0 vMpuData [0x0401] 0 = none ∧
      mayWritePort 2 3 0x0401 = false ∧ mayReadPort 2 3 0x0300 = false) ∧
    (∀ n ∈ [7, 8], let e : DvEv := { typ := 0x8000, src := 0x900, cls := 1, gts := 0, core := some 0 }
      let s := atIns [0xE6, 0x12] (regs12 5 0x3FFF)
      let s := { s with dv := { s.dv with inbox := List.replicate n e } }
      runsB s (fun i => opIs 0xE6 i && ((s.core 0).reg i.s).toNat < 2 ^ 14) = true ∧ s.mayPost 0 0xFFF = true ∧
      s.posted 0 = n) ∧
    runsB (atIns [0xE6, 0x12] (regs12 5 0x4000)) (opIs 0xE6) = true ∧ ((atIns [0xE6, 0x12] (regs12 5 0x4000)).core 0).reg 2 = 0x4000 ∧
    (let s := posting2
     s.ready 2 = true ∧ (match s.insAt 2 0x100 with | .ok i => opIs 0xE6 i && predHolds i (s.core 2).sr && !barred (s.core 2) i | _ => false) = true ∧
      (s.core 2).pc = 0x100 ∧ (s.core 2).slot = none ∧ s.mayPost 2 0xFFF = false) := by decide +kernel

/-- A descriptor table in bank X whose entry for vector 1 is in use. -/
def descTabled (f : Core → Core) : State :=
  let s := atIns [0x0D] fun k => f { k with sr := 0x3000, edtb := 0x400 }
  let d : Bytes := le 4 0x2000 ++ le 4 0x800 ++ le 4 (0x400 + 0x3C0 + 0x3C) ++ le 4 0
  s.setCmem 0 { s.cmem 0 with x := mwrite [] 0x410 d }

/-- FaultsEnterThroughTheirDescriptor: mask level 14 under a descriptor of level 15; a stack one short of full. -/
theorem witness_FaultsEnterThroughTheirDescriptor :
    let s := descTabled fun k => { k with sr := 0x3E00, ss := [(0, List.replicate 255 ⟨0, 0⟩)] }
    let k := s.core 0
    let b := s.dBytes 0 0x410 16
    gave (s.loadWords 0 (ceiling 0) (k.edtb.toNat + 16 * 1) 4) = true ∧ (descOf b).ok = true ∧ (descOf b).target = 0 ∧ k.ml = 14 ∧ (descOf b).faultLevel = 15 ∧ k.pl = 3 ∧
    ((descOf b).sp - 32).toNat % 8 = 0 ∧ (k.stack 0).length = 255 ∧ (s.frameFlt 0 0 (0x800 - 32)).isNone = true := by
  decide +kernel

/-- EntriesAndReturns: an encoding that no instruction has, an SRAM error, level 15 over 14, a return from a frame. -/
theorem witness_EntriesAndReturns :
    (let s := descTabled id
     s.coreRuns 0 = true ∧ (s.core 0).waiting = false ∧ (s.insAt 0 0x100).isOk = false) ∧
    (let s := atIns [0x00] fun k => { k with sr := 0xE00, irqPend := 0x8002 }
     s.faultDue 0 = false ∧ (s.insAt 0 0x100).isOk = true ∧ (s.core 0).slot = none ∧ (s.core 0).escActive = false ∧
      (s.core 0).ml = 14 ∧ bit (s.core 0).irqPend 15 = true ∧ bit (s.core 0).irqPend 14 = false) ∧
    (let r := ssRec 0x104 1 3 14 true
     let s := atIns [0x06] fun k => { (k.setReg 15 0x700) with ss := [(0, [r])] }
     let s := s.setCmem 0 { s.cmem 0 with x := mwrite [] 0x700 (le 4 0x104 ++ le 4 0x3E00 ++ le 4 0x900) }
     runsB s (opIs 0x06) = true ∧ (s.core 0).stack (s.core 0).pl = r :: [] ∧ r.kind = 1 ∧
      ({ s with nh := { s.nh with b1 := List.replicate 8 true } } : State).canDraw 1 8 = true ∧
      (let b := s.dBytes 0 0x700 12
       gave (s.frameWords 0 0x700) = true ∧ leAt b 0 4 = r.pc.toNat ∧ r.pl ≤ fld (BitVec.ofNat 32 (leAt b 4 4) : Word) 13 12 ∧
        ceiling 0 ≤ fld (BitVec.ofNat 32 (leAt b 4 4) : Word) 13 12)) := by decide +kernel

/-- EscalationAndLockup: a handler that stands, and none. -/
theorem witness_EscalationAndLockup :
    (let k := (atIns [] fun k => { k with hndlValid := true }).core 0
     k.escActive = false ∧ k.hndlValid = true) ∧ (ck.core 0).hndlValid = false ∧ ck.up = true := by decide +kernel

/-- LocalBlockAndCoreControl: a stack of one record, of 255; a tenant core that stands and one that runs. -/
theorem witness_LocalBlockAndCoreControl :
    (∀ n ∈ [1, 255], let k := (atIns [] fun k => { k with ss := [(3, List.replicate n ⟨1, 0⟩)] }).core 0
      k.pl < k.ssSel.toNat ∧ k.stack k.ssSel.toNat = List.replicate (n - 1) ⟨1, 0⟩ ++ [⟨1, 0⟩] ∧
      k.spills k.ssSel.toNat < 65535 ∧ (k.stack k.ssSel.toNat).length < 256) ∧
    (let k := (atIns [] fun k => { k with ssSel := 0, ss := [(0, [ssRec 4 2 0 0 false])] }).core 0
     k.ssSel.toNat ≤ k.pl ∧ k.stack k.pl = ssRec 4 2 0 0 false :: [] ∧ (ssRec 4 2 0 0 false).kind = 2) ∧
    (ck.phys .tenantCore 11 = some 11 ∧ (ck.core 13).run = false ∧ ck.halted = false ∧
      ((ck.setCore 13 { run := true }).core 13).run = true) := by decide +kernel

/-- DmaDescriptors: to the end of a bank; a region that refuses; no parity error, and as many as retire an engine. -/
theorem witness_DmaDescriptors :
    let d : DmaDesc := { src := { space := 1, core := 2, addr := 0 }, dst := { space := 1, core := 3, addr := 0x1FFFC }, len := 4, op := .none }
    let s := ck.setMpu 16 { base := [], attr := [(0, 1 ||| bf 2 1 1 ||| bf 8 3 32)] }
    ck.up = true ∧ (ck.phys .dmaEngine 7).isSome = true ∧ dmaRefused (ck.mpu 16) d.src d.dst d.len = none ∧
    d.src.addr + d.len ≤ 0x20000 ∧ d.dst.addr + d.len = 0x20000 ∧
    ((dmaRefused (s.mpu 16) d.src d.dst d.len).bind (·.viol)).isSome = true ∧
    d.parityErrors = 0 ∧ ck.condemned .dmaEngine 0 = false ∧ (ck.dmaParity 0 40).condemned .dmaEngine 0 = true := by decide +kernel

/-! ### Witnesses: the block -/

/-- StepRunsTheFrontCommand: a queue of two commands, and an empty one. -/
theorem witness_StepRunsTheFrontCommand :
    ({ on with pending := [.reqa, .wupa] } : State).pending = .reqa :: [.wupa] ∧ on.pending = [] := by decide +kernel

/-- FusesNeverUnblow: every fuse blown, and a step. -/
theorem witness_FusesNeverUnblow :
    (let s := { on with tmp := { on.tmp with zfuses := 32, retireFuse := true } }
     s.tmp.zfuses ≤ 32) ∧ (∃ t, step on = .next t) := ⟨by decide +kernel, ⟨_, rfl⟩⟩

/-! ### Figures of the spec's worked examples -/

/-- Chapter 3: the stamp of the capture at 453,699,971.708 ns, and its words in the TIME_GET answer of chapter 5. -/
theorem test_stamp : unitsGts ((1901234567 * 10 ^ 9 + 453699971) * 65536 + 46421) 0 = (0x0000715289876C2BA60ED554 : Gts) := by
  decide +kernel

/-- Chapter 3: a TRIM of 38.5 ns takes 412,806,498.958 ns to 412,806,460.458 ns. -/
theorem test_trim : pinStamp (BitVec.ofNat 32 (77 * 2 ^ 21)) { first := unitsGts (412806498 * 65536 + 62783) 0, run := 0, runAt := 0, bounces := 0 } =
    unitsGts (412806460 * 65536 + 30015) 0 := by decide +kernel

/-- Chapter 5: the messages of that answer. -/
theorem test_response_message :
    (messages 0x0201 0x0011 17 1 (le 12 0x0000715289876C2BA60ED554 ++ le 4 15 ++ le 1 1) 1 0).head? =
      some [0x00110201, 0x00010011, 0xA60ED554, 0x89876C2B, 0x00007152, 0x0000000F, 0x00000001, 0, 0, 0, 0, 0, 0, 0, 0, 0] := by
  decide +kernel

/-- Chapter 7: the GOOSE frame on association 212 spans 236 octets. -/
theorem test_goose_span :
    let frame : Bytes := List.replicate 12 0 ++ [0x81, 0, 0, 0, 0x88, 0xB8, 0, 0, 0, 0xC2, 0, 0x34, 0, 0] ++
      ([0x61, 0x81, 0xB7, 0x84, 8, 0, 0, 0, 9, 0, 0, 0, 0, 0x85, 1, 5, 0x86, 1, 0, 0xAB, 0x81, 0xA4] ++ List.replicate 164 0) ++
      ([0x80, 20] ++ List.replicate 20 0) ++ [0x82, 4, 0, 0, 0, 7, 0x83, 12] ++ List.replicate 12 0 ++ [0x85, 8] ++ List.replicate 8 0
    let p := params 1 1 0 0 0
    frame.length = 264 ∧
    (match parseFrame frame false p with
    | .ok fr => (frameSpan frame p fr).length
    | .error _ => 0) = 236 := by decide +kernel

/-- Chapter 8: the attribute word of VF3's key in slot 9,000. -/
theorem test_attribute_word : sealAttr sealedKey 9000 0 = 0x420C017A00030309 := by decide +kernel

/-- Chapter 13: the filter's instructions. -/
theorem test_filter_encodings :
    runsB (atIns [0xE5, 0x02, 0x05] id) (fun i => opIs 0xE5 i && i.s == 2 && i.imm == 5) = true ∧
    runsB (atIns [0xD5, 0x00] id) (fun i => opIs 0xD5 i && i.s == 0) = true ∧
    runsB (atIns [0xAD, 0x40, 0, 0, 0] id) (fun i => opIs 0xAD i && i.imm == 64 && i.disp16 == 0 && i.len == 5) = true ∧
    runsB (atIns [0xD0, 0x02] id) (fun i => opIs 0xD0 i && i.ctl == 2) = true ∧
    runsB (atIns [0xD4, 0x00, 0x1F] id) (fun i => opIs 0xD4 i && i.d == 0 && i.s == 0 && i.imm == 31) = true := by decide +kernel

/-- Chapter 13: XP wraps from 0x1FFC to 0x1F00 over 256 bytes; linear steps do not. -/
theorem test_circular_step :
    macStep 0x1F40 0x01000004 = 0x1F44 ∧ macStep 0x1FFC 0x01000004 = 0x1F00 ∧ macStep 0x04FC 0x00000004 = 0x0500 := by
  decide +kernel

/-- Chapter 19: of 49 x 49 positions 2,304 are populated; 1,737 are VSS and 316 VDD_CORE (R508, R509). -/
theorem test_ball_counts :
    let count (p : Option Ball → Bool) : Nat :=
      ((upto 49).map fun r => ((upto 49).filter fun c => p (ballAt (r + 1) (c + 1))).length).foldl (· + ·) 0
    count Option.isSome = 2304 ∧ count (· == some .vss) = 1737 ∧ count (· == some .vddCore) = 316 ∧
      ballAt 1 8 = some .clkinP ∧ rowName 49 = "BL" ∧ rowName 20 = "AA" := by decide +kernel

/-! ### The ciphers, hashes and signatures against their standards' own examples (FIPS 197, SP 800-38B, SP 800-38D, FIPS 180-4) -/

theorem test_aes128 : aesBlock (roundKeys (bytesOf (List.range 16))) ((List.range 16).map fun i => 17 * i) =
    octets 16 0x69C4E0D86A7B0430D8CDB78070B4C55A := by decide +kernel

theorem test_cmac : cmac (be 16 0x2B7E151628AED2A6ABF7158809CF4F3C) (be 16 0x6BC1BEE22E409F96E93D7E117393172A) =
    be 16 0x070A16B46B4D4144F79BDD9DD04A287C := by decide +kernel

theorem test_cmac_empty : cmac (be 16 0x2B7E151628AED2A6ABF7158809CF4F3C) [] = be 16 0xBB1D6929E95937287FA37D129B756746 := by
  decide +kernel

/-- Test case 4 of the GCM specification. -/
theorem test_gcm : gcmSeal (be 16 0xFEFFE9928665731C6D6A8F9467308308) (be 12 0xCAFEBABEFACEDBADDECAF888)
    (be 20 0xFEEDFACEDEADBEEFFEEDFACEDEADBEEFABADDAD2)
    (be 60 0xD9313225F88406E5A55909C5AFF5269A86A7A9531534F7DA2E4C303D8A318A721C3C0C95956809532FCF0E2449A6B525B16AEDF5AA0DE657BA637B39) =
    (be 60 0x42831EC2217774244B7221B784D0D49CE3AA212F2C02A4E035C17E2329ACA12E21D514B25466931C7D8F6A5AAC84AA051BA30B396A0AAC973D58E091,
     be 16 0x5BC94FBC3221A5DB94FAE95AE7121A47) := by decide +kernel

theorem test_sha256 : Sys2Proof.Machine.sha256 [0x61, 0x62, 0x63] =
    be 32 0xBA7816BF8F01CFEA414140DE5DAE2223B00361A396177A9CB410FF61F20015AD := by decide +kernel

theorem test_sha512 : (Sys2Proof.Machine.sha512 [0x61, 0x62, 0x63]).take 16 = be 16 0xDDAF35A193617ABACC417349AE204131 := by
  decide +kernel

theorem test_sha512t : sha512t [0x61, 0x62, 0x63] =
    be 32 0x53048E2681941EF99B2E29B76B4C7DABE4C2D0C634FC6D46E0E2F13107E7AF23 := by decide +kernel

/-- A signature verifies under its signer's public key, and not over another digest. -/
theorem test_ecdsa : (ecPublic 5).any (fun q => let (r, s) := ecdsaSign 5 77 9
    ecdsaVerify q.1 q.2 77 r s && !ecdsaVerify q.1 q.2 78 r s) = true := by decide +kernel

end Sys2Proof.Tests
end

section
/-! PROOFS. Register accesses by the host and by the cores (R9, R11, R92, R94 to R97, R99, R330, R371). -/

namespace Sys2Proof.Machine

/-! ### Where the global block lies, and what its registers do -/

/-- The first 4 KiB of BAR0 are the global block, in PF0 and in every VF. -/
theorem barPlace_glb (fn : Nat) {off : Nat} (h : off < 0x1000) : barPlace fn 0 off = .glb off := by
  unfold barPlace
  by_cases hfn : fn = 0 <;> simp [hfn, h]

theorem barRead_glb (s : State) (fn : Nat) {off : Nat} (h : off < 0x1000) : s.barRead fn 0 off = s.glbRead fn off := by
  unfold State.barRead
  rw [barPlace_glb fn h]

theorem barWrite_glb (s : State) (fn : Nat) {off : Nat} (v : Word) (h : off < 0x1000) :
    s.barWrite fn 0 off v = s.glbWrite fn off v := by
  unfold State.barWrite
  rw [barPlace_glb fn h]

/-! ### Host accesses -/

/-- The completion of a host read: its data, or a status that says why there are none. -/
def readCompletion (fn size status : Nat) (data : Bytes) : Tlp :=
  { id := 0, fn := fn, kind := .completion, addr := 0, data := data, len := size, status := status }

section
variable {s : State} {fn : Fin 64} (h : s.barOpen fn.val = true)
include h

/-- A host read of four bytes of the global block is answered with the register's value. -/
theorem hostRegisterRead_glb {off : Nat} (hoff : off < 0x1000) (h4 : off % 4 = 0) :
    exec (.hostRegisterRead fn 0 off ⟨4, false⟩) s = .next ((s.glbRead fn.val off).2.place false
      (readCompletion fn.val 4 0 (le 4 (s.glbRead fn.val off).1.toNat))) := by
  change execHostRegisterRead fn 0 off ⟨4, false⟩ s = _
  simp [execHostRegisterRead, h, barAligned, h4, barRead_glb s fn.val hoff, readCompletion]

/-- The doorbell BAR reads 0. -/
theorem hostRegisterRead_doorbells (off size : Nat) :
    exec (.hostRegisterRead fn 2 off ⟨size, false⟩) s =
      .next (s.place false (readCompletion fn.val size 0 (List.replicate size 0))) := by
  change execHostRegisterRead fn 2 off ⟨size, false⟩ s = _
  simp [execHostRegisterRead, h, readCompletion]

/-- A read of a size or an alignment that is not served gets Completer Abort. -/
theorem hostRegisterRead_misaligned {bar off size : Nat} (hbar : bar ≠ 2) (ha : barAligned off size = false) :
    exec (.hostRegisterRead fn bar off ⟨size, false⟩) s =
      .next ((s.aerLog .completerAbort fn.val 0).place false (readCompletion fn.val size 4 [])) := by
  change execHostRegisterRead fn bar off ⟨size, false⟩ s = _
  simp [execHostRegisterRead, h, hbar, ha, readCompletion]

/-- An AtomicOp asks for a feature that is absent: Unsupported Request. -/
theorem hostRegisterRead_atomic (bar off size : Nat) :
    exec (.hostRegisterRead fn bar off ⟨size, true⟩) s =
      .next ((s.aerLog .unsupportedRequest fn.val 0).place false (readCompletion fn.val size 1 [])) := by
  change execHostRegisterRead fn bar off ⟨size, true⟩ s = _
  simp [execHostRegisterRead, h, readCompletion]

theorem hostBarWrite_glb {off : Nat} (v : BitVec 64) (hoff : off < 0x1000) (h4 : off % 4 = 0) :
    s.hostBarWrite fn.val 0 off 4 v = s.glbWrite fn.val off (v.truncate 32) := by
  simp [State.hostBarWrite, h, barAligned, h4, barWrite_glb s fn.val _ hoff]

/-- A host write of a size or an alignment that is not served is counted, and writes nothing. -/
theorem hostBarWrite_misaligned {bar off size : Nat} (v : BitVec 64) (hbar : bar = 0 ∨ bar = 4)
    (ha : barAligned off size = false) :
    s.hostBarWrite fn.val bar off size v = s.setFun fn.val
      { s.fun_ fn.val with badAccess := satInc (s.fun_ fn.val).badAccess 65535 } := by
  rcases hbar with rfl | rfl <;> simp [State.hostBarWrite, h, ha]

end

/-! ### Writes of registers -/

theorem registerWrite_bar {s : State} (hup : s.up = true) (fn : Fin 64) (bar off size : Nat) (v : BitVec 64) :
    exec (.registerWrite (.bar fn bar off size) v) s = .next (s.hostBarWrite fn.val bar off size v) := by
  change execRegisterWrite (.bar fn bar off size) v s = _
  simp [execRegisterWrite, hup]

/-- A host write of four bytes of the global block writes the register. -/
theorem registerWrite_glb {s : State} (hup : s.up = true) {fn : Fin 64} (h : s.barOpen fn.val = true) {off : Nat}
    (v : BitVec 64) (hoff : off < 0x1000) (h4 : off % 4 = 0) :
    exec (.registerWrite (.bar fn 0 off 4) v) s = .next (s.glbWrite fn.val off (v.truncate 32)) := by
  rw [registerWrite_bar hup, hostBarWrite_glb h v hoff h4]

section
variable {s : State} (hup : s.up = true) {mid c : Nat} (pl : BitVec 2) (port : BitVec 16) (v : BitVec 64)
  (hc : midCore mid = some c)
include hup hc

/-- A core's write of a port that its block allows takes effect. -/
theorem registerWrite_port_some {t : State} (h : s.pwrite c pl.toNat port.toNat (v.truncate 32) = some t) :
    exec (.registerWrite (.port mid pl port) v) s = .next t := by
  change execRegisterWrite (.port mid pl port) v s = _
  simp [execRegisterWrite, hup, hc, h]

/-- A running core's write of a port that its block forbids is the privilege fault of the port. -/
theorem registerWrite_port_none (h : s.pwrite c pl.toNat port.toNat (v.truncate 32) = none) (hr : s.coreRuns c = true) :
    exec (.registerWrite (.port mid pl port) v) s = .next (s.takeFault c (portFault port.toNat 1)) := by
  change execRegisterWrite (.port mid pl port) v s = _
  simp [execRegisterWrite, hup, hc, h, hr]

end

/-- A block that does not allow a write at a level takes none. -/
theorem pwrite_denied {c pl port : Nat} (s : State) (v : Word) (h : mayWritePort c pl port = false) :
    s.pwrite c pl port v = none := by
  simp [State.pwrite, h]

/-! ### The levels of the blocks (R371) -/

/-- The clock monitors take writes at PL0 and PL1, the tamper block and the key block at PL0, the control block at PL0 of the
firmware cores; the time is read at every level and the rest of its block at PL0 and PL1. -/
theorem port_levels (c pl : Nat) :
    mayWritePort c pl 0x0401 = decide (pl ≤ 1) ∧ mayWritePort c pl 0x0F00 = decide (pl = 0) ∧
    mayWritePort c pl 0x0700 = decide (pl = 0) ∧ mayWritePort c pl 0x0300 = (decide (pl = 0) && decide (c < 2)) ∧
    mayReadPort c pl 0x0500 = true ∧ mayReadPort c pl 0x0504 = decide (pl ≤ 1) := by
  simp [mayWritePort, mayReadPort, inBlock, sysBlock]

/-! ### The obligation -/

/-- Settles O16: each access is one of those above, and each register of the global block does what `glbRead` and `glbWrite`
say of its offset. -/
theorem registerAccesses : Obligations.RegisterAccesses := by
  intro s fn hup
  refine ⟨fun h => ?_, fun h v => ?_, fun mid pl port v c t hc ht => registerWrite_port_some hup pl port v hc ht,
    fun mid pl port v c hc hd hr => registerWrite_port_none hup pl port v hc (pwrite_denied s _ hd) hr, port_levels⟩
  · exact ⟨hostRegisterRead_glb h (by decide) rfl, hostRegisterRead_glb h (by decide) rfl,
      hostRegisterRead_glb h (by decide) rfl, hostRegisterRead_glb h (by decide) rfl,
      hostRegisterRead_glb h (by decide) rfl, hostRegisterRead_glb h (by decide) rfl,
      hostRegisterRead_doorbells h, fun _ _ _ => hostRegisterRead_misaligned h, hostRegisterRead_atomic h⟩
  · refine ⟨registerWrite_glb hup h v (by decide) rfl, registerWrite_glb hup h v (by decide) rfl,
      registerWrite_glb hup h v (by decide) rfl, registerWrite_glb hup h v (by decide) rfl, ?_⟩
    rw [registerWrite_bar hup, hostBarWrite_misaligned h v (.inl rfl) (by decide)]

end Sys2Proof.Machine
end

section
/-! PROOFS. What the archive, the mailboxes, Driner's responses and the job table leave of the module as it was, whatever
they do: time, supplies, flash, contactless block, lifecycle, fuses. -/

namespace Sys2Proof.Machine

/-- The parts of a state that lie outside the archive and all that it answers. -/
structure Outside where
  now : Nat
  free : Nat
  clk : Clk
  tim : Tim
  loop : Loop
  pas : Tab Pa
  pwr : Pwr
  ret : Ret
  fls : Fls
  cl : Cl
  lc : Lc
  lnk : Lnk
  pending : List Instr
  otp : Otp
  /-- prepare holds the archive's intake: set and lifted by the supplies alone -/
  prepare : Bool

def State.outside (s : State) : Outside :=
  { now := s.now, free := s.free, clk := s.clk, tim := s.tim, loop := s.loop, pas := s.pas, pwr := s.pwr, ret := s.ret,
    fls := s.fls, cl := s.cl, lc := s.lc, lnk := s.lnk, pending := s.pending, otp := s.otp, prepare := s.arc.prepare }

/-- What equal outsides say, part by part. -/
theorem parts_of_outside {s t : State} (h : t.outside = s.outside) :
    t.now = s.now ∧ t.pwr = s.pwr ∧ t.fls = s.fls ∧ t.otp = s.otp :=
  ⟨congrArg Outside.now h, congrArg Outside.pwr h, congrArg Outside.fls h, congrArg Outside.otp h⟩

/-! ### Writes of the parts that lie inside -/

section
variable (s : State)

/-! A write of a part with any value leaves the outside; so does a write of the archive that leaves `prepare`. -/

theorem outside_with_bch (x : Bch) : ({ s with bch := x } : State).outside = s.outside := rfl

theorem outside_with_arc {x : Arc} (h : x.prepare = s.arc.prepare := by rfl) :
    ({ s with arc := x } : State).outside = s.outside := by
  simp only [State.outside, h]
  rfl

@[simp] theorem outside_setCore (i : Nat) (x : Core) : (s.setCore i x).outside = s.outside := rfl
@[simp] theorem outside_setChan (i : Nat) (x : Chan) : (s.setChan i x).outside = s.outside := rfl
@[simp] theorem outside_setFun (i : Nat) (x : Fun) : (s.setFun i x).outside = s.outside := rfl
@[simp] theorem outside_setQrun (i : Nat) (x : QpRun) : (s.setQrun i x).outside = s.outside := rfl
@[simp] theorem outside_setLane (i : Nat) (x : Lane) : (s.setLane i x).outside = s.outside := rfl
@[simp] theorem outside_setKrow (i : Nat) (x : KRow) : (s.setKrow i x).outside = s.outside := rfl
@[simp] theorem outside_setHunit (i : Nat) (x : HashUnit) : (s.setHunit i x).outside = s.outside := rfl
@[simp] theorem outside_setEng (i : Nat) (x : Engine) : (s.setEng i x).outside = s.outside := rfl
@[simp] theorem outside_setNblk (i : Nat) (x : NandBlk) : (s.setNblk i x).outside = s.outside := rfl

/-- A change repeated for the elements of a list leaves what each of them leaves. -/
theorem each_keeps {α β : Type} (P : State → β) (f : α → State → State) (h : ∀ a s, P (f a s) = P s) (l : List α) :
    P (each l f s) = P s := by
  unfold each
  induction l generalizing s with
  | nil => rfl
  | cons a l ih => rw [List.foldl_cons, ih, h]

theorem outside_each {α : Type} (f : α → State → State) (h : ∀ a s, (f a s).outside = s.outside) (l : List α) :
    (each l f s).outside = s.outside := each_keeps s State.outside f h l

theorem outside_ite {s t u : State} {c : Prop} [Decidable c] (ht : t.outside = s.outside) (hu : u.outside = s.outside) :
    (if c then t else u).outside = s.outside := by
  split_ifs
  · exact ht
  · exact hu

/-! ### Egress, mailboxes and Driner's responses -/

@[simp] theorem outside_creditLate : s.creditLate.outside = s.outside := by
  unfold State.creditLate
  refine outside_each s _ (fun t s => ?_) _
  dsimp only
  split <;> rfl

@[simp] theorem outside_creditWait : s.creditWait.outside = s.outside := by
  unfold State.creditWait
  split
  · rfl
  · split
    · exact outside_creditLate s
    · rfl
  · rfl

@[simp] theorem outside_place (prio : Bool) (t : Tlp) : (s.place prio t).outside = s.outside := by
  unfold State.place
  cases prio
  · rfl
  · exact outside_creditWait _

@[simp] theorem outside_msix (fn vec : Nat) (prio : Bool) : (s.msix fn vec prio).outside = s.outside := by
  simp only [State.msix]
  split_ifs <;> simp

@[simp] theorem outside_cause (fn b : Nat) : (s.cause fn b).outside = s.outside := by
  simp only [State.cause]
  split_ifs <;> simp

@[simp] theorem outside_signal (ch : Nat) : (s.signal ch).outside = s.outside := by
  simp only [State.signal]
  split
  · simp
  · split_ifs <;> simp
  · rfl

@[simp] theorem outside_dbSet (ch : Nat) (bits : Word) : (s.dbSet ch bits).outside = s.outside := by
  simp only [State.dbSet]
  split_ifs <;> simp

@[simp] theorem outside_push (ch : Nat) (m : List Word) : (s.push ch m).outside = s.outside := by
  simp only [State.push]
  split_ifs <;> simp

@[simp] theorem outside_notice (fn op : Nat) (p : Bytes) : (s.notice fn op p).outside = s.outside := by
  simp only [State.notice]
  split_ifs
  · rfl
  · rfl
  · rw [outside_cause, outside_each _ _ (fun m s => outside_push s _ m)]
    rfl

@[simp] theorem outside_reply (party tag op st : Nat) (p : Bytes) : (s.reply party tag op st p).outside = s.outside := by
  unfold State.reply
  split_ifs <;> rfl

/-! ### Jobs and hash units -/

@[simp] theorem outside_freeUnits (j : Job) : (s.freeUnits j).outside = s.outside := by
  have hl : (each j.lanes (fun p s => s.setLane p {}) s).outside = s.outside := outside_each s _ (fun _ _ => by rfl) _
  simp only [State.freeUnits]
  rw [outside_with_bch]
  split
  · rw [outside_setHunit, hl]
  · exact hl

@[simp] theorem outside_finishJob (j : Job) (st : Nat) (r : Bytes) : (s.finishJob j st r).outside = s.outside := by
  unfold State.finishJob
  split_ifs
  · rfl
  · exact outside_freeUnits s j

@[simp] theorem outside_jobRecorded (id st dseq : Nat) : (s.jobRecorded id st dseq).outside = s.outside := by
  unfold State.jobRecorded
  split
  · exact outside_finishJob _ _ _ _
  · rfl

@[simp] theorem outside_hashWork (n : Nat) (avoid : Option Nat) : (s.hashWork n avoid).outside = s.outside := by
  unfold State.hashWork
  split
  · rfl
  · dsimp only
    split_ifs <;> rfl

@[simp] theorem outside_hashes (n : Nat) : (s.hashes n).outside = s.outside := outside_hashWork s _ _

/-! ### The archive's answers and notices -/

@[simp] theorem outside_arcEvent (b : Nat) : (s.arcEvent b).outside = s.outside := rfl

@[simp] theorem outside_arcNotice (code dseq : Nat) : (s.arcNotice code dseq).outside = s.outside := outside_notice s _ _ _

@[simp] theorem outside_answer (w : Waiter) (st dseq : Nat) (g : Gts) : (s.answer w st dseq g).outside = s.outside := by
  unfold State.answer
  cases w <;> simp

@[simp] theorem outside_recNotice (r : Rec) : (s.recNotice r).outside = s.outside := by
  have h : (if s.arc.emNotice then { s with arc := { s.arc with emNotice := false } }.arcNotice 5 r.dseq else s).outside =
      s.outside := outside_ite (outside_arcNotice _ _ _) rfl
  have hn (code dseq : Nat) := (outside_arcNotice _ code dseq).trans h
  unfold State.recNotice
  dsimp only
  split
  · exact hn 4 r.dseq
  · exact h
  · exact outside_ite (hn _ _) (outside_ite (hn _ _) h)
  · exact outside_ite (hn _ _) h
  · exact h

/-! ### Segments, stripes and emergency sets -/

@[simp] theorem outside_markErase (b : Nat) (f : EraseFor) : (s.markErase b f).outside = s.outside := rfl

@[simp] theorem outside_eraseAhead (b : Nat) : (s.eraseAhead b).outside = s.outside := by
  unfold State.eraseAhead
  split
  · split_ifs <;> rfl
  · rfl

@[simp] theorem outside_leaveStripe : s.leaveStripe.outside = s.outside := by
  simp only [State.leaveStripe]
  refine (outside_each _ _ (fun b s => ?_) _).trans rfl
  split_ifs <;> rfl

@[simp] theorem outside_fillSets : s.fillSets.outside = s.outside := by
  unfold State.fillSets
  refine outside_each _ _ (fun b s => ?_) _
  split <;> rfl

@[simp] theorem outside_takeEmergency : s.takeEmergency.outside = s.outside := by
  unfold State.takeEmergency
  split
  · rfl
  · rw [outside_arcEvent, outside_fillSets]
    exact outside_leaveStripe s

@[simp] theorem outside_newStripe : s.newStripe.outside = s.outside := by
  simp only [State.newStripe]
  split
  · exact (outside_each _ _ (fun b s => outside_eraseAhead s b) _).trans rfl
  · exact outside_takeEmergency _

@[simp] theorem outside_dealSeg (n : Nat) : (s.dealSeg n).outside = s.outside := by
  have h : (if s.arc.stripeLeft = 0 then s.newStripe else s).outside = s.outside := by split_ifs <;> simp
  simp only [State.dealSeg]
  split
  · exact h
  · exact (outside_with_arc _).trans ((outside_setNblk _ _ _).trans h)

@[simp] theorem outside_moveSeg (n : Nat) : (s.moveSeg n).outside = s.outside := by
  simp only [State.moveSeg]
  rw [outside_dealSeg]
  split <;> rfl

@[simp] theorem outside_newSeg : s.newSeg.outside = s.outside := by
  simp only [State.newSeg]
  rw [outside_dealSeg]
  rfl

theorem outside_with_segs (f : Seg → Seg) :
    ({ s with arc := { s.arc with segs := s.arc.segs.map f } } : State).outside = s.outside := outside_with_arc s

@[simp] theorem outside_growStream (g a b : Nat) : (s.growStream g a b).outside = s.outside :=
  (outside_with_segs _ _).trans (outside_each s _ (fun _ s => outside_newSeg s) _)

/-! ### Records, gaps, runs and drawers -/

theorem outside_growStream_with {x : Arc} (g a b : Nat) (h : x.prepare = s.arc.prepare := by rfl) :
    (({ s with arc := x } : State).growStream g a b).outside = s.outside :=
  (outside_growStream _ _ _ _).trans (outside_with_arc s h)

@[simp] theorem outside_placeRec (r : Rec) (w : Waiter) : (s.placeRec r w).outside = s.outside := by
  have hh (n m : Nat) : ((s.hashes n).hashes m).outside = s.outside := by simp
  unfold State.placeRec
  split
  · rfl
  · refine (outside_recNotice _ _).trans ?_
    dsimp only
    split
    · exact outside_ite ((outside_growStream_with _ _ _ _).trans (hh _ _))
        ((outside_answer _ _ _ _ _).trans ((outside_growStream_with _ _ _ _).trans (hh _ _)))
    · exact (outside_growStream_with _ _ _ _).trans (hh _ _)

@[simp] theorem outside_putGap (g : Gap) : (s.putGap g).outside = s.outside := outside_placeRec _ _ _

@[simp] theorem outside_closeGaps (p : Gap → Bool) : (s.closeGaps p).outside = s.outside := by
  unfold State.closeGaps
  split_ifs
  · rfl
  · exact (outside_each _ _ (fun g s => outside_putGap s g) _).trans rfl

@[simp] theorem outside_gapDrop (cls cause n b : Nat) (g1 g2 : Gts) : (s.gapDrop cls cause n b g1 g2).outside = s.outside := by
  simp only [State.gapDrop]
  split <;> rfl

@[simp] theorem outside_putRun (r : Run) : (s.putRun r).outside = s.outside :=
  (outside_with_arc _).trans (outside_placeRec s _ _)

@[simp] theorem outside_endRuns (p : Run → Bool) : (s.endRuns p).outside = s.outside := by
  unfold State.endRuns
  split_ifs
  · rfl
  · exact (outside_each _ _ (fun g s => outside_putRun s g) _).trans rfl

@[simp] theorem outside_newDrawer : s.newDrawer.outside = s.outside := by
  simp only [State.newDrawer]
  exact outside_placeRec _ _ _

@[simp] theorem outside_closeDrawer (c : Nat) : (s.closeDrawer c).outside = s.outside := by
  have h : ((s.closeGaps fun _ => true).endRuns fun _ => true).outside = s.outside := by simp
  have hp (r : Rec) := (outside_placeRec _ r .none).trans h
  unfold State.closeDrawer
  dsimp only
  split
  · exact h
  · rw [outside_newDrawer]
    exact outside_ite ((outside_arcNotice _ _ _).trans ((outside_with_arc _).trans (hp _)))
      ((outside_with_arc _).trans (hp _))

@[simp] theorem outside_seqFit (r : Rec) (w : Waiter) : (s.seqFit r w).outside = s.outside := by
  unfold State.seqFit
  split
  · rfl
  · split_ifs <;> simp

@[simp] theorem outside_arcRecord (code b seg n : Nat) (x : Bytes) : (s.arcRecord code b seg n x).outside = s.outside := by
  simp only [State.arcRecord]
  split_ifs <;> simp

/-- A level of use is noted with its record. -/
theorem outside_noted (c : Prop) [Decidable c] {x : Arc} (code n : Nat) (h : x.prepare = s.arc.prepare := by rfl) :
    (if c then ({ s with arc := x } : State).arcRecord code 0 0 n [] else s).outside = s.outside :=
  outside_ite ((outside_arcRecord _ _ _ _ _ _).trans (outside_with_arc s h)) rfl

@[simp] theorem outside_usage : s.usage.outside = s.outside := by
  unfold State.usage
  refine outside_ite ((outside_with_arc _).trans ((outside_arcRecord _ _ _ _ _ _).trans ?_)) ?_
  all_goals exact .trans (outside_noted _ _ _ _) (outside_noted s _ _ _)

@[simp] theorem outside_seqNow (r : Rec) (w : Waiter) : (s.seqNow r w).outside = s.outside := by
  unfold State.seqNow
  rw [outside_usage, outside_seqFit]

/-! ### Seals and commitment -/

@[simp] theorem outside_ask (p n : Nat) : (s.ask p n).outside = s.outside := by
  unfold State.ask
  split <;> rfl

@[simp] theorem outside_draw (p n : Nat) : (s.draw p n).2.outside = s.outside := by
  unfold State.draw
  split <;> rfl

@[simp] theorem outside_drawSign (d e n : Nat) : (s.drawSign d e n).2.outside = s.outside := by
  induction n generalizing s with
  | zero => exact outside_ask s _ _
  | succ n ih =>
    unfold State.drawSign
    split_ifs
    · exact outside_ask s _ _
    · dsimp only
      split
      · simp
      · rw [ih]; simp

@[simp] theorem outside_runProg (e : Engine) (n : Nat) : (s.runProg e n).2.outside = s.outside := by
  unfold State.runProg
  dsimp only
  split
  · exact outside_drawSign s _ _ _
  · rfl
  · split <;> rfl

@[simp] theorem outside_compute (e : Engine) (op w : Nat) : (s.compute e op w).2.outside = s.outside := by
  unfold State.compute
  dsimp only
  split
  · split <;> rfl
  · rfl
  · exact outside_runProg s _ _
  · rfl

@[simp] theorem outside_startOp (n : Nat) (f : EngineFor) : (s.startOp n f).outside = s.outside := by
  have h := outside_compute s (s.eng n) (fld (s.eng n).cmd 3 0) (fld (s.eng n).cmd 12 4)
  simp only [State.startOp]
  split_ifs
  · rfl
  · split
    · next hc => rw [hc] at h; exact h
    · next hc =>
      rw [hc] at h
      exact (outside_setEng _ _ _).trans ((outside_each _ _ (fun _ _ => by rfl) _).trans h)

@[simp] theorem outside_fwSign (n row : Nat) (d : Bytes) (f : EngineFor) (b : Bool) :
    (s.fwSign n row d f b).outside = s.outside := by
  unfold State.fwSign
  split_ifs
  · exact outside_ask s _ _
  · exact outside_startOp _ _ _

@[simp] theorem outside_merkleWork (d : Drawer) : (s.merkleWork d).outside = s.outside := by
  simp [State.merkleWork]

@[simp] theorem outside_seekSeal : s.seekSeal.outside = s.outside := by
  unfold State.seekSeal
  split
  · rfl
  · refine outside_ite rfl ?_
    cases hw : s.halted || s.noEngine
    · simp only [Bool.false_and, Bool.false_eq_true, if_false]
      split
      · rfl
      · refine outside_ite ((outside_ask _ _ _).trans (outside_with_arc _)) ?_
        rw [outside_fwSign, outside_merkleWork]
        exact outside_with_arc s
    · simp only [Bool.true_and, if_true]
      exact outside_ite ((outside_arcNotice _ _ _).trans (outside_with_arc s)) (outside_with_arc s)

@[simp] theorem outside_onCommit (a : ARec) : (s.onCommit a).outside = s.outside := by
  unfold State.onCommit
  refine (outside_each _ _ (fun w s => outside_answer s _ _ _ _) _).trans ((outside_with_arc _).trans ?_)
  split
  · exact outside_ite rfl rfl
  · rfl

@[simp] theorem outside_commitScan : s.commitScan.outside = s.outside := by
  unfold State.commitScan
  rw [outside_seekSeal]
  exact (outside_each _ _ (fun a s => outside_onCommit s a) _).trans (outside_with_arc s)

@[simp] theorem outside_programAll : s.programAll.outside = s.outside := by
  unfold State.programAll
  exact (outside_commitScan _).trans (outside_with_arc s)

/-! ### Power-fail prepare -/

@[simp] theorem outside_calmCheck : s.calmCheck.outside = s.outside := outside_with_arc s

/-- Prepare holds the archive's intake, and otherwise changes nothing outside the archive. -/
theorem outside_archivePrepare : s.archivePrepare.outside = { s.outside with prepare := true } := by
  unfold State.archivePrepare
  split_ifs
  · rfl
  · have hd (r : Rec) (w : Waiter) (s : State) :
        ((s.gapDrop r.cls.toNat 3 1 (padded r.body.length) r.gts r.gts).answer w stResource 0 r.gts).outside = s.outside := by
      simp
    refine (outside_calmCheck _).trans ((outside_closeGaps _ _).trans ?_)
    refine (outside_each _ _ (fun n s => outside_moveSeg s n) _).trans ?_
    have ht (t : State) : (if t.arc.emOpen && 128 ≤ t.arc.stripeLeft then t else t.takeEmergency).outside = t.outside :=
      outside_ite rfl (outside_takeEmergency t)
    refine (ht _).trans ?_
    refine (outside_each _ _ (fun (a : Arrival) s => hd a.r a.waiter s) _).trans ?_
    exact (outside_each _ _ (fun (x : Staged) s => hd x.r x.waiter s) _).trans rfl

theorem archivePrepare_leaves : s.archivePrepare.pwr = s.pwr ∧ s.archivePrepare.fls = s.fls ∧
    s.archivePrepare.otp = s.otp ∧ s.archivePrepare.arc.prepare = true := by
  have h := outside_archivePrepare s
  generalize s.archivePrepare = t at h
  exact ⟨congrArg Outside.pwr h, congrArg Outside.fls h, congrArg Outside.otp h, congrArg Outside.prepare h⟩

/-- The dip record changes nothing outside the archive. -/
theorem outside_dipRecord : s.dipRecord.outside = s.outside := by
  unfold State.dipRecord
  refine outside_ite ?_ rfl
  simp

end

end Sys2Proof.Machine
end

section
/-! PROOFS. The supplies: entry and release of MAIN, power-fail prepare and recovery, resets, caps (R2, R408 to R422,
R519). -/

namespace Sys2Proof.Machine

/-! ### What a module reset leaves as it was -/

/-- The time, the supplies, the fuses, the field and the stored keys of the contactless block. -/
structure Standing where
  now : Nat
  pwr : Pwr
  otp : Otp
  field : Bool
  keys : Tab ClaspKey

def State.standing (s : State) : Standing :=
  { now := s.now, pwr := s.pwr, otp := s.otp, field := s.cl.fieldTag, keys := s.cl.keys }

theorem parts_of_standing {s t : State} (h : t.standing = s.standing) :
    t.now = s.now ∧ t.pwr = s.pwr ∧ t.otp = s.otp ∧ t.cl.fieldTag = s.cl.fieldTag ∧ t.cl.keys = s.cl.keys :=
  ⟨congrArg Standing.now h, congrArg Standing.pwr h, congrArg Standing.otp h, congrArg Standing.field h,
    congrArg Standing.keys h⟩

/-- The same when the supplies have become `p`. -/
theorem parts_of_standing_with {s t : State} {p : Pwr} (h : t.standing = { s.standing with pwr := p }) :
    t.now = s.now ∧ t.pwr = p ∧ t.otp = s.otp ∧ t.cl.fieldTag = s.cl.fieldTag :=
  ⟨congrArg Standing.now h, congrArg Standing.pwr h, congrArg Standing.otp h, congrArg Standing.field h⟩

@[simp] theorem rdpFuse_flPut (b : Bytes) : ∀ (f : Fls) (a : Nat), (flPut f a b).rdpFuse = f.rdpFuse := by
  induction b with
  | nil => exact fun _ _ => rfl
  | cons x b ih => exact fun f a => ih _ _

@[simp] theorem rdpFuse_jrnProgram (f : Fls) (m : MarkOp) (k n : Nat) : (jrnProgram f m k n).rdpFuse = f.rdpFuse :=
  rdpFuse_flPut _ _ _

section
variable (s : State)

theorem standing_with_fls {x : Fls} (h : x.rdpFuse = s.fls.rdpFuse) : ({ s with fls := x } : State).standing = s.standing := by
  simp only [State.standing, State.otp, h]

theorem standing_markTo (n : Nat) : (s.markTo n).standing = s.standing := by
  unfold State.markTo
  split
  · rfl
  · next m _ =>
    have h (l : List Nat) : ∀ f : Fls, (l.foldl (fun f k => jrnProgram f m (m.made + k)) f).rdpFuse = f.rdpFuse := by
      induction l with
      | nil => exact fun _ => rfl
      | cons k l ih => exact fun f => (ih _).trans (rdpFuse_jrnProgram _ _ _ _)
    exact standing_with_fls s (h _ _)

theorem standing_flUnpause : s.flUnpause.standing = s.standing := by
  unfold State.flUnpause
  dsimp only
  split
  · split_ifs <;> rfl
  · rfl

theorem standing_markCommitted (m : MarkOp) : (s.markCommitted m).standing = s.standing := by
  have h : (if m.paused then (s.clEvent 5).flUnpause else s.clEvent 5).standing = s.standing := by
    split_ifs
    · exact standing_flUnpause _
    · rfl
  unfold State.markCommitted
  dsimp only
  split_ifs at h ⊢ <;> exact h

theorem standing_endClasp : s.endClasp.standing = s.standing := by
  have hd (t : State) : t.dropClasp.standing = t.standing := by
    unfold State.dropClasp
    dsimp only
    split_ifs <;> rfl
  unfold State.endClasp State.finishMark
  rw [hd]
  split
  · rfl
  · next m _ =>
    dsimp only
    split_ifs
    · exact (standing_markCommitted _ m).trans (standing_markTo s 65)
    · rfl

theorem standing_tearMark : s.tearMark.standing = s.standing := by
  unfold State.tearMark
  split
  · rfl
  · dsimp only
    split_ifs
    · rfl
    · exact standing_with_fls _ (rdpFuse_jrnProgram _ _ _ _)

theorem standing_mixProgram (a : Nat) (b : Bytes) (w : Nat) : (s.mixProgram a b w).standing = s.standing := by
  unfold State.mixProgram
  dsimp only
  split_ifs <;> exact (standing_with_fls { s with free := s.free + 1 + 1 } (rdpFuse_flPut _ _ _))

theorem standing_flReset : s.flReset.standing = s.standing := by
  unfold State.flReset
  refine (standing_with_fls _ (by rfl)).trans ?_
  dsimp only
  split
  · split
    · exact standing_mixProgram s _ _ _
    · rfl
    · rfl
  · split
    · exact standing_mixProgram s _ _ _
    · rfl
    · rfl

theorem standing_archiveReset : s.archiveReset.standing = s.standing := by
  unfold State.archiveReset
  dsimp only
  split <;> rfl

theorem otp_keepFirings (l : List DvEv) (t : Tmp) :
    ({ s with tmp := keepFirings t l } : State).otp = ({ s with tmp := t } : State).otp := by
  induction l generalizing t with
  | nil => rfl
  | cons e l ih =>
    refine (ih _).trans ?_
    dsimp only
    split_ifs <;> rfl

theorem standing_alertTouch : s.alertTouch.standing = s.standing := rfl

theorem standing_setFun (i : Nat) (x : Fun) : (s.setFun i x).standing = s.standing := rfl

theorem standing_resetFun (i : Nat) : (s.resetFun i).standing = s.standing :=
  (standing_setFun _ _ _).trans (standing_setFun _ _ _)

/-- A module reset leaves the time, the fuses, the field and the keys, and of the supplies what `resetPwr` keeps. -/
theorem standing_assertReset : s.assertReset.standing = { s.standing with pwr := resetPwr s.pwr } := by
  have hr : s.flReset.archiveReset.standing = s.standing := (standing_archiveReset _).trans (standing_flReset s)
  have he := (standing_endClasp
    { s.flReset.archiveReset with pwr := { s.flReset.archiveReset.pwr with inReset := true } }).trans
    (congrArg (fun x : Standing => { x with pwr := { x.pwr with inReset := true } }) hr)
  unfold State.assertReset
  dsimp only at he ⊢
  generalize State.endClasp _ = e at he ⊢
  rw [standing_alertTouch, each_keeps _ State.standing _ fun _ _ => by
    exact (standing_setFun _ _ _).trans (standing_resetFun _ _)]
  refine Eq.trans ?_ (congrArg (fun x : Standing => { x with pwr := resetPwr x.pwr }) he)
  exact congrArg (fun o => Standing.mk _ _ o _ _) (otp_keepFirings _ _ _)

/-! ### Power states -/

/-- The state without card power, in the precedence of R2. -/
def uncarded (field vb : Bool) : PowerState := if field then .field else if vb then .backup else .off

/-- A power state entered is the one in force; beside it only the states seen since MAIN change. -/
theorem enterPower_pwr (p : PowerState) : ∃ f b o, (s.enterPower p).pwr =
    { s.pwr with state := p, fieldSeen := f, backupSeen := b, offSeen := o } := by
  unfold State.enterPower
  split_ifs with h
  · exact ⟨_, _, _, by rw [← h]⟩
  · exact ⟨_, _, _, rfl⟩
  · exact ⟨_, _, _, rfl⟩

theorem enterPower_otp (p : PowerState) : (s.enterPower p).otp = s.otp := by
  unfold State.enterPower
  split_ifs <;> rfl

theorem enterPower_keys (p : PowerState) : (s.enterPower p).cl.keys = s.cl.keys := by
  unfold State.enterPower
  split_ifs <;> rfl

theorem leaveMain_pwr : ∃ f b o, s.leaveMain.pwr =
    { s.pwr with state := uncarded s.cl.fieldTag s.vbatOk, fieldSeen := f, backupSeen := b, offSeen := o } :=
  enterPower_pwr _ _

theorem leaveMain_otp : s.leaveMain.otp = s.otp := enterPower_otp _ _

theorem settle_pwr (h : s.pwr.state ≠ .main) : ∃ f b o, s.settle.pwr =
    { s.pwr with state := uncarded s.cl.fieldTag s.vbatOk, fieldSeen := f, backupSeen := b, offSeen := o } := by
  unfold State.settle
  rw [if_neg h]
  exact enterPower_pwr _ _

theorem up_of_inReset (h : s.pwr.inReset = true) : s.up = false := by simp [State.up, h]

theorem up_of_state (h : s.pwr.state ≠ .main) : s.up = false := by simp [State.up, h]

theorem vbatOk_congr {s t : State} (h : t.pwr.vbat = s.pwr.vbat) : t.vbatOk = s.vbatOk := by
  simp only [State.vbatOk, h]

/-! ### Entry and release -/

/-- The module as VIN_3V3 passes 2.85 V rising: module reset is held, the session has ended. -/
def State.powered (s : State) (v : Nat) : State :=
  { s.endClasp with
    pwr := { s.pwr with inReset := true, vin := v, vinMin := v, rails := 0, clkin := true, okSince := s.now }
    cl := resetCl s.endClasp.cl }

theorem mainEntry_enters {v : Nat} (h : s.pwr.state ≠ .main) (hv : 2850 < v) :
    ∃ t, exec (.mainEntry v) s = .next t ∧ t.pwr.state = .main ∧ t.pwr.inReset = true ∧ t.pwr.vin = v ∧
      t.pwr.okSince = s.now ∧ t.up = false ∧ t.otp = s.otp ∧ t.cl.keys = s.cl.keys := by
  obtain ⟨-, -, hotp, -, hkeys⟩ := parts_of_standing (standing_endClasp s)
  have he : exec (.mainEntry v) s = .next ((s.powered v).enterPower .main) := if_neg (by simp [h]; omega)
  obtain ⟨f, b, o, hp⟩ := enterPower_pwr (s.powered v) .main
  exact ⟨_, he, congrArg Pwr.state hp, congrArg Pwr.inReset hp, congrArg Pwr.vin hp, congrArg Pwr.okSince hp,
    up_of_inReset _ (congrArg Pwr.inReset hp), (enterPower_otp _ _).trans hotp,
    (enterPower_keys _ _).trans hkeys⟩

theorem mainEntry_stays {v : Nat} (h : s.pwr.state = .main ∨ v ≤ 2850) : exec (.mainEntry v) s = .next s :=
  if_pos (by simpa using h)

/-- The module as module reset is released with VIN_3V3 at `v`. -/
def State.released (s : State) (v : Nat) : State :=
  ({ s with pwr := { s.pwr with inReset := false, rails := 0xF, clkin := true, vin := v } } : State).alertTouch

theorem resetRelease_releases (hm : s.pwr.state = .main) (hr : s.pwr.inReset = true) (hn : s.pwr.mrstN = true)
    (ht : s.pwr.okSince + msC ≤ s.now) (hd : s.tmp.decisions = []) :
    ∃ t, exec .resetRelease s = .next t ∧ t.pwr.inReset = false ∧ t.pwr.rails = 0xF ∧ t.pwr.clkin = true ∧ t.up = true ∧
      3100 ≤ t.pwr.vin ∧ (3100 ≤ s.pwr.vin → t.pwr.vin = s.pwr.vin) ∧ t.clk = s.clk ∧ t.fls = s.fls ∧ t.arc = s.arc ∧
      t.otp = s.otp := by
  change ∃ t, execResetRelease s = .next t ∧ _
  unfold execResetRelease
  dsimp only
  rw [if_neg (by simp [hm, hr, hn, hd]; omega)]
  by_cases hv : 3100 ≤ s.pwr.vin
  · rw [if_pos hv]
    exact ⟨s.released s.pwr.vin, rfl, rfl, rfl, rfl, by simp [State.released, State.alertTouch, State.up, hm], hv,
      fun _ => rfl, rfl, rfl, rfl, rfl⟩
  · rw [if_neg hv]
    exact ⟨(s.freeVal 9).2.released (3100 + (s.freeVal 9).1), rfl, rfl, rfl, rfl,
      by simp [State.released, State.alertTouch, State.up, State.freeVal, hm], Nat.le_add_right _ _,
      fun h => absurd h hv, rfl, rfl, rfl, rfl⟩

theorem resetRelease_waits (h : s.pwr.mrstN = false ∨ s.now < s.pwr.okSince + msC ∨ s.tmp.decisions ≠ []) :
    exec .resetRelease s = .next s :=
  if_pos (by simp only [Bool.or_eq_true, Bool.not_eq_true', decide_eq_true_eq]; simp; tauto)

/-! ### Prepare and recovery -/

@[simp] theorem pwr_pwrEvent (b : Nat) :
    (s.pwrEvent b).pwr = { s.pwr with events := setBit s.pwr.events b true } := rfl

theorem standing_flPause (bank : Option Nat) : (s.flPause bank).standing = s.standing := by
  unfold State.flPause
  dsimp only
  split
  · split_ifs <;> rfl
  · rfl

theorem heldOff_flPause (bank : Option Nat) : (s.flPause bank).fls.heldOff = s.fls.heldOff := by
  unfold State.flPause
  dsimp only
  split
  · split_ifs <;> rfl
  · rfl

/-- After a pause of every bank no erase runs. -/
theorem running_flPause (n : Nat) : (s.flPause none).fls.running ≠ some (.erase n) := by
  unfold State.flPause
  dsimp only
  split
  · simp only [Option.all_none, if_true]
    split_ifs <;> simp [State.flEnd]
  · next h => exact fun hn => h n hn

/-- The supplies as prepare begins (R414). -/
def preparing (p : Pwr) (now mv : Nat) : Pwr :=
  { p with
    prepare := true, recovering := false, recoverMet := false, prepAt := now, warnings := 0
    warnAt := if p.recovering then p.warnAt else now
    dipMin := if p.recovering then min p.dipMin mv else mv
    dips := satInc p.dips 65535 }

theorem standing_with_tim (x : Tim) : ({ s with tim := x } : State).standing = s.standing := rfl

theorem standing_shadowed : (if s.loop.armed then s.copyShadow else s).standing = s.standing := by
  split_ifs
  · exact standing_with_tim s _
  · rfl

theorem standing_flWarn : s.flWarn.standing = s.standing :=
  (standing_flPause _ none).trans (standing_with_fls s rfl)

/-- Prepare begins: flash commands are held, no erase runs, the archive prepares. -/
theorem startPrepare_does (mv : Nat) : (s.startPrepare mv).pwr =
      { preparing s.pwr s.now mv with events := setBit s.pwr.events 0 true } ∧
    (s.startPrepare mv).fls.heldOff = true ∧ (∀ n, (s.startPrepare mv).fls.running ≠ some (.erase n)) ∧
    (s.startPrepare mv).arc.prepare = true ∧ (s.startPrepare mv).otp = s.otp := by
  obtain ⟨u, hu, hu'⟩ : ∃ u : State, s.startPrepare mv = (u.flWarn.archivePrepare).pwrEvent 0 ∧
      u.standing = { s.standing with pwr := preparing s.pwr s.now mv } := by
    exact ⟨_, rfl, standing_shadowed _⟩
  obtain ⟨-, hpwr, hotp, -⟩ := parts_of_standing_with ((standing_flWarn u).trans hu')
  obtain ⟨hpwr', hfls, hotp', hprep⟩ := archivePrepare_leaves u.flWarn
  have hheld : u.flWarn.fls.heldOff = true := heldOff_flPause _ none
  have hrun (n : Nat) : u.flWarn.fls.running ≠ some (.erase n) := running_flPause _ n
  rw [← hfls] at hheld hrun
  rw [hu]
  generalize u.flWarn.archivePrepare = t at *
  refine ⟨?_, hheld, hrun, hprep, hotp'.trans hotp⟩
  rw [pwr_pwrEvent, hpwr'.trans hpwr]
  rfl

theorem powerWarning_starts {v : Nat} (hup : s.up = true) (hl : 2850 ≤ v) (hv : v < 3050) (hp : s.pwr.prepare = false) :
    ∃ t, exec (.powerWarning v) s = .next t ∧ t.pwr.prepare = true ∧ t.pwr.recovering = false ∧ t.pwr.vin = v ∧
      t.pwr.warnings = 0 ∧ t.pwr.dips = satInc s.pwr.dips 65535 ∧ t.pwr.prepAt = s.now ∧ bit t.pwr.events 0 = true ∧
      t.fls.heldOff = true ∧ (∀ n, t.fls.running ≠ some (.erase n)) ∧ t.arc.prepare = true ∧ t.otp = s.otp := by
  obtain ⟨hw, hheld, hrun, hprep, hotp⟩ := startPrepare_does (s.setVin v) v
  have he : exec (.powerWarning v) s = .next ((s.setVin v).startPrepare v) :=
    (if_neg (by simp [hup]; omega)).trans (if_neg (by simp [State.setVin, hp]))
  exact ⟨_, he, congrArg Pwr.prepare hw, congrArg Pwr.recovering hw, congrArg Pwr.vin hw, congrArg Pwr.warnings hw,
    congrArg Pwr.dips hw, congrArg Pwr.prepAt hw, by rw [hw]; simp, hheld, hrun, hprep, hotp⟩

theorem powerWarning_counts {v : Nat} (hup : s.up = true) (hl : 2850 ≤ v) (hv : v < 3050) (hp : s.pwr.prepare = true) :
    exec (.powerWarning v) s = .next { s with pwr := { s.pwr with
      vin := v, vinMin := min s.pwr.vinMin v, warnings := s.pwr.warnings + 1, recoverMet := false
      dipMin := min s.pwr.dipMin v, events := setBit s.pwr.events 3 true } } :=
  (if_neg (by simp [hup]; omega)).trans (if_pos hp)

theorem prepareEnd_ends (hup : s.up = true) (hp : s.pwr.prepare = true) (hc : s.arc.ready = false ∨ s.arc.staged = [])
    (hm : s.pwr.recoverMet = false) :
    ∃ t, exec .prepareEnd s = .next t ∧ t.pwr.prepare = false ∧ t.pwr.recovering = true ∧ t.arc.clean = true ∧
      bit t.pwr.events 1 = true ∧ t.pwr.lastUs = (s.now - s.pwr.prepAt) / usC % 4096 := by
  obtain ⟨hnow, hpwr, -, -⟩ := parts_of_outside (outside_dipRecord s)
  refine ⟨_, (if_neg ?_).trans (congrArg Host.Outcome.next (if_neg (by simp [hm]))), rfl, rfl, rfl, ?_, ?_⟩
  · rcases hc with hc | hc <;> simp [hup, hp, hc]
  · simp
  · change (s.dipRecord.now - s.dipRecord.pwr.prepAt) / usC % 4096 = _
    rw [hnow, hpwr]

theorem prepareEnd_waits (hr : s.arc.ready = true) (hs : s.arc.staged ≠ []) : exec .prepareEnd s = .next s :=
  if_pos (by simp [hr, hs])

theorem flUnpause_leaves : s.flUnpause.fls.heldOff = s.fls.heldOff ∧ s.flUnpause.arc = s.arc := by
  unfold State.flUnpause
  dsimp only
  split
  · split_ifs <;> exact ⟨rfl, rfl⟩
  · exact ⟨rfl, rfl⟩

/-- An erase that the controller suspended itself runs again, unless commands are held. -/
theorem flUnpause_resumes {u : FlSusp} (hh : s.fls.heldOff = false) (hu : s.fls.susp = some u) (ho : u.own = true) :
    s.flUnpause.fls.running = some (.erase u.sector) ∧ s.flUnpause.fls.susp = none := by
  simp [State.flUnpause, hh, hu, ho]

/-- Recovery with no profile held lifts the holds of prepare and ends the dip. -/
theorem recover_does (h : s.pwr.heldProfile = none) :
    s.recover.pwr = { s.pwr with
      recovering := false, recoverMet := false, heldProfile := none, events := setBit s.pwr.events 2 true } ∧
    s.recover.fls = s.archiveResume.flRecover.fls ∧ s.recover.arc = { s.archiveResume.flRecover.arc with clean := false } := by
  obtain ⟨-, hp, -⟩ := parts_of_standing (standing_flUnpause
    { s with arc := { s.arc with prepare := false }, fls := { s.fls with heldOff := false } })
  change s.archiveResume.flRecover.pwr = s.pwr at hp
  simp only [State.recover, h]
  refine ⟨?_, rfl, rfl⟩
  rw [← hp]
  rfl

theorem recovery_lifts {v : Nat} (hup : s.up = true) (hv : 3100 < v) (hp : s.pwr.prepare = false)
    (hr : s.pwr.recovering = true) (hh : s.pwr.heldProfile = none) :
    ∃ t, exec (.recovery v) s = .next t ∧ t.pwr.recovering = false ∧ t.pwr.vin = v ∧ bit t.pwr.events 2 = true ∧
      t.fls.heldOff = false ∧ t.arc.prepare = false ∧
      ∀ u, s.fls.susp = some u → u.own = true → t.fls.running = some (.erase u.sector) ∧ t.fls.susp = none := by
  have he : exec (.recovery v) s = .next ({ s with pwr := { s.pwr with vin := v } } : State).recover :=
    (if_neg (by simp [hup]; omega)).trans ((if_neg (by simp [hp])).trans (if_pos hr))
  obtain ⟨hw, hf, ha⟩ := recover_does { s with pwr := { s.pwr with vin := v } } hh
  obtain ⟨hheld, harc⟩ := flUnpause_leaves
    { s with pwr := { s.pwr with vin := v }, arc := { s.arc with prepare := false }, fls := { s.fls with heldOff := false } }
  refine ⟨_, he, congrArg Pwr.recovering hw, congrArg Pwr.vin hw, by rw [hw]; simp, (congrArg Fls.heldOff hf).trans hheld,
    (congrArg Arc.prepare ha).trans (congrArg Arc.prepare harc), fun u hu ho => ?_⟩
  rw [hf]
  exact flUnpause_resumes _ rfl hu ho

theorem recovery_noted {v : Nat} (hup : s.up = true) (hv : 3100 < v) (hp : s.pwr.prepare = true) :
    exec (.recovery v) s = .next { s with pwr := { s.pwr with vin := v, recoverMet := true } } :=
  (if_neg (by simp [hup]; omega)).trans (if_pos hp)

/-! ### Resets -/

theorem powerReset_stays {v : Nat} (h : s.pwr.state ≠ .main ∨ 2850 ≤ v) : exec (.powerReset v) s = .next s :=
  if_pos (by simpa using h)

/-- Module reset asserted, whether it stood before or not. -/
def State.inResetNow (s : State) : State := if s.pwr.inReset then s else s.assertReset

theorem inResetNow_keeps : s.inResetNow.now = s.now ∧ s.inResetNow.otp = s.otp ∧
    s.inResetNow.cl.fieldTag = s.cl.fieldTag ∧ s.inResetNow.pwr.inReset = true ∧ s.inResetNow.pwr.state = s.pwr.state ∧
    s.inResetNow.pwr.vbat = s.pwr.vbat ∧ s.inResetNow.pwr.dueRail = s.pwr.dueRail := by
  unfold State.inResetNow
  split_ifs with h
  · simp [h]
  · obtain ⟨hnow, hp, hotp, hfield⟩ := parts_of_standing_with (standing_assertReset s)
    rw [hp]
    exact ⟨hnow, hotp, hfield, rfl, rfl, rfl, rfl⟩

/-- Module reset asserted, and VIN_3V3 at `v`. -/
def State.brownedOut (s : State) (v : Nat) : State :=
  { s.inResetNow with pwr := { s.inResetNow.pwr with vin := v, inReset := true } }

theorem brownedOut_keeps (v : Nat) : (s.brownedOut v).otp = s.otp ∧ (s.brownedOut v).cl.fieldTag = s.cl.fieldTag ∧
    (s.brownedOut v).vbatOk = s.vbatOk := by
  obtain ⟨-, hotp, hfield, -, -, hvbat, -⟩ := inResetNow_keeps s
  exact ⟨hotp, hfield, vbatOk_congr hvbat⟩

theorem standing_torn : (if s.cl.fieldWrite then s else s.tearMark).standing = s.standing := by
  split_ifs
  · rfl
  · exact standing_tearMark s

theorem powerReset_resets {v : Nat} (hm : s.pwr.state = .main) (hv : v < 2850) :
    ∃ t, exec (.powerReset v) s = .next t ∧ t.pwr.inReset = true ∧ t.up = false ∧ t.pwr.vin = v ∧
      t.pwr.state = uncarded s.cl.fieldTag s.vbatOk ∧ t.pwr.dueLost.isSome = true ∧ t.otp = s.otp := by
  obtain ⟨u, hu, hs⟩ : ∃ u : State, (if s.cl.fieldWrite then s else s.tearMark) = u ∧ u.standing = s.standing :=
    ⟨_, rfl, standing_torn s⟩
  obtain ⟨-, hp, hotp, hfield, -⟩ := parts_of_standing hs
  obtain ⟨hotp', hfield', hvbat⟩ := brownedOut_keeps u v
  have he : exec (.powerReset v) s = .next { (u.brownedOut v).leaveMain with pwr := { (u.brownedOut v).leaveMain.pwr with
      dueLost := some (min s.pwr.dipMin v, (u.brownedOut v).leaveMain.pwr.state.code,
        (u.brownedOut v).leaveMain.tmp.aoseq) } } := by
    rw [← hu]
    exact if_neg (by simp [hm]; omega)
  obtain ⟨f, b, o, hl⟩ := leaveMain_pwr (u.brownedOut v)
  rw [hfield', hfield, hvbat, vbatOk_congr (congrArg Pwr.vbat hp)] at hl
  have hin : (u.brownedOut v).leaveMain.pwr.inReset = true := congrArg Pwr.inReset hl
  exact ⟨_, he, hin, up_of_inReset _ hin, congrArg Pwr.vin hl, congrArg Pwr.state hl, rfl,
    (leaveMain_otp _).trans (hotp'.trans hotp)⟩

theorem railFault_resets {rails : BitVec 4} (hm : s.pwr.state = .main) (hr : rails ≠ 0xF) (hv : 2850 < s.pwr.vin) :
    ∃ t, exec (.railFault rails) s = .next t ∧ t.pwr.inReset = true ∧ t.pwr.rails = rails ∧ t.pwr.okSince = s.now ∧
      t.pwr.state = .main ∧ t.pwr.dueRail = s.pwr.dueRail ||| (15 - rails.toNat) ∧ t.otp = s.otp := by
  obtain ⟨hnow, hotp, -, hin, hstate, -, hdue⟩ := inResetNow_keeps s
  have he : exec (.railFault rails) s = .next { s.inResetNow with pwr := { s.inResetNow.pwr with
      rails := rails, okSince := s.inResetNow.now, dueRail := s.inResetNow.pwr.dueRail ||| (15 - rails.toNat) } } :=
    if_neg (by simpa [hm, Nat.not_le.2 hv] using hr)
  exact ⟨_, he, hin, rfl, hnow, hstate.trans hm, by rw [← hdue], hotp⟩

theorem mrst_resets (hm : s.pwr.state = .main) (hv : 2850 ≤ s.pwr.vin) :
    ∃ t, exec (.mrst true) s = .next t ∧ t.pwr.inReset = true ∧ t.pwr.mrstN = false ∧ t.pwr.dueMrst = true ∧
      t.otp = s.otp := by
  obtain ⟨-, hotp, -, hin, -, -, -⟩ := inResetNow_keeps s
  have he : exec (.mrst true) s =
      .next { s.inResetNow with pwr := { s.inResetNow.pwr with mrstN := false, dueMrst := true } } :=
    if_neg (by simp [hm]; omega)
  exact ⟨_, he, hin, rfl, rfl, hotp⟩

theorem mrst_released (h : s.pwr.mrstN = false) :
    exec (.mrst false) s = .next { s with pwr := { s.pwr with mrstN := true, okSince := s.now } } :=
  if_neg (by simp [h])

/-! ### VBAT -/

theorem vbatChange_same {v : Nat} (hup : s.up = true) (hv : (2000 ≤ v && v ≤ 3600) = s.vbatOk)
    (hl : 2200 ≤ v ∨ s.pwr.vbat < 2200) : exec (.vbatChange v) s = .next { s with pwr := { s.pwr with vbat := v } } := by
  change execVbatChange v s = _
  have hup' : ({ s with pwr := { s.pwr with vbat := v } } : State).up = true := hup
  have hok : ({ s with pwr := { s.pwr with vbat := v } } : State).vbatOk = s.vbatOk := hv
  simp only [execVbatChange, hup', hok, if_true, ne_eq, not_true_eq_false, if_false]
  rw [if_neg (by simp; omega)]

theorem vbatChange_recorded {v : Nat} (hup : s.up = true) (hv : (2000 ≤ v && v ≤ 3600) ≠ s.vbatOk) :
    ∃ t, exec (.vbatChange v) s = .next t ∧ t.pwr.vbat = v ∧ bit t.pwr.events 6 = true ∧
      ∃ e ∈ t.dv.inbox, e.typ = 0x0021 ∧ e.src = 2 ∧ e.cls = 0 := by
  change ∃ t, execVbatChange v s = .next t ∧ _
  have hup' : ({ s with pwr := { s.pwr with vbat := v } } : State).up = true := hup
  have hok : ({ s with pwr := { s.pwr with vbat := v } } : State).vbatOk ≠ s.vbatOk := hv
  simp only [execVbatChange, hup', hok, if_true, ne_eq, not_false_eq_true]
  refine ⟨_, rfl, ?_⟩
  split_ifs
  all_goals
    refine ⟨rfl, by simp [State.powerRec, State.event, State.post], ?_⟩
    simp [State.powerRec, State.event, State.post, State.pwrEvent, c0]

theorem vbatChange_settles {v : Nat} (h : s.pwr.state ≠ .main) :
    ∃ t, exec (.vbatChange v) s = .next t ∧ t.pwr.vbat = v ∧
      t.pwr.state = uncarded s.cl.fieldTag (2000 ≤ v && v ≤ 3600) := by
  obtain ⟨f, b, o, hp⟩ := settle_pwr { s with pwr := { s.pwr with vbat := v } } h
  have he : exec (.vbatChange v) s = .next ({ s with pwr := { s.pwr with vbat := v } } : State).settle :=
    if_neg (by simp [up_of_state { s with pwr := { s.pwr with vbat := v } } h])
  exact ⟨_, he, congrArg Pwr.vbat hp, congrArg Pwr.state hp⟩

/-! ### Caps -/

/-- Since when an average of `avg` mW has been below 95 % of the cap. -/
def underSince (p : Pwr) (now cap avg : Nat) : Option Nat :=
  if avg * 100 < cap * 95 then some (p.underAt.getD now) else none

theorem underSince_isSome (p : Pwr) (now cap avg : Nat) :
    (underSince p now cap avg).isSome = true ↔ avg * 100 < cap * 95 := by
  unfold underSince
  split_ifs with h <;> simp [h]

theorem powerEstimate_averages (m : Nat) (hup : s.up = true) : let e := s.senseTemp
    e.pwr = { s.pwr with temp := e.pwr.temp, tempMax := max s.pwr.tempMax e.pwr.temp } ∧
    ∃ u, exec (.powerEstimate m) s = .next { e with pwr := { e.pwr with
      est := (m :: s.pwr.est).take 100
      mw := ((m :: s.pwr.est).take 100).sum / ((m :: s.pwr.est).take 100).length, underAt := u } } ∧
    (u.isSome = true ↔
      ((m :: s.pwr.est).take 100).sum / ((m :: s.pwr.est).take 100).length * 100 < s.powerCap * 95) := by
  refine ⟨rfl, _, ?_, underSince_isSome s.pwr s.now _ _⟩
  change execPowerEstimate m s = _
  unfold execPowerEstimate underSince
  rw [if_neg (by simp [hup])]
  have hc : s.senseTemp.powerCap = s.powerCap := rfl
  have hn : s.senseTemp.now = s.now := rfl
  have hu : s.senseTemp.pwr.underAt = s.pwr.underAt := rfl
  have hl : s.senseTemp.pwr.est = s.pwr.est := rfl
  cases h : s.pwr.underAt <;> simp only [hc, hn, hu, hl, h] <;> rfl

/-- What a change of the cap's enforcement makes of the supplies. -/
theorem capChange_pwr (on : Bool) : ∃ r, (s.capChange on).pwr = { s.pwr with
    capActive := on, events := setBit s.pwr.events (if on then 4 else 5) true, capRecAt := r } := by
  simp only [State.capChange]
  split_ifs <;> exact ⟨_, rfl⟩

/-- The step of shedding in force, and the lane groups of its third step. -/
def State.shedTo (s : State) (x : Nat × Nat) : State :=
  { s with pwr := { s.pwr with shed := x.1, shedGroups := x.2, shedAt := s.now } }

/-- The next step of shedding. -/
def State.nextShed (s : State) : Nat × Nat :=
  if s.pwr.shed < 2 then (s.pwr.shed + 1, 0)
  else if s.pwr.shedGroups < s.laneGroups then (3, s.pwr.shedGroups + 1)
  else (4, s.pwr.shedGroups)

/-- The step of shedding before the one in force. -/
def State.lastShed (s : State) : Nat × Nat :=
  if s.pwr.shed = 4 then (if s.pwr.shedGroups = 0 then 2 else 3, s.pwr.shedGroups)
  else if s.pwr.shed = 3 then (if s.pwr.shedGroups ≤ 1 then 2 else 3, s.pwr.shedGroups - 1)
  else (s.pwr.shed - 1, 0)

section
variable (hup : s.up = true) (hp : s.pwr.prepare = false) (hr : s.pwr.recovering = false)
include hup hp hr

theorem capShedStep_sheds (hm : s.powerCap < s.pwr.mw) (ht : s.pwr.shedAt + 100 * usC ≤ s.now) (h4 : s.pwr.shed < 4) :
    exec .capShedStep s =
      .next (if s.pwr.shed = 0 then (s.shedTo s.nextShed).capChange true else s.shedTo s.nextShed) := by
  change execCapShedStep s = _
  unfold execCapShedStep
  exact if_neg (by simp [hup, hp, hr]; omega)

theorem capUnshedStep_undoes {a : Nat} (ha : s.pwr.underAt = some a) (hl : a + 10 * msC ≤ s.now)
    (ht : s.pwr.shedAt + 10 * msC ≤ s.now) (h0 : s.pwr.shed ≠ 0) :
    exec .capUnshedStep s =
      .next (if s.lastShed.1 = 0 then (s.shedTo s.lastShed).capChange false else s.shedTo s.lastShed) := by
  change execCapUnshedStep s = _
  unfold execCapUnshedStep
  exact if_neg (by simp [hup, hp, hr, ha, hl, h0]; omega)

/-- The steps of shedding in order. -/
theorem capShedStep_steps (hm : s.powerCap < s.pwr.mw) (ht : s.pwr.shedAt + 100 * usC ≤ s.now) :
    (s.pwr.shed = 0 → ∃ t, exec .capShedStep s = .next t ∧ t.pwr.shed = 1 ∧ t.pwr.capActive = true ∧
      bit t.pwr.events 4 = true ∧ t.pwr.shedAt = s.now) ∧
    (s.pwr.shed = 1 → exec .capShedStep s =
      .next { s with pwr := { s.pwr with shed := 2, shedGroups := 0, shedAt := s.now } }) ∧
    ((s.pwr.shed = 2 ∨ s.pwr.shed = 3) → exec .capShedStep s = .next { s with pwr := { s.pwr with
      shed := if s.pwr.shedGroups < s.laneGroups then 3 else 4
      shedGroups := if s.pwr.shedGroups < s.laneGroups then s.pwr.shedGroups + 1 else s.pwr.shedGroups
      shedAt := s.now } }) ∧
    (4 ≤ s.pwr.shed → exec .capShedStep s = .next s) := by
  have hgo := capShedStep_sheds s hup hp hr hm ht
  refine ⟨fun h => ?_, fun h => ?_, fun h => ?_, fun h => if_pos (by simp [h])⟩
  · obtain ⟨r, hc⟩ := capChange_pwr (s.shedTo s.nextShed) true
    have hn : s.nextShed = (1, 0) := by simp [State.nextShed, h]
    rw [if_pos h] at hgo
    refine ⟨_, hgo (by omega), ?_, congrArg Pwr.capActive hc, by rw [hc]; simp, congrArg Pwr.shedAt hc⟩
    rw [hc]
    exact congrArg Prod.fst hn
  · have hn : s.nextShed = (2, 0) := by simp [State.nextShed, h]
    rw [hgo (by omega), if_neg (by omega), hn]
    rfl
  · rw [hgo (by omega), if_neg (by omega), State.nextShed, if_neg (by omega)]
    split_ifs <;> rfl

/-- The steps of shedding undone in reverse order. -/
theorem capUnshedStep_steps {a : Nat} (ha : s.pwr.underAt = some a) (hl : a + 10 * msC ≤ s.now)
    (ht : s.pwr.shedAt + 10 * msC ≤ s.now) :
    (s.pwr.shed = 1 → ∃ t, exec .capUnshedStep s = .next t ∧ t.pwr.shed = 0 ∧ t.pwr.capActive = false ∧
      bit t.pwr.events 5 = true) ∧
    (s.pwr.shed = 2 → exec .capUnshedStep s =
      .next { s with pwr := { s.pwr with shed := 1, shedGroups := 0, shedAt := s.now } }) ∧
    (s.pwr.shed = 3 → exec .capUnshedStep s = .next { s with pwr := { s.pwr with
      shed := if s.pwr.shedGroups ≤ 1 then 2 else 3, shedGroups := s.pwr.shedGroups - 1, shedAt := s.now } }) ∧
    (s.pwr.shed = 4 → exec .capUnshedStep s = .next { s with pwr := { s.pwr with
      shed := if s.pwr.shedGroups = 0 then 2 else 3, shedAt := s.now } }) := by
  have hgo := capUnshedStep_undoes s hup hp hr ha hl ht
  refine ⟨fun h => ?_, fun h => ?_, fun h => ?_, fun h => ?_⟩
  · obtain ⟨r, hc⟩ := capChange_pwr (s.shedTo s.lastShed) false
    have hn : s.lastShed = (0, 0) := by simp [State.lastShed, h]
    rw [if_pos (by rw [hn])] at hgo
    refine ⟨_, hgo (by omega), ?_, congrArg Pwr.capActive hc, by rw [hc]; simp⟩
    rw [hc]
    exact congrArg Prod.fst hn
  · have hn : s.lastShed = (1, 0) := by simp [State.lastShed, h]
    rw [hgo (by omega), hn, if_neg (by decide)]
    rfl
  · have hn : s.lastShed = (if s.pwr.shedGroups ≤ 1 then 2 else 3, s.pwr.shedGroups - 1) := by simp [State.lastShed, h]
    rw [hgo (by omega), hn, if_neg (by dsimp only; split_ifs <;> decide)]
    rfl
  · have hn : s.lastShed = (if s.pwr.shedGroups = 0 then 2 else 3, s.pwr.shedGroups) := by simp [State.lastShed, h]
    rw [hgo (by omega), hn, if_neg (by dsimp only; split_ifs <;> decide)]
    rfl

end

theorem capShedStep_waits (h : s.pwr.mw ≤ s.powerCap ∨ s.now < s.pwr.shedAt + 100 * usC) :
    exec .capShedStep s = .next s :=
  if_pos (by simp only [Bool.or_eq_true, decide_eq_true_eq]; tauto)

theorem capUnshedStep_waits (h : s.pwr.underAt = none ∨ s.pwr.shed = 0) : exec .capUnshedStep s = .next s := by
  change execCapUnshedStep s = _
  unfold execCapUnshedStep
  rcases h with h | h <;> simp [h]

end

/-! ### The obligation -/

/-- Settles O31: each clause is one of the lemmas above. -/
theorem powerSupervision : Obligations.PowerSupervision := fun s =>
  ⟨fun _ => mainEntry_enters s, fun _ => mainEntry_stays s, resetRelease_releases s, resetRelease_waits s,
    fun _ => powerWarning_starts s, fun _ => powerWarning_counts s, prepareEnd_ends s, prepareEnd_waits s,
    fun _ => recovery_lifts s, fun _ => recovery_noted s,
    fun _ => powerReset_resets s, fun _ => powerReset_stays s, fun _ => railFault_resets s, mrst_resets s, mrst_released s,
    fun _ => vbatChange_same s, fun _ => vbatChange_recorded s, fun _ => vbatChange_settles s,
    powerEstimate_averages s, capShedStep_steps s, capShedStep_waits s, fun _ hup hp hr => capUnshedStep_steps s hup hp hr,
    capUnshedStep_waits s⟩

end Sys2Proof.Machine
end

section
/-! PROOFS. Transfers on the handshake links (R16 to R20, R216, R219). -/

namespace Sys2Proof.Machine
open Sys2Proof

/-! ### What a transfer finds -/

/-- Waking an island writes the clock gates alone. -/
theorem wake_eq (s : State) (n : Nat) : s.wake n = { s with clk := (s.wake n).clk } := by
  unfold State.wake
  split <;> rfl

theorem link_wake (s : State) (n m : Nat) : (s.wake n).link m = s.link m := by rw [wake_eq]; rfl

theorem jigMode_wake (s : State) (n m : Nat) : (s.wake n).jigMode m = s.jigMode m := by rw [wake_eq]; rfl

theorem phys_wake (s : State) (n : Nat) (c : ResClass) (p : Nat) : (s.wake n).phys c p = s.phys c p := by rw [wake_eq]; rfl

/-- A row whose check bits are clean is read as it stands. -/
theorem readRow_clean (s : State) {op : OpRef} (h : ∀ slot ecc id, op = .keyLoad slot ecc id → ecc = .clean) :
    s.readRow op = (s, true) := by
  cases op with
  | keyLoad slot ecc id => obtain rfl := h slot ecc id rfl; rfl
  | _ => rfl

/-- A row that cannot be corrected is lost, and no share goes out. -/
theorem readRow_uncorrectable (s : State) {slot id p : Nat} (h : s.phys .keyRow slot = some p) :
    s.readRow (.keyLoad slot .uncorrectable id) = ((s.keyFault slot 2).loseRow p, false) := by
  simp only [State.readRow, h]

/-- The receiver awake, and the row of a key load as its check bits find it. -/
def State.transferRow (s : State) (n : Nat) (op : OpRef) : State × Bool :=
  if (keyBus n).isSome then (s.wake n).readRow op else (s.wake n, true)

theorem transferRow_clean (s : State) (n : Nat) {op : OpRef} (h : ∀ slot ecc id, op = .keyLoad slot ecc id → ecc = .clean) :
    s.transferRow n op = (s.wake n, true) := by
  unfold State.transferRow
  rw [readRow_clean _ h, ite_self]

/-- The receiver finds a try clean. -/
def foundClean (t : Try) : Bool := t.parityOk && t.seqOk

section
variable {s : State} {n mid : Nat} {w : BitVec 256} {t1 t2 : Try} {op : OpRef}
variable (hup : s.up = true) (hmid : s.midAppears mid = true) (hphase : (s.link n).phase = 0)
include hup hmid hphase

theorem transfer_gateShut (hg : s.gateShut n = true) : exec (.transfer n mid w t1 t2 op) s = .next (s.failOp op stRetired) :=
  (if_neg (by simp [hup, hmid, hphase])).trans (if_pos hg)

variable (hg : s.gateShut n = false) (hjig : s.jigMode n = none)
include hg hjig

/-- A transfer whose row sends nothing ends its key load. -/
theorem transfer_keyAbsent {u : State} (hr : s.transferRow n op = (u, false)) :
    exec (.transfer n mid w t1 t2 op) s = .next (u.failOp op stKeyAbsent) := by
  change execTransfer n mid w t1 t2 op s = _
  unfold State.transferRow at hr
  unfold execTransfer
  rw [if_neg (by simp [hup, hmid, hphase]), if_neg (by simp [hg]), hjig, if_neg (by simp [State.canDraw])]
  dsimp only
  rw [hr]
  rfl

/-- A transfer that the jig leaves alone ends as the receiver's two tries say. -/
theorem transfer_tries (hc : ∀ slot ecc id, op = .keyLoad slot ecc id → ecc = .clean) :
    exec (.transfer n mid w t1 t2 op) s =
      if foundClean t1 then .next ((s.wake n).deliver n mid w)
      else if foundClean t2 then .next ((((s.wake n).busRepeat n op).aerLog .correctedInternal 0 0).deliver n mid w)
      else .next ((s.wake n).linkFails n op) := by
  change execTransfer n mid w t1 t2 op s = _
  have hr := transferRow_clean s n hc
  unfold State.transferRow at hr
  unfold execTransfer
  rw [if_neg (by simp [hup, hmid, hphase]), if_neg (by simp [hg]), hjig, if_neg (by simp [State.canDraw])]
  dsimp only
  rw [hr]
  dsimp only
  rw [jigMode_wake, hjig]
  simp only [foundClean, Bool.not_true, Bool.false_eq_true, if_false, Option.isNone_none, Bool.and_true]
  rfl

end

/-! ### What a transfer does -/

/-- The link once its receiver has taken a word; a branch of the key bus keeps none. -/
def Link.took (n mid : Nat) (w : BitVec 256) (l : Link) : Link :=
  if (keyBus n).isSome then { l with seq := l.seq + 1, phase := 0 } else l.take mid w

theorem deliver_eq (s : State) (n mid : Nat) (w : BitVec 256) :
    s.deliver n mid w = s.setLink n ((s.link n).took n mid w) := rfl

/-- A corrected error is logged, and nothing else happens. -/
theorem aerLog_correctedInternal (s : State) (fn header : Nat) : s.aerLog .correctedInternal fn header =
    { s with pci := { s.pci with aer := s.pci.aer ++ [(.correctedInternal, fn, header, s.severity .correctedInternal)] } } := rfl

theorem link_aerLog_correctedInternal (s : State) (fn header n : Nat) :
    (s.aerLog .correctedInternal fn header).link n = s.link n := rfl

theorem busRepeat_none (s : State) {n : Nat} (op : OpRef) (h : keyBus n = none) : s.busRepeat n op = s := by
  unfold State.busRepeat
  rw [h]

/-- A repeat on the key bus stands in KEY_EVENTS and leaves the links. -/
theorem busRepeat_some (s : State) {n : Nat} (op : OpRef) (h : (keyBus n).isSome = true) :
    bit (s.busRepeat n op).key.events 2 = true ∧ (s.busRepeat n op).link n = s.link n := by
  obtain ⟨rx, h⟩ := Option.isSome_iff_exists.1 h
  have hev (t : State) : bit (t.keyEvent 2).key.events 2 = true := by simp [State.keyEvent]
  unfold State.busRepeat
  rw [h]
  cases op <;> exact ⟨hev _, rfl⟩

/-- A transfer that the jig leaves alone and that fails twice. -/
theorem linkFails_none {s : State} {n : Nat} (op : OpRef) (hj : s.jigMode n = none) (h : keyBus n = none) :
    s.linkFails n op = (s.raise srcLink 0 n).failOp op stResource := by
  simp only [State.linkFails, hj, h]

theorem linkFails_some {s : State} {n rx : Nat} (op : OpRef) (hj : s.jigMode n = none) (h : keyBus n = some rx) :
    s.linkFails n op = (s.raise srcKeybus 0 rx).failOp op stResource := by
  simp only [State.linkFails, hj, h]

section
variable {s : State} {n mid : Nat} {op : OpRef}
variable (hup : s.up = true) (hmid : s.midAppears mid = true) (hg : s.gateShut n = false)
include hup hmid hg

theorem linkAckTimeout_unanswered (hp : (s.link n).phase ≠ 1) :
    exec (.linkAckTimeout n mid op) s = .next (((s.wake n).raise srcLink 0 n).failOp op stResource) :=
  (if_neg (by simp [hup, hmid, hg])).trans (if_neg hp)

theorem linkAckTimeout_dropped (hp : (s.link n).phase = 1) :
    exec (.linkAckTimeout n mid op) s =
      .next (((s.wake n).setLink n { s.link n with phase := 0 }).failOp op stJig) :=
  (if_neg (by simp [hup, hmid, hg])).trans (if_pos hp)

end

/-! ### The obligation -/

/-- Settles O1: a transfer ends as `transfer_tries` says, and each clause is one of its branches, or a transfer that never
starts. -/
theorem handshakeTransfers : Obligations.HandshakeTransfers := by
  intro n mid w t1 t2 op s hup hmid
  refine ⟨fun hp hg hj hc => ?_, fun slot id p hp hg hj hb hop hphys => ?_, transfer_gateShut hup hmid,
    linkAckTimeout_unanswered hup hmid, linkAckTimeout_dropped hup hmid⟩
  · have htries := transfer_tries (w := w) (t1 := t1) (t2 := t2) hup hmid hp hg hj hc
    have hjw : (s.wake n).jigMode n = none := (jigMode_wake s n n).trans hj
    refine ⟨fun (h1 : foundClean t1 = true) => ?_,
      fun (h1 : foundClean t1 = false) (h2 : foundClean t2 = true) hb => ?_,
      fun (h1 : foundClean t1 = false) (h2 : foundClean t2 = true) hb => ?_,
      fun (h1 : foundClean t1 = false) (h2 : foundClean t2 = false) hb => ?_,
      fun rx (h1 : foundClean t1 = false) (h2 : foundClean t2 = false) hb => ?_⟩
    · rw [htries, if_pos h1, deliver_eq, link_wake]
      rfl
    · rw [htries, if_neg (ne_true_of_eq_false h1), if_pos h2, busRepeat_none _ op hb, deliver_eq,
        link_aerLog_correctedInternal, link_wake]
      rfl
    · obtain ⟨hev, hlink⟩ := busRepeat_some (s.wake n) op hb
      refine ⟨_, htries.trans ((if_neg (ne_true_of_eq_false h1)).trans (if_pos h2)), ?_, hev⟩
      rw [deliver_eq, setLink_get, if_pos rfl, link_aerLog_correctedInternal, hlink, link_wake]
      rfl
    · rw [htries, if_neg (ne_true_of_eq_false h1), if_neg (ne_true_of_eq_false h2), linkFails_none op hjw hb]
    · rw [htries, if_neg (ne_true_of_eq_false h1), if_neg (ne_true_of_eq_false h2), linkFails_some op hjw hb]
  · subst hop
    have hr : s.transferRow n (.keyLoad slot .uncorrectable id) = (((s.wake n).keyFault slot 2).loseRow p, false) :=
      (if_pos hb).trans (readRow_uncorrectable _ ((phys_wake s n _ _).trans hphys))
    exact transfer_keyAbsent hup hmid hp hg hj hr

end Sys2Proof.Machine
end

section
/-! PROOFS. The DMA engines (R29, R402). -/

namespace Sys2Proof.Machine
open Sys2Proof

/-! ### Bytes moved in D-space -/

/-- An end of a move that lies in the X bank of its core's D-space. -/
def DmaEnd.inX (d : DmaEnd) (n : Nat) : Prop := d.space = 1 ∧ d.addr + n ≤ 0x20000

theorem dLoc_x {a : Nat} (h : a < 0x20000) : dLoc false a = .x a := if_pos h

section
variable {d : DmaEnd} {n : Nat} (hx : DmaEnd.inX d n)
include hx

theorem dmaByte_inX (s : State) {k : Nat} (hk : k < n) : s.dmaByte d k = some (mget (s.cmem d.core.val).x (d.addr + k)) := by
  obtain ⟨hs, ha⟩ := hx
  unfold State.dmaByte
  rw [if_neg (by omega), dLoc_x (by omega)]
  rfl

/-- The bytes of a source in an X bank are all there. -/
theorem dmaBytes_inX (s : State) : (upto n).map (s.dmaByte d) =
    ((upto n).map fun k => mget (s.cmem d.core.val).x (d.addr + k)).map some := by
  rw [List.map_map]
  exact List.map_congr_left fun k hk => dmaByte_inX hx s (List.mem_range.1 hk)

theorem dmaWritable_inX : State.dmaWritable d n = true := by
  obtain ⟨hs, ha⟩ := hx
  unfold State.dmaWritable
  rw [if_neg (by omega), List.all_eq_true]
  intro k hk
  rw [dLoc_x (by have := List.mem_range.1 hk; omega)]

end

/-- Bytes stored in an X bank stand there one after the other; nothing else changes of that bank or of any core. -/
theorem dmaPut_inX (d : DmaEnd) (l : Bytes) : ∀ (s : State) (k : Nat), DmaEnd.inX d (k + l.length) →
    ((s.dmaPut d k l).cmem d.core.val).x = mwrite (s.cmem d.core.val).x (d.addr + k) l ∧
    ∀ c, (s.dmaPut d k l).core c = s.core c := by
  induction l with
  | nil => exact fun _ _ _ => ⟨rfl, fun _ => rfl⟩
  | cons b l ih =>
    intro s k hx
    have hx' : DmaEnd.inX d (k + 1 + l.length) := ⟨hx.1, by have := hx.2; simp only [List.length_cons] at this; omega⟩
    obtain ⟨hs, ha⟩ := hx
    rw [List.length_cons] at ha
    unfold State.dmaPut
    dsimp only
    rw [if_neg (by omega), dLoc_x (by omega)]
    obtain ⟨hm, hc⟩ := ih (s.setCmem d.core.val
      { s.cmem d.core.val with x := mset (s.cmem d.core.val).x (d.addr + k) b }) (k + 1) hx'
    exact ⟨by rw [hm, setCmem_get, if_pos rfl]; rfl, fun c => (hc c).trans (setCmem_others _ _ c _).1⟩

/-! ### A descriptor -/

section
variable {s : State} {e : Fin 8} {d : DmaDesc} (hup : s.up = true) (hp : (s.phys .dmaEngine e.val).isSome = true)
include hup hp

/-- An engine that its parity errors retire moves nothing. -/
theorem dmaDescriptor_retired (h : (s.dmaParity e.val d.parityErrors).condemned .dmaEngine e.val = true) :
    exec (.dmaDescriptor e d) s = .next ((s.dmaParity e.val d.parityErrors).failOp d.op stRetired) :=
  (if_neg (by simp [hup])).trans ((if_neg (by simp [Option.ne_none_iff_isSome.2 hp])).trans (if_pos h))

variable (h0 : d.parityErrors = 0) (hc : s.condemned .dmaEngine e.val = false)
include h0 hc

/-- A part that the engine's MPU refuses is recorded, and nothing moves. -/
theorem dmaDescriptor_refused {f : Flt} {v : Viol} (hf : dmaRefused (s.mpu (16 + e.val)) d.src d.dst d.len = some f)
    (hv : f.viol = some v) : exec (.dmaDescriptor e d) s =
      .next ((s.mpuRecord (16 + e.val) (0x60 + e.val) { v with part := min v.part 31 }).failOp d.op stAccess) := by
  change execDmaDescriptor e d s = _
  unfold execDmaDescriptor
  rw [if_neg (by simp [hup]), if_neg (by simp [Option.ne_none_iff_isSome.2 hp]), h0]
  simp only [State.dmaParity, hc, Bool.false_eq_true, if_false, hf, hv]

/-- A descriptor from X bank to X bank that the MPU allows stores the source's bytes at the destination. -/
theorem dmaDescriptor_moves (hf : dmaRefused (s.mpu (16 + e.val)) d.src d.dst d.len = none)
    (hsrc : DmaEnd.inX d.src d.len) (hdst : DmaEnd.inX d.dst d.len) :
    exec (.dmaDescriptor e d) s = .next (s.dmaPut d.dst 0
      ((upto d.len).map fun k => mget (s.cmem d.src.core.val).x (d.src.addr + k))) := by
  change execDmaDescriptor e d s = _
  unfold execDmaDescriptor
  rw [if_neg (by simp [hup]), if_neg (by simp [Option.ne_none_iff_isSome.2 hp]), h0]
  have hs : d.dst.space ≠ 0 := by rw [hdst.1]; decide
  simp only [State.dmaParity, hc, Bool.false_eq_true, if_false, hf, dmaBytes_inX hsrc, dmaWritable_inX hdst, if_neg hs]
  simp
  rfl

end

/-! ### The obligation -/

/-- Settles O56: a descriptor ends in one of the three ways above, and `dmaPut_inX` says which bytes the last one leaves. -/
theorem dmaDescriptors : Obligations.DmaDescriptors := by
  intro e d s hup hp
  refine ⟨dmaDescriptor_retired hup hp, fun h0 hc => ⟨fun f hf v hv => dmaDescriptor_refused hup hp h0 hc hf hv,
    fun hf hs hd has had => ⟨_, dmaDescriptor_moves hup hp h0 hc hf ⟨hs, has⟩ ⟨hd, had⟩, ?_⟩⟩⟩
  obtain ⟨hx, hcores⟩ := dmaPut_inX d.dst ((upto d.len).map fun k => mget (s.cmem d.src.core.val).x (d.src.addr + k)) s 0
    ⟨hd, by simpa using had⟩
  refine ⟨fun n => ?_, hcores⟩
  rw [hx, mget_mwrite]
  by_cases hn : d.dst.addr ≤ n ∧ n < d.dst.addr + d.len <;> simp [hn]

end Sys2Proof.Machine
end

section
/-! PROOFS. The Dovetail store (R27, R83 to R85). -/

namespace Sys2Proof.Machine
open Sys2Proof

/-! ### The order of events -/

/-- `dvBefore` is the order of R27: time first, then source. -/
theorem dvBefore_iff (a b : DvEv) : dvBefore a b = true ↔
    gtsTime a.gts < gtsTime b.gts ∨ gtsTime a.gts = gtsTime b.gts ∧ a.src < b.src := by
  simp [dvBefore]

theorem dvBefore_irrefl (a : DvEv) : dvBefore a a = false := by
  rw [Bool.eq_false_iff, ne_eq, dvBefore_iff]
  omega

theorem dvBefore_trans {a b c : DvEv} (hab : dvBefore a b = true) (hbc : dvBefore b c = true) : dvBefore a c = true := by
  rw [dvBefore_iff] at *
  omega

/-- What a search through a list has found so far: no entry that `ok` admits, or one that no admitted entry comes before. -/
def FirstOf (ok : DvEv → Bool) (l : List DvEv) : Option (Nat × DvEv) → Prop
  | none => ∀ x ∈ l, ok x = false
  | some (i, e) => l[i]? = some e ∧ ∀ x ∈ l, ok x = true → dvBefore x e = false

section
variable {ok : DvEv → Bool} {l : List DvEv} {e : DvEv}

/-- The search goes on past an entry that is not admitted, or does not come before the best one. -/
theorem FirstOf.skip {best : Option (Nat × DvEv)} (h : FirstOf ok l best)
    (he : ok e = true → ∃ b, best = some b ∧ dvBefore e b.2 = false) : FirstOf ok (l ++ [e]) best := by
  match best with
  | none =>
    intro x hx
    rcases List.mem_append.1 hx with hx | hx
    · exact h x hx
    · rw [List.mem_singleton.1 hx, Bool.eq_false_iff]
      exact fun hok => by simpa using he hok
  | some (i, b) =>
    obtain ⟨hi, hl⟩ := h
    refine ⟨by rw [List.getElem?_append_left (List.getElem?_eq_some_iff.1 hi).1, hi], fun x hx hok => ?_⟩
    rcases List.mem_append.1 hx with hx | hx
    · exact hl x hx hok
    · obtain rfl := List.mem_singleton.1 hx
      obtain ⟨_, hb, hx⟩ := he hok
      cases hb
      exact hx

/-- An admitted entry that comes before the best one so far is the best one. -/
theorem FirstOf.better {best : Option (Nat × DvEv)} (h : FirstOf ok l best)
    (he : ∀ b, best = some b → dvBefore e b.2 = true) : FirstOf ok (l ++ [e]) (some (l.length, e)) := by
  refine ⟨by simp, fun x hx hok => ?_⟩
  rcases List.mem_append.1 hx with hx | hx
  · match best with
    | none => exact absurd hok (by simp [h x hx])
    | some (i, b) =>
      rw [Bool.eq_false_iff]
      exact fun hxe => by simpa [h.2 x hx hok] using dvBefore_trans hxe (he _ rfl)
  · rw [List.mem_singleton.1 hx]
    exact dvBefore_irrefl e

end

/-- `dvFirst` finds the first entry of a list in the order of R27, among those admitted. -/
theorem dvFirst_spec (ok : DvEv → Bool) (r : List DvEv) : ∀ (l : List DvEv) (best : Option (Nat × DvEv)),
    FirstOf ok l best → FirstOf ok (l ++ r) (dvFirst ok l.length best r) := by
  induction r with
  | nil =>
    intro l best h
    rw [List.append_nil]
    cases best <;> exact h
  | cons e r ih =>
    intro l best h
    have step (b : Option (Nat × DvEv)) (hb : FirstOf ok (l ++ [e]) b) :
        FirstOf ok (l ++ e :: r) (dvFirst ok (l.length + 1) b r) := by
      simpa using ih (l ++ [e]) b hb
    cases best with
    | none =>
      refine step _ ?_
      split_ifs with hok
      · exact h.better (by simp)
      · exact h.skip fun ht => absurd ht hok
    | some b =>
      refine step _ ?_
      split_ifs with hok
      · rw [Bool.and_eq_true] at hok
        exact h.better fun _ hb => Option.some.inj hb ▸ hok.2
      · exact h.skip fun ht => ⟨b, rfl, by simpa [ht] using hok⟩

/-- The head of the store stands in it, and none of those that wait for no lower AO sequence number comes before it. -/
theorem dvHead_first {s : State} {i : Nat} {e : DvEv} (h : s.dvHead = some (i, e)) :
    s.dv.store[i]? = some e ∧ ∀ x ∈ s.dv.store, dvBlocked s.dv.store x = false → dvBefore x e = false := by
  have hf := dvFirst_spec (fun e => !dvBlocked s.dv.store e) s.dv.store [] none (by simp [FirstOf])
  change FirstOf _ _ s.dvHead at hf
  rw [h] at hf
  exact ⟨hf.1, fun x hx hb => hf.2 x hx (by simp [hb])⟩

/-! ### An event that leaves the store -/

/-- The record of an event carries LATE when it is late, and not otherwise. -/
theorem late_flag (late jig ao : Bool) : ((if late then fLate else 0) ||| (if jig then fJig else 0) |||
    (if ao then fAo else 0)).getLsbD 0 = late := by
  cases late <;> cases jig <;> cases ao <;> decide

/-- An event goes out as the record of its type, source, class, stamp and body. -/
theorem dvOut_arrives (s : State) (e : DvEv) (late : Bool) : ∃ a, (s.dvOut e late).arc.arrivals = s.arc.arrivals ++ [a] ∧
    a.r.typ = e.typ ∧ a.r.src = e.src ∧ a.r.cls = e.cls ∧ a.r.gts = e.gts ∧ a.r.body = e.body ∧
    a.r.flags.getLsbD 0 = late :=
  ⟨_, rfl, rfl, rfl, rfl, rfl, rfl, late_flag late e.jig e.aoseq.isSome⟩

theorem dvOut_dv (s : State) (e : DvEv) (late : Bool) : (s.dvOut e late).dv.inbox = s.dv.inbox ∧
    (s.dvOut e late).dv.store = s.dv.store ∧
    (s.dvOut e late).dv.lateCount = if late then satInc s.dv.lateCount 65535 else s.dv.lateCount := ⟨rfl, rfl, rfl⟩

/-- With NOTIFY an event also goes to its event queue. -/
theorem dvOut_events (s : State) (e : DvEv) (late : Bool) :
    (e.qpn = none → (s.dvOut e late).qps.events = s.qps.events) ∧
    (∀ q, e.qpn = some q →
      (s.dvOut e late).qps.events = s.qps.events ++ [{ qpn := q, gts := e.gts, result := e.result }]) := by
  simp only [State.dvOut]
  exact ⟨fun h => by rw [h]; exact List.append_nil _, fun q h => by rw [h]⟩

theorem gapDrop_dv (s : State) (c k n b : Nat) (g g' : Gts) : (s.gapDrop c k n b g g').dv = s.dv := by
  simp only [State.gapDrop]
  split <;> rfl

/-! ### Arrival and release -/

/-- An event is late when it lies below the last release. -/
def State.isLate (s : State) (e : DvEv) : Bool :=
  match s.dv.lastRel with
  | some l => gtsTime e.gts < l
  | none => false

theorem isLate_of_lt {s : State} {e : DvEv} {l : Nat} (hr : s.dv.lastRel = some l) (hl : gtsTime e.gts < l) :
    s.isLate e = true := by
  simp [State.isLate, hr, hl]

theorem isLate_of_le {s : State} {e : DvEv} (h : ∀ l, s.dv.lastRel = some l → l ≤ gtsTime e.gts) : s.isLate e = false := by
  unfold State.isLate
  split
  · next l hl => simpa using h l hl
  · rfl

/-- Event `i` has left its link. -/
def State.unlinked (s : State) (i : Nat) : State := { s with dv := { s.dv with inbox := ldel s.dv.inbox i } }

section
variable {s : State} (hup : s.up = true)
include hup

section
variable {i : Nat} {e : DvEv} (he : s.dv.inbox[i]? = some e) (hf : (s.dv.inbox.take i).any (·.src == e.src) = false)
  (hl : s.dv.store.length < 8192)
include he hf hl

/-- The first event of its source, with room in the store: late, held, refused, or left on its link. -/
theorem dovetailArrival_eq : exec (.dovetailArrival i) s =
    if s.isLate e then .next ((s.unlinked i).dvOut e true)
    else if dvReserved e || s.dv.store.length ≤ 6144 then
      .next { s with dv := { s.dv with inbox := ldel s.dv.inbox i, store := s.dv.store ++ [e] } }
    else if 2 ≤ e.cls.toNat then .next ((s.unlinked i).gapDrop e.cls.toNat 2 1 (padded e.body.length) e.gts e.gts)
    else .next s := by
  change execDovetailArrival i s = _
  unfold execDovetailArrival
  rw [he]
  exact if_neg (by simp [hup, hf, dvStore, Nat.not_le.2 hl])

/-- A late event goes out at once. -/
theorem dovetailArrival_late (h : s.isLate e = true) :
    ∃ t a, exec (.dovetailArrival i) s = .next t ∧ t.arc.arrivals = s.arc.arrivals ++ [a] ∧ a.r.gts = e.gts ∧
      a.r.src = e.src ∧ a.r.flags.getLsbD 0 = true ∧ t.dv.store = s.dv.store ∧ t.dv.inbox = ldel s.dv.inbox i ∧
      t.dv.lateCount = satInc s.dv.lateCount 65535 := by
  obtain ⟨a, ha, -, hsrc, -, hgts, -, hflag⟩ := dvOut_arrives (s.unlinked i) e true
  obtain ⟨hin, hst, hlate⟩ := dvOut_dv (s.unlinked i) e true
  exact ⟨_, a, (dovetailArrival_eq hup he hf hl).trans (if_pos h), ha, hgts, hsrc, hflag, hst, hin, hlate⟩

variable (h : s.isLate e = false)
include h

theorem dovetailArrival_held (hr : dvReserved e = true ∨ s.dv.store.length ≤ 6144) :
    exec (.dovetailArrival i) s =
      .next { s with dv := { s.dv with inbox := ldel s.dv.inbox i, store := s.dv.store ++ [e] } } := by
  rw [dovetailArrival_eq hup he hf hl, if_neg (by simp [h]), if_pos (by simpa using hr)]

variable (hr : dvReserved e = false) (hfull : 6144 < s.dv.store.length)
include hr hfull

theorem dovetailArrival_refused (hc : 2 ≤ e.cls.toNat) :
    ∃ t, exec (.dovetailArrival i) s = .next t ∧ t.dv.inbox = ldel s.dv.inbox i ∧ t.dv.store = s.dv.store := by
  have hdv := gapDrop_dv (s.unlinked i) e.cls.toNat 2 1 (padded e.body.length) e.gts e.gts
  refine ⟨_, ?_, by rw [hdv]; rfl, by rw [hdv]; rfl⟩
  rw [dovetailArrival_eq hup he hf hl, if_neg (by simp [h]), if_neg (by simp [hr, hfull]), if_pos hc]

theorem dovetailArrival_stays (hc : e.cls.toNat < 2) : exec (.dovetailArrival i) s = .next s := by
  rw [dovetailArrival_eq hup he hf hl, if_neg (by simp [h]), if_neg (by simp [hr, hfull]), if_neg (by omega)]

end

section
variable {i : Nat} {e : DvEv} (hd : s.dvHead = some (i, e))
include hd

theorem dovetailRelease_eq : exec .dovetailRelease s = if s.horizon ≤ (gtsUnits e.gts : Int) then .next s
    else .next (({ s with dv := { s.dv with store := ldel s.dv.store i } } : State).dvOut e false) := by
  change execDovetailRelease s = _
  unfold execDovetailRelease
  rw [hd]
  simp [hup]

/-- The head of the store leaves it once it lies below the horizon. -/
theorem dovetailRelease_releases (hh : (gtsUnits e.gts : Int) < s.horizon) :
    ∃ t a, exec .dovetailRelease s = .next t ∧ t.dv.store = ldel s.dv.store i ∧
      t.arc.arrivals = s.arc.arrivals ++ [a] ∧ a.r.typ = e.typ ∧ a.r.src = e.src ∧ a.r.cls = e.cls ∧ a.r.gts = e.gts ∧
      a.r.body = e.body ∧ a.r.flags.getLsbD 0 = false ∧ t.dv.lateCount = s.dv.lateCount ∧ t.dv.inbox = s.dv.inbox ∧
      (e.qpn = none → t.qps.events = s.qps.events) ∧
      (∀ q, e.qpn = some q → t.qps.events = s.qps.events ++ [{ qpn := q, gts := e.gts, result := e.result }]) := by
  let u : State := { s with dv := { s.dv with store := ldel s.dv.store i } }
  obtain ⟨a, ha, htyp, hsrc, hcls, hgts, hbody, hflag⟩ := dvOut_arrives u e false
  obtain ⟨hin, hst, hlate⟩ := dvOut_dv u e false
  exact ⟨_, a, (dovetailRelease_eq hup hd).trans (if_neg (by omega)), hst, ha, htyp, hsrc, hcls, hgts, hbody, hflag, hlate,
    hin, dvOut_events u e false⟩

end
end

/-! ### The obligation -/

/-- Settles O10: an arrival is late, held, refused or left where it is; a release is of the head of the store, which
`dvHead_first` says is the first in order. -/
theorem dovetailOrder : Obligations.DovetailOrder := fun _ hup =>
  ⟨fun _ _ he hf hl h =>
      ⟨dovetailArrival_held hup he hf hl (isLate_of_le h), dovetailArrival_refused hup he hf hl (isLate_of_le h),
        dovetailArrival_stays hup he hf hl (isLate_of_le h)⟩,
    fun _ _ _ he hf hl hr h => dovetailArrival_late hup he hf hl (isLate_of_lt hr h),
    fun _ _ hd hh => ⟨(dvHead_first hd).1, (dvHead_first hd).2, dovetailRelease_releases hup hd hh⟩,
    fun _ _ hd hh => (dovetailRelease_eq hup hd).trans (if_pos hh)⟩

end Sys2Proof.Machine
end

section
/-! PROOFS. A bring-in whose resource is among the retired (R29 to R31). -/

namespace Sys2Proof.Machine
open Sys2Proof

/-- The bring-in of engine 2 for its own logical number. -/
def ownReturn : RetReq := { cls := .engine, phys := 2, errors := 1, at_ := 0, num := some 2 }

/-- Its assay runs, and it stands among the retired. -/
def retiredReturns : State := { ret := {
  engine := { retired := [2], bringIn := some (ownReturn, 2) }
  assays := [(.engine, 2, true, none)] } }

/-- The physical resource that serves a logical number in the state that an outcome goes on to. -/
def servedBy (c : ResClass) (n : Nat) : Out → Option Nat
  | .next t => t.phys c n
  | .fault _ | .refused _ => none

/-- A number given to the resource of the same number has no entry in the map, and without one a retired resource serves
nothing. -/
theorem assayDone_retiredReturns : servedBy .engine 2 (exec (.assayDone .engine 2 true) retiredReturns) = none := by
  decide +kernel

/-- Refutes O2: the clause on a spare that takes the number left vacant does not ask that the spare is not retired, nor that
its own number is another. Engine 2 under assay for logical number 2, and retired, passes; the number stays vacant. -/
theorem not_retirementsAndAssays : ¬ Obligations.RetirementsAndAssays := by
  intro h
  obtain ⟨-, -, hbrought, -⟩ := h retiredReturns (by decide)
  obtain ⟨t, ht, hphys, -⟩ := hbrought .engine 2 ownReturn 2 (by decide) (by decide) rfl rfl rfl (by decide)
  have hnone := assayDone_retiredReturns
  rw [ht] at hnone
  exact absurd (hphys.symm.trans hnone) (by decide)

end Sys2Proof.Machine
end

section
/-! PROOFS. What messages, notices, events and changes of status leave of the module as it was (R99, R100, R105, R121,
R131). -/

namespace Sys2Proof.Machine
open Sys2Proof

/-! ### The settings of the endpoint -/

/-- What the host or firmware has set of one function. -/
structure Controls where
  bme : Bool
  d3hot : Bool
  fnMask : Bool
  msixEn : Bool
  fwReady : Bool

def Fun.controls (f : Fun) : Controls :=
  { bme := f.bme, d3hot := f.d3hot, fnMask := f.fnMask, msixEn := f.msixEn, fwReady := f.fwReady }

/-- The link and what has been set of the endpoint and of its functions. -/
structure Settings where
  up : Bool
  speed : Nat
  width : Nat
  tag10 : Bool
  vfEnable : Bool
  numVFs : Nat
  controls : Nat → Controls

def State.settings (s : State) : Settings :=
  { up := s.pci.up, speed := s.pci.speed, width := s.pci.width, tag10 := s.pci.tag10, vfEnable := s.pci.vfEnable,
    numVFs := s.pci.numVFs, controls := fun n => (s.fun_ n).controls }

/-- The settings, and the parts of a state that no message and no notice reaches. -/
structure Quiet where
  settings : Settings
  loop : Loop
  arc : Arc
  pwr : Pwr
  lc : Lc
  otp : Otp
  /-- the Driner commands outstanding -/
  out : List (Nat × Nat × Nat)
  /-- the reservation in force -/
  count : BitVec 8

def State.quiet (s : State) : Quiet :=
  { settings := s.settings, loop := s.loop, arc := s.arc, pwr := s.pwr, lc := s.lc, otp := s.otp, out := s.drn.out,
    count := s.bch.count }

section
variable (s : State)

theorem settings_setFun (n : Nat) {f : Fun} (h : f.controls = (s.fun_ n).controls) : (s.setFun n f).settings = s.settings := by
  have hc : (fun k => ((s.setFun n f).fun_ k).controls) = fun k => (s.fun_ k).controls := by
    funext k
    rw [setFun_get]
    split_ifs with hk
    · rw [hk, h]
    · rfl
  exact congrArg (fun c => { s.settings with controls := c }) hc

theorem quiet_setFun (n : Nat) {f : Fun} (h : f.controls = (s.fun_ n).controls) : (s.setFun n f).quiet = s.quiet :=
  congrArg (fun x => { s.quiet with settings := x }) (settings_setFun s n h)

theorem quiet_each {α : Type} (f : α → State → State) (h : ∀ a s, (f a s).quiet = s.quiet) (l : List α) :
    (each l f s).quiet = s.quiet := each_keeps s State.quiet f h l

/-! ### Egress, messages, mailboxes -/

theorem quiet_creditLate : s.creditLate.quiet = s.quiet := by
  unfold State.creditLate
  refine Eq.trans (by rfl) (quiet_each s _ (fun t s => ?_) s.pci.prio)
  dsimp only
  split <;> rfl

theorem quiet_creditWait : s.creditWait.quiet = s.quiet := by
  unfold State.creditWait
  split
  · rfl
  · split_ifs
    · exact quiet_creditLate s
    · rfl
  · rfl

theorem quiet_place (prio : Bool) (t : Tlp) : (s.place prio t).quiet = s.quiet := by
  unfold State.place
  cases prio
  · rfl
  · exact quiet_creditWait _

theorem quiet_msix (fn vec : Nat) (prio : Bool) : (s.msix fn vec prio).quiet = s.quiet := by
  simp only [State.msix]
  split_ifs
  · rfl
  · exact quiet_setFun s fn rfl
  · rfl
  · exact quiet_place s prio _

theorem quiet_cause (fn b : Nat) : (s.cause fn b).quiet = s.quiet := by
  simp only [State.cause]
  split_ifs
  · exact quiet_setFun s fn rfl
  · exact (quiet_msix _ fn _ _).trans (quiet_setFun s fn rfl)

theorem quiet_signal (ch : Nat) : (s.signal ch).quiet = s.quiet := by
  simp only [State.signal]
  split
  · exact quiet_cause s _ 0
  · split_ifs <;> rfl
  · rfl

theorem quiet_dbSet (ch : Nat) (bits : Word) : (s.dbSet ch bits).quiet = s.quiet := by
  simp only [State.dbSet]
  split_ifs
  · rfl
  · exact quiet_signal _ ch

theorem quiet_push (ch : Nat) (m : List Word) : (s.push ch m).quiet = s.quiet := by
  unfold State.push
  dsimp only
  split
  · rfl
  · split
    · rfl
    · exact quiet_dbSet _ ch 1

/-! ### Notices, status, events -/

theorem quiet_notice (fn op : Nat) (p : Bytes) : (s.notice fn op p).quiet = s.quiet := by
  simp only [State.notice]
  split_ifs
  · rfl
  · rfl
  · exact (quiet_cause _ fn 1).trans (quiet_each _ _ (fun m s => quiet_push s _ m) _)

theorem quiet_noticeAll (op : Nat) (p : Bytes) : (s.noticeAll op p).quiet = s.quiet :=
  quiet_each s _ (fun fn s => quiet_notice s fn op p) _

theorem quiet_capacityNotice : s.capacityNotice.quiet = s.quiet := quiet_notice s 0 _ _

theorem quiet_statusTouch : s.statusTouch.quiet = s.quiet := by
  refine quiet_each s _ (fun fn s => ?_) _
  dsimp only
  split_ifs
  · rfl
  · exact (quiet_cause _ fn 2).trans (quiet_setFun s fn rfl)

theorem outside_statusTouch : s.statusTouch.outside = s.outside := by
  refine outside_each s _ (fun fn s => ?_) _
  dsimp only
  split_ifs
  · rfl
  · exact outside_cause _ fn 2

theorem quiet_event (typ src : Nat) (cls : BitVec 2) (body : Bytes) : (s.event typ src cls body).quiet = s.quiet := rfl

theorem outside_event (typ src : Nat) (cls : BitVec 2) (body : Bytes) : (s.event typ src cls body).outside = s.outside := rfl

/-! ### The causes of the class-0 guarantee (R34) -/

/-- A cause of the guarantee's withdrawal stands, or has ended. -/
def Ret.withCause (r : Ret) (cause : Nat) (on : Bool) : Ret :=
  match cause with
  | 1 => { r with wLanes := on }
  | 2 => { r with wLink := on }
  | 3 => { r with wNoise := on }
  | _ => { r with wJig := on }

theorem withCause_same : ∀ {cause : Nat} {on : Bool}, s.causeStands cause = on → s.ret.withCause cause on = s.ret
  | 0, _, rfl | 1, _, rfl | 2, _, rfl | 3, _, rfl | _ + 4, _, rfl => rfl

theorem quiet_setCause (cause : Nat) (on : Bool) (n : Nat) : (s.setCause cause on n).quiet = s.quiet := by
  unfold State.setCause
  split
  · rfl
  · exact (quiet_capacityNotice _).trans (quiet_statusTouch _)

/-- Of what lies outside the archive and the mailboxes a cause changes its own flag. -/
theorem outside_setCause (cause : Nat) (on : Bool) (n : Nat) :
    (s.setCause cause on n).outside = { s.outside with ret := s.ret.withCause cause on } := by
  unfold State.setCause
  split
  · next h => exact congrArg (fun r => { s.outside with ret := r }) (withCause_same s h).symm
  · exact (outside_notice _ 0 _ _).trans (outside_statusTouch _)

theorem quiet_laneGuard : s.laneGuard.quiet = s.quiet := by
  unfold State.laneGuard
  dsimp only
  split_ifs
  · exact quiet_setCause s 1 true _
  · exact quiet_setCause s 1 false _
  · rfl

end

end Sys2Proof.Machine
end

section
/-! PROOFS. The commands about the module (R36, R37, R132, R134, R424). -/

namespace Sys2Proof.Machine
open Sys2Proof

/-! ### A command begun, and its answer -/

section
variable {s : State} {op : Nat} {r : Req}

/-- Beginning a command writes what Driner holds, and nothing else. -/
theorem begun_eq (s : State) (op : Nat) (r : Req) : s.begun op r = { s with drn := (s.begun op r).drn } := by
  unfold State.begun State.untake
  split <;> rfl

theorem begun_held (s : State) (op : Nat) (r : Req) : (s.begun op r).drn.held = s.drn.held := by
  unfold State.begun State.untake
  split <;> rfl

/-- A response to a command outstanding stands among those held. -/
theorem reply_answers {t : State} (h : t.drn.out.contains (r.party, r.tag, op) = true) (st : Nat) (p : Bytes) :
    (t.reply r.party r.tag op st p).answers r op st p := by
  rw [reply_of_out h]
  exact ⟨_, List.mem_append_right _ (List.mem_singleton_self _), rfl, rfl, rfl, rfl, rfl, rfl⟩

/-- A response changes what Driner holds, and nothing else. -/
theorem reply_eq (t : State) (party tag op st : Nat) (p : Bytes) :
    t.reply party tag op st p = { t with drn := (t.reply party tag op st p).drn } := by
  unfold State.reply
  split <;> rfl

/-- A command whose body reads what lies outside Driner, and changes nothing. -/
theorem drinerNow_reads (h : s.begins op r) {body : State → State × Nat × Bytes} {st : Nat} {p : Bytes}
    (hb : ∀ d, body { s with drn := d } = ({ s with drn := d }, st, p)) :
    drinerNow op r s body = .next ((s.begun op r).holdFor true r.party op r.tag st false p) := by
  have hbody : body (s.begun op r) = (s.begun op r, st, p) := by rw [begun_eq]; exact hb _
  rw [drinerNow_begins h, hbody, reply_of_out (begun_contains s op r)]

end

/-! ### Commands that only read -/

section
variable {s : State} {r : Req}

theorem identGet_answers (h : s.begins 0x0101 r) : exec (.identGet r) s = .next ((s.begun 0x0101 r).holdFor true r.party
    0x0101 r.tag stOk false (orderingCode ++ le 4 glbId.toNat ++ le 8 s.lc.serial.toNat ++ le 4 s.lc.version.toNat ++
      le 4 s.lc.bootCount)) := by
  change execIdentGet r s = _
  exact drinerNow_reads h fun _ => rfl

theorem capacityGet_answers (h : s.begins 0x0103 r) : exec (.capacityGet r) s =
    .next ((s.begun 0x0103 r).holdFor true r.party 0x0103 r.tag stOk false s.capacity) := by
  change execCapacityGet r s = _
  exact drinerNow_reads h fun _ => rfl

theorem profileGet_answers (h : s.begins 0x0A02 r) : exec (.profileGet r) s = .next ((s.begun 0x0A02 r).holdFor true
    r.party 0x0A02 r.tag stOk false (le 1 s.pwr.profile.code ++
      le 1 (if s.arc.auto then (s.pwr.returnTo.map Profile.code).getD 0xFF else 0xFF) ++ le 1 s.reservation ++
      le 1 (s.powerCap / 1000))) := by
  change execProfileGet r s = _
  exact drinerNow_reads h fun _ => rfl

/-- A function has 2,048 vectors if it is PF0, and 64 otherwise. -/
theorem vectorsOf_fn {party fn : Nat} (h : midFn party = some fn) : vectorsOf party = if fn = 0 then 2048 else 64 := by
  unfold vectorsOf
  rw [h]
  cases fn <;> rfl

theorem featuresGet_answers {fn : Nat} (h : s.begins 0x0102 r) (hfn : midFn r.party = some fn) :
    exec (.featuresGet r) s = .next ((s.begun 0x0102 r).holdFor true r.party 0x0102 r.tag stOk false
      (le 8 s.features ++ le 1 (if s.pci.vfEnable then s.pci.numVFs else 0) ++ le 1 0 ++
        le 2 (if fn = 0 then 2048 else 64) ++ le 4 (s.fun_ fn).first ++ le 4 (s.fun_ fn).count)) := by
  change execFeaturesGet r s = _
  refine drinerNow_reads h fun d => ?_
  rw [← vectorsOf_fn hfn, hfn]
  rfl

/-- POWER_STATUS measures the die's temperature and answers with it. -/
theorem powerStatus_answers (h : s.begins 0x0A04 r) : let e := (s.begun 0x0A04 r).senseTemp
    exec (.powerStatus r) s = .next (e.holdFor true r.party 0x0A04 r.tag stOk false
      (le 2 s.pwr.vin ++ le 2 (ofSigned 16 e.pwr.temp) ++ le 4 s.pwr.mw ++ le 1 (4 * b2n s.pwr.prepare +
        8 * b2n s.pwr.recovering + 16 * b2n s.vbatOk + 32 * b2n (s.pwr.vbat < 2200) + 64 * b2n s.pwr.capActive))) := by
  have hout : (s.begun 0x0A04 r).senseTemp.drn.out.contains (r.party, r.tag, 0x0A04) = true := begun_contains s 0x0A04 r
  change execPowerStatus r s = _
  unfold execPowerStatus
  rw [drinerNow_begins h, reply_of_out hout, begun_eq]
  rfl

/-- A command whose issuer firmware does not serve waits. -/
theorem powerStatus_unserved (h : s.serves r.party = false) : exec (.powerStatus r) s = .next s := if_pos (by simp [h])

section
variable (hs : s.serves r.party = true) (ht : s.turn 0x0A04 r = true) (hw : s.wasTaken 0x0A04 r = false)
include hs ht hw

theorem powerStatus_duplicate (hd : ((s.untake r.party 0x0A04 r.tag).outstanding r.party).contains r.tag = true) :
    exec (.powerStatus r) s = .next ((s.untake r.party 0x0A04 r.tag).hold r.party 0x0A04 r.tag stRejected true []) :=
  (if_neg (by simp [hs, ht])).trans (if_pos (by simpa [hw] using hd))

theorem powerStatus_seventeenth (hd : ((s.untake r.party 0x0A04 r.tag).outstanding r.party).contains r.tag = false)
    (hn : 16 ≤ ((s.untake r.party 0x0A04 r.tag).outstanding r.party).length) :
    exec (.powerStatus r) s = .next ((s.untake r.party 0x0A04 r.tag).hold r.party 0x0A04 r.tag stResource false []) :=
  (if_neg (by simp [hs, ht])).trans ((if_neg (by simp only [hd, Bool.and_false]; decide)).trans
    (if_pos (by simp [hw, hn])))

end
end

/-! ### Profiles (R36, R37, R283) -/

section
variable (s : State)

theorem quiet_keepDuty (old : State) : (s.keepDuty old).quiet = s.quiet := by
  unfold State.keepDuty
  refine quiet_each s _ (fun e t => ?_) _
  dsimp only
  split <;> rfl

theorem outside_keepDuty (old : State) : (s.keepDuty old).outside = s.outside := by
  unfold State.keepDuty
  refine outside_each s _ (fun e t => ?_) _
  dsimp only
  split <;> rfl

/-- The reservation that is wanted comes into force. -/
theorem quiet_applyReserve : s.applyReserve.quiet = { s.quiet with count := BitVec.ofNat 8 s.wantReserve } :=
  (quiet_laneGuard _).trans (quiet_keepDuty { s with bch := { s.bch with count := BitVec.ofNat 8 s.wantReserve } } s)

/-- A profile takes effect with the owner's reservation, or its own. -/
theorem quiet_toProfile (p : Profile) (cause : Nat) : (s.toProfile p cause).quiet = { s.quiet with
    pwr := { s.pwr with profile := p }
    count := BitVec.ofNat 8 (s.ret.ownerCount.getD (profileReserve p)) } := by
  let u : State := { s with pwr := { s.pwr with profile := p } }
  have hq : (u.keepDuty s).quiet = u.quiet := quiet_keepDuty u s
  have hr : (u.keepDuty s).ret = s.ret := congrArg Outside.ret (outside_keepDuty u s)
  have hp : (u.keepDuty s).pwr = u.pwr := congrArg Quiet.pwr hq
  have hw : (u.keepDuty s).wantReserve = s.ret.ownerCount.getD (profileReserve p) := by
    unfold State.wantReserve
    rw [hr, hp]
  refine ((quiet_noticeAll _ _ _).trans (quiet_statusTouch _)).trans ((quiet_applyReserve _).trans ?_)
  rw [hw, hq]
  rfl

theorem endRuns_nil (p : Run → Bool) (h : s.arc.runs = []) : s.endRuns p = s := by
  unfold State.endRuns
  rw [h]
  split_ifs
  · rfl
  · exact congrArg (fun l => ({ s with arc := { s.arc with runs := l } } : State)) h.symm

theorem closeGaps_nil (p : Gap → Bool) (h : s.arc.gaps = []) : s.closeGaps p = s := by
  unfold State.closeGaps
  rw [h]
  split_ifs
  · rfl
  · exact congrArg (fun l => ({ s with arc := { s.arc with gaps := l } } : State)) h.symm

end

/-- Outside INCIDENT the profile takes effect. -/
theorem chooseProfile_takes {s : State} (q : Profile) (ha : s.arc.auto = false) (hp : s.pwr.profile ≠ .incident) :
    ∃ a c, (s.chooseProfile q 0).quiet = { s.quiet with pwr := { s.pwr with profile := q }, arc := a, count := c } ∧
      (q ≠ s.pwr.profile → c = BitVec.ofNat 8 (s.ret.ownerCount.getD (profileReserve q))) := by
  unfold State.chooseProfile
  rw [if_neg (by simp [ha])]
  by_cases hq : s.pwr.profile = q
  · subst hq
    exact ⟨s.arc, s.bch.count, by rw [if_pos rfl]; rfl, fun h => absurd rfl h⟩
  · rw [if_neg hq, if_neg (by simpa [State.inIncident] using hp)]
    dsimp only
    split_ifs
    · exact ⟨_, _, congrArg (fun x => { x with arc := ((s.toProfile q 0).arcEvent 2).arc }) (quiet_toProfile s q 0),
        fun _ => rfl⟩
    · exact ⟨_, _, quiet_toProfile s q 0, fun _ => rfl⟩

/-- A commanded INCIDENT ends at once where staging does not stand at 75 % (log entry 68). -/
theorem chooseProfile_leaves {s : State} {q : Profile} (ha : s.arc.auto = false) (hp : s.pwr.profile = .incident)
    (hq : q ≠ .incident) (hu : 4 * s.arc.genUsed < 3 * genArea) (hr : s.arc.runs = []) (hg : s.arc.gaps = []) :
    (s.chooseProfile q 0).pwr.profile = q ∧ (s.chooseProfile q 0).drn.out = s.drn.out := by
  let u : State := { s with arc := { s.arc with auto := false }, pwr := { s.pwr with returnTo := none } }
  have hl : s.leaveIncident q 0 = (u.toProfile q 0).arcEvent 2 := by
    unfold State.leaveIncident
    rw [endRuns_nil s _ hr, closeGaps_nil s _ hg]
  have hprof : (u.toProfile q 0).pwr.profile = q := congrArg (fun x => Pwr.profile (Quiet.pwr x)) (quiet_toProfile u q 0)
  have hstays : (s.leaveIncident q 0).enterIncident = s.leaveIncident q 0 := by
    have harc : (u.toProfile q 0).arc.genUsed = s.arc.genUsed :=
      congrArg (fun x => Arc.genUsed (Quiet.arc x)) (quiet_toProfile u q 0)
    rw [hl]
    exact if_pos (by simp [State.arcEvent, harc, hu])
  have hc : s.chooseProfile q 0 = (u.toProfile q 0).arcEvent 2 := by
    unfold State.chooseProfile
    rw [if_neg (by simp [ha]), if_neg (by rw [hp]; exact hq.symm), if_pos (by simp [State.inIncident, hp]), hstays, hl]
  rw [hc]
  exact ⟨hprof, congrArg Quiet.out (quiet_toProfile u q 0)⟩

/-! ### PROFILE_SET -/

/-- The table has four profiles. -/
theorem profileOf_none {n : Nat} (h : 3 < n) : profileOf n = none := by
  obtain ⟨k, rfl⟩ : ∃ k, n = k + 4 := ⟨n - 4, by omega⟩
  rfl

/-- A profile of the table is held during a dip, and otherwise chosen. -/
def State.takeProfile (s : State) (q : Profile) : State :=
  if s.pwr.prepare || s.pwr.recovering then { s with pwr := { s.pwr with heldProfile := some q } } else s.chooseProfile q 0

section
variable {s : State} {r : Req} (h : s.begins 0x0A01 r)
include h

/-- PROFILE_SET of a number that the table does not have. -/
theorem profileSet_rejects (hq : 3 < leAt r.payload 0 1) :
    exec (.profileSet r) s = .next ((s.begun 0x0A01 r).holdFor true r.party 0x0A01 r.tag stRejected false []) := by
  change execProfileSet r s = _
  refine drinerNow_reads h fun d => ?_
  rw [profileOf_none hq]

variable {q : Profile} (hq : profileOf (leAt r.payload 0 1) = some q)
include hq

/-- PROFILE_SET of a profile of the table takes it and answers OK. -/
theorem profileSet_eq : exec (.profileSet r) s =
    .next (((s.begun 0x0A01 r).takeProfile q).reply r.party r.tag 0x0A01 stOk []) := by
  change execProfileSet r s = _
  unfold execProfileSet State.takeProfile
  rw [drinerNow_begins h]
  dsimp only
  rw [hq]
  dsimp only
  split <;> rfl

/-- The state that PROFILE_SET leaves, where taking the profile leaves the command outstanding. -/
theorem profileSet_takes (hout : ((s.begun 0x0A01 r).takeProfile q).drn.out = (s.begun 0x0A01 r).drn.out) :
    ∃ t d, exec (.profileSet r) s = .next t ∧ t = { (s.begun 0x0A01 r).takeProfile q with drn := d } ∧
      t.answers r 0x0A01 stOk [] :=
  ⟨_, _, profileSet_eq h hq, reply_eq _ _ _ _ _ _, reply_answers (by rw [hout]; exact begun_contains s 0x0A01 r) _ _⟩

/-- During a dip the profile is held. -/
theorem profileSet_holds (hd : s.pwr.prepare = true ∨ s.pwr.recovering = true) :
    ∃ t, exec (.profileSet r) s = .next t ∧ t.pwr = { s.pwr with heldProfile := some q } ∧ t.answers r 0x0A01 stOk [] := by
  have hp : (s.begun 0x0A01 r).pwr = s.pwr := by simp
  have hk : (s.begun 0x0A01 r).takeProfile q =
      { s.begun 0x0A01 r with pwr := { (s.begun 0x0A01 r).pwr with heldProfile := some q } } :=
    if_pos (by rw [hp]; simpa using hd)
  obtain ⟨t, d, he, ht, hans⟩ := profileSet_takes h hq (by rw [hk])
  exact ⟨t, he, by rw [ht, hk, hp], hans⟩

variable (hprep : s.pwr.prepare = false) (hrec : s.pwr.recovering = false)
include hprep hrec

omit h hq in
theorem takeProfile_chooses : (s.begun 0x0A01 r).takeProfile q = (s.begun 0x0A01 r).chooseProfile q 0 := by
  have hp : (s.begun 0x0A01 r).pwr = s.pwr := by simp
  exact if_neg (by rw [hp]; simp [hprep, hrec])

/-- During an automatic INCIDENT the profile is the one to return to. -/
theorem profileSet_returnsTo (ha : s.arc.auto = true) : ∃ t, exec (.profileSet r) s = .next t ∧
    t.pwr = { s.pwr with returnTo := some q } ∧ t.answers r 0x0A01 stOk [] := by
  have hp : (s.begun 0x0A01 r).pwr = s.pwr := by simp
  have hk : (s.begun 0x0A01 r).takeProfile q =
      { s.begun 0x0A01 r with pwr := { (s.begun 0x0A01 r).pwr with returnTo := some q } } :=
    (takeProfile_chooses hprep hrec).trans (if_pos (by simpa using ha))
  obtain ⟨t, d, he, ht, hans⟩ := profileSet_takes h hq (by rw [hk])
  exact ⟨t, he, by rw [ht, hk, hp], hans⟩

variable (ha : s.arc.auto = false)
include ha

/-- Outside INCIDENT the profile takes effect, with its reservation. -/
theorem profileSet_sets (hp : s.pwr.profile ≠ .incident) :
    ∃ t, exec (.profileSet r) s = .next t ∧ t.pwr.profile = q ∧ t.answers r 0x0A01 stOk [] ∧ t.otp = s.otp ∧
      (q = s.pwr.profile → t.pwr = s.pwr) ∧
      (q ≠ s.pwr.profile → t.bch.count.toNat = s.ret.ownerCount.getD (profileReserve q) % 256) := by
  have hw : (s.begun 0x0A01 r).pwr = s.pwr := by simp
  have hret : (s.begun 0x0A01 r).ret = s.ret := by simp
  have hotp : (s.begun 0x0A01 r).otp = s.otp := by rw [begun_eq]; rfl
  obtain ⟨a, c, hc, hcount⟩ := chooseProfile_takes (s := s.begun 0x0A01 r) q (by simpa using ha) (by rw [hw]; exact hp)
  rw [← takeProfile_chooses hprep hrec] at hc
  rw [hw, hret] at hcount
  obtain ⟨t, d, he, ht, hans⟩ := profileSet_takes h hq (congrArg Quiet.out hc)
  have hpwr : t.pwr = { s.pwr with profile := q } := by rw [ht, ← hw]; exact congrArg Quiet.pwr hc
  refine ⟨t, he, by rw [hpwr], hans, ?_, fun h => by rw [hpwr, h], fun h => ?_⟩
  · rw [ht, ← hotp]
    exact congrArg Quiet.otp hc
  · have hb : t.bch.count = c := by rw [ht]; exact congrArg Quiet.count hc
    rw [hb, hcount h, BitVec.toNat_ofNat]

/-- A commanded INCIDENT ends. -/
theorem profileSet_leaves (hp : s.pwr.profile = .incident) (hne : q ≠ .incident) (hu : 4 * s.arc.genUsed < 3 * genArea)
    (hr : s.arc.runs = []) (hg : s.arc.gaps = []) :
    ∃ t, exec (.profileSet r) s = .next t ∧ t.pwr.profile = q ∧ t.answers r 0x0A01 stOk [] := by
  have harc : (s.begun 0x0A01 r).arc = s.arc := by simp
  obtain ⟨hprof, hout⟩ := chooseProfile_leaves (s := s.begun 0x0A01 r) (by rw [harc, ha]) (by simpa using hp) hne
    (by rw [harc]; exact hu) (by rw [harc, hr]) (by rw [harc, hg])
  rw [← takeProfile_chooses hprep hrec] at hprof hout
  obtain ⟨t, d, he, ht, hans⟩ := profileSet_takes h hq hout
  exact ⟨t, he, by rw [ht]; exact hprof, hans⟩

end

/-! ### ASSAY_RUN -/

/-- The engine that serves a physical number runs an operation or waits to start one. -/
def State.engineTaken (s : State) (p : Nat) : Bool :=
  (s.logical .engine p).any fun n => (s.eng n).running || (s.eng n).waitsGo

section
variable {s : State} {r : Req} (h : s.begins 0x0B01 r)
include h

/-- ASSAY_RUN of a class that it does not name. -/
theorem assayRun_noClass (hc : assayClass (leAt r.payload 0 1) = none) :
    exec (.assayRun r) s = .next ((s.begun 0x0B01 r).holdFor true r.party 0x0B01 r.tag stRejected false []) := by
  change execAssayRun r s = _
  unfold execAssayRun
  rw [driner_begins h]
  dsimp only
  rw [hc]
  exact congrArg _ (reply_of_out (begun_contains s 0x0B01 r) _ _)

variable {c : ResClass} (hc : assayClass (leAt r.payload 0 1) = some c)
include hc

/-- ASSAY_RUN of a class: rejected, answered for a retired or a busy resource, or due. -/
theorem assayRun_class : exec (.assayRun r) s =
    let answer (st : Nat) (p : Bytes) : State := (s.begun 0x0B01 r).holdFor true r.party 0x0B01 r.tag st false p
    let n := leAt r.payload 2 2
    .next (if classSize c ≤ n || leAt r.payload 1 1 ≠ 0 then answer stRejected []
      else if (s.ret.get c).retired.contains n then answer stOk [3]
      else if s.underAssay c n || (c = .engine && s.engineTaken n) then answer stOk [4]
      else (s.begun 0x0B01 r).startAssay c n (some (r.party, r.tag))) := by
  have hret : (s.begun 0x0B01 r).ret = s.ret := by simp
  have hbusy (n : Nat) : (s.begun 0x0B01 r).underAssay c n = s.underAssay c n := by rw [begun_eq]; rfl
  have heng (n : Nat) : (s.begun 0x0B01 r).engineTaken n = s.engineTaken n := by rw [begun_eq]; rfl
  change execAssayRun r s = _
  unfold execAssayRun
  rw [driner_begins h]
  dsimp only
  rw [hc]
  dsimp only
  rw [hret, hbusy, ← heng, reply_of_out (begun_contains s 0x0B01 r), reply_of_out (begun_contains s 0x0B01 r),
    reply_of_out (begun_contains s 0x0B01 r)]
  rfl

/-- What does not exist is rejected. -/
theorem assayRun_beyond (hn : classSize c ≤ leAt r.payload 2 2) :
    exec (.assayRun r) s = .next ((s.begun 0x0B01 r).holdFor true r.party 0x0B01 r.tag stRejected false []) :=
  (assayRun_class h hc).trans (congrArg _ (if_pos (by simp [hn])))

variable (h0 : leAt r.payload 1 1 = 0) (hn : leAt r.payload 2 2 < classSize c)
include h0 hn

theorem assayRun_retired (hr : (s.ret.get c).retired.contains (leAt r.payload 2 2) = true) :
    exec (.assayRun r) s = .next ((s.begun 0x0B01 r).holdFor true r.party 0x0B01 r.tag stOk false [3]) :=
  (assayRun_class h hc).trans (congrArg _ ((if_neg (by simp [h0]; omega)).trans (if_pos hr)))

variable (hr : (s.ret.get c).retired.contains (leAt r.payload 2 2) = false)
include hr

theorem assayRun_busy (hu : s.underAssay c (leAt r.payload 2 2) = true) :
    exec (.assayRun r) s = .next ((s.begun 0x0B01 r).holdFor true r.party 0x0B01 r.tag stOk false [4]) :=
  (assayRun_class h hc).trans (congrArg _ ((if_neg (by simp [h0]; omega)).trans
    ((if_neg (ne_true_of_eq_false hr)).trans (if_pos (by simp [hu])))))

/-- An assay that may run is due, for the command that asked. -/
theorem assayRun_due (hu : s.underAssay c (leAt r.payload 2 2) = false) (he : c ≠ .engine) :
    exec (.assayRun r) s = .next ((s.begun 0x0B01 r).startAssay c (leAt r.payload 2 2) (some (r.party, r.tag))) :=
  (assayRun_class h hc).trans (congrArg _ ((if_neg (by simp [h0]; omega)).trans
    ((if_neg (ne_true_of_eq_false hr)).trans (if_neg (by simp [hu, he])))))

end

/-- ASSAY_RUN with a second byte that is not 0 is rejected, whatever the class. -/
theorem assayRun_rejects {s : State} {r : Req} (h : s.begins 0x0B01 r)
    (hb : assayClass (leAt r.payload 0 1) = none ∨ leAt r.payload 1 1 ≠ 0) :
    exec (.assayRun r) s = .next ((s.begun 0x0B01 r).holdFor true r.party 0x0B01 r.tag stRejected false []) := by
  cases hc : assayClass (leAt r.payload 0 1) with
  | none => exact assayRun_noClass h hc
  | some c => exact (assayRun_class h hc).trans (congrArg _ (if_pos (by simpa [hc] using .inr (hb.resolve_left (by simp [hc])))))

/-! ### The obligation -/

/-- Settles O32: each clause is one of the lemmas above. -/
theorem moduleCommands : Obligations.ModuleCommands := by
  intro s r
  refine ⟨identGet_answers, fun _ => featuresGet_answers, capacityGet_answers, fun _ h hq => profileSet_holds h hq,
    fun _ h hq hp hr ha => profileSet_sets h hq hp hr ha, fun _ h hq hp hr => profileSet_returnsTo h hq hp hr,
    fun _ h hq hp hr ha hi => profileSet_leaves h hq hp hr ha hi,
    profileSet_rejects, profileGet_answers, powerStatus_answers, powerStatus_unserved,
    fun hs ht hw => ⟨powerStatus_duplicate hs ht hw, powerStatus_seventeenth hs ht hw⟩, assayRun_rejects,
    fun c h hc h0 => ⟨assayRun_beyond h hc, assayRun_retired h hc h0, fun hm he => ?_, assayRun_busy h hc h0⟩⟩
  simp only [State.mayAssay, Bool.and_eq_true, decide_eq_true_eq, Bool.not_eq_true'] at hm
  obtain ⟨⟨hn, hr⟩, hu⟩ := hm
  refine ⟨_, assayRun_due h hc h0 hn hr hu he, ?_, begun_held s _ _⟩
  simp [State.startAssay]

end Sys2Proof.Machine
end

section
/-! PROOFS. The link and configuration (R26, R34, R92, R94, R95, R99, R108, R109, R113, R114). -/

namespace Sys2Proof.Machine
open Sys2Proof

/-! ### What a change repeated for the elements of a list reaches -/

/-- What one element's change establishes and the others' changes keep holds in the end. -/
theorem each_reaches {α : Type} {P : State → Prop} {f : α → State → State} {a : α} (ha : ∀ s, P (f a s))
    (hk : ∀ b s, P s → P (f b s)) : ∀ {l : List α}, a ∈ l → ∀ s, P (each l f s)
  | b :: l, h, s => by
    have keeps : ∀ (l : List α) (s : State), P s → P (each l f s) := fun l => by
      induction l with
      | nil => exact fun _ h => h
      | cons b l ih => exact fun s h => ih _ (hk b s h)
    rcases List.mem_cons.mp h with rfl | h
    · exact keeps l _ (ha s)
    · exact each_reaches ha hk h _

/-! ### What the reset of one function leaves of the settings (R112) -/

section
variable (s : State)

theorem settings_each {α : Type} (f : α → State → State) (h : ∀ a s, (f a s).settings = s.settings) (l : List α) :
    (each l f s).settings = s.settings := each_keeps s State.settings f h l

theorem settings_of_quiet {s t : State} (h : t.quiet = s.quiet) : t.settings = s.settings := congrArg Quiet.settings h

theorem settings_with_qps (x : Qps) : ({ s with qps := x } : State).settings = s.settings := rfl
theorem settings_setQrun (q : Nat) (x : QpRun) : (s.setQrun q x).settings = s.settings := rfl
theorem settings_setQw (q : Nat) (x : QpWord) : (s.setQw q x).settings = s.settings := rfl
theorem settings_setKrow (q : Nat) (x : KRow) : (s.setKrow q x).settings = s.settings := rfl
theorem settings_uncache (q : Nat) : (s.uncache q).settings = s.settings := rfl
theorem settings_disableQp (q : Nat) : (s.disableQp q).settings = s.settings := rfl

theorem settings_event (typ src : Nat) (cls : BitVec 2) (body : Bytes) : (s.event typ src cls body).settings = s.settings := rfl

theorem settings_ptmAbandon : s.ptmAbandon.settings = s.settings := by
  unfold State.ptmAbandon
  rw [settings_of_quiet (quiet_creditWait _)]
  rfl

theorem ptmT1_ptmAbandon : s.ptmAbandon.loop.ptmT1 = none := by
  unfold State.ptmAbandon
  exact congrArg (fun q => q.loop.ptmT1) (quiet_creditWait _)

theorem settings_startRead (h : HRead) : (s.startRead h).settings = s.settings := by
  unfold State.startRead
  split
  · exact settings_of_quiet (quiet_place _ _ _)
  · rfl

theorem settings_retryTags (c0 : Bool) : (s.retryTags c0).settings = s.settings := by
  unfold State.retryTags
  split
  · split
    · exact settings_startRead _ _
    · rfl
  · rfl

theorem settings_dbErr (fn q reason : Nat) : (s.dbErr fn q reason).settings = s.settings := by
  simp only [State.dbErr]
  split
  · exact settings_setFun s fn rfl
  · exact (settings_of_quiet (quiet_cause _ fn 3)).trans (settings_setFun s fn rfl)

theorem settings_ctxFail (q check : Nat) : (s.ctxFail q check).settings = s.settings := by
  unfold State.ctxFail
  dsimp only
  rw [settings_event, settings_with_qps, settings_setQrun,
    settings_each _ _ (fun (u : Unit8) s => settings_dbErr s u.fn q 3), settings_disableQp]

theorem settings_reply (party tag op st : Nat) (p : Bytes) : (s.reply party tag op st p).settings = s.settings := by
  unfold State.reply
  split <;> rfl

theorem settings_answerQueries (q : Nat) : (s.answerQueries q).settings = s.settings := by
  unfold State.answerQueries
  rw [settings_each _ _ (fun _ s => settings_reply s _ _ _ _ _), settings_setQrun]

theorem settings_giveUpReads (fn : Nat) : (s.giveUpReads fn).settings = s.settings := by
  unfold State.giveUpReads
  dsimp only
  rw [settings_each _ _ (fun (h : HRead) s => settings_retryTags s h.c0), settings_each _ _ (fun h s => ?_)]
  · rfl
  split
  · exact (settings_answerQueries _ _).trans (settings_ctxFail s _ 3)
  · split_ifs
    · exact settings_ctxFail s _ 3
    · rfl
  · rfl

theorem settings_flushChan (ch : Nat) : (s.flushChan ch).settings = s.settings := by
  simp only [State.flushChan]
  split <;> rfl

theorem settings_flushFn (fn : Nat) : (s.flushFn fn).settings = s.settings :=
  (settings_flushChan _ _).trans ((settings_flushChan _ _).trans (settings_flushChan s fn))

theorem settings_freeUnits (j : Job) : (s.freeUnits j).settings = s.settings := by
  have h := settings_each s (fun p s => s.setLane p {}) (fun _ _ => rfl) j.lanes
  simp only [State.freeUnits]
  split <;> exact h

theorem settings_dropJob (j : Job) : (s.dropJob j).settings = s.settings := by
  unfold State.dropJob State.releaseHolds
  dsimp only
  rw [settings_with_qps, settings_each _ _ (fun _ _ => settings_setKrow _ _ _), settings_freeUnits]

theorem settings_dropJobs (ok : Nat → Bool) : (s.dropJobs ok).settings = s.settings := by
  unfold State.dropJobs
  refine (settings_each _ _ (fun j s => settings_dropJob s j) _).trans (settings_each s _ (fun fn s => ?_) _)
  dsimp only
  split
  · exact settings_setFun s fn rfl
  · rfl

theorem settings_stopFn (fn : Nat) : (s.stopFn fn).settings = s.settings := by
  unfold State.stopFn
  dsimp only
  rw [settings_flushFn, settings_giveUpReads, settings_with_qps,
    settings_each _ _ (fun _ _ => (settings_setQw _ _ _).trans ((settings_setQrun _ _ _).trans (settings_uncache _ _)))]
  split_ifs
  · rw [settings_ptmAbandon, settings_of_quiet (quiet_creditWait _), settings_dropJobs]
    rfl
  · rw [settings_of_quiet (quiet_creditWait _), settings_dropJobs]
    rfl

/-- The controls of a function that stops stand as they were. -/
theorem controls_stopFn (fn n : Nat) : ((s.stopFn fn).fun_ n).controls = (s.fun_ n).controls :=
  congrArg (fun c => c.controls n) (settings_stopFn s fn)

theorem controls_setFun_stopFn (fn : Nat) (f : Fun) : (((s.setFun fn f).stopFn fn).fun_ fn).controls = f.controls :=
  (controls_stopFn _ fn fn).trans (congrArg Fun.controls ((setFun_get s fn fn f).trans (if_pos rfl)))

theorem bme_setFun_stopFn (fn : Nat) (f : Fun) : (((s.setFun fn f).stopFn fn).fun_ fn).bme = f.bme := by
  have h := controls_setFun_stopFn s fn f
  generalize ((s.setFun fn f).stopFn fn).fun_ fn = g at h ⊢
  exact congrArg Controls.bme h

theorem d3hot_setFun_stopFn (fn : Nat) (f : Fun) : (((s.setFun fn f).stopFn fn).fun_ fn).d3hot = f.d3hot := by
  have h := controls_setFun_stopFn s fn f
  generalize ((s.setFun fn f).stopFn fn).fun_ fn = g at h ⊢
  exact congrArg Controls.d3hot h

theorem settings_unmaskVec (fn vec : Nat) : (s.unmaskVec fn vec).settings = s.settings := by
  simp only [State.unmaskVec]
  split_ifs
  · exact (settings_of_quiet (quiet_msix _ fn vec _)).trans (settings_setFun s fn rfl)
  · rfl

theorem controls_unmaskFn (fn n : Nat) : ((s.unmaskFn fn).fun_ n).controls = (s.fun_ n).controls :=
  congrArg (fun c => c.controls n) (settings_each s _ (fun v s => settings_unmaskVec s fn v) _)

/-! ### FW_READY (R113) -/

/-- The settings but FW_READY, which firmware sets. -/
def Settings.ready (c : Settings) : Settings := { c with controls := fun n => { c.controls n with fwReady := true } }

theorem ready_setFun (n : Nat) : (s.setFun n { s.fun_ n with fwReady := true }).settings.ready = s.settings.ready := by
  have hc : (fun k => { ((s.setFun n { s.fun_ n with fwReady := true }).fun_ k).controls with fwReady := true }) =
      fun k => { (s.fun_ k).controls with fwReady := true } := by
    funext k
    rw [setFun_get]
    split_ifs with hk
    · rw [hk]; rfl
    · rfl
  exact congrArg (fun c => { s.settings with controls := c }) hc

/-- FW_READY is all of the settings that firmware's start sets. -/
theorem ready_fwReadies : s.fwReadies.settings.ready = s.settings.ready := by
  unfold State.fwReadies
  dsimp only
  split
  · rfl
  · refine (congrArg Settings.ready (settings_of_quiet (quiet_statusTouch _))).trans
      (each_keeps s (fun s => s.settings.ready) _ (fun fn s => ?_) _)
    split
    · exact ready_setFun s fn
    · rfl

theorem outside_fwReadies : s.fwReadies.outside = s.outside := by
  unfold State.fwReadies
  dsimp only
  split
  · rfl
  · refine (outside_statusTouch _).trans (outside_each s _ (fun fn s => ?_) _)
    split <;> rfl

theorem zero_mem_fns : 0 ∈ s.fns := List.mem_filter.mpr ⟨by decide, rfl⟩

variable {s} in
/-- PF0 is ready once firmware runs behind a link that is up. -/
theorem fwReady_fwReadies (hup : s.up = true) (hlink : s.pci.up = true) (hfw : s.lc.fw = .running) :
    (s.fwReadies.fun_ 0).fwReady = true := by
  unfold State.fwReadies
  simp only [hup, hlink, hfw, Bool.true_and, beq_self_eq_true, Bool.true_or, Bool.not_true, Bool.false_eq_true, if_false]
  refine (congrArg (fun q => (q.settings.controls 0).fwReady) (quiet_statusTouch _)).trans ?_
  refine each_reaches (P := fun s => (s.fun_ 0).fwReady = true) (a := 0) (fun s => ?_) (fun fn s h => ?_) (zero_mem_fns s) s
  · simp
  · split_ifs
    · rw [setFun_get]
      split_ifs
      · rfl
      · exact h
    · exact h

/-! ### The link (R108, R109, R113) -/

theorem quiet_linkFloor : s.linkFloor.quiet = s.quiet := quiet_setCause s _ _ _

theorem outside_linkFloor : s.linkFloor.outside =
    { s.outside with ret := { s.ret with wLink := !linkOk s.pci.speed s.pci.width } } := outside_setCause s 2 _ _

end

section
variable {s : State} {speed width : Nat}

theorem rateOk_of (h1 : 1 ≤ speed) (h4 : speed ≤ 4) (hw : width ∈ [1, 2, 4, 8, 16]) : rateOk speed width = true := by
  simp [rateOk, h1, h4] at hw ⊢
  exact hw

/-- The state behind a link that has just come up. -/
def State.linkStarts (s : State) (speed width : Nat) : State :=
  { s with pci := { s.pci with up := true, speed := speed, width := width }, pwr := { s.pwr with perstN := true } }

theorem exec_linkUp (hup : s.up = true) (hok : s.clk.rootOk = true) (hlink : s.pci.up = false)
    (hr : rateOk speed width = true) :
    exec (.linkUp speed width) s = .next (s.linkStarts speed width).linkFloor.fwReadies := by
  change execLinkUp speed width s = _
  unfold execLinkUp
  rw [if_neg (by simp [hup, hok, hlink, hr])]
  rfl

theorem linkUp_holds (hup : s.up = true) (hok : s.clk.rootOk = true) (hlink : s.pci.up = false)
    (hr : rateOk speed width = true) : ∃ t, exec (.linkUp speed width) s = .next t ∧ t.pci.up = true ∧
      t.pci.speed = speed ∧ t.pci.width = width ∧ t.ret.wLink = !linkOk speed width ∧
      (s.lc.fw = .running → (t.fun_ 0).fwReady = true) ∧ t.pending = s.pending := by
  refine ⟨_, exec_linkUp hup hok hlink hr, ?_⟩
  generalize hu : s.linkStarts speed width = u
  have hq := quiet_linkFloor u
  have hset : u.linkFloor.fwReadies.settings.ready = u.settings.ready :=
    (ready_fwReadies _).trans (congrArg (fun q => q.settings.ready) hq)
  have hout : u.linkFloor.fwReadies.outside = _ := (outside_fwReadies _).trans (outside_linkFloor u)
  have hpwr : u.linkFloor.pwr = u.pwr := congrArg Quiet.pwr hq
  subst hu
  refine ⟨congrArg Settings.up hset, congrArg Settings.speed hset, congrArg Settings.width hset,
    congrArg (fun o => o.ret.wLink) hout, fun hfw => ?_, congrArg Outside.pending hout⟩
  refine fwReady_fwReadies ?_ (congrArg (fun q => q.settings.up) hq) ((congrArg (fun q => q.lc.fw) hq).trans hfw)
  unfold State.up
  rw [hpwr]
  exact hup

/-- The state of a link in Recovery: no PTM dialog is under way. -/
def State.recovers (s : State) : State := if s.loop.ptmT1.isSome then s.ptmAbandon else s

theorem settings_recovers (s : State) : s.recovers.settings = s.settings := by
  unfold State.recovers
  split
  · exact settings_ptmAbandon s
  · rfl

theorem ptmT1_recovers (s : State) : s.recovers.loop.ptmT1 = none := by
  unfold State.recovers
  split
  · exact ptmT1_ptmAbandon s
  · next h => exact Option.not_isSome_iff_eq_none.mp h

theorem linkRetrain_holds (hup : s.up = true) (hlink : s.pci.up = true) (hr : rateOk speed width = true) :
    ∃ t, exec (.linkRetrain speed width) s = .next t ∧ t.pci.speed = speed ∧ t.pci.width = width ∧ t.pci.up = true ∧
      t.ret.wLink = !linkOk speed width ∧ t.loop.ptmT1 = none := by
  have hex : exec (.linkRetrain speed width) s = .next
      (State.linkFloor { s.recovers with pci := { s.recovers.pci with speed := speed, width := width } }) := by
    change execLinkRetrain speed width s = _
    unfold execLinkRetrain
    rw [if_neg (by simp [hup, hlink, hr])]
    rfl
  have hq := quiet_linkFloor { s.recovers with pci := { s.recovers.pci with speed := speed, width := width } }
  have hout := outside_linkFloor { s.recovers with pci := { s.recovers.pci with speed := speed, width := width } }
  have hrec : s.recovers.pci.up = true := (congrArg Settings.up (settings_recovers s)).trans hlink
  exact ⟨_, hex, congrArg (fun q => q.settings.speed) hq, congrArg (fun q => q.settings.width) hq,
    (congrArg (fun q => q.settings.up) hq).trans hrec, congrArg (fun o => o.ret.wLink) hout,
    (congrArg (fun q => q.loop.ptmT1) hq).trans (ptmT1_recovers s)⟩

/-! ### Configuration writes (R92 to R95) -/

theorem exec_configWrite (hup : s.up = true) (hlink : s.pci.up = true) (c : Cfg) :
    exec (.configWrite c) s = .next (s.config c) := by
  change execConfigWrite c s = _
  unfold execConfigWrite
  rw [if_pos (by rw [hup, hlink]; rfl)]

theorem exec_configWrite_of_down (hlink : s.pci.up = false) (c : Cfg) : exec (.configWrite c) s = .next s := by
  change execConfigWrite c s = _
  unfold execConfigWrite
  rw [if_neg (by simp [hlink])]

theorem config_maxPayload {b : Nat} (hb : b ∈ [128, 256, 512]) :
    s.config (.maxPayload b) = { s with pci := { s.pci with maxPayload := b } } := if_pos (List.contains_iff_mem.mpr hb)

theorem config_maxRead {b : Nat} (hb : b ∈ [128, 256, 512, 1024, 2048, 4096]) :
    s.config (.maxRead b) = { s with pci := { s.pci with maxRead := b } } := if_pos (List.contains_iff_mem.mpr hb)

theorem config_bar (n : Fin 3) (v : BitVec 64) {m : Nat} (hm : m < 3) :
    (s.config (.bar n v)).configRead 0 (.bar (2 * m)) =
      if m = n.val then barValue (barSize (2 * m)) v else s.configRead 0 (.bar (2 * m)) := by
  have hbar : ∀ t : State, t.configRead 0 (.bar (2 * m)) = barValue (barSize (2 * m)) (tget 0 t.pci.bars m) := fun t => by
    obtain rfl | rfl | rfl : m = 0 ∨ m = 1 ∨ m = 2 := by omega
    all_goals rfl
  rw [hbar, hbar]
  change barValue _ (tget 0 (tset 0 s.pci.bars n.val v) m) = _
  rw [tget_tset]
  split_ifs <;> rfl

theorem config_vfBar (n : Fin 2) (v : BitVec 64) {m : Nat} (hm : m < 2) :
    (s.config (.vfBar n v)).configRead 0 (.vfBar (2 * m)) =
      if m = n.val then barValue (vfBarSize (2 * m)) v else s.configRead 0 (.vfBar (2 * m)) := by
  have hbar : ∀ t : State, t.configRead 0 (.vfBar (2 * m)) = barValue (vfBarSize (2 * m)) (tget 0 t.pci.vfBars m) :=
    fun t => by
      obtain rfl | rfl : m = 0 ∨ m = 1 := by omega
      all_goals rfl
  rw [hbar, hbar]
  change barValue _ (tget 0 (tset 0 s.pci.vfBars n.val v) m) = _
  rw [tget_tset]
  split_ifs <;> rfl

theorem config_severity (e : AerError) (fatal : Bool) :
    (s.config (.severity e fatal)).severity e = if aerSeverity e = 0 then 0 else if fatal then 2 else 1 := by
  have hle : aerSeverity e ≤ 2 := by cases e <;> decide
  have hnot : e ∉ s.pci.sevSet.filter (· != e) := by simp
  simp only [State.config, State.severity]
  obtain h | h | h : aerSeverity e = 0 ∨ aerSeverity e = 1 ∨ aerSeverity e = 2 := by omega
  · simp [h]
  · cases fatal <;> simp [h]
  · cases fatal <;> simp [h]

theorem config_margin (l : Fin 16) (v : BitVec 16) : (s.config (.margin l v)).configRead 0 (.marginControl l.val) = v.toNat := by
  change (tget 0 (tset 0 s.pci.margin l.val v) l.val).toNat = _
  rw [tget_tset, if_pos rfl]

theorem config_tag10 (on : Bool) : (s.config (.tag10 on)).pci.tag10 = on :=
  congrArg Settings.tag10
    (settings_each { s with pci := { s.pci with tag10 := on } } _ (fun (h : HRead) s => settings_retryTags s h.c0) s.pci.waitTag)

theorem config_vfEnable {n : Nat} (hn : n ≤ 63) (hvf : s.pci.vfEnable = false) :
    (s.config (.vfEnable true n)).pci.vfEnable = true ∧ (s.config (.vfEnable true n)).pci.numVFs = n := by
  have h : s.config (.vfEnable true n) = (each ((upto n).map (· + 1))
      (fun fn s => s.setFun fn { s.fun_ fn with seen := s.glbStatus fn })
      { s with pci := { s.pci with vfEnable := true, numVFs := n } }).fwReadies := by
    simp [State.config, hvf, hn]
  have hset := (ready_fwReadies _).trans (congrArg Settings.ready
    (settings_each { s with pci := { s.pci with vfEnable := true, numVFs := n } }
      (fun fn s => s.setFun fn { s.fun_ fn with seen := s.glbStatus fn }) (fun fn s => settings_setFun s fn rfl)
      ((upto n).map (· + 1))))
  rw [h]
  exact ⟨congrArg Settings.vfEnable hset, congrArg Settings.numVFs hset⟩

/-! ### Controls of one function (R92, R112) -/

section
variable {fn : Fin 64} (hfn : s.fnEnabled fn.val = true)
include hfn

theorem config_busMaster_on : s.config (.busMaster fn true) = s.setFun fn.val { s.fun_ fn.val with bme := true } := by
  simp only [State.config, hfn, Bool.not_true, Bool.false_eq_true, if_false, if_true]

theorem config_busMaster_off : ((s.config (.busMaster fn false)).fun_ fn.val).bme = false := by
  simp only [State.config, hfn, Bool.not_true, Bool.false_eq_true, if_false, State.busMasterClear]
  split_ifs with h
  · simpa using h
  · exact bme_setFun_stopFn s fn.val { s.fun_ fn.val with bme := false }

theorem config_d3hot_on : ((s.config (.d3hot fn true)).fun_ fn.val).d3hot = true := by
  simp only [State.config, hfn, Bool.not_true, Bool.false_eq_true, if_false, if_true, State.toD3]
  split_ifs with h
  · exact h
  · exact d3hot_setFun_stopFn s fn.val { s.fun_ fn.val with d3hot := true }

theorem config_d3hot_off : s.config (.d3hot fn false) = s.setFun fn.val { s.fun_ fn.val with d3hot := false } := by
  simp only [State.config, hfn, Bool.not_true, Bool.false_eq_true, if_false]

theorem config_fnMask (on : Bool) : ((s.config (.fnMask fn on)).fun_ fn.val).fnMask = on := by
  simp only [State.config, hfn, Bool.not_true, Bool.false_eq_true, if_false]
  have hc := controls_unmaskFn (s.setFun fn.val { s.fun_ fn.val with fnMask := on }) fn.val fn.val
  rw [setFun_get, if_pos rfl] at hc
  exact congrArg Controls.fnMask hc

theorem config_msixEnable (on : Bool) : ((s.config (.msixEnable fn on)).fun_ fn.val).msixEn = on := by
  simp only [State.config, hfn, Bool.not_true, Bool.false_eq_true, if_false]
  have hc := controls_unmaskFn (s.setFun fn.val { s.fun_ fn.val with msixEn := on }) fn.val fn.val
  rw [setFun_get, if_pos rfl] at hc
  exact congrArg Controls.msixEn hc

end

/-! ### Errors (R26, R93, R114) -/

theorem aerError_holds (hup : s.up = true) (hlink : s.pci.up = true) (e : AerError) (fn : Fin 64) (h : Nat) :
    ∃ t, exec (.aerError e fn h) s = .next t ∧ t.pci.aer = s.pci.aer ++ [(e, fn.val, h, s.severity e)] ∧
      (aerSeverity e = 0 → t.dv = s.dv) ∧
      (aerSeverity e ≠ 0 → ∃ ev, t.dv.inbox = s.dv.inbox ++ [ev] ∧ ev.typ = 0x0023 ∧ ev.src = 0x020 + fn.val ∧
        ev.gts = s.stampAt 5) := by
  have hex : exec (.aerError e fn h) s = .next (s.aerLog e fn.val h) := by
    change execAerError e fn h s = _
    unfold execAerError
    rw [if_neg (by simp [hup, hlink])]
  have hdiv : srcDiv (0x020 + fn.val) = 5 := by
    have hbig : ∀ k < 10, ¬ 0x020 + fn.val = k := by omega
    simp [srcDiv, hbig]
  refine ⟨_, hex, ?_⟩
  unfold State.aerLog
  split_ifs with hsev
  · exact ⟨rfl, fun _ => rfl, fun hne => absurd hsev hne⟩
  · exact ⟨rfl, fun h0 => absurd h0 hsev, fun _ => ⟨_, rfl, rfl, rfl, congrArg s.stampAt hdiv⟩⟩

/-! ### HEARTBEAT (R99) -/

/-- One function's HEARTBEAT counts up. -/
def State.beat (fn : Nat) (s : State) : State := s.setFun fn { s.fun_ fn with heartbeat := (s.fun_ fn).heartbeat + 1 }

/-- The functions of a list without repetition have each counted once. -/
theorem heartbeat_each_beat {fn : Nat} : ∀ {l : List Nat}, l.Nodup → ∀ s : State,
    ((each l State.beat s).fun_ fn).heartbeat = (s.fun_ fn).heartbeat + if fn ∈ l then 1 else 0
  | [], _, s => (BitVec.add_zero _).symm
  | a :: l, hl, s => by
    obtain ⟨ha, hl⟩ := List.nodup_cons.mp hl
    refine (heartbeat_each_beat hl (s.beat a)).trans ?_
    rw [State.beat, setFun_get]
    by_cases hfa : fn = a
    · subst hfa
      simp [ha]
    · simp [hfa]

theorem each_beat_eq : ∀ (l : List Nat) (s : State), each l State.beat s = { s with pci := (each l State.beat s).pci }
  | [], _ => rfl
  | a :: l, s => each_beat_eq l (s.beat a)

theorem beatAt_each_beat (l : List Nat) (s : State) : (each l State.beat s).pci.beatAt = s.pci.beatAt :=
  each_keeps s (fun s => s.pci.beatAt) State.beat (fun _ _ => rfl) l

theorem heartbeat_holds (hup : s.up = true) (hfw : s.lc.fw = .running) (hdue : s.pci.beatAt + msC ≤ s.now) :
    ∃ t, exec .heartbeat s = .next t ∧ t.pci.beatAt = s.now ∧
      (∀ fn < 64, s.fnEnabled fn = true → (t.fun_ fn).heartbeat = (s.fun_ fn).heartbeat + 1) ∧
      t = { s with pci := t.pci } := by
  have hex : exec .heartbeat s = .next (each s.fns State.beat { s with pci := { s.pci with beatAt := s.now } }) := by
    change execHeartbeat s = _
    unfold execHeartbeat
    rw [if_neg (by simp [hup, hfw, hdue])]
    rfl
  refine ⟨_, hex, beatAt_each_beat _ _, fun fn hlt hen => ?_, each_beat_eq _ _⟩
  have hmem : fn ∈ s.fns := List.mem_filter.mpr ⟨List.mem_range.mpr hlt, hen⟩
  refine (heartbeat_each_beat (l := s.fns) (List.nodup_range.filter _) _).trans ?_
  rw [if_pos hmem]
  rfl

end

/-- Settles O13: what a change of the link or of a control leaves of the settings is a frame of its own; each clause then
reads off the part that the command writes. -/
theorem linkAndConfiguration : Obligations.LinkAndConfiguration := by
  unfold Obligations.LinkAndConfiguration
  intro s hup
  refine ⟨fun speed width hok hlink h1 h4 hw => linkUp_holds hup hok hlink (rateOk_of h1 h4 hw),
    fun speed width hlink h1 h4 hw => linkRetrain_holds hup hlink (rateOk_of h1 h4 hw), fun hlink => ?_,
    fun e fn h hlink => aerError_holds hup hlink e fn h, heartbeat_holds hup, exec_configWrite_of_down⟩
  have hex := exec_configWrite hup hlink
  refine ⟨fun b hb => (hex _).trans (congrArg _ (config_maxPayload hb)),
    fun b hb => (hex _).trans (congrArg _ (config_maxRead hb)), hex _,
    ⟨_, hex _, rfl, ptmT1_ptmAbandon s⟩, fun n v => ⟨_, hex _, fun m hm => config_bar n v hm⟩,
    fun n v => ⟨_, hex _, fun m hm => config_vfBar n v hm⟩, fun e fatal => ⟨_, hex _, config_severity e fatal⟩,
    fun l v => ⟨_, hex _, config_margin l v⟩, fun on => hex _, fun v d => hex _, fun g c => hex _,
    fun on => ⟨_, hex _, config_tag10 on⟩, fun n hn hvf => ⟨_, hex _, config_vfEnable hn hvf⟩, ⟨_, hex _, rfl⟩,
    fun fn hfn => ⟨(hex _).trans (congrArg _ (config_busMaster_on hfn)), ⟨_, hex _, config_busMaster_off hfn⟩,
      ⟨_, hex _, config_d3hot_on hfn⟩, (hex _).trans (congrArg _ (config_d3hot_off hfn)),
      fun on => ⟨_, hex _, config_fnMask hfn on⟩, fun on => ⟨_, hex _, config_msixEnable hfn on⟩⟩⟩

end Sys2Proof.Machine
end

section
/-! PROOFS. What every step leaves of the queue: the parts of a step, and the operations that all share (R17). -/

namespace Sys2Proof.Machine
open Sys2Proof

/-! ### What it is to leave the queue, for each way in which a part of a step ends -/

/-- The step goes on, and has taken nothing from the queue. -/
def KeepsQueue (s : State) (o : Out) : Prop := ∃ t, o = .next t ∧ t.pending = s.pending

@[simp] theorem keepsQueue_next {s t : State} : KeepsQueue s (.next t) ↔ t.pending = s.pending := by simp [KeepsQueue]

theorem keepsQueue_ite {s : State} {c : Prop} [Decidable c] {o p : Out} :
    KeepsQueue s (if c then o else p) ↔ if c then KeepsQueue s o else KeepsQueue s p := by split <;> rfl

/-- What an instruction does to its core leaves the queue. -/
def Eff.KeepsQueue (s : State) : Eff → Prop
  | .done t | .flt _ t | .went t => t.pending = s.pending
  | .branch .. | .hold => True

/-- An access leaves the queue. -/
def Acc.KeepsQueue {α : Type} (s : State) : Acc α → Prop
  | .ok _ t | .flt _ t => t.pending = s.pending
  | .wait => True

/-- A read of the code flash leaves the queue. -/
def FlRes.KeepsQueue (s : State) : FlRes → Prop
  | .data _ t | .bus t => t.pending = s.pending
  | .wait => True

/-- A port read leaves the queue. -/
def PRes.KeepsQueue (s : State) : PRes → Prop
  | .ok _ t => t.pending = s.pending
  | .denied | .wait => True

section
variable {s t : State}

@[simp] theorem Eff.keepsQueue_done : (Eff.done t).KeepsQueue s ↔ t.pending = s.pending := Iff.rfl
@[simp] theorem Eff.keepsQueue_flt (f : Flt) : (Eff.flt f t).KeepsQueue s ↔ t.pending = s.pending := Iff.rfl
@[simp] theorem Eff.keepsQueue_went : (Eff.went t).KeepsQueue s ↔ t.pending = s.pending := Iff.rfl
@[simp] theorem Eff.keepsQueue_branch (a b : Bool) (p : BitVec 24) (d : Defer) :
    (Eff.branch a b p d).KeepsQueue s := trivial
@[simp] theorem Eff.keepsQueue_hold : Eff.hold.KeepsQueue s := trivial
@[simp] theorem Acc.keepsQueue_ok {α : Type} (a : α) : (Acc.ok a t).KeepsQueue s ↔ t.pending = s.pending := Iff.rfl
@[simp] theorem Acc.keepsQueue_flt {α : Type} (f : Flt) :
    (Acc.flt f t : Acc α).KeepsQueue s ↔ t.pending = s.pending := Iff.rfl
@[simp] theorem Acc.keepsQueue_wait {α : Type} : (Acc.wait : Acc α).KeepsQueue s := trivial
@[simp] theorem FlRes.keepsQueue_data (b : Bytes) : (FlRes.data b t).KeepsQueue s ↔ t.pending = s.pending := Iff.rfl
@[simp] theorem FlRes.keepsQueue_bus : (FlRes.bus t).KeepsQueue s ↔ t.pending = s.pending := Iff.rfl
@[simp] theorem FlRes.keepsQueue_wait : FlRes.wait.KeepsQueue s := trivial
@[simp] theorem PRes.keepsQueue_ok (w : Word) : (PRes.ok w t).KeepsQueue s ↔ t.pending = s.pending := Iff.rfl
@[simp] theorem PRes.keepsQueue_denied : PRes.denied.KeepsQueue s := trivial
@[simp] theorem PRes.keepsQueue_wait : PRes.wait.KeepsQueue s := trivial

end

@[simp] theorem pending_each {α : Type} {f : α → State → State} (h : ∀ a s, (f a s).pending = s.pending)
    (l : List α) (s : State) : (each l f s).pending = s.pending := each_keeps s State.pending f h l

theorem pending_foldl {α : Type} {f : State → α → State} (h : ∀ t a, (f t a).pending = t.pending)
    (l : List α) (s : State) : (l.foldl f s).pending = s.pending := by
  induction l generalizing s with
  | nil => rfl
  | cons a l ih => rw [List.foldl_cons, ih, h]

theorem forall_mem_ite {α : Type} {P : α → Prop} {c : Prop} [Decidable c] {x y : Option α} (hx : ∀ a ∈ x, P a)
    (hy : ∀ a ∈ y, P a) : ∀ a ∈ (if c then x else y), P a := by
  split
  · exact hx
  · exact hy

/-! ### Jobs, responses, decisions and the other operations that all steps share -/

section
variable (s : State)

@[simp] theorem pending_freeVal (w : Nat) : (s.freeVal w).2.pending = s.pending := rfl

@[simp] theorem pending_ask (p n : Nat) : (s.ask p n).pending = s.pending := by
  unfold State.ask
  split <;> simp

@[simp] theorem pending_draw (p n : Nat) : (s.draw p n).2.pending = s.pending := by
  unfold State.draw
  split <;> simp

@[simp] theorem pending_withDraw {f : Nat → State → State} (h : ∀ v t, (f v t).pending = t.pending) (p n : Nat) :
    (s.withDraw p n f).pending = s.pending := by
  unfold State.withDraw
  split <;> simp [h]

@[simp] theorem pending_drawAo (n : Nat) : (s.drawAo n).2.pending = s.pending := rfl

@[simp] theorem pending_setCore (c : Nat) (k : Core) : (s.setCore c k).pending = s.pending := rfl

@[simp] theorem pending_setCmem (c : Nat) (m : CoreMem) : (s.setCmem c m).pending = s.pending := rfl

@[simp] theorem pending_setMpu (u : Nat) (m : Mpu) : (s.setMpu u m).pending = s.pending := by
  unfold State.setMpu
  rfl

@[simp] theorem pending_setChan (i : Nat) (c : Chan) : (s.setChan i c).pending = s.pending := rfl

@[simp] theorem pending_setFun (i : Nat) (f : Fun) : (s.setFun i f).pending = s.pending := rfl

@[simp] theorem pending_setPin (i : Nat) (p : Pin) : (s.setPin i p).pending = s.pending := rfl

@[simp] theorem pending_setQw (q : Nat) (w : QpWord) : (s.setQw q w).pending = s.pending := by
  unfold State.setQw
  rfl

@[simp] theorem pending_setQrun (q : Nat) (r : QpRun) : (s.setQrun q r).pending = s.pending := rfl

@[simp] theorem pending_setPa (n : Nat) (p : Pa) : (s.setPa n p).pending = s.pending := rfl

@[simp] theorem pending_setLane (n : Nat) (l : Lane) : (s.setLane n l).pending = s.pending := rfl

@[simp] theorem pending_setKrow (n : Nat) (r : KRow) : (s.setKrow n r).pending = s.pending := rfl

@[simp] theorem pending_setHunit (n : Nat) (u : HashUnit) : (s.setHunit n u).pending = s.pending := rfl

@[simp] theorem pending_setEng (n : Nat) (e : Engine) : (s.setEng n e).pending = s.pending := rfl

@[simp] theorem pending_setCell (n : Nat) (c : Cell) : (s.setCell n c).pending = s.pending := rfl

@[simp] theorem pending_setSrc (i : Nat) (x : Src) : (s.setSrc i x).pending = s.pending := rfl

@[simp] theorem pending_setNblk (i : Nat) (b : NandBlk) : (s.setNblk i b).pending = s.pending := rfl

@[simp] theorem pending_setNch (i : Nat) (c : NandCh) : (s.setNch i c).pending = s.pending := rfl

@[simp] theorem pending_setTenant (i : Nat) (t : Tenant) : (s.setTenant i t).pending = s.pending := rfl

@[simp] theorem pending_setLoupe (i : Nat) (l : Loupe) : (s.setLoupe i l).pending = s.pending := rfl

@[simp] theorem pending_setLink (i : Nat) (l : Link) : (s.setLink i l).pending = s.pending := rfl

end

end Sys2Proof.Machine
end

section
/-! PROOFS. What records, messages, responses and the flash leave of the queue (R17). -/

namespace Sys2Proof.Machine
open Sys2Proof

/-! ### The archive's records -/

section
variable (s : State)

@[simp] theorem pending_post (e : DvEv) : (s.post e).pending = s.pending := rfl

@[simp] theorem pending_event (typ src : Nat) (cls : BitVec 2) (body : Bytes) :
    (s.event typ src cls body).pending = s.pending := by
  simp [State.event]

@[simp] theorem pending_consequences {f : State → State} (h : ∀ t, (f t).pending = t.pending) (c : Gts) :
    (s.consequences c f).pending = s.pending := h s

@[simp] theorem pending_arrive (r : Rec) (w : Waiter) (reserved : Bool) :
    (s.arrive r w reserved).pending = s.pending := rfl

@[simp] theorem pending_fwRec (typ src : Nat) (cls : BitVec 2) (body : Bytes) :
    (s.fwRec typ src cls body).pending = s.pending := by
  simp [State.fwRec]

@[simp] theorem pending_raise (idx decision detail : Nat) : (s.raise idx decision detail).pending = s.pending := by
  simp [State.raise]

@[simp] theorem pending_disagree (code : Nat) : (s.disagree code).pending = s.pending := by
  simp [State.disagree]

@[simp] theorem pending_transient (c : ResClass) (phys window : Nat) :
    (s.transient c phys window).1.pending = s.pending := rfl

@[simp] theorem pending_permanent (c : ResClass) (phys errors : Nat) :
    (s.permanent c phys errors).pending = s.pending := by
  unfold State.permanent
  dsimp only
  split <;> simp

end

/-! ### The endpoint: interrupts, reads and writes of the host -/

section
variable (s : State)

@[simp] theorem pending_sendTlp (t : Tlp) : (s.sendTlp t).pending = s.pending := by
  fun_cases State.sendTlp <;> simp

@[simp] theorem pending_creditLate :
    s.creditLate.pending = s.pending := congrArg Outside.pending (outside_creditLate s)

@[simp] theorem pending_creditWait : s.creditWait.pending = s.pending := by
  unfold State.creditWait
  dsimp only
  split <;> simp [apply_ite State.pending]

@[simp] theorem pending_place (prio : Bool) (t : Tlp) : (s.place prio t).pending = s.pending := by
  unfold State.place
  split <;> simp

@[simp] theorem pending_msix (fn vec : Nat) (prio : Bool) : (s.msix fn vec prio).pending = s.pending := by
  unfold State.msix
  dsimp only
  split_ifs <;> simp

@[simp] theorem pending_unmaskVec (fn vec : Nat) : (s.unmaskVec fn vec).pending = s.pending := by
  unfold State.unmaskVec
  dsimp only
  split <;> simp

@[simp] theorem pending_unmaskFn (fn : Nat) : (s.unmaskFn fn).pending = s.pending := by
  simp [State.unmaskFn]

@[simp] theorem pending_cause (fn b : Nat) : (s.cause fn b).pending = s.pending := by
  unfold State.cause
  dsimp only
  split <;> simp

@[simp] theorem pending_statusTouch : s.statusTouch.pending = s.pending := by
  simp [State.statusTouch, apply_ite State.pending]

@[simp] theorem pending_fwReadies : s.fwReadies.pending = s.pending := by
  simp [State.fwReadies, apply_ite State.pending]

@[simp] theorem pending_sendGen (i : Nat) : (s.sendGen i).pending = s.pending := by
  unfold State.sendGen
  split <;> simp

@[simp] theorem keepsQueue_execTlpTransmit : KeepsQueue s (execTlpTransmit s) := by
  unfold execTlpTransmit
  dsimp only
  split
  · simp
  split
  · split
    · simp
    · split <;> simp
  · split <;> simp

@[simp] theorem keepsQueue_execCreditUpdate (c : Credit) : KeepsQueue s (execCreditUpdate c s) := by
  unfold execCreditUpdate
  split <;> simp

@[simp] theorem keepsQueue_execCreditWaitExpiry : KeepsQueue s (execCreditWaitExpiry s) := by
  unfold execCreditWaitExpiry
  dsimp only
  split <;> simp [keepsQueue_ite]

@[simp] theorem keepsQueue_execHeartbeat : KeepsQueue s (execHeartbeat s) := by
  unfold execHeartbeat
  split <;> simp

@[simp] theorem pending_startRead (h : HRead) : (s.startRead h).pending = s.pending := by
  unfold State.startRead
  split <;> simp

@[simp] theorem pending_retryTags (c0 : Bool) : (s.retryTags c0).pending = s.pending := by
  fun_cases State.retryTags <;> simp

@[simp] theorem pending_hostRec (fn : Nat) (facts : List Nat) : (s.hostRec fn facts).pending = s.pending := by
  simp [State.hostRec]

@[simp] theorem pending_aerLog (e : AerError) (fn header : Nat) : (s.aerLog e fn header).pending = s.pending := by
  unfold State.aerLog
  split <;> simp

@[simp] theorem keepsQueue_execAerError (e : AerError) (fn : Fin 64) (header : Nat) :
    KeepsQueue s (execAerError e fn header s) := by
  unfold execAerError
  split <;> simp

end

/-! ### The mailboxes -/

section
variable (s : State)

@[simp] theorem pending_mbxFault (ch mid : Nat) : (s.mbxFault ch mid).pending = s.pending := by
  unfold State.mbxFault
  rfl

@[simp] theorem pending_signal (ch : Nat) : (s.signal ch).pending = s.pending := by
  fun_cases State.signal <;> simp

@[simp] theorem pending_dbSet (ch : Nat) (bits : Word) : (s.dbSet ch bits).pending = s.pending := by
  unfold State.dbSet
  dsimp only
  split <;> simp

@[simp] theorem pending_push (ch : Nat) (msg : List Word) : (s.push ch msg).pending = s.pending := by
  unfold State.push
  dsimp only
  split_ifs <;> simp

@[simp] theorem keepsQueue_execMbxSend (mid window : Nat) : KeepsQueue s (execMbxSend mid window s) := by
  fun_cases execMbxSend <;> simp

@[simp] theorem pending_stagingWrite (mid window i : Nat) (v : Word) :
    (s.stagingWrite mid window i v).pending = s.pending := by
  fun_cases State.stagingWrite <;> simp

@[simp] theorem pending_popHead (ch : Nat) : (s.popHead ch).pending = s.pending := by
  simp [State.popHead]

@[simp] theorem pending_dbWrite (mid window : Nat) (v : Word) : (s.dbWrite mid window v).pending = s.pending := by
  fun_cases State.dbWrite <;> simp

@[simp] theorem keepsQueue_execMbxDbWrite (mid window : Nat) (value : BitVec 32) :
    KeepsQueue s (execMbxDbWrite mid window value s) := by
  simp [execMbxDbWrite]

@[simp] theorem keepsQueue_execMbxDbMaskWrite (mid window : Nat) (value : BitVec 32) :
    KeepsQueue s (execMbxDbMaskWrite mid window value s) := by
  unfold execMbxDbMaskWrite
  dsimp only
  repeat' split
  all_goals simp

@[simp] theorem keepsQueue_execMbxTimeout (ch : Fin 256) : KeepsQueue s (execMbxTimeout ch s) := by
  unfold execMbxTimeout
  dsimp only
  split <;> simp

@[simp] theorem pending_mbxStatusWrite (mid window : Nat) (v : Word) :
    (s.mbxStatusWrite mid window v).pending = s.pending := by
  fun_cases State.mbxStatusWrite <;> simp

@[simp] theorem pending_flushChan (ch : Nat) : (s.flushChan ch).pending = s.pending := by
  unfold State.flushChan
  dsimp only
  split <;> simp

@[simp] theorem pending_bindWrite (ch : Nat) (wordB : Bool) (v : Word) :
    (s.bindWrite ch wordB v).pending = s.pending := by
  unfold State.bindWrite
  dsimp only
  split_ifs <;> simp

@[simp] theorem keepsQueue_execMbxBindWrite (mid : Nat) (pl : BitVec 2) (ch : Fin 256) (wordB : Bool)
    (value : BitVec 32) :
    KeepsQueue s (execMbxBindWrite mid pl ch wordB value s) := by
  unfold execMbxBindWrite
  split <;> simp

@[simp] theorem keepsQueue_execMbxLock : KeepsQueue s (execMbxLock s) := by
  unfold execMbxLock
  split <;> simp

@[simp] theorem pending_bindChan (n a b : Nat) : (s.bindChan n a b).pending = s.pending := by
  unfold State.bindChan
  split <;> simp

@[simp] theorem pending_bindAll : s.bindAll.pending = s.pending := by
  simp [State.bindAll]

end

/-! ### Driner's commands and responses -/

section
variable (s : State)

@[simp] theorem pending_holdFor (begun : Bool) (party op tag status : Nat) (dup : Bool) (payload : Bytes) :
    (s.holdFor begun party op tag status dup payload).pending = s.pending := rfl

@[simp] theorem pending_hold (party op tag status : Nat) (dup : Bool) (payload : Bytes) :
    (s.hold party op tag status dup payload).pending = s.pending := by
  simp [State.hold]

@[simp] theorem pending_reply (party tag op status : Nat) (payload : Bytes) :
    (s.reply party tag op status payload).pending = s.pending := by
  unfold State.reply
  split <;> simp

@[simp] theorem pending_untake (party op tag : Nat) : (s.untake party op tag).pending = s.pending := by
  unfold State.untake
  split <;> simp

/-- A command leaves the queue where its body does (R129). -/
theorem keepsQueue_driner {s : State} {op : Nat} {r : Req} {body : State → State}
    (h : ∀ t, (body t).pending = t.pending) : KeepsQueue s (driner op r s body) := by
  unfold driner
  dsimp only
  split
  · simp
  split
  · simp
  split
  · simp
  split
  · simp
  · split_ifs <;> simp [h]

theorem keepsQueue_drinerNow {s : State} {op : Nat} {r : Req} {body : State → State × Nat × Bytes}
    (h : ∀ t, (body t).1.pending = t.pending) : KeepsQueue s (drinerNow op r s body) :=
  keepsQueue_driner fun t => (pending_reply _ _ _ _ _ _).trans (h t)

@[simp] theorem keepsQueue_execDrinerResponseSend (i : Nat) : KeepsQueue s (execDrinerResponseSend i s) := by
  unfold execDrinerResponseSend
  dsimp only
  split <;> simp [keepsQueue_ite]

@[simp] theorem pending_notice (fn op : Nat) (payload : Bytes) : (s.notice fn op payload).pending = s.pending := by
  unfold State.notice
  dsimp only
  split_ifs <;> simp

@[simp] theorem pending_noticeAll (op : Nat) (payload : Bytes) : (s.noticeAll op payload).pending = s.pending := by
  simp [State.noticeAll]

@[simp] theorem pending_assemble (party : Nat) (msg : List Word) : (s.assemble party msg).pending = s.pending := by
  unfold State.assemble
  extract_lets +onlyGivenNames b op tag len flags old rest refuse finish
  have hrefuse (t : State) (op tag st : Nat) : (refuse t op tag st).pending = t.pending := by simp [refuse]
  have hfinish (t : State) (op tag len : Nat) (got : Bytes) : (finish t op tag len got).pending = t.pending := by
    simp only [finish]
    split_ifs <;> simp [hrefuse]
  clear_value old refuse finish
  split
  · cases old <;> (dsimp only; split_ifs <;> simp [hrefuse, hfinish])
  · split
    · split <;> simp [hrefuse, hfinish]
    · rfl

@[simp] theorem keepsQueue_execMbxPop (mid window : Nat) : KeepsQueue s (execMbxPop mid window s) := by
  unfold execMbxPop
  dsimp only
  split
  · simp
  split
  · simp
  split
  · simp
  split
  · simp
  · split <;> simp

@[simp] theorem pending_flushDriner (party : Nat) : (s.flushDriner party).pending = s.pending := by
  unfold State.flushDriner
  rfl

@[simp] theorem pending_flushFn (fn : Nat) : (s.flushFn fn).pending = s.pending := by
  simp [State.flushFn]

@[simp] theorem pending_hostWrite (fn addr : Nat) (data : Bytes) (prio ro : Bool) (job : Option Nat) :
    (s.hostWrite fn addr data prio ro job).pending = s.pending := by
  simp [State.hostWrite]

@[simp] theorem pending_bufferWrite (fn addr : Nat) (data : Bytes) :
    (s.bufferWrite fn addr data).pending = s.pending := by
  unfold State.bufferWrite
  split <;> simp

end

/-! ### The flash windows -/

section
variable (s : State)

@[simp] theorem pending_flEnd (r : Nat) : (s.flEnd r).pending = s.pending := by
  unfold State.flEnd
  rfl

@[simp] theorem pending_flEndRun (r : Nat) : (s.flEndRun r).pending = s.pending := by
  simp [State.flEndRun]

@[simp] theorem pending_flHit : s.flHit.pending = s.pending := by
  simp [State.flHit]

@[simp] theorem pending_flProgram (exempt : Bool) (a : Nat) (d0 d1 : Word) :
    (s.flProgram exempt a d0 d1).pending = s.pending := by
  simp [State.flProgram, apply_ite State.pending]

@[simp] theorem pending_flErase (a : Nat) : (s.flErase a).pending = s.pending := by
  unfold State.flErase
  dsimp only
  split_ifs <;> simp

@[simp] theorem pending_flDoSuspend (ls : Nat) : (s.flDoSuspend ls).pending = s.pending := by
  simp [State.flDoSuspend]

@[simp] theorem pending_flSuspend : s.flSuspend.pending = s.pending := by
  fun_cases State.flSuspend <;> simp

@[simp] theorem pending_flResume : s.flResume.pending = s.pending := by
  fun_cases State.flResume <;> simp

@[simp] theorem pending_flMargin (a n : Nat) (d1 : Word) : (s.flMargin a n d1).pending = s.pending := by
  unfold State.flMargin
  dsimp only
  split_ifs <;> simp

@[simp] theorem pending_fillDecisions : s.fillDecisions.pending = s.pending := by
  unfold State.fillDecisions
  refine (pending_foldl (fun t d => ?_) _ _).trans rfl
  dsimp only
  split_ifs <;> simp

@[simp] theorem pending_decide (w : DecWhat) (first : Bool) : (s.decide w first).pending = s.pending := by
  unfold State.decide
  dsimp only
  split_ifs <;> simp

@[simp] theorem pending_flRaise (t : Nat) : (s.flRaise t).pending = s.pending := by
  unfold State.flRaise
  dsimp only
  split <;> simp

@[simp] theorem pending_flDescend : s.flDescend.pending = s.pending := by
  unfold State.flDescend
  split <;> simp

@[simp] theorem pending_flKindSet (a k : Nat) : (s.flKindSet a k).pending = s.pending := by
  unfold State.flKindSet
  split <;> simp

@[simp] theorem pending_flStart (mid : Nat) : (s.flStart mid).pending = s.pending := by
  fun_cases State.flStart <;> simp

@[simp] theorem pending_flSeq (mid : Nat) (g : FlReg) (v : Word) : (s.flSeq mid g v).pending = s.pending := by
  fun_cases State.flSeq <;> simp

@[simp] theorem pending_flWrite (mid port : Nat) (v : Word) : (s.flWrite mid port v).pending = s.pending := by
  fun_cases State.flWrite <;> simp [apply_ite State.pending]

@[simp] theorem keepsQueue_flCommand (op mid : Nat) (pl : BitVec 2) (value : BitVec 32) :
    KeepsQueue s (flCommand op mid pl value s) := by
  unfold flCommand
  split <;> simp

@[simp] theorem keepsQueue_execFlUnlockWrite (mid : Nat) (pl : BitVec 2) (value : BitVec 32) :
    KeepsQueue s (execFlUnlockWrite mid pl value s) := by
  unfold execFlUnlockWrite
  split <;> simp

@[simp] theorem keepsQueue_execFlSeqTimeout : KeepsQueue s (execFlSeqTimeout s) := by
  unfold execFlSeqTimeout
  split <;> simp

@[simp] theorem keepsQueue_execProgram (mid : Nat) (pl : BitVec 2) (value : BitVec 32) :
    KeepsQueue s (execProgram mid pl value s) := by
  simp [execProgram]

@[simp] theorem keepsQueue_execErase (mid : Nat) (pl : BitVec 2) (value : BitVec 32) :
    KeepsQueue s (execErase mid pl value s) := by
  simp [execErase]

@[simp] theorem keepsQueue_execSuspend (mid : Nat) (pl : BitVec 2) (value : BitVec 32) :
    KeepsQueue s (execSuspend mid pl value s) := by
  simp [execSuspend]

@[simp] theorem keepsQueue_execResume (mid : Nat) (pl : BitVec 2) (value : BitVec 32) :
    KeepsQueue s (execResume mid pl value s) := by
  simp [execResume]

@[simp] theorem keepsQueue_execMarginCheck (mid : Nat) (pl : BitVec 2) (value : BitVec 32) :
    KeepsQueue s (execMarginCheck mid pl value s) := by
  simp [execMarginCheck]

@[simp] theorem keepsQueue_execRdpRaise (mid : Nat) (pl : BitVec 2) (value : BitVec 32) :
    KeepsQueue s (execRdpRaise mid pl value s) := by
  simp [execRdpRaise]

@[simp] theorem keepsQueue_execRdpDescend (mid : Nat) (pl : BitVec 2) (value : BitVec 32) :
    KeepsQueue s (execRdpDescend mid pl value s) := by
  simp [execRdpDescend]

@[simp] theorem keepsQueue_execKindSet (mid : Nat) (pl : BitVec 2) (value : BitVec 32) :
    KeepsQueue s (execKindSet mid pl value s) := by
  simp [execKindSet]

@[simp] theorem keepsQueue_execFlSuspendHeldExpiry : KeepsQueue s (execFlSuspendHeldExpiry s) := by
  fun_cases execFlSuspendHeldExpiry <;> simp

@[simp] theorem pending_norRecord (ls p spares : Nat) : (s.norRecord ls p spares).pending = s.pending := by
  simp [State.norRecord]

@[simp] theorem pending_norRetire (ls spareFails : Nat) (keep : Bool) :
    (s.norRetire ls spareFails keep).1.pending = s.pending := by
  unfold State.norRetire
  dsimp only
  split <;> simp

theorem keepsQueue_flWindow (mid : Nat) (pl : BitVec 2) (a n : Nat) (how : FlRead) :
    (s.flWindow mid pl a n how).KeepsQueue s := by
  unfold State.flWindow
  extract_lets +onlyGivenNames f ls p fail hit g fill
  have hfail (k : Nat) (f : Fls) : (fail k f).KeepsQueue s := rfl
  clear_value f g fail ls p hit fill
  cases how
  all_goals repeat' refine iteInduction (motive := FlRes.KeepsQueue s) (fun _ => ?_) fun _ => ?_
  all_goals simp [hfail]

@[simp] theorem keepsQueue_execFlashWindowRead (mid : Nat) (pl : BitVec 2) (addr size : Nat) (how : FlRead) :
    KeepsQueue s (execFlashWindowRead mid pl addr size how s) := by
  have h := keepsQueue_flWindow s mid pl addr size how
  unfold execFlashWindowRead
  split
  · simp
  · split <;> simp_all

@[simp] theorem keepsQueue_execFlWpWrite (mid : Nat) (pl : BitVec 2) (n : Fin 64) (value : BitVec 32) :
    KeepsQueue s (execFlWpWrite mid pl n value s) := by
  unfold execFlWpWrite
  split <;> simp

@[simp] theorem keepsQueue_execFlScan : KeepsQueue s (execFlScan s) := by
  unfold execFlScan
  split <;> simp

@[simp] theorem pending_mixProgram (a : Nat) (b : Bytes) (w : Nat) : (s.mixProgram a b w).pending = s.pending := by
  simp [State.mixProgram]

@[simp] theorem pending_flPause (bank : Option Nat) : (s.flPause bank).pending = s.pending := by
  unfold State.flPause
  dsimp only
  split <;> simp [apply_ite State.pending]

@[simp] theorem pending_flUnpause : s.flUnpause.pending = s.pending := by
  fun_cases State.flUnpause <;> simp

@[simp] theorem pending_flWarn : s.flWarn.pending = s.pending := by
  simp [State.flWarn]

@[simp] theorem pending_flRecover : s.flRecover.pending = s.pending := by
  simp [State.flRecover]

@[simp] theorem pending_flReset : s.flReset.pending = s.pending := by
  unfold State.flReset
  dsimp only
  repeat' split
  all_goals simp

end

/-! ### The bus guard -/

section
variable (s : State)

@[simp] theorem pending_strike (c : ResClass) (phys : Nat) : (s.strike c phys).pending = s.pending := by
  unfold State.strike
  dsimp only
  split <;> simp

@[simp] theorem pending_keepDuty (old : State) : (s.keepDuty old).pending = s.pending := by
  unfold State.keepDuty
  refine pending_each (fun e t => ?_) _ _
  dsimp only
  split <;> rfl

@[simp] theorem pending_capacityNotice : s.capacityNotice.pending = s.pending := by
  simp [State.capacityNotice]

@[simp] theorem pending_setCause (cause : Nat) (on : Bool) (count : Nat) :
    (s.setCause cause on count).pending = s.pending := by
  unfold State.setCause
  split <;> simp

@[simp] theorem pending_endJig : s.endJig.pending = s.pending := by
  unfold State.endJig
  split <;> simp

@[simp] theorem pending_laneGuard : s.laneGuard.pending = s.pending := by
  unfold State.laneGuard
  dsimp only
  split_ifs <;> simp

@[simp] theorem pending_applyReserve : s.applyReserve.pending = s.pending := by
  simp [State.applyReserve]

@[simp] theorem pending_toProfile (p : Profile) (cause : Nat) : (s.toProfile p cause).pending = s.pending := by
  simp [State.toProfile]

end

end Sys2Proof.Machine
end

section
/-! PROOFS. What the queue pairs, the keys and the associations leave of the queue (R17). -/

namespace Sys2Proof.Machine
open Sys2Proof

/-! ### The queue pairs -/

section
variable (s : State)

@[simp] theorem pending_writeCtx (q : Nat) (c : Ctx) : (s.writeCtx q c).pending = s.pending := by
  fun_cases State.writeCtx <;> simp

@[simp] theorem pending_sweepCheck (q : Nat) : (s.sweepCheck q).pending = s.pending := by
  fun_cases State.sweepCheck <;> simp

@[simp] theorem pending_sweepDue : s.sweepDue.pending = s.pending := by
  fun_cases State.sweepDue <;> simp

@[simp] theorem pending_writeBack (q : Nat) (c : Ctx) : (s.writeBack q c).pending = s.pending := by
  simp [State.writeBack]

@[simp] theorem pending_putCtx (q : Nat) (c : Ctx) : (s.putCtx q c).pending = s.pending := by
  unfold State.putCtx
  rfl

@[simp] theorem pending_touch (q : Nat) : (s.touch q).pending = s.pending := by
  unfold State.touch
  rfl

@[simp] theorem pending_uncache (q : Nat) : (s.uncache q).pending = s.pending := by
  unfold State.uncache
  rfl

@[simp] theorem pending_evict : s.evict.pending = s.pending := by
  unfold State.evict
  dsimp only
  repeat' split
  all_goals simp

@[simp] theorem pending_cacheCtx (q : Nat) (c : Ctx) : (s.cacheCtx q c).pending = s.pending := by
  unfold State.cacheCtx
  split <;> simp

@[simp] theorem pending_dbErr (fn q reason : Nat) : (s.dbErr fn q reason).pending = s.pending := by
  unfold State.dbErr
  dsimp only
  split <;> simp

@[simp] theorem pending_leaveOrder (q : Nat) : (s.leaveOrder q).pending = s.pending := by
  unfold State.leaveOrder
  rfl

@[simp] theorem pending_disableQp (q : Nat) : (s.disableQp q).pending = s.pending := by
  simp [State.disableQp]

@[simp] theorem pending_ctxFail (q check : Nat) : (s.ctxFail q check).pending = s.pending := by
  simp [State.ctxFail]

@[simp] theorem pending_fetchCtx (q : Nat) : (s.fetchCtx q).pending = s.pending := by
  unfold State.fetchCtx
  dsimp only
  repeat' split
  all_goals simp

@[simp] theorem pending_applyUnit (q : Nat) (c : Ctx) (u : Unit8) : (s.applyUnit q c u).pending = s.pending := by
  unfold State.applyUnit
  dsimp only
  split_ifs <;> simp

@[simp] theorem pending_unitArrives (q : Nat) (u : Unit8) : (s.unitArrives q u).pending = s.pending := by
  unfold State.unitArrives
  split <;> simp

@[simp] theorem pending_writeCqe (q : Nat) (c : Ctx) (cid status flags sqHead credit : Nat) (result gts : Bytes)
    (aux : Nat) (job : Option Nat) :
    (s.writeCqe q c cid status flags sqHead credit result gts aux job).pending = s.pending := by
  unfold State.writeCqe
  dsimp only
  split_ifs <;> simp

@[simp] theorem pending_putJob (j : Job) : (s.putJob j).pending = s.pending := rfl

@[simp] theorem pending_releaseHolds (j : Job) : (s.releaseHolds j).pending = s.pending := by
  simp [State.releaseHolds]

@[simp] theorem pending_freeUnits (j : Job) : (s.freeUnits j).pending = s.pending := by
  unfold State.freeUnits
  split <;> simp

@[simp] theorem pending_dropJob (j : Job) : (s.dropJob j).pending = s.pending := by
  simp [State.dropJob]

@[simp] theorem pending_finishJob (j : Job) (status : Nat) (result : Bytes) :
    (s.finishJob j status result).pending = s.pending := by
  unfold State.finishJob
  split <;> simp

@[simp] theorem pending_rerunJob (j : Job) : (s.rerunJob j).pending = s.pending := by
  simp [State.rerunJob]

@[simp] theorem pending_abortJobs : s.abortJobs.pending = s.pending := by
  simp [State.abortJobs]

@[simp] theorem pending_failOp (op : OpRef) (status : Nat) : (s.failOp op status).pending = s.pending := by
  fun_cases State.failOp <;> simp

end

/-! ### The key store -/

section
variable (s : State)

@[simp] theorem pending_takeHold (slot : Nat) : (s.takeHold slot).pending = s.pending := by
  simp [State.takeHold]

@[simp] theorem pending_countLoads (slot n : Nat) : (s.countLoads slot n).pending = s.pending := by
  simp [State.countLoads]

@[simp] theorem pending_keyFault (slot kind : Nat) : (s.keyFault slot kind).pending = s.pending := rfl

@[simp] theorem pending_keyEvent (b : Nat) : (s.keyEvent b).pending = s.pending := rfl

@[simp] theorem pending_eraseEnded (byCmd : Bool) (waiter : Option (Nat × Nat)) :
    (s.eraseEnded byCmd waiter).pending = s.pending := by
  unfold State.eraseEnded
  dsimp only
  split <;> simp [apply_ite State.pending]

@[simp] theorem pending_eraseSlot (slot : Nat) (byCmd : Bool) (waiter : Option (Nat × Nat)) :
    (s.eraseSlot slot byCmd waiter).pending = s.pending := by
  unfold State.eraseSlot
  dsimp only
  split <;> simp

@[simp] theorem pending_retRecord (c : ResClass) (logical phys errors rerun : Nat) :
    (s.retRecord c logical phys errors rerun).pending = s.pending := by
  simp [State.retRecord]

@[simp] theorem pending_loseRow (p : Nat) : (s.loseRow p).pending = s.pending := by
  simp [State.loseRow]

@[simp] theorem pending_programMap : s.programMap.pending = s.pending := rfl

@[simp] theorem pending_rowMoved (n : Nat) (lost : Bool) : (s.rowMoved n lost).pending = s.pending := by
  unfold State.rowMoved
  dsimp only
  split_ifs <;> simp

@[simp] theorem keepsQueue_execKeyCmdErase : KeepsQueue s (execKeyCmdErase s) := by
  unfold execKeyCmdErase
  split <;> simp

@[simp] theorem keepsQueue_execKeyErase (r : Req) : KeepsQueue s (execKeyErase r s) := by
  unfold execKeyErase
  refine keepsQueue_driner fun t => ?_
  dsimp only
  split_ifs <;> simp

@[simp] theorem keepsQueue_execKeyAttrGet (r : Req) : KeepsQueue s (execKeyAttrGet r s) := by
  unfold execKeyAttrGet
  refine keepsQueue_drinerNow fun t => ?_
  dsimp only
  split <;> simp

@[simp] theorem pending_resplitSlot (slot : Nat) : (s.resplitSlot slot).pending = s.pending := by
  simp [State.resplitSlot]

@[simp] theorem keepsQueue_execResplit (slot : Fin 16384) : KeepsQueue s (execResplit slot s) := by
  unfold execResplit
  dsimp only
  split <;> simp

@[simp] theorem keepsQueue_execKeyCmdResplit : KeepsQueue s (execKeyCmdResplit s) := by
  unfold execKeyCmdResplit
  dsimp only
  split <;> simp

@[simp] theorem pending_unwrapEnd (u : Unwrap) (status : Nat) (payload : Bytes) :
    (s.unwrapEnd u status payload).pending = s.pending := by
  simp [State.unwrapEnd]

@[simp] theorem pending_unwrapFail (u : Unwrap) : (s.unwrapFail u).pending = s.pending := by
  simp [State.unwrapFail]

@[simp] theorem pending_sealWrite (u : Unwrap) : (s.sealWrite u).pending = s.pending := by
  unfold State.sealWrite
  rfl

@[simp] theorem pending_unwrapStart (u : Unwrap) (fieldsOk algOk : Bool) :
    (s.unwrapStart u fieldsOk algOk).pending = s.pending := by
  unfold State.unwrapStart
  dsimp only
  repeat' split
  all_goals simp

@[simp] theorem pending_unwrapStep6 (first second : Bool) : (s.unwrapStep6 first second).pending = s.pending := by
  unfold State.unwrapStep6
  dsimp only
  split <;> simp [apply_ite State.pending]

@[simp] theorem pending_loadSlot (u : Unwrap) (n : Nat) : (s.loadSlot u n).pending = s.pending := by
  simp [State.loadSlot]

@[simp] theorem keepsQueue_execKeyUnwrap (r : Req) : KeepsQueue s (execKeyUnwrap r s) := by
  unfold execKeyUnwrap
  split
  · simp
  refine keepsQueue_driner fun t => ?_
  dsimp only
  split_ifs <;> simp

@[simp] theorem pending_unwrapWrite (v : Word) : (s.unwrapWrite v).pending = s.pending := by
  unfold State.unwrapWrite
  dsimp only
  split_ifs <;> simp

@[simp] theorem keepsQueue_execKeyUnwrapGo (value : BitVec 32) : KeepsQueue s (execKeyUnwrapGo value s) := by
  unfold execKeyUnwrapGo
  split <;> simp

@[simp] theorem keepsQueue_execUnwrapThrottleEnd : KeepsQueue s (execUnwrapThrottleEnd s) := by
  fun_cases execUnwrapThrottleEnd <;> simp

@[simp] theorem pending_keyRead (port : Nat) : (s.keyRead port).2.pending = s.pending := by
  unfold State.keyRead
  split <;> simp

@[simp] theorem pending_keyWrite (port : Nat) (v : Word) : (s.keyWrite port v).pending = s.pending := by
  unfold State.keyWrite
  dsimp only
  split <;> simp [apply_ite State.pending]

end

/-! ### The protected associations -/

section
variable (s : State)

@[simp] theorem pending_paEvent (n code epoch count : Nat) : (s.paEvent n code epoch count).pending = s.pending := by
  simp [State.paEvent]

@[simp] theorem pending_holdPa (n : Nat) : (s.holdPa n).pending = s.pending := by
  unfold State.holdPa
  dsimp only
  split <;> simp

@[simp] theorem keepsQueue_execPaCreate (r : Req) : KeepsQueue s (execPaCreate r s) := by
  unfold execPaCreate
  refine keepsQueue_drinerNow fun t => ?_
  dsimp only
  split_ifs <;> simp

@[simp] theorem pending_paTo (n : Nat) (st : PaState) : (s.paTo n st).pending = s.pending := by
  simp [State.paTo]

@[simp] theorem keepsQueue_execPaStateSet (r : Req) : KeepsQueue s (execPaStateSet r s) := by
  unfold execPaStateSet
  refine keepsQueue_driner fun t => ?_
  dsimp only
  repeat' split
  all_goals simp

@[simp] theorem keepsQueue_execAssociationFreed (n : Fin 2048) : KeepsQueue s (execAssociationFreed n s) := by
  unfold execAssociationFreed
  dsimp only
  split <;> simp [keepsQueue_ite]

@[simp] theorem pending_zeroizePas : s.zeroizePas.pending = s.pending := by
  simp [State.zeroizePas, apply_ite State.pending]

@[simp] theorem keepsQueue_execPaQuery (r : Req) : KeepsQueue s (execPaQuery r s) := by
  unfold execPaQuery
  refine keepsQueue_drinerNow fun t => ?_
  dsimp only
  split <;> simp

@[simp] theorem keepsQueue_execPaKeyLoad (r : Req) : KeepsQueue s (execPaKeyLoad r s) := by
  unfold execPaKeyLoad
  split
  · simp
  refine keepsQueue_driner fun t => ?_
  dsimp only
  split_ifs <;> simp

@[simp] theorem pending_paLoaded (u : Unwrap) (n d : Nat) : (s.paLoaded u n d).pending = s.pending := by
  simp [State.paLoaded]

@[simp] theorem pending_unwrapStore (u : Unwrap) : (s.unwrapStore u).pending = s.pending := by
  unfold State.unwrapStore
  split <;> simp

@[simp] theorem pending_storeDue : s.storeDue.pending = s.pending := by
  fun_cases State.storeDue <;> simp

@[simp] theorem pending_unwrapStep8 (first second : Bool) : (s.unwrapStep8 first second).pending = s.pending := by
  fun_cases State.unwrapStep8 <;> simp

@[simp] theorem keepsQueue_execKeyEraseFinish (slot : Fin 16384) (readsZero : Bool) :
    KeepsQueue s (execKeyEraseFinish slot readsZero s) := by
  unfold execKeyEraseFinish
  extract_lets +onlyGivenNames n r
  split
  · simp
  extract_lets +onlyGivenNames u rc _ t v w
  have ht : t.pending = s.pending := by
    simp only [t]
    split
    · simp
    split
    · simp
    · simp [u]
  have hw : w.pending = s.pending := by simp [w, v, apply_ite State.pending, ht]
  clear_value w
  split
  · split_ifs <;> simp [hw]
  · simpa using hw

@[simp] theorem pending_fireRoll (n : Nat) (rx : Bool) : (s.fireRoll n rx).pending = s.pending := by
  unfold State.fireRoll
  dsimp only
  repeat' split
  all_goals simp

@[simp] theorem keepsQueue_execPaRoll (r : Req) : KeepsQueue s (execPaRoll r s) := by
  unfold execPaRoll
  refine keepsQueue_drinerNow fun t => ?_
  dsimp only
  split_ifs <;> simp

@[simp] theorem keepsQueue_execRollFire (n : Fin 2048) (rx : Bool) : KeepsQueue s (execRollFire n rx s) := by
  unfold execRollFire
  split <;> simp

@[simp] theorem pending_endGrace (n : Nat) : (s.endGrace n).pending = s.pending := by
  unfold State.endGrace
  dsimp only
  split <;> simp [apply_ite State.pending]

@[simp] theorem keepsQueue_execGraceEnd (n : Fin 2048) : KeepsQueue s (execGraceEnd n s) := by
  unfold execGraceEnd
  split <;> simp

end

/-! ### Commands and doorbells of the queue pairs -/

section
variable (s : State)

@[simp] theorem keepsQueue_execQpAssign (r : Req) : KeepsQueue s (execQpAssign r s) := by
  unfold execQpAssign
  refine keepsQueue_drinerNow fun t => ?_
  dsimp only
  split <;> simp

@[simp] theorem keepsQueue_execCtxTableSet (r : Req) : KeepsQueue s (execCtxTableSet r s) := by
  unfold execCtxTableSet
  refine keepsQueue_drinerNow fun t => ?_
  dsimp only
  split <;> simp

@[simp] theorem keepsQueue_execQpCreate (r : Req) : KeepsQueue s (execQpCreate r s) := by
  unfold execQpCreate
  refine keepsQueue_drinerNow fun t => ?_
  dsimp only
  split_ifs <;> simp

@[simp] theorem keepsQueue_execQpDestroy (r : Req) : KeepsQueue s (execQpDestroy r s) := by
  unfold execQpDestroy
  refine keepsQueue_driner fun t => ?_
  dsimp only
  split_ifs <;> simp

@[simp] theorem keepsQueue_execQpDestroyFinish (qpn : Nat) : KeepsQueue s (execQpDestroyFinish qpn s) := by
  unfold execQpDestroyFinish
  dsimp only
  repeat' split
  all_goals simp

@[simp] theorem keepsQueue_execQpQuery (r : Req) : KeepsQueue s (execQpQuery r s) := by
  unfold execQpQuery
  refine keepsQueue_driner fun t => ?_
  dsimp only
  split
  · simp
  split
  · simp
  · split <;> simp

@[simp] theorem pending_answerQueries (q : Nat) : (s.answerQueries q).pending = s.pending := by
  simp [State.answerQueries]

@[simp] theorem pending_dbUnit (fn k : Nat) (tail head : Option (BitVec 16)) :
    (s.dbUnit fn k tail head).pending = s.pending := by
  unfold State.dbUnit
  dsimp only
  split_ifs <;> simp

@[simp] theorem keepsQueue_execDoorbell (fn : Fin 64) (offset : Nat) (data : List (BitVec 8)) (allBytes : Bool) :
    KeepsQueue s (execDoorbell fn offset data allBytes s) := by
  unfold execDoorbell
  dsimp only
  split_ifs <;> simp

@[simp] theorem keepsQueue_execCoalesceTimeout (qpn : Nat) : KeepsQueue s (execCoalesceTimeout qpn s) := by
  unfold execCoalesceTimeout
  dsimp only
  split <;> simp

@[simp] theorem pending_sweepOne (q : Nat) (c : Option Ctx) : (s.sweepOne q c).pending = s.pending := by
  unfold State.sweepOne
  split <;> simp

@[simp] theorem keepsQueue_execKeySweepStep : KeepsQueue s (execKeySweepStep s) := by
  unfold execKeySweepStep
  split
  · simp
  next nx _ =>
  split
  · simp
  extract_lets +onlyGivenNames due
  split
  · split <;> simp
  extract_lets +onlyGivenNames w _ t
  have ht : t.pending = s.pending := by
    simp only [t]
    split <;> rfl
  clear_value t
  split
  · simpa using ht
  split
  · simpa using ht
  split
  · simp
  split
  · simpa using ht
  · split <;> simpa using ht

end

end Sys2Proof.Machine
end

section
/-! PROOFS. What the job table and its engines leave of the queue (R17). -/

namespace Sys2Proof.Machine
open Sys2Proof

/-! ### Admission, fetch and dispatch -/

section
variable (s : State)

@[simp] theorem pending_readPayload (j : Job) : (s.readPayload j).pending = s.pending := by
  unfold State.readPayload
  dsimp only
  split <;> simp

@[simp] theorem pending_admitNext (q : Nat) : (s.admitNext q).pending = s.pending := by
  unfold State.admitNext
  split
  · rfl
  split
  · rfl
  extract_lets +onlyGivenNames w fn sqe general noEntry t check noRoom
  have ht : t.pending = s.pending := by simp [t, apply_ite State.pending]
  clear_value t check noRoom noEntry
  split
  · exact ht
  extract_lets +onlyGivenNames run' r u id
  have hu : u.pending = s.pending := ht
  clear_value u
  extract_lets +onlyGivenNames j covered a held away j1 j2 j3 j4 j5 j6 add
  have hadd (t : State) (j : Job) : (add t j).pending = t.pending := rfl
  clear_value add j6
  split
  · simp [hadd, hu]
  extract_lets +onlyGivenNames holds v k earlier
  have hv : v.pending = s.pending := by simp [v, hu]
  clear_value v
  split <;> simp [hadd, hv]

@[simp] theorem keepsQueue_execJobAdmit (qpn : Nat) : KeepsQueue s (execJobAdmit qpn s) := by
  unfold execJobAdmit
  split <;> simp

@[simp] theorem pending_askRun (q n : Nat) : (s.askRun q n).pending = s.pending := by
  unfold State.askRun
  split <;> simp

@[simp] theorem pending_classTurn (cls quantum : Nat) : (s.classTurn cls quantum).pending = s.pending := by
  unfold State.classTurn
  dsimp only
  repeat' split
  all_goals simp

@[simp] theorem pending_refetch : s.refetch.pending = s.pending := by
  simp [State.refetch]

@[simp] theorem keepsQueue_execSqFetch : KeepsQueue s (execSqFetch s) := by
  unfold execSqFetch
  dsimp only
  repeat' split
  all_goals simp

@[simp] theorem pending_runRead (q id k : Nat) (data : Bytes) : (s.runRead q id k data).pending = s.pending := by
  unfold State.runRead
  dsimp only
  repeat' split
  all_goals simp

@[simp] theorem pending_runFail (q id : Nat) : (s.runFail q id).pending = s.pending := by
  unfold State.runFail
  dsimp only
  repeat' split
  all_goals simp

@[simp] theorem pending_ctxRead (q : Nat) (data : Bytes) : (s.ctxRead q data).pending = s.pending := by
  unfold State.ctxRead
  dsimp only
  split_ifs
  · simp
  · simp
  · simp
  · rw [pending_answerQueries, pending_each fun u t => ?_]
    · simp
    split
    · simp
    · rfl

@[simp] theorem pending_sweepRead (q : Nat) (data : Bytes) : (s.sweepRead q data).pending = s.pending := by
  unfold State.sweepRead
  dsimp only
  split_ifs <;> simp

@[simp] theorem pending_chunkRead (id k : Nat) (data : Bytes) : (s.chunkRead id k data).pending = s.pending := by
  fun_cases State.chunkRead <;> simp

@[simp] theorem pending_readFails (h : HRead) : (s.readFails h).pending = s.pending := by
  fun_cases State.readFails <;> simp

@[simp] theorem pending_freeRead (tag : Nat) (h : HRead) : (s.freeRead tag h).pending = s.pending := by
  simp [State.freeRead]

@[simp] theorem keepsQueue_execHostReadCompletion (tag : Nat) (c : Cpl) :
    KeepsQueue s (execHostReadCompletion tag c s) := by
  unfold execHostReadCompletion
  dsimp only
  split
  · simp
  split
  · simp
  split
  · split <;> simp
  all_goals simp

@[simp] theorem keepsQueue_execCompletionTimeout (tag : Nat) : KeepsQueue s (execCompletionTimeout tag s) := by
  fun_cases execCompletionTimeout <;> simp

@[simp] theorem pending_hashWork (cycles : Nat) (avoid : Option Nat) :
    (s.hashWork cycles avoid).pending = s.pending := by
  unfold State.hashWork
  dsimp only
  split <;> simp [apply_ite State.pending]

@[simp] theorem pending_hashes (len : Nat) : (s.hashes len).pending = s.pending := by
  simp [State.hashes]

theorem pending_takeMask {c : BitVec 2} {x : BitVec 64 × State} (h : s.takeMask c = some x) :
    x.2.pending = s.pending := by
  unfold State.takeMask at h
  dsimp only at h
  split at h
  · cases h; rfl
  · cases h; rfl
  · cases h; rfl
  · cases h

@[simp] theorem pending_throttle : s.throttle.pending = s.pending := by
  unfold State.throttle
  dsimp only
  split_ifs <;> simp

@[simp] theorem pending_keyBranch (i : Nat) : (s.keyBranch i).pending = s.pending := by
  simp [State.keyBranch]

@[simp] theorem pending_startLanes (j : Job) (ls : List Nat) (slot mode : Nat) (mask : BitVec 64) :
    (s.startLanes j ls slot mode mask).pending = s.pending := by
  unfold State.startLanes
  dsimp only
  split <;> simp

theorem pending_takeSequencer {j : Job} {t : State} (h : s.takeSequencer j = some t) : t.pending = s.pending := by
  unfold State.takeSequencer at h
  split at h
  · cases h
    rfl
  · simp only [Option.map_eq_some_iff] at h
    obtain ⟨i, -, rfl⟩ := h
    rfl

theorem pending_dispatch {j : Job} {t : State} (h : s.dispatch j = some t) : t.pending = s.pending := by
  unfold State.dispatch at h
  split at h
  · cases h
  split at h
  · cases h
  next u hu =>
  have hu := pending_takeSequencer _ hu
  split at h
  · cases h
    simpa using hu
  · split at h
    · next mask u1 _ hm =>
      cases h
      simpa [hu] using pending_takeMask _ hm
    · cases h
  · split at h
    · cases h
    · cases h
      dsimp only
      split <;> split <;> simpa using hu

@[simp] theorem pending_noteStarved : s.noteStarved.pending = s.pending := by
  unfold State.noteStarved
  split <;> simp

theorem pending_dispatchFirst {held : List Bool} {l : List Job} {t : State} (h : s.dispatchFirst held l = some t) :
    t.pending = s.pending := by
  induction l generalizing held with
  | nil => cases h
  | cons j l ih =>
    unfold State.dispatchFirst at h
    dsimp only at h
    split at h
    · exact ih h
    split at h
    · next hd =>
      cases h
      exact pending_dispatch _ hd
    · exact ih h

@[simp] theorem keepsQueue_execJobDispatch : KeepsQueue s (execJobDispatch s) := by
  unfold execJobDispatch
  split
  · simp
  split
  · next ht => simpa using pending_dispatchFirst _ ht
  · simp

@[simp] theorem pending_outcomeRecords (j : Job) : (s.outcomeRecords j).1.pending = s.pending := by
  unfold State.outcomeRecords
  dsimp only
  split_ifs <;> simp

@[simp] theorem pending_unfence (q : Nat) : (s.unfence q).pending = s.pending := by
  fun_cases State.unfence <;> simp

@[simp] theorem keepsQueue_execJobCompletion (job : Nat) : KeepsQueue s (execJobCompletion job s) := by
  unfold execJobCompletion
  split
  · simp
  next j _ =>
  split
  · simp
  split
  next u lost hu =>
  have h : u.pending = s.pending := by simpa [hu] using pending_outcomeRecords s j
  extract_lets +onlyGivenNames j' v _ _ w
  have hw : w.pending = s.pending := by
    simp only [w]
    split
    · simp [v, h]
    · split <;> simp [v, h]
  simp [hw]

@[simp] theorem keepsQueue_execEventEntry : KeepsQueue s (execEventEntry s) := by
  unfold execEventEntry
  split
  · simp
  split
  · simp
  split
  · simp
  dsimp only
  split
  · simp
  split
  · simp
  · split_ifs <;> simp

end

/-! ### The run of a job -/

section
variable (s : State)

@[simp] theorem pending_jobWriteAt (j : Job) (off : Nat) (data : Bytes) :
    (s.jobWriteAt j off data).pending = s.pending := by
  simp [State.jobWriteAt]

@[simp] theorem pending_jobWrite (j : Job) (data : Bytes) : (s.jobWrite j data).pending = s.pending := by
  simp [State.jobWrite]

@[simp] theorem pending_jobOut (j : Job) (data : Bytes) : (s.jobOut j data).pending = s.pending := by
  simp [State.jobOut, apply_ite State.pending]

theorem keepsQueue_runJob {s : State} {job op : Nat} {body : State → Job → State}
    (h : ∀ j, (body s j).pending = s.pending) : KeepsQueue s (s.runJob job op body) := by
  unfold State.runJob
  split
  · simp
  · split_ifs <;> simp [h]

@[simp] theorem keepsQueue_execJobNop (job : Nat) : KeepsQueue s (execJobNop job s) := by
  unfold execJobNop
  exact keepsQueue_runJob fun j => by simp

@[simp] theorem pending_countFailure (n status : Nat) : (s.countFailure n status).pending = s.pending := by
  unfold State.countFailure
  dsimp only
  split_ifs <;> simp

@[simp] theorem pending_paEnd (j : Job) (status : Nat) (result : Bytes) :
    (s.paEnd j status result).pending = s.pending := by
  unfold State.paEnd
  dsimp only
  split <;> simp

@[simp] theorem pending_useCounter (n i : Nat) : (s.useCounter n i).2.pending = s.pending := by
  unfold State.useCounter
  dsimp only
  split <;> simp

@[simp] theorem pending_invocation (j : Job) (i : Nat) : (s.invocation j i).2.pending = s.pending := by
  unfold State.invocation
  split <;> simp

@[simp] theorem pending_assocTx (j : Job) : (s.assocTx j).pending = s.pending := by
  unfold State.assocTx
  extract_lets +onlyGivenNames n p q
  clear_value q
  split
  · simp
  split
  · simp
  next h _ =>
  extract_lets +onlyGivenNames i
  split
  · extract_lets +onlyGivenNames j' data aad
    split
    · split
      · simp
      split
      next v t ht =>
      have h : t.pending = s.pending := by simpa [ht] using pending_useCounter s n i
      simp [h]
    · split
      next v t ht =>
      have h : t.pending = s.pending := by simpa [ht] using pending_invocation s j' i
      simp [h]
  · simp

@[simp] theorem pending_verifyFrame (j : Job) (fr : Frame) (h : KeyHold) (key aad : Bytes) :
    (s.verifyFrame j fr h key aad).pending = s.pending := by
  unfold State.verifyFrame
  dsimp only
  repeat' split
  all_goals simp

@[simp] theorem pending_verifyGeneric (j : Job) (inv : Nat) (kid : Option Nat) (h : KeyHold) (key data : Bytes) :
    (s.verifyGeneric j inv kid h key data).pending = s.pending := by
  unfold State.verifyGeneric
  dsimp only
  repeat' split
  all_goals simp

@[simp] theorem pending_assocRx (j : Job) : (s.assocRx j).pending = s.pending := by
  fun_cases State.assocRx <;> simp

@[simp] theorem keepsQueue_execGooseTransmitTag (job : Nat) : KeepsQueue s (execGooseTransmitTag job s) := by
  unfold execGooseTransmitTag
  refine keepsQueue_runJob fun j => ?_
  simp

@[simp] theorem keepsQueue_execGooseReceiveVerify (job : Nat) : KeepsQueue s (execGooseReceiveVerify job s) := by
  unfold execGooseReceiveVerify
  refine keepsQueue_runJob fun j => ?_
  simp

@[simp] theorem keepsQueue_execSvTransmitTag (job : Nat) : KeepsQueue s (execSvTransmitTag job s) := by
  unfold execSvTransmitTag
  refine keepsQueue_runJob fun j => ?_
  simp

@[simp] theorem keepsQueue_execSvReceiveVerify (job : Nat) : KeepsQueue s (execSvReceiveVerify job s) := by
  unfold execSvReceiveVerify
  refine keepsQueue_runJob fun j => ?_
  simp

@[simp] theorem keepsQueue_execGenericFrameTransmit (job : Nat) : KeepsQueue s (execGenericFrameTransmit job s) := by
  unfold execGenericFrameTransmit
  refine keepsQueue_runJob fun j => ?_
  simp

@[simp] theorem keepsQueue_execGenericFrameReceive (job : Nat) : KeepsQueue s (execGenericFrameReceive job s) := by
  unfold execGenericFrameReceive
  refine keepsQueue_runJob fun j => ?_
  simp

theorem pending_withKey {s : State} {j : Job} {f : Bytes → State} (h : ∀ k, (f k).pending = s.pending) :
    (s.withKey j f).pending = s.pending := by
  unfold State.withKey
  split
  · exact h _
  · simp

@[simp] theorem keepsQueue_execAesGcmEncrypt (job : Nat) : KeepsQueue s (execAesGcmEncrypt job s) := by
  unfold execAesGcmEncrypt
  refine keepsQueue_runJob fun j => pending_withKey fun k => ?_
  simp

@[simp] theorem keepsQueue_execAesGcmDecrypt (job : Nat) : KeepsQueue s (execAesGcmDecrypt job s) := by
  unfold execAesGcmDecrypt
  refine keepsQueue_runJob fun j => pending_withKey fun k => ?_
  simp

@[simp] theorem keepsQueue_execAesGmacGenerate (job : Nat) : KeepsQueue s (execAesGmacGenerate job s) := by
  unfold execAesGmacGenerate
  refine keepsQueue_runJob fun j => pending_withKey fun k => ?_
  dsimp only
  split <;> simp

@[simp] theorem keepsQueue_execAesGmacVerify (job : Nat) : KeepsQueue s (execAesGmacVerify job s) := by
  unfold execAesGmacVerify
  refine keepsQueue_runJob fun j => pending_withKey fun k => ?_
  simp

@[simp] theorem keepsQueue_execAesCtr (job : Nat) : KeepsQueue s (execAesCtr job s) := by
  unfold execAesCtr
  refine keepsQueue_runJob fun j => pending_withKey fun k => ?_
  simp

@[simp] theorem pending_hashEnd (j : Job) (digest : Bytes) : (s.hashEnd j digest).pending = s.pending := by
  unfold State.hashEnd
  split <;> simp

@[simp] theorem keepsQueue_execSha256 (job : Nat) : KeepsQueue s (execSha256 job s) := by
  unfold execSha256
  refine keepsQueue_runJob fun j => ?_
  simp

@[simp] theorem keepsQueue_execSha512 (job : Nat) : KeepsQueue s (execSha512 job s) := by
  unfold execSha512
  refine keepsQueue_runJob fun j => ?_
  simp

@[simp] theorem keepsQueue_execHmacSha256 (job : Nat) : KeepsQueue s (execHmacSha256 job s) := by
  unfold execHmacSha256
  refine keepsQueue_runJob fun j => pending_withKey fun k => ?_
  simp

@[simp] theorem keepsQueue_execArchiveAppend (job : Nat) : KeepsQueue s (execArchiveAppend job s) := by
  unfold execArchiveAppend
  refine keepsQueue_runJob fun j => ?_
  simp

@[simp] theorem pending_jobRecorded (id status dseq : Nat) : (s.jobRecorded id status dseq).pending = s.pending := by
  unfold State.jobRecorded
  split <;> simp

@[simp] theorem pending_streamOut (j : Job) : (s.streamOut j).1.pending = s.pending := by
  unfold State.streamOut
  dsimp only
  repeat' split
  all_goals simp

@[simp] theorem pending_stepLanes (j : Job) (out : Bytes) (b : Nat) : (s.stepLanes j out b).pending = s.pending := by
  simp [State.stepLanes]

@[simp] theorem pending_laneCycle (j : Job) : (s.laneCycle j).pending = s.pending := by
  have hfold (f : State × Job → Nat → State × Job) (hf : ∀ a k, (f a k).1.pending = a.1.pending) (l : List Nat)
      (a : State × Job) : (l.foldl f a).1.pending = a.1.pending := by
    induction l generalizing a with
    | nil => rfl
    | cons k l ih => exact (ih _).trans (hf a k)
  unfold State.laneCycle
  extract_lets +onlyGivenNames e stage t bl b ctr g ds ended gs _ u
  have ht : t.pending = s.pending := by
    refine pending_each (fun p v => ?_) _ _
    dsimp only
    split <;> simp
  have hu : u.pending = s.pending := ht
  clear_value t u
  split
  · exact ht
  split
  · simpa using hu
  split
  next v j' out hv =>
  have h : v.pending = s.pending := by simpa [hv, hu] using pending_streamOut u j
  split
  · exact h
  · dsimp only
    rw [pending_stepLanes, pending_putJob, hfold _ fun a k => ?_]
    · exact h
    split <;> simp

@[simp] theorem pending_unitCycle (j : Job) (p : Nat) : (s.unitCycle j p).pending = s.pending := by
  unfold State.unitCycle
  dsimp only
  split_ifs <;> simp

@[simp] theorem pending_benchCycle : s.benchCycle.pending = s.pending := by
  unfold State.benchCycle
  refine pending_each (fun j t => ?_) _ _
  split
  · simp
  · split <;> simp

@[simp] theorem pending_retireUnder (j : Job) : (s.retireUnder j).1.pending = s.pending := by
  unfold State.retireUnder
  dsimp only
  split <;> simp

end

/-! ### HALT and what waits for it -/

section
variable (s : State)

@[simp] theorem pending_stopTenants : s.stopTenants.pending = s.pending := by
  simp [State.stopTenants]

@[simp] theorem pending_internalError : s.internalError.pending = s.pending := by
  unfold State.internalError
  split <;> simp

@[simp] theorem pending_abortReports : s.abortReports.pending = s.pending := by
  simp [State.abortReports]

@[simp] theorem pending_enterHalt : s.enterHalt.pending = s.pending := by
  unfold State.enterHalt
  split <;> simp

@[simp] theorem pending_countRerun (c : ResClass) (p : Nat) : (s.countRerun c p).pending = s.pending := by
  unfold State.countRerun
  rfl

@[simp] theorem pending_bchEvent (b : Nat) : (s.bchEvent b).pending = s.pending := rfl

@[simp] theorem pending_huEvent (b : Nat) : (s.huEvent b).pending = s.pending := rfl

theorem pending_jobError (c : ResClass) (p : Nat) (j : Job) {fail : State → State}
    (h : (fail s).pending = s.pending) : (s.jobError c p j fail).pending = s.pending := by
  unfold State.jobError
  split
  · simp [h]
  · dsimp only
    split <;> simp

@[simp] theorem keepsQueue_execLaneTransientError (phys : Fin 544) (job : Nat) :
    KeepsQueue s (execLaneTransientError phys job s) := by
  unfold execLaneTransientError
  split
  · simp
  · split <;> simp [pending_jobError]

@[simp] theorem keepsQueue_execHashUnitMismatch (phys : Fin 68) (job : Option Nat) :
    KeepsQueue s (execHashUnitMismatch phys job s) := by
  unfold execHashUnitMismatch
  split
  · simp
  split
  · dsimp only
    split <;> simp
  split
  · simp
  · split <;> simp [pending_jobError]

@[simp] theorem pending_startAssay (c : ResClass) (p : Nat) (who : Option (Nat × Nat)) :
    (s.startAssay c p who).pending = s.pending := rfl

@[simp] theorem pending_laneAssayWrite (v : Word) : (s.laneAssayWrite v).pending = s.pending := by
  unfold State.laneAssayWrite
  dsimp only
  split_ifs <;> simp

@[simp] theorem keepsQueue_execLaneAssayGo (value : BitVec 32) : KeepsQueue s (execLaneAssayGo value s) := by
  unfold execLaneAssayGo
  split <;> simp

@[simp] theorem pending_hashAssayWrite (v : Word) : (s.hashAssayWrite v).pending = s.pending := by
  unfold State.hashAssayWrite
  dsimp only
  split_ifs <;> simp

@[simp] theorem keepsQueue_execHashAssayGo (value : BitVec 32) : KeepsQueue s (execHashAssayGo value s) := by
  unfold execHashAssayGo
  split <;> simp

@[simp] theorem pending_reserveWrite (v : Word) : (s.reserveWrite v).pending = s.pending := by
  unfold State.reserveWrite
  dsimp only
  split <;> simp

@[simp] theorem keepsQueue_execBchReserveWrite (value : BitVec 32) : KeepsQueue s (execBchReserveWrite value s) := by
  unfold execBchReserveWrite
  split <;> simp

@[simp] theorem keepsQueue_execC0ReserveSet (r : Req) : KeepsQueue s (execC0ReserveSet r s) := by
  unfold execC0ReserveSet
  refine keepsQueue_drinerNow fun t => ?_
  dsimp only
  split <;> simp

@[simp] theorem pending_bchWrite (port : Nat) (v : Word) : (s.bchWrite port v).pending = s.pending := by
  fun_cases State.bchWrite <;> simp

@[simp] theorem pending_huWrite (pl port : Nat) (v : Word) : (s.huWrite pl port v).pending = s.pending := by
  fun_cases State.huWrite <;> simp

end

/-! ### The hash units and the modular engines -/

section
variable (s : State)

@[simp] theorem pending_drawSign (d e n : Nat) : (s.drawSign d e n).2.pending = s.pending :=
  congrArg Outside.pending (outside_drawSign s d e n)

@[simp] theorem pending_runProg (e : Engine) (prog : Nat) : (s.runProg e prog).2.pending = s.pending := by
  unfold State.runProg
  dsimp only
  repeat' split
  all_goals simp

@[simp] theorem pending_compute (e : Engine) (op w : Nat) : (s.compute e op w).2.pending = s.pending := by
  fun_cases State.compute <;> simp

@[simp] theorem pending_startOp (n : Nat) (f : EngineFor) : (s.startOp n f).pending = s.pending :=
  congrArg Outside.pending (outside_startOp s n f)

@[simp] theorem pending_goDue : s.goDue.pending = s.pending := by
  simp [State.goDue, apply_ite State.pending]

@[simp] theorem pending_meEvent (b : Nat) : (s.meEvent b).pending = s.pending := rfl

@[simp] theorem pending_cmdWrite (n : Nat) (v : Word) : (s.cmdWrite n v).pending = s.pending := by
  unfold State.cmdWrite
  dsimp only
  split_ifs <;> simp

@[simp] theorem keepsQueue_engineGo (n op : Nat) (w : BitVec 9) : KeepsQueue s (s.engineGo n op w) := by
  unfold State.engineGo
  split <;> simp

@[simp] theorem keepsQueue_engineRun (n prog : Nat) (w : BitVec 9) : KeepsQueue s (s.engineRun n prog w) := by
  unfold State.engineRun
  split <;> simp

@[simp] theorem keepsQueue_execMeAdd (n : Fin 4) (sizeW : BitVec 9) : KeepsQueue s (execMeAdd n sizeW s) := by
  simp [execMeAdd]

@[simp] theorem keepsQueue_execMeSub (n : Fin 4) (sizeW : BitVec 9) : KeepsQueue s (execMeSub n sizeW s) := by
  simp [execMeSub]

@[simp] theorem keepsQueue_execMmul (n : Fin 4) (sizeW : BitVec 9) : KeepsQueue s (execMmul n sizeW s) := by
  simp [execMmul]

@[simp] theorem keepsQueue_execInvM (n : Fin 4) (sizeW : BitVec 9) : KeepsQueue s (execInvM n sizeW s) := by
  simp [execInvM]

@[simp] theorem keepsQueue_execExpM (n : Fin 4) (sizeW : BitVec 9) : KeepsQueue s (execExpM n sizeW s) := by
  simp [execExpM]

@[simp] theorem keepsQueue_execMeLoad (n : Fin 4) (sizeW : BitVec 9) : KeepsQueue s (execMeLoad n sizeW s) := by
  simp [execMeLoad]

@[simp] theorem keepsQueue_execMeClear (n : Fin 4) (sizeW : BitVec 9) : KeepsQueue s (execMeClear n sizeW s) := by
  simp [execMeClear]

@[simp] theorem keepsQueue_execP521Sign (n : Fin 4) (sizeW : BitVec 9) : KeepsQueue s (execP521Sign n sizeW s) := by
  simp [execP521Sign]

@[simp] theorem keepsQueue_execP521Verify (n : Fin 4) (sizeW : BitVec 9) :
    KeepsQueue s (execP521Verify n sizeW s) := by
  simp [execP521Verify]

@[simp] theorem keepsQueue_execP521Pubkey (n : Fin 4) (sizeW : BitVec 9) :
    KeepsQueue s (execP521Pubkey n sizeW s) := by
  simp [execP521Pubkey]

@[simp] theorem pending_endOp (n : Nat) : (s.endOp n).pending = s.pending := by
  simp [State.endOp]

@[simp] theorem pending_signFails (n : Nat) : (s.signFails n).pending = s.pending := by
  unfold State.signFails
  dsimp only
  split <;> simp

@[simp] theorem pending_fwSign (n row : Nat) (digest : Bytes) (for_ : EngineFor) (second : Bool) :
    (s.fwSign n row digest for_ second).pending = s.pending := by
  unfold State.fwSign
  split <;> simp

@[simp] theorem pending_ranVerify (pub msg sig : Bytes) : (s.ranVerify pub msg sig).pending = s.pending := by
  unfold State.ranVerify
  dsimp only
  split <;> simp

@[simp] theorem pending_dataRead (n : Nat) : (s.dataRead n).2.pending = s.pending := by
  simp [State.dataRead]

@[simp] theorem pending_dataWrite (n : Nat) (v : Word) : (s.dataWrite n v).pending = s.pending := by
  simp [State.dataWrite]

@[simp] theorem keepsQueue_execKeyMeDataRead (n : Fin 4) : KeepsQueue s (execKeyMeDataRead n s) := by
  unfold execKeyMeDataRead
  split <;> simp

@[simp] theorem keepsQueue_execKeyMeDataWrite (n : Fin 4) (value : BitVec 32) :
    KeepsQueue s (execKeyMeDataWrite n value s) := by
  unfold execKeyMeDataWrite
  split <;> simp

@[simp] theorem keepsQueue_execKeyMeLock : KeepsQueue s (execKeyMeLock s) := by
  unfold execKeyMeLock
  split <;> simp

@[simp] theorem pending_engineAssayWrite (v : Word) : (s.engineAssayWrite v).pending = s.pending := by
  unfold State.engineAssayWrite
  dsimp only
  split_ifs <;> simp

@[simp] theorem keepsQueue_execEngineAssayGo (value : BitVec 32) : KeepsQueue s (execEngineAssayGo value s) := by
  unfold execEngineAssayGo
  split <;> simp

@[simp] theorem pending_meRead (port : Nat) : (s.meRead port).2.pending = s.pending := by
  fun_cases State.meRead <;> simp

@[simp] theorem pending_meWrite (pl port : Nat) (v : Word) : (s.meWrite pl port v).pending = s.pending := by
  fun_cases State.meWrite <;> simp

end

end Sys2Proof.Machine
end

section
/-! PROOFS. What the archive, the clocks and the time block leave of the queue (R17). -/

namespace Sys2Proof.Machine
open Sys2Proof

/-! ### The archive's sequence -/

section
variable (s : State)

@[simp] theorem pending_markErase (b : Nat) (f : EraseFor) : (s.markErase b f).pending = s.pending := by
  simp [State.markErase]

@[simp] theorem pending_eraseAhead (b : Nat) : (s.eraseAhead b).pending = s.pending := by
  fun_cases State.eraseAhead <;> simp

@[simp] theorem pending_arcEvent (b : Nat) : (s.arcEvent b).pending = s.pending := rfl

@[simp] theorem pending_arcNotice (code dseq : Nat) : (s.arcNotice code dseq).pending = s.pending := by
  simp [State.arcNotice]

@[simp] theorem pending_leaveStripe : s.leaveStripe.pending = s.pending := by
  simp [State.leaveStripe, apply_ite State.pending]

@[simp] theorem pending_fillSets : s.fillSets.pending = s.pending := congrArg Outside.pending (outside_fillSets s)

@[simp] theorem pending_takeEmergency : s.takeEmergency.pending = s.pending := by
  unfold State.takeEmergency
  split <;> simp

@[simp] theorem pending_newStripe : s.newStripe.pending = s.pending := by
  unfold State.newStripe
  dsimp only
  split <;> simp

@[simp] theorem pending_dealSeg (num : Nat) : (s.dealSeg num).pending = s.pending := by
  unfold State.dealSeg
  dsimp only
  split <;> simp [apply_ite State.pending]

@[simp] theorem pending_moveSeg (num : Nat) : (s.moveSeg num).pending = s.pending := by
  unfold State.moveSeg
  split <;> simp

@[simp] theorem pending_govern : s.govern.pending = s.pending := by
  unfold State.govern
  extract_lets +onlyGivenNames t u v
  have hv : v.pending = s.pending := by
    simp only [v]
    rw [pending_each fun g w => ?_]
    · simp [u, t]
    split
    · rfl
    · split <;> rfl
  clear_value v
  rw [pending_each fun e w => ?_, hv]
  split <;> rfl

@[simp] theorem pending_newSeg : s.newSeg.pending = s.pending := by
  simp [State.newSeg]

@[simp] theorem pending_growStream (seg0 a b : Nat) : (s.growStream seg0 a b).pending = s.pending := by
  simp [State.growStream]

@[simp] theorem pending_answer (w : Waiter) (status dseq : Nat) (gts : Gts) :
    (s.answer w status dseq gts).pending = s.pending := by
  unfold State.answer
  dsimp only
  split <;> simp

@[simp] theorem pending_recNotice (r : Rec) : (s.recNotice r).pending = s.pending := by
  unfold State.recNotice
  dsimp only
  split <;> simp [apply_ite State.pending]

@[simp] theorem pending_placeRec (r : Rec) (w : Waiter) : (s.placeRec r w).pending = s.pending := by
  unfold State.placeRec
  dsimp only
  repeat' split
  all_goals simp

@[simp] theorem pending_putGap (g : Gap) : (s.putGap g).pending = s.pending := by
  simp [State.putGap]

@[simp] theorem pending_closeGaps (p : Gap → Bool) : (s.closeGaps p).pending = s.pending := by
  unfold State.closeGaps
  split <;> simp

@[simp] theorem pending_gapDrop (cls cause records bytes : Nat) (first last : Gts) :
    (s.gapDrop cls cause records bytes first last).pending = s.pending := by
  unfold State.gapDrop
  dsimp only
  split <;> simp

@[simp] theorem pending_putRun (r : Run) : (s.putRun r).pending = s.pending := by
  simp [State.putRun]

@[simp] theorem pending_endRuns (p : Run → Bool) : (s.endRuns p).pending = s.pending := by
  unfold State.endRuns
  split <;> simp

@[simp] theorem pending_newDrawer : s.newDrawer.pending = s.pending := by
  simp [State.newDrawer]

@[simp] theorem pending_closeDrawer (cause : Nat) : (s.closeDrawer cause).pending = s.pending := by
  unfold State.closeDrawer
  dsimp only
  split <;> simp [apply_ite State.pending]

@[simp] theorem pending_wantClose (cause : Nat) : (s.wantClose cause).pending = s.pending := by
  fun_cases State.wantClose <;> simp

@[simp] theorem pending_seqFit (r : Rec) (w : Waiter) : (s.seqFit r w).pending = s.pending := by
  fun_cases State.seqFit <;> simp

@[simp] theorem pending_arcRecord (code block seg count : Nat) (extra : Bytes) :
    (s.arcRecord code block seg count extra).pending = s.pending := by
  unfold State.arcRecord
  split <;> simp

@[simp] theorem pending_usage : s.usage.pending = s.pending := by
  unfold State.usage
  dsimp only
  split_ifs <;> simp

@[simp] theorem pending_seqNow (r : Rec) (w : Waiter) : (s.seqNow r w).pending = s.pending := by
  simp [State.seqNow]

@[simp] theorem pending_merkleWork (d : Drawer) : (s.merkleWork d).pending = s.pending := by
  simp [State.merkleWork]

@[simp] theorem pending_seekSeal : s.seekSeal.pending = s.pending := congrArg Outside.pending (outside_seekSeal s)

@[simp] theorem pending_sealed (num : Nat) (sig : Bytes) : (s.sealed num sig).pending = s.pending := by
  unfold State.sealed
  dsimp only
  repeat' split
  all_goals simp

@[simp] theorem pending_onCommit (a : ARec) : (s.onCommit a).pending = s.pending := by
  unfold State.onCommit
  dsimp only
  split <;> simp [apply_ite State.pending]

@[simp] theorem pending_commitScan : s.commitScan.pending = s.pending := by
  simp [State.commitScan]

end

/-! ### The cores' memory -/

section
variable (s : State)

@[simp] theorem pending_mpuRecord (u mid : Nat) (v : Viol) : (s.mpuRecord u mid v).pending = s.pending := by
  unfold State.mpuRecord
  dsimp only
  split <;> simp

@[simp] theorem pending_loseRsv (by_ : Option Nat) (granule : Nat) : (s.loseRsv by_ granule).pending = s.pending := by
  simp [State.loseRsv, apply_ite State.pending]

@[simp] theorem pending_sharedStore (by_ : Option Nat) (o : Nat) (d : Bytes) :
    (s.sharedStore by_ o d).pending = s.pending := by
  unfold State.sharedStore
  split <;> simp

@[simp] theorem pending_drainOne (c : Nat) : (s.drainOne c).pending = s.pending := by
  fun_cases State.drainOne <;> simp

@[simp] theorem pending_drain (c a2 : Nat) : (s.drain c a2).pending = s.pending := by
  fun_induction State.drain <;> simp_all

@[simp] theorem pending_locStore (c : Nat) (l : Loc) (d : Bytes) : (s.locStore c l d).pending = s.pending := by
  unfold State.locStore
  dsimp only
  split <;> simp [apply_ite State.pending]

@[simp] theorem pending_flashRefused (c : Nat) (f : Flt) : (s.flashRefused c f).pending = s.pending := by
  fun_cases State.flashRefused <;> simp

theorem keepsQueue_dLoad (c l access bank a n : Nat) : (s.dLoad c l access bank a n).KeepsQueue s := by
  unfold State.dLoad
  dsimp only
  split
  · simp
  split
  · next o _ =>
    have h := keepsQueue_flWindow s (coreMid c) (BitVec.ofNat 2 l) o n .clean
    split <;> simp_all
  · rfl

@[simp] theorem pending_storeParts (c : Nat) (a2 : List (Nat × Nat)) (a3 : Bytes) :
    (s.storeParts c a2 a3).pending = s.pending := by
  fun_induction State.storeParts <;> simp_all

theorem keepsQueue_loadWords (c l a n : Nat) : (s.loadWords c l a n).KeepsQueue s := by
  induction n generalizing s a with
  | zero => rfl
  | succ n ih =>
    have h := keepsQueue_dLoad s c l 0 0 a 4
    unfold State.loadWords
    split
    · simp_all
    · trivial
    · next b t ht =>
      have hn := ih t (a + 4)
      split <;> simp_all

theorem keepsQueue_iLoad (c l a n : Nat) : (s.iLoad c l a n).KeepsQueue s := by
  unfold State.iLoad
  dsimp only
  split
  · simp
  · split <;> simp

@[simp] theorem pending_bufferViolation (f : Flt) : (s.bufferViolation f).pending = s.pending := by
  unfold State.bufferViolation
  split <;> simp

@[simp] theorem pending_readBuffer (party addr len : Nat) : (s.readBuffer party addr len).1.pending = s.pending := by
  fun_cases State.readBuffer <;> simp

end

/-! ### The archive's intake and upkeep -/

section
variable (s : State)

@[simp] theorem pending_calmCheck : s.calmCheck.pending = s.pending := rfl

@[simp] theorem pending_enterIncident : s.enterIncident.pending = s.pending := by
  unfold State.enterIncident
  split <;> simp

@[simp] theorem pending_leaveIncident (p : Profile) (cause : Nat) :
    (s.leaveIncident p cause).pending = s.pending := by
  simp [State.leaveIncident]

@[simp] theorem keepsQueue_execIncidentExit : KeepsQueue s (execIncidentExit s) := by
  fun_cases execIncidentExit <;> simp

@[simp] theorem pending_chooseProfile (p : Profile) (cause : Nat) :
    (s.chooseProfile p cause).pending = s.pending := by
  unfold State.chooseProfile
  dsimp only
  split_ifs <;> simp

@[simp] theorem pending_countRepeat (a : Arrival) : (s.countRepeat a).pending = s.pending := by
  unfold State.countRepeat
  dsimp only
  split <;> simp [apply_ite State.pending]

@[simp] theorem pending_acceptRec (a : Arrival) : (s.acceptRec a).pending = s.pending := by
  unfold State.acceptRec
  dsimp only
  split <;> simp

@[simp] theorem pending_intake (a : Arrival) : (s.intake a).pending = s.pending := by
  unfold State.intake
  dsimp only
  split_ifs <;> simp

@[simp] theorem keepsQueue_execRecordIntake : KeepsQueue s (execRecordIntake s) := by
  fun_cases execRecordIntake <;> simp

@[simp] theorem pending_originalPlaced (r : Rec) (dseq : Nat) : (s.originalPlaced r dseq).pending = s.pending := by
  simp [State.originalPlaced]

@[simp] theorem keepsQueue_execRecordSequence : KeepsQueue s (execRecordSequence s) := by
  unfold execRecordSequence
  dsimp only
  repeat' split
  all_goals simp

@[simp] theorem keepsQueue_execLargeRecordSecondRead (dseq : Nat) (data : Option (List (BitVec 8))) :
    KeepsQueue s (execLargeRecordSecondRead dseq data s) := by
  unfold execLargeRecordSecondRead
  dsimp only
  split <;> simp [apply_ite State.pending, keepsQueue_ite]

@[simp] theorem keepsQueue_execRunTimeout : KeepsQueue s (execRunTimeout s) := by
  unfold execRunTimeout
  split <;> simp

@[simp] theorem keepsQueue_execGapTimeout : KeepsQueue s (execGapTimeout s) := by
  unfold execGapTimeout
  split <;> simp

@[simp] theorem keepsQueue_execCloseIntervalExpiry : KeepsQueue s (execCloseIntervalExpiry s) := by
  fun_cases execCloseIntervalExpiry <;> simp

@[simp] theorem keepsQueue_execArcForceClose : KeepsQueue s (execArcForceClose s) := by
  unfold execArcForceClose
  split <;> simp

@[simp] theorem keepsQueue_execSealDeferTimeout : KeepsQueue s (execSealDeferTimeout s) := by
  fun_cases execSealDeferTimeout <;> simp

@[simp] theorem pending_arcFault (block kind seg : Nat) : (s.arcFault block kind seg).pending = s.pending := by
  unfold State.arcFault
  dsimp only
  split <;> simp

@[simp] theorem pending_shrink : s.shrink.pending = s.pending := by
  simp [State.shrink]

@[simp] theorem pending_leaveDie (die : Nat) : (s.leaveDie die).pending = s.pending := by
  simp [State.leaveDie]

@[simp] theorem pending_retireDie (ch d : Nat) : (s.retireDie ch d).pending = s.pending := by
  simp [State.retireDie]

@[simp] theorem pending_statusFails (b : Nat) : (s.statusFails b).pending = s.pending := by
  unfold State.statusFails
  dsimp only
  split <;> simp

@[simp] theorem keepsQueue_execSegmentProgramDone (seg : Nat) (e : NandEnd) :
    KeepsQueue s (execSegmentProgramDone seg e s) := by
  unfold execSegmentProgramDone
  dsimp only
  repeat' split
  all_goals simp

@[simp] theorem pending_loseWords (ws : List Nat) : (s.loseWords ws).pending = s.pending := by
  unfold State.loseWords
  rfl

@[simp] theorem pending_unreadableSeg (block seg : Nat) (ws : List Nat) :
    (s.unreadableSeg block seg ws).pending = s.pending := by
  simp [State.unreadableSeg]

@[simp] theorem pending_scrub (seg : Nat) (result : ReadEnd) : (s.scrub seg result).pending = s.pending := by
  unfold State.scrub
  dsimp only
  repeat' split
  all_goals simp

@[simp] theorem keepsQueue_execScrubRead (seg : Nat) (result : ReadEnd) :
    KeepsQueue s (execScrubRead seg result s) := by
  simp [execScrubRead]

@[simp] theorem pending_freeScrub : (s.freeScrub).2.pending = s.pending := by
  simp [State.freeScrub]

@[simp] theorem pending_scrubPass : s.scrubPass.pending = s.pending := by
  simp [State.scrubPass]

@[simp] theorem keepsQueue_execBlockRefresh (block : Fin 1310720) : KeepsQueue s (execBlockRefresh block s) := by
  unfold execBlockRefresh
  dsimp only
  repeat' split
  all_goals simp

@[simp] theorem keepsQueue_execBlockEraseDone (block : Fin 1310720) (e : NandEnd) :
    KeepsQueue s (execBlockEraseDone block e s) := by
  unfold execBlockEraseDone
  extract_lets +onlyGivenNames b t
  have ht : t.pending = s.pending := pending_govern s
  clear_value t
  split
  · simp
  split
  · simp
  split
  · simpa using ht
  extract_lets +onlyGivenNames _ u _ v
  have hv : v.pending = s.pending := by simp [v, u, ht]
  clear_value v
  split
  · split <;> simpa using hv
  · simp [apply_ite State.pending, hv]

@[simp] theorem keepsQueue_execEmergencySetReady : KeepsQueue s (execEmergencySetReady s) := by
  fun_cases execEmergencySetReady <;> simp

@[simp] theorem pending_retireBlock (b : Nat) : (s.retireBlock b).pending = s.pending := by
  unfold State.retireBlock
  dsimp only
  split_ifs <;> simp

@[simp] theorem pending_retireChannel (ch : Nat) : (s.retireChannel ch).pending = s.pending := by
  simp [State.retireChannel]

@[simp] theorem keepsQueue_execChannelTimeout (ch : Fin 8) (training : Bool) :
    KeepsQueue s (execChannelTimeout ch training s) := by
  unfold execChannelTimeout
  dsimp only
  split_ifs <;> simp

@[simp] theorem pending_archivePrepare : s.archivePrepare.pending = s.pending := by
  unfold State.archivePrepare
  dsimp only
  split_ifs <;> simp

@[simp] theorem pending_archiveResume : s.archiveResume.pending = s.pending := by
  unfold State.archiveResume
  rfl

@[simp] theorem pending_archiveReset : s.archiveReset.pending = s.pending := by
  unfold State.archiveReset
  dsimp only
  split <;> simp

@[simp] theorem pending_openIntake : s.openIntake.pending = s.pending := by
  unfold State.openIntake
  dsimp only
  repeat' split
  all_goals simp

@[simp] theorem keepsQueue_execArchiveIntakeOpen : KeepsQueue s (execArchiveIntakeOpen s) := by
  unfold execArchiveIntakeOpen
  split <;> simp

@[simp] theorem keepsQueue_execArcAppend (r : Req) (body : Option (List (BitVec 8))) :
    KeepsQueue s (execArcAppend r body s) := by
  unfold execArcAppend
  refine keepsQueue_driner fun t => ?_
  extract_lets +onlyGivenNames p typ cls flags src len no
  have hno (st : Nat) : (no st).pending = t.pending := by simp [no]
  clear_value no
  split
  · exact hno _
  split
  · exact hno _
  split
  · exact hno _
  split
  · exact hno _
  split
  · exact hno _
  extract_lets +onlyGivenNames host
  split
  next u b hu =>
  have h : u.pending = t.pending := by
    split at hu
    · cases hu
      rfl
    · simpa [hu] using pending_readBuffer t r.party (leAt p 8 8) len
  split <;> simp [h]

@[simp] theorem keepsQueue_execArcRead (r : Req) : KeepsQueue s (execArcRead r s) := by
  unfold execArcRead
  refine keepsQueue_drinerNow fun t => ?_
  dsimp only
  split_ifs <;> simp

@[simp] theorem keepsQueue_execArcSealGet (r : Req) : KeepsQueue s (execArcSealGet r s) := by
  unfold execArcSealGet
  refine keepsQueue_drinerNow fun t => ?_
  dsimp only
  split
  · simp
  · split <;> simp

@[simp] theorem keepsQueue_execArcStatus (r : Req) : KeepsQueue s (execArcStatus r s) := by
  unfold execArcStatus
  refine keepsQueue_drinerNow fun t => ?_
  simp

@[simp] theorem keepsQueue_execArcConfig (r : Req) : KeepsQueue s (execArcConfig r s) := by
  unfold execArcConfig
  refine keepsQueue_drinerNow fun t => ?_
  dsimp only
  split <;> simp

@[simp] theorem pending_arcReadReg (port : Nat) : (s.arcReadReg port).2.pending = s.pending := by
  unfold State.arcReadReg
  split <;> simp

@[simp] theorem pending_arcCtrlWrite (v : Word) : (s.arcCtrlWrite v).pending = s.pending := by
  unfold State.arcCtrlWrite
  dsimp only
  split <;> simp

@[simp] theorem pending_arcWriteReg (port : Nat) (v : Word) : (s.arcWriteReg port v).pending = s.pending := by
  fun_cases State.arcWriteReg <;> simp

end

/-! ### The clocks -/

section
variable (s : State)

@[simp] theorem pending_pinLevel (i : Nat) : (s.pinLevel i).pending = s.pending := by
  simp [State.pinLevel]

@[simp] theorem keepsQueue_execRootOk : KeepsQueue s (execRootOk s) := by
  unfold execRootOk
  split <;> simp

@[simp] theorem pending_domselWrite (v : Word) (stopped : BitVec 5) :
    (s.domselWrite v stopped).pending = s.pending := by
  unfold State.domselWrite
  dsimp only
  split_ifs <;> simp

@[simp] theorem keepsQueue_execClkDomselWrite (pl : BitVec 2) (value : BitVec 32) (stopped : BitVec 5) :
    KeepsQueue s (execClkDomselWrite pl value stopped s) := by
  unfold execClkDomselWrite
  split <;> simp

@[simp] theorem pending_loupeSet (ch : Nat) (v : Word) : (s.loupeSet ch v).pending = s.pending := by
  simp [State.loupeSet]

@[simp] theorem pending_loupeWrite (ch : Nat) (v : Word) : (s.loupeWrite ch v).pending = s.pending := by
  unfold State.loupeWrite
  split <;> simp

@[simp] theorem keepsQueue_execLoupeStart (ch : Fin 8) (value : BitVec 32) :
    KeepsQueue s (execLoupeStart ch value s) := by
  unfold execLoupeStart
  split <;> simp

@[simp] theorem keepsQueue_execLoupeAbort (ch : Fin 8) (value : BitVec 32) :
    KeepsQueue s (execLoupeAbort ch value s) := by
  unfold execLoupeAbort
  split <;> simp

@[simp] theorem pending_seedPps (n : Nat) : (s.seedPps n).pending = s.pending := by
  unfold State.seedPps
  split <;> simp

@[simp] theorem pending_loupeResult (ch n : Nat) : (s.loupeResult ch n).pending = s.pending := by
  unfold State.loupeResult
  dsimp only
  split <;> simp

@[simp] theorem pending_loupeEdge (code pin n ch : Nat) : (s.loupeEdge code pin n ch).pending = s.pending := by
  unfold State.loupeEdge
  dsimp only
  repeat' split
  all_goals simp

@[simp] theorem pending_loupeEdges (code pin n : Nat) : (s.loupeEdges code pin n).pending = s.pending := by
  simp [State.loupeEdges]

@[simp] theorem pending_loupeTick (clkin : Bool) : (s.loupeTick clkin).pending = s.pending := by
  unfold State.loupeTick
  split <;> simp

@[simp] theorem keepsQueue_execLoupeGateEnd (ch : Fin 8) (edges : Nat) :
    KeepsQueue s (execLoupeGateEnd ch edges s) := by
  unfold execLoupeGateEnd
  dsimp only
  split <;> simp

@[simp] theorem keepsQueue_execLoupeRefLost (ch : Fin 8) : KeepsQueue s (execLoupeRefLost ch s) := by
  unfold execLoupeRefLost
  dsimp only
  split <;> simp

@[simp] theorem pending_clkRead (port : Nat) : (s.clkRead port).2.pending = s.pending := by
  fun_cases State.clkRead <;> simp

@[simp] theorem pending_clkWrite (pl port : Nat) (v : Word) : (s.clkWrite pl port v).pending = s.pending := by
  fun_cases State.clkWrite <;> simp

end

/-! ### The time block -/

section
variable (s : State)

@[simp] theorem pending_timeRec (facts : List Nat) : (s.timeRec facts).pending = s.pending := by
  simp [State.timeRec]

@[simp] theorem pending_setQual (q : BitVec 2) : (s.setQual q).pending = s.pending := by
  unfold State.setQual
  dsimp only
  split_ifs <;> simp

@[simp] theorem pending_applyInc : s.applyInc.pending = s.pending := rfl

@[simp] theorem pending_toHoldover (e : Nat) : (s.toHoldover e).pending = s.pending := by
  simp [State.toHoldover]

@[simp] theorem pending_sourceGone (tin : Bool) : (s.sourceGone tin).pending = s.pending := by
  unfold State.sourceGone
  dsimp only
  split_ifs <;> simp

@[simp] theorem keepsQueue_execHoldoverLimit : KeepsQueue s (execHoldoverLimit s) := by
  unfold execHoldoverLimit
  split <;> simp

@[simp] theorem pending_setCounter (u : Nat) : (s.setCounter u).pending = s.pending := rfl

@[simp] theorem pending_armTime : s.armTime.pending = s.pending := rfl

@[simp] theorem pending_timEvent (n : Nat) : (timEvent s n).pending = s.pending := rfl

@[simp] theorem pending_timeLoad (u : Nat) : (s.timeLoad u).pending = s.pending := by
  unfold State.timeLoad
  split <;> simp

@[simp] theorem keepsQueue_execTimCmdLoad : KeepsQueue s (execTimCmdLoad s) := by
  unfold execTimCmdLoad
  split <;> simp

@[simp] theorem keepsQueue_execTimCmdArm : KeepsQueue s (execTimCmdArm s) := by
  unfold execTimCmdArm
  split <;> simp

@[simp] theorem keepsQueue_execBracketTimeout : KeepsQueue s (execBracketTimeout s) := by
  unfold execBracketTimeout
  split <;> simp

@[simp] theorem pending_copyShadow : s.copyShadow.pending = s.pending := by
  unfold State.copyShadow
  rfl

@[simp] theorem keepsQueue_execShadowCopy : KeepsQueue s (execShadowCopy s) := by
  unfold execShadowCopy
  dsimp only
  split <;> simp

@[simp] theorem pending_tinGood (theta : Option Int) : (s.tinGood theta).pending = s.pending := rfl

@[simp] theorem keepsQueue_execTinEdge (phase : Fin 4) (pulse : TinPulse) :
    KeepsQueue s (execTinEdge phase pulse s) := by
  unfold execTinEdge
  split
  · simp
  extract_lets +onlyGivenNames t
  have ht : t.pending = s.pending := by simp [t, apply_ite State.pending]
  clear_value t
  split
  · simpa using ht
  split
  · extract_lets spaced
    split <;> simp [ht]
  · extract_lets spaced
    split <;> simp [ht]
  · simpa using ht

@[simp] theorem pending_leap (delete : Bool) : (s.leap delete).pending = s.pending := by
  simp [State.leap]

@[simp] theorem pending_irigBad : s.irigBad.pending = s.pending := by
  simp [State.irigBad]

@[simp] theorem keepsQueue_execIrigFrame (frame : Irig) : KeepsQueue s (execIrigFrame frame s) := by
  unfold execIrigFrame
  dsimp only
  split_ifs <;> simp

@[simp] theorem keepsQueue_execTinLost : KeepsQueue s (execTinLost s) := by
  unfold execTinLost
  dsimp only
  split <;> simp [apply_ite State.pending, keepsQueue_ite]

@[simp] theorem keepsQueue_execPtmRequest : KeepsQueue s (execPtmRequest s) := by
  unfold execPtmRequest
  dsimp only
  split <;> simp

@[simp] theorem pending_ptmAbandon : s.ptmAbandon.pending = s.pending := by
  simp [State.ptmAbandon]

@[simp] theorem keepsQueue_execPtmResponse (t2 : Option (BitVec 64)) (prop : BitVec 32) :
    KeepsQueue s (execPtmResponse t2 prop s) := by
  fun_cases execPtmResponse <;> simp

@[simp] theorem keepsQueue_execPtmTimeout : KeepsQueue s (execPtmTimeout s) := by
  unfold execPtmTimeout
  split <;> simp

@[simp] theorem pending_discipline (theta : Int) (seed : Option Int) :
    (s.discipline theta seed).pending = s.pending := by
  simp [State.discipline]

@[simp] theorem pending_noSlew : s.noSlew.pending = s.pending := by
  simp [State.noSlew]

@[simp] theorem pending_acceptOffset (src : Nat) (theta : Int) (seed : Option Int) :
    (s.acceptOffset src theta seed).pending = s.pending := by
  unfold State.acceptOffset
  dsimp only
  split_ifs <;> simp

@[simp] theorem pending_dropSource (src : Nat) : (s.dropSource src).pending = s.pending := by
  unfold State.dropSource
  split <;> simp

@[simp] theorem pending_lockQual (src : Nat) : (s.lockQual src).pending = s.pending := by
  simp [State.lockQual, apply_ite State.pending]

@[simp] theorem pending_xcheck (tin ptm : Option Int) : (s.xcheck tin ptm).1.pending = s.pending := by
  unfold State.xcheck
  dsimp only
  repeat' split
  all_goals simp

@[simp] theorem pending_secondStart : (s.secondStart).1.pending = s.pending := by
  unfold State.secondStart
  dsimp only
  split <;> simp [apply_ite State.pending]

@[simp] theorem pending_takeGate (src : Nat) : (s.takeGate src).pending = s.pending := by
  unfold State.takeGate
  split <;> simp

@[simp] theorem pending_runSource (src : Nat) (theta : Int) (seed : Option Int) :
    (s.runSource src theta seed).pending = s.pending := by
  unfold State.runSource
  dsimp only
  split_ifs <;> simp

@[simp] theorem keepsQueue_execLoopSecond (boundary : Nat) : KeepsQueue s (execLoopSecond boundary s) := by
  unfold execLoopSecond
  split
  · simp
  extract_lets +onlyGivenNames edge
  split
  next t tin ptm slope ht =>
  have h1 : t.pending = s.pending := by simpa [ht] using pending_secondStart s
  extract_lets +onlyGivenNames _ t1 src
  split
  · split <;> simp [h1, t1]
  extract_lets +onlyGivenNames _ t2
  have h2 : t2.pending = s.pending := h1
  clear_value t2
  split
  next u tin' hu =>
  have h3 : u.pending = s.pending := by
    have hx := pending_xcheck t2 tin ptm
    split at hu
    all_goals
      next hu' => 
      cases hu
      simpa [hu', h2] using hx
  dsimp only
  split
  · simp [h3]
  · split <;> simp [h3]
  · split <;> simp [h3]

@[simp] theorem keepsQueue_execXchkHoldEnd : KeepsQueue s (execXchkHoldEnd s) := by
  unfold execXchkHoldEnd
  split <;> simp

@[simp] theorem pending_setPpso (on : Bool) : (s.setPpso on).pending = s.pending := by
  unfold State.setPpso
  dsimp only
  split <;> simp

@[simp] theorem keepsQueue_execPpsoPulse : KeepsQueue s (execPpsoPulse s) := by
  fun_cases execPpsoPulse <;> simp

@[simp] theorem keepsQueue_execPpsoPulseEnd : KeepsQueue s (execPpsoPulseEnd s) := by
  unfold execPpsoPulseEnd
  split <;> simp

@[simp] theorem pending_ctrlTime (v : Word) : (s.ctrlTime v).pending = s.pending := by
  unfold State.ctrlTime
  dsimp only
  split_ifs <;> simp

@[simp] theorem pending_mapCommit : s.mapCommit.pending = s.pending := by
  unfold State.mapCommit
  rfl

@[simp] theorem keepsQueue_execTimMapCommit : KeepsQueue s (execTimMapCommit s) := by
  unfold execTimMapCommit
  split <;> simp

theorem pending_with_tim (t : Tim) : ({ s with tim := t } : State).pending = s.pending := rfl

@[simp] theorem pending_timRead (port : Nat) : (s.timRead port).2.pending = s.pending := by
  unfold State.timRead
  split
  case h_1 => exact pending_with_tim s _
  all_goals rfl

@[simp] theorem pending_timWrite (port : Nat) (v : Word) : (s.timWrite port v).pending = s.pending := by
  unfold State.timWrite
  dsimp only
  split <;> simp [apply_ite State.pending]

@[simp] theorem keepsQueue_execTimeGet (r : Req) : KeepsQueue s (execTimeGet r s) := by
  unfold execTimeGet
  exact keepsQueue_drinerNow fun _ => rfl

@[simp] theorem keepsQueue_execTimeStatus (r : Req) : KeepsQueue s (execTimeStatus r s) := by
  unfold execTimeStatus
  refine keepsQueue_drinerNow fun t => ?_
  simp

@[simp] theorem keepsQueue_execTimeConfig (r : Req) : KeepsQueue s (execTimeConfig r s) := by
  unfold execTimeConfig
  refine keepsQueue_drinerNow fun t => ?_
  dsimp only
  split <;> simp

@[simp] theorem keepsQueue_execTimeSetMap (r : Req) : KeepsQueue s (execTimeSetMap r s) := by
  unfold execTimeSetMap
  refine keepsQueue_drinerNow fun t => ?_
  dsimp only
  split <;> simp

@[simp] theorem keepsQueue_execTimeSetUtc (r : Req) : KeepsQueue s (execTimeSetUtc r s) := by
  unfold execTimeSetUtc
  refine keepsQueue_drinerNow fun t => ?_
  dsimp only
  split <;> simp

@[simp] theorem keepsQueue_execTimeLoad (r : Req) : KeepsQueue s (execTimeLoad r s) := by
  unfold execTimeLoad
  refine keepsQueue_drinerNow fun t => ?_
  dsimp only
  split_ifs <;> simp

@[simp] theorem keepsQueue_execPpsoConfig (r : Req) : KeepsQueue s (execPpsoConfig r s) := by
  unfold execPpsoConfig
  refine keepsQueue_drinerNow fun t => ?_
  dsimp only
  split <;> simp

end

end Sys2Proof.Machine
end

section
/-! PROOFS. What Dovetail, the host, exceptions, the noise heads and resets leave of the queue (R17). -/

namespace Sys2Proof.Machine
open Sys2Proof

/-! ### Dovetail -/

section
variable (s : State)

@[simp] theorem pending_pinAccept (n : Nat) (d : PinPend) : (s.pinAccept n d).pending = s.pending := by
  unfold State.pinAccept
  dsimp only
  split_ifs <;> simp

@[simp] theorem keepsQueue_execEvtEdge (pin : Fin 16) (phase : Fin 4) (level : Bool) :
    KeepsQueue s (execEvtEdge pin phase level s) := by
  unfold execEvtEdge
  dsimp only
  split_ifs <;> simp

@[simp] theorem keepsQueue_execEvtFilterDone (pin : Fin 16) : KeepsQueue s (execEvtFilterDone pin s) := by
  fun_cases execEvtFilterDone <;> simp

@[simp] theorem pending_pinCtrl (n : Nat) (v : Word) : (s.pinCtrl n v).pending = s.pending := by
  unfold State.pinCtrl
  split <;> simp

@[simp] theorem keepsQueue_execEvtCtrlWrite (pin : Fin 16) (value : BitVec 32) :
    KeepsQueue s (execEvtCtrlWrite pin value s) := by
  unfold execEvtCtrlWrite
  split <;> simp

@[simp] theorem pending_pinStat (n : Nat) : (s.pinStat n).2.pending = s.pending := by
  simp [State.pinStat]

@[simp] theorem pending_dvOut (e : DvEv) (late : Bool) : (s.dvOut e late).pending = s.pending := rfl

@[simp] theorem keepsQueue_execDovetailArrival (i : Nat) : KeepsQueue s (execDovetailArrival i s) := by
  unfold execDovetailArrival
  dsimp only
  split <;> simp [keepsQueue_ite]

@[simp] theorem keepsQueue_execDovetailRelease : KeepsQueue s (execDovetailRelease s) := by
  fun_cases execDovetailRelease <;> simp

@[simp] theorem pending_dvFlush (a0 : Nat) : (s.dvFlush a0).pending = s.pending := by
  fun_induction State.dvFlush <;> simp_all

@[simp] theorem pending_nextOr {o : Out} (h : KeepsQueue s o) : (nextOr s o).pending = s.pending := by
  obtain ⟨t, rfl, ht⟩ := h
  exact ht

@[simp] theorem pending_drainIntake : s.drainIntake.pending = s.pending :=
  (pending_foldl (fun t _ => pending_nextOr t (keepsQueue_execRecordSequence t)) _ _).trans
    (pending_foldl (fun t _ => pending_nextOr t (keepsQueue_execRecordIntake t)) _ _)

@[simp] theorem pending_rebase (u : Nat) : (s.rebase u).pending = s.pending := by
  unfold State.rebase
  dsimp only
  split_ifs <;> simp

@[simp] theorem keepsQueue_execTimCmdRebase : KeepsQueue s (execTimCmdRebase s) := by
  unfold execTimCmdRebase
  split <;> simp

@[simp] theorem pending_authRun (op : Nat) (payload : Bytes) : (s.authRun op payload).pending = s.pending := by
  unfold State.authRun
  split <;> simp

theorem pending_ownerAuth {op : Nat} {p : Bytes} {t : State} (h : s.ownerAuth op p = some t) :
    t.pending = s.pending := by
  unfold State.ownerAuth at h
  dsimp only at h
  split at h
  · cases h
  · split at h
    · cases h; rfl
    · cases h

@[simp] theorem keepsQueue_execTimeRebase (r : Req) : KeepsQueue s (execTimeRebase r s) := by
  unfold execTimeRebase
  split
  · simp
  refine keepsQueue_drinerNow fun t => ?_
  dsimp only
  split
  · simp
  next u hu =>
    have h := pending_ownerAuth _ hu
    split <;> simpa using h

@[simp] theorem keepsQueue_execEvtConfig (r : Req) : KeepsQueue s (execEvtConfig r s) := by
  unfold execEvtConfig
  refine keepsQueue_drinerNow fun t => ?_
  dsimp only
  split_ifs <;> simp

@[simp] theorem keepsQueue_execEvtRead (r : Req) : KeepsQueue s (execEvtRead r s) := by
  unfold execEvtRead
  refine keepsQueue_drinerNow fun t => ?_
  dsimp only
  split <;> simp

@[simp] theorem pending_timeRead (port : Nat) : (s.timeRead port).2.pending = s.pending := by
  unfold State.timeRead
  dsimp only
  split
  · split <;> simp
  · simp

@[simp] theorem pending_timeWrite (port : Nat) (v : Word) : (s.timeWrite port v).pending = s.pending := by
  unfold State.timeWrite
  dsimp only
  split_ifs <;> simp

end

/-! ### Resets by the host, and the functions -/

section
variable (s : State)

@[simp] theorem pending_dropJobs (ok : Nat → Bool) : (s.dropJobs ok).pending = s.pending := by
  simp [State.dropJobs, apply_ite State.pending]

@[simp] theorem pending_resetFun (fn : Nat) : (s.resetFun fn).pending = s.pending := by
  simp [State.resetFun]

@[simp] theorem pending_hostResetBody (linkStays : Bool) : (s.hostResetBody linkStays).pending = s.pending := by
  simp [State.hostResetBody]

@[simp] theorem pending_hostReset (cause : HostResetCause) : (s.hostReset cause).pending = s.pending := by
  simp [State.hostReset]

@[simp] theorem keepsQueue_execHostReset (cause : HostResetCause) : KeepsQueue s (execHostReset cause s) := by
  unfold execHostReset
  dsimp only
  split_ifs <;> simp

@[simp] theorem pending_giveUpReads (fn : Nat) : (s.giveUpReads fn).pending = s.pending := by
  unfold State.giveUpReads
  dsimp only
  rw [pending_each fun _ t => pending_retryTags t _, pending_each fun h t => ?_]
  split
  · simp
  · split_ifs <;> simp
  · rfl

@[simp] theorem pending_stopFn (fn : Nat) : (s.stopFn fn).pending = s.pending := by
  unfold State.stopFn
  split <;> simp

@[simp] theorem pending_flrVf (fn : Nat) : (s.flrVf fn).pending = s.pending := by
  simp [State.flrVf]

@[simp] theorem pending_busMasterClear (fn : Nat) : (s.busMasterClear fn).pending = s.pending := by
  unfold State.busMasterClear
  dsimp only
  split <;> simp

@[simp] theorem pending_toD3 (fn : Nat) : (s.toD3 fn).pending = s.pending := by
  unfold State.toD3
  dsimp only
  split <;> simp

@[simp] theorem keepsQueue_execFunctionReset (fn : Fin 64) (cause : FnResetCause) :
    KeepsQueue s (execFunctionReset fn cause s) := by
  fun_cases execFunctionReset <;> simp

@[simp] theorem pending_linkFloor : s.linkFloor.pending = s.pending := by
  simp [State.linkFloor]

@[simp] theorem keepsQueue_execLinkUp (speed width : Nat) : KeepsQueue s (execLinkUp speed width s) := by
  unfold execLinkUp
  split <;> simp

@[simp] theorem keepsQueue_execLinkRetrain (speed width : Nat) : KeepsQueue s (execLinkRetrain speed width s) := by
  unfold execLinkRetrain
  dsimp only
  split_ifs <;> simp

@[simp] theorem pending_config (a1 : Cfg) : (s.config a1).pending = s.pending := by
  unfold State.config
  dsimp only
  split <;> simp [apply_ite State.pending]

@[simp] theorem keepsQueue_execConfigWrite (c : Cfg) : KeepsQueue s (execConfigWrite c s) := by
  unfold execConfigWrite
  split <;> simp

end

/-! ### The journal -/

section
variable (s : State)

@[simp] theorem pending_clEvent (b : Nat) : (s.clEvent b).pending = s.pending := rfl

@[simp] theorem pending_markTo (n : Nat) : (s.markTo n).pending = s.pending := by
  unfold State.markTo
  split <;> simp

@[simp] theorem pending_tearMark : s.tearMark.pending = s.pending := by
  unfold State.tearMark
  dsimp only
  split <;> simp [apply_ite State.pending]

@[simp] theorem pending_markMain (i : Nat) : (s.markMain i).pending = s.pending := by
  simp [State.markMain]

@[simp] theorem pending_markEvent (i : Nat) : (s.markEvent i).pending = s.pending := by
  simp [State.markEvent]

@[simp] theorem pending_markCommitted (m : MarkOp) : (s.markCommitted m).pending = s.pending := by
  unfold State.markCommitted
  dsimp only
  split_ifs <;> simp

@[simp] theorem pending_finishMark : s.finishMark.pending = s.pending := by
  unfold State.finishMark
  dsimp only
  split <;> simp [apply_ite State.pending]

@[simp] theorem pending_dropClasp : s.dropClasp.pending = s.pending := by
  unfold State.dropClasp
  dsimp only
  split_ifs <;> simp

@[simp] theorem pending_endClasp : s.endClasp.pending = s.pending := by
  simp [State.endClasp]

end

/-! ### Exceptions, returns and escalation -/

section
variable (s : State)

@[simp] theorem pending_lockCore (c : Nat) : (s.lockCore c).pending = s.pending := by
  simp [State.lockCore]

@[simp] theorem pending_escalate (c cause : Nat) (f : Flt) : (s.escalate c cause f).pending = s.pending := by
  unfold State.escalate
  dsimp only
  split <;> simp

@[simp] theorem pending_recordFlt (c : Nat) (f : Flt) : (s.recordFlt c f).pending = s.pending := by
  unfold State.recordFlt
  split <;> simp

theorem keepsQueue_readDesc (c v : Nat) : (s.readDesc c v).KeepsQueue s := keepsQueue_loadWords s _ _ _ _

@[simp] theorem pending_enter (c : Nat) (f : Flt) (irq : Option Nat) : (s.enter c f irq).pending = s.pending := by
  have h := keepsQueue_readDesc s c f.vec
  unfold State.enter
  extract_lets +onlyGivenNames k l
  split
  · rfl
  · simp_all
  next b t ht =>
  have h : t.pending = s.pending := by simpa [ht] using h
  extract_lets +onlyGivenNames d
  split
  · simpa using h
  split
  · simpa using h
  extract_lets +onlyGivenNames e
  split
  · simpa using h
  extract_lets +onlyGivenNames g15 frame
  split
  · simpa using h
  split
  · simpa using h
  · split <;> simpa using h

@[simp] theorem pending_takeFault (c : Nat) (f : Flt) : (s.takeFault c f).pending = s.pending := by
  unfold State.takeFault
  dsimp only
  split_ifs <;> simp

@[simp] theorem keepsQueue_execInterruptEntry (c : Fin 14) : KeepsQueue s (execInterruptEntry c s) := by
  fun_cases execInterruptEntry <;> simp

theorem pending_twice {s : State} {c : Nat} {first upset : Bool} {ok : State → State}
    (h : ∀ t, (ok t).pending = t.pending) : (s.twice c first upset ok).pending = s.pending := by
  unfold State.twice
  split
  · simp
  dsimp only
  split
  · simp [h, apply_ite State.pending]
  split
  · split <;> simp [apply_ite State.pending]
  · simp [apply_ite State.pending]

theorem keepsQueue_frameWords (c a : Nat) : (s.frameWords c a).KeepsQueue s := by
  unfold State.frameWords
  extract_lets +onlyGivenNames l
  have h := keepsQueue_loadWords s c l a 3
  split
  · simp_all
  · simp
  next b t ht =>
  have h : t.pending = s.pending := by simpa [ht] using h
  have ht := keepsQueue_loadWords t c l (a + 0x18) 1
  split <;> simp_all

@[simp] theorem pending_returnFrame (c : Nat) (r : SsRec) (rest : List SsRec) (upset : Bool) :
    (s.returnFrame c r rest upset).pending = s.pending := by
  unfold State.returnFrame
  extract_lets +onlyGivenNames k
  have h := keepsQueue_frameWords s c (tget 0 k.g 15).toNat
  split
  · simp_all
  · rfl
  next b t ht =>
  rw [ht] at h
  exact (pending_twice fun u => by simp).trans h

@[simp] theorem pending_returnCall (c : Nat) (r : SsRec) (rest : List SsRec) (upset : Bool) :
    (s.returnCall c r rest upset).pending = s.pending := by
  unfold State.returnCall
  exact pending_twice fun t => by simp

@[simp] theorem pending_returnEsc (c : Nat) (upset : Bool) : (s.returnEsc c upset).pending = s.pending := by
  unfold State.returnEsc
  exact pending_twice fun t => by simp

@[simp] theorem pending_retx (c : Nat) (upset : Bool) : (s.retx c upset).pending = s.pending := by
  fun_cases State.retx <;> simp

@[simp] theorem pending_sysCall (c n len : Nat) : (s.sysCall c n len).pending = s.pending := by
  unfold State.sysCall
  dsimp only
  split_ifs <;> simp

theorem pending_spill {c : Nat} {x : Word × State} (h : s.spill c = some x) : x.2.pending = s.pending := by
  unfold State.spill at h
  dsimp only at h
  split at h
  · cases h
  · split at h <;> cases h <;> rfl

theorem pending_fill {c : Nat} {w : Word} {t : State} (h : s.fill c w = some t) : t.pending = s.pending := by
  unfold State.fill at h
  dsimp only at h
  split_ifs at h <;> cases h <;> simp

theorem pending_redirect {c : Nat} {v : Word} {t : State} (h : s.redirect c v = some t) : t.pending = s.pending := by
  unfold State.redirect at h
  dsimp only at h
  split at h
  · split_ifs at h
    cases h
    rfl
  · cases h

@[simp] theorem keepsQueue_execSsSpill (c : Fin 14) (d : Fin 16) : KeepsQueue s (execSsSpill c d s) := by
  unfold execSsSpill
  split
  · simp
  split
  · next h => simpa using pending_spill _ h
  · simp

@[simp] theorem keepsQueue_execSsFill (c : Fin 14) (value : BitVec 32) : KeepsQueue s (execSsFill c value s) := by
  unfold execSsFill
  split
  · simp
  split
  · next h => simpa using pending_fill _ h
  · simp

@[simp] theorem keepsQueue_execSsRedirect (c : Fin 14) (value : BitVec 32) :
    KeepsQueue s (execSsRedirect c value s) := by
  unfold execSsRedirect
  split
  · simp
  split
  · next h => simpa using pending_redirect _ h
  · simp

@[simp] theorem pending_swset (c : Nat) (v : Word) : (s.swset c v).pending = s.pending := by
  simp [State.swset]

@[simp] theorem keepsQueue_execIrqSwset (c : Fin 14) (value : BitVec 32) : KeepsQueue s (execIrqSwset c value s) := by
  unfold execIrqSwset
  split <;> simp

theorem pending_localRead {c port : Nat} {x : Word × State} (h : s.localRead c port = some x) :
    x.2.pending = s.pending := by
  unfold State.localRead at h
  dsimp only at h
  split at h
  · split at h
    case h_4 => exact pending_spill _ h
    case h_5 => split at h <;> cases h; rfl
    all_goals
      cases h
      rfl
  split at h
  · cases h
    rfl
  split at h
  · cases h
  · split at h <;> cases h <;> rfl

theorem pending_localWrite {c port : Nat} {v : Word} {t : State} (h : s.localWrite c port v = some t) :
    t.pending = s.pending := by
  unfold State.localWrite at h
  dsimp only at h
  split at h
  · split at h
    case h_4 => exact pending_fill _ h
    case h_5 => split at h <;> cases h; rfl
    case h_6 => exact pending_redirect _ h
    all_goals
      cases h
      simp
  split at h
  · cases h
    rfl
  split at h
  · cases h
  split at h
  · split at h <;> cases h <;> rfl
  · cases h
    rfl

@[simp] theorem pending_setRun (c : Nat) (on : Bool) : (s.setRun c on).pending = s.pending := by
  unfold State.setRun
  dsimp only
  split_ifs <;> simp

@[simp] theorem pending_resetCore (c : Nat) : (s.resetCore c).pending = s.pending := by
  unfold State.resetCore
  split <;> simp

@[simp] theorem pending_setEscLock (c : Nat) : (s.setEscLock c).pending = s.pending := by
  simp [State.setEscLock]

@[simp] theorem keepsQueue_execCoreRun (mid : Nat) (on : Bool) : KeepsQueue s (execCoreRun mid on s) := by
  unfold execCoreRun
  split <;> simp

@[simp] theorem keepsQueue_execCoreReset (mid : Nat) : KeepsQueue s (execCoreReset mid s) := by
  unfold execCoreReset
  split <;> simp

@[simp] theorem keepsQueue_execEscLock (mid : Nat) : KeepsQueue s (execEscLock mid s) := by
  unfold execEscLock
  split <;> simp

@[simp] theorem pending_ctrlRead (port : Nat) : (s.ctrlRead port).2.pending = s.pending := by
  fun_cases State.ctrlRead <;> simp

@[simp] theorem pending_ctrlWrite (port : Nat) (v : Word) : (s.ctrlWrite port v).pending = s.pending := by
  unfold State.ctrlWrite
  dsimp only
  split
  · rfl
  split
  · rfl
  split
  · split_ifs <;> simp
  split
  · split_ifs <;> simp
  split
  · split_ifs <;> simp
  split
  case h_8 => rfl
  all_goals split_ifs <;> simp

end

/-! ### The noise heads -/

section
variable (s : State)

@[simp] theorem pending_nhEvent (b : Nat) : (s.nhEvent b).pending = s.pending := rfl

@[simp] theorem pending_noiseStart : s.noiseStart.pending = s.pending := by
  unfold State.noiseStart
  dsimp only
  split <;> simp

@[simp] theorem pending_cellFails (p : Nat) (rep : Bool) : (s.cellFails p rep).pending = s.pending := by
  unfold State.cellFails
  split <;> simp

@[simp] theorem keepsQueue_execWindowRelease (cell : Fin 272) (bits : BitVec 1024) :
    KeepsQueue s (execWindowRelease cell bits s) := by
  unfold execWindowRelease
  dsimp only
  split_ifs <;> simp

@[simp] theorem pending_handOut (b : List Bool) : (s.handOut b).pending = s.pending := by
  unfold State.handOut
  dsimp only
  split <;> simp

@[simp] theorem keepsQueue_execConditionerBlock : KeepsQueue s (execConditionerBlock s) := by
  unfold execConditionerBlock
  split <;> simp

@[simp] theorem pending_emptyPools : s.emptyPools.pending = s.pending := by
  simp [State.emptyPools]

theorem pending_randRead {mid : Nat} {x : Word × State} (h : s.randRead mid = some x) : x.2.pending = s.pending := by
  unfold State.randRead at h
  dsimp only at h
  split at h
  · cases h
    simp
  · cases h
    rfl
  · split at h
    · cases h
      simp
    · cases h

@[simp] theorem pending_randWait (mid : Nat) : (s.randWait mid).pending = s.pending := by
  unfold State.randWait
  split <;> simp

@[simp] theorem keepsQueue_execKeyNhRandRead (mid : Nat) : KeepsQueue s (execKeyNhRandRead mid s) := by
  unfold execKeyNhRandRead
  split
  · simp
  split
  · next h => simpa using pending_randRead _ h
  · simp

@[simp] theorem keepsQueue_execNhRandTimeout (mid : Nat) : KeepsQueue s (execNhRandTimeout mid s) := by
  unfold execNhRandTimeout
  split <;> simp

@[simp] theorem pending_setTestEn (on : Bool) : (s.setTestEn on).pending = s.pending := by
  unfold State.setTestEn
  dsimp only
  split_ifs <;> simp

@[simp] theorem keepsQueue_execTestEnWrite (on : Bool) : KeepsQueue s (execTestEnWrite on s) := by
  unfold execTestEnWrite
  split <;> simp

theorem pending_nhRead {mid port : Nat} {x : Word × State} (h : s.nhRead mid port = some x) :
    x.2.pending = s.pending := by
  unfold State.nhRead at h
  dsimp only at h
  split at h
  case h_7 => exact pending_randRead _ h
  all_goals
    cases h
    rfl

@[simp] theorem pending_nhWrite (mid port : Nat) (v : Word) : (s.nhWrite mid port v).pending = s.pending := by
  fun_cases State.nhWrite <;> simp

end

/-! ### Resets -/

section
variable (s : State)

@[simp] theorem pending_alertTouch : s.alertTouch.pending = s.pending := rfl

@[simp] theorem pending_assertReset : s.assertReset.pending = s.pending := by
  simp [State.assertReset]

@[simp] theorem pending_aoLoss : s.aoLoss.pending = s.pending := by
  unfold State.aoLoss
  rfl

@[simp] theorem pending_enterPower (p : PowerState) : (s.enterPower p).pending = s.pending := by
  unfold State.enterPower
  dsimp only
  split_ifs <;> simp

@[simp] theorem pending_settle : s.settle.pending = s.pending := by
  unfold State.settle
  split <;> simp

@[simp] theorem pending_leaveMain : s.leaveMain.pending = s.pending := by
  simp [State.leaveMain]

end

end Sys2Proof.Machine
end

section
/-! PROOFS. What tampering, power, the links, the contactless port and the badge leave of the queue (R17). -/

namespace Sys2Proof.Machine
open Sys2Proof

/-! ### Tamper events -/

section
variable (s : State)

@[simp] theorem keepsQueue_execTamperSample (index : BitVec 5) (active : Bool) :
    KeepsQueue s (execTamperSample index active s) := by
  fun_cases execTamperSample <;> simp

@[simp] theorem keepsQueue_execTamperCounterTimeout (index : BitVec 5) :
    KeepsQueue s (execTamperCounterTimeout index s) := by
  fun_cases execTamperCounterTimeout <;> simp

@[simp] theorem pending_blowNext : s.blowNext.pending = s.pending := by
  unfold State.blowNext
  split <;> simp

@[simp] theorem pending_islandErase (resp : Nat) : (s.islandErase resp).pending = s.pending := by
  unfold State.islandErase
  dsimp only
  split_ifs <;> simp

@[simp] theorem pending_mainErase : s.mainErase.pending = s.pending := by
  unfold State.mainErase
  dsimp only
  split <;> simp [apply_ite State.pending]

@[simp] theorem pending_zeroizeMain : s.zeroizeMain.pending = s.pending := by
  simp [State.zeroizeMain]

@[simp] theorem pending_tamperRecord (i carried seq : Nat) : (s.tamperRecord i carried seq).pending = s.pending := by
  unfold State.tamperRecord
  dsimp only
  split_ifs <;> simp

@[simp] theorem pending_tamperNotice (i carried : Nat) : (s.tamperNotice i carried).pending = s.pending := by
  simp [State.tamperNotice]

@[simp] theorem pending_respondMain (i resp seq : Nat) : (s.respondMain i resp seq).pending = s.pending := by
  unfold State.respondMain
  dsimp only
  split_ifs <;> simp

@[simp] theorem pending_respondAlone (i resp seq : Nat) : (s.respondAlone i resp seq).pending = s.pending := by
  unfold State.respondAlone
  dsimp only
  split_ifs <;> simp

@[simp] theorem pending_carryOut (i resp seq : Nat) : (s.carryOut i resp seq).pending = s.pending := by
  unfold State.carryOut
  split <;> simp

@[simp] theorem pending_fire (i : Nat) : (s.fire i).pending = s.pending := by
  unfold State.fire
  dsimp only
  split <;> simp

@[simp] theorem keepsQueue_execTamperFire (index : BitVec 5) : KeepsQueue s (execTamperFire index s) := by
  unfold execTamperFire
  dsimp only
  split_ifs <;> simp

@[simp] theorem keepsQueue_execVeneerCheck (net : Fin 4) (drawn arrived : BitVec 32) (inTime : Bool) :
    KeepsQueue s (execVeneerCheck net drawn arrived inTime s) := by
  unfold execVeneerCheck
  dsimp only
  split <;> simp

@[simp] theorem keepsQueue_execAoNoiseFail (cell : Fin 2) : KeepsQueue s (execAoNoiseFail cell s) := by
  unfold execAoNoiseFail
  dsimp only
  split_ifs <;> simp

@[simp] theorem keepsQueue_execFuseBlow (vbatOk : Bool) : KeepsQueue s (execFuseBlow vbatOk s) := by
  unfold execFuseBlow
  dsimp only
  split_ifs <;> simp

@[simp] theorem pending_askClear (mask : Word) (who : Option (Nat × Nat)) :
    (s.askClear mask who).pending = s.pending := by
  simp [State.askClear]

@[simp] theorem pending_clearFlag (mask : Word) (i : Nat) : (s.clearFlag mask i).pending = s.pending := by
  unfold State.clearFlag
  dsimp only
  split <;> simp

@[simp] theorem pending_endClear (mask : Word) (party tag : Option Nat) (agree : Bool) :
    (s.endClear mask party tag agree).pending = s.pending := by
  unfold State.endClear
  dsimp only
  repeat' split
  all_goals simp

@[simp] theorem keepsQueue_execTmpCmdClear : KeepsQueue s (execTmpCmdClear s) := by
  unfold execTmpCmdClear
  split <;> simp

@[simp] theorem keepsQueue_execTmpFlagClear (r : Req) : KeepsQueue s (execTmpFlagClear r s) := by
  unfold execTmpFlagClear
  split
  · simp
  refine keepsQueue_driner fun t => ?_
  extract_lets +onlyGivenNames u m
  have hu : u.pending = t.pending := by simp [u]
  clear_value u
  split
  · simpa using hu
  next v hv =>
  have hv : v.pending = t.pending := (pending_ownerAuth _ hv).trans hu
  split <;> simpa using hv

@[simp] theorem pending_commandZeroize : s.commandZeroize.pending = s.pending := by
  unfold State.commandZeroize
  dsimp only
  split <;> simp

@[simp] theorem keepsQueue_execTmpCmdZeroize : KeepsQueue s (execTmpCmdZeroize s) := by
  unfold execTmpCmdZeroize
  split <;> simp

@[simp] theorem keepsQueue_execZeroize (r : Req) : KeepsQueue s (execZeroize r s) := by
  unfold execZeroize
  split
  · simp
  refine keepsQueue_driner fun t => ?_
  extract_lets +onlyGivenNames u
  have hu : u.pending = t.pending := by simp [u]
  clear_value u
  split
  · simpa using hu
  next v hv =>
  have hv : v.pending = t.pending := (pending_ownerAuth _ hv).trans hu
  dsimp only
  split <;> simpa using hv

@[simp] theorem keepsQueue_execTmpCmdPop : KeepsQueue s (execTmpCmdPop s) := by
  unfold execTmpCmdPop
  split <;> simp

@[simp] theorem pending_srcCfgWrite (i : Nat) (v : Word) : (s.srcCfgWrite i v).pending = s.pending := by
  unfold State.srcCfgWrite
  split <;> simp

@[simp] theorem keepsQueue_execTmpSrcCfgWrite (value : BitVec 32) : KeepsQueue s (execTmpSrcCfgWrite value s) := by
  unfold execTmpSrcCfgWrite
  split <;> simp

@[simp] theorem keepsQueue_execTmpConfig (r : Req) : KeepsQueue s (execTmpConfig r s) := by
  unfold execTmpConfig
  split
  · simp
  refine keepsQueue_drinerNow fun t => ?_
  extract_lets +onlyGivenNames u i f p
  have hu : u.pending = t.pending := by simp [u]
  clear_value u
  split
  · simpa using hu
  next v hv =>
  have hv : v.pending = t.pending := (pending_ownerAuth _ hv).trans hu
  split
  · simpa using hv
  · dsimp only
    split <;> simpa using hv

@[simp] theorem keepsQueue_execTmpStatus (r : Req) : KeepsQueue s (execTmpStatus r s) := by
  unfold execTmpStatus
  refine keepsQueue_drinerNow fun t => ?_
  simp

@[simp] theorem pending_bracketRec (typ src : Nat) (ao : Option Nat) (body : Bytes) :
    (s.bracketRec typ src ao body).pending = s.pending := by
  simp [State.bracketRec]

@[simp] theorem pending_pendingRespond : s.pendingRespond.pending = s.pending := by
  unfold State.pendingRespond
  dsimp only
  split <;> simp

@[simp] theorem keepsQueue_execPendingActionsArchive : KeepsQueue s (execPendingActionsArchive s) := by
  unfold execPendingActionsArchive
  dsimp only
  repeat' split
  all_goals simp [apply_ite State.pending]

@[simp] theorem keepsQueue_execMissingClock : KeepsQueue s (execMissingClock s) := by
  unfold execMissingClock
  dsimp only
  split_ifs <;> simp

@[simp] theorem pending_tmpRead (port : Nat) : (s.tmpRead port).2.pending = s.pending := by
  fun_cases State.tmpRead <;> simp

@[simp] theorem pending_tmpWrite (port : Nat) (v : Word) : (s.tmpWrite port v).pending = s.pending := by
  unfold State.tmpWrite
  dsimp only
  split <;> simp [apply_ite State.pending]

end

/-! ### Power -/

section
variable (s : State)

@[simp] theorem pending_powerRec (body : Bytes) : (s.powerRec body).pending = s.pending := by
  simp [State.powerRec]

@[simp] theorem pending_pwrEvent (b : Nat) : (s.pwrEvent b).pending = s.pending := by
  unfold State.pwrEvent
  rfl

@[simp] theorem pending_setVin (mv : Nat) : (s.setVin mv).pending = s.pending := by
  unfold State.setVin
  rfl

@[simp] theorem keepsQueue_execMainEntry (vin : Nat) : KeepsQueue s (execMainEntry vin s) := by
  unfold execMainEntry
  split <;> simp

@[simp] theorem keepsQueue_execResetRelease : KeepsQueue s (execResetRelease s) := by
  unfold execResetRelease
  dsimp only
  split_ifs <;> simp

@[simp] theorem pending_startPrepare (mv : Nat) : (s.startPrepare mv).pending = s.pending := by
  unfold State.startPrepare
  dsimp only
  split <;> simp

@[simp] theorem keepsQueue_execPowerWarning (mv : Nat) : KeepsQueue s (execPowerWarning mv s) := by
  unfold execPowerWarning
  dsimp only
  split_ifs <;> simp

@[simp] theorem pending_programAll : s.programAll.pending = s.pending := by
  simp [State.programAll]

@[simp] theorem pending_dipRecord : s.dipRecord.pending = s.pending := by
  unfold State.dipRecord
  split <;> simp

@[simp] theorem pending_recover : s.recover.pending = s.pending := by
  unfold State.recover
  dsimp only
  split <;> simp

@[simp] theorem keepsQueue_execPrepareEnd : KeepsQueue s (execPrepareEnd s) := by
  unfold execPrepareEnd
  dsimp only
  split_ifs <;> simp

@[simp] theorem keepsQueue_execRecovery (mv : Nat) : KeepsQueue s (execRecovery mv s) := by
  unfold execRecovery
  dsimp only
  split_ifs <;> simp

@[simp] theorem keepsQueue_execPowerReset (mv : Nat) : KeepsQueue s (execPowerReset mv s) := by
  unfold execPowerReset
  dsimp only
  split_ifs <;> simp

@[simp] theorem keepsQueue_execRailFault (rails : BitVec 4) : KeepsQueue s (execRailFault rails s) := by
  unfold execRailFault
  dsimp only
  split_ifs <;> simp

@[simp] theorem keepsQueue_execMrst (low : Bool) : KeepsQueue s (execMrst low s) := by
  unfold execMrst
  dsimp only
  split_ifs <;> simp

@[simp] theorem keepsQueue_execVbatChange (mv : Nat) : KeepsQueue s (execVbatChange mv s) := by
  unfold execVbatChange
  dsimp only
  split_ifs <;> simp

@[simp] theorem pending_senseTemp : s.senseTemp.pending = s.pending := by
  simp [State.senseTemp]

@[simp] theorem keepsQueue_execPowerEstimate (mw : Nat) : KeepsQueue s (execPowerEstimate mw s) := by
  unfold execPowerEstimate
  split <;> simp

@[simp] theorem pending_capChange (on : Bool) : (s.capChange on).pending = s.pending := by
  unfold State.capChange
  dsimp only
  split_ifs <;> simp

@[simp] theorem keepsQueue_execCapShedStep : KeepsQueue s (execCapShedStep s) := by
  unfold execCapShedStep
  dsimp only
  split_ifs <;> simp

@[simp] theorem keepsQueue_execCapUnshedStep : KeepsQueue s (execCapUnshedStep s) := by
  unfold execCapUnshedStep
  dsimp only
  split_ifs <;> simp

@[simp] theorem pending_duePower : s.duePower.pending = s.pending := by
  unfold State.duePower
  dsimp only
  split_ifs <;> simp

@[simp] theorem keepsQueue_execPowerStatus (r : Req) : KeepsQueue s (execPowerStatus r s) := by
  unfold execPowerStatus
  refine keepsQueue_drinerNow fun t => ?_
  simp

@[simp] theorem pending_pwrRead (port : Nat) : (s.pwrRead port).2.pending = s.pending := by
  unfold State.pwrRead
  dsimp only
  split <;> simp [apply_ite State.pending]

@[simp] theorem pending_pwrWrite (port : Nat) (v : Word) : (s.pwrWrite port v).pending = s.pending := by
  fun_cases State.pwrWrite <;> simp

end

/-! ### The handshake links -/

section
variable (s : State)

@[simp] theorem pending_wake (n : Nat) : (s.wake n).pending = s.pending := by
  unfold State.wake
  split <;> simp

@[simp] theorem pending_linkFails (n : Nat) (op : OpRef) : (s.linkFails n op).pending = s.pending := by
  unfold State.linkFails
  split <;> simp

@[simp] theorem pending_readRow (op : OpRef) : (s.readRow op).1.pending = s.pending := by
  fun_cases State.readRow <;> simp

@[simp] theorem pending_busRepeat (n : Nat) (op : OpRef) : (s.busRepeat n op).pending = s.pending := by
  unfold State.busRepeat
  split <;> simp

@[simp] theorem pending_deliver (link mid : Nat) (word : BitVec 256) :
    (s.deliver link mid word).pending = s.pending := by
  simp [State.deliver]

@[simp] theorem keepsQueue_execTransfer (link mid : Nat) (word : BitVec 256) (first second : Try) (op : OpRef) :
    KeepsQueue s (execTransfer link mid word first second op s) := by
  unfold execTransfer
  dsimp only
  split
  · simp
  split
  · simp
  split
  · simp
  have h : (if (keyBus link).isSome then (s.wake link).readRow op else (s.wake link, true)).1.pending = s.pending := by
    split <;> simp
  generalize (if (keyBus link).isSome then (s.wake link).readRow op else (s.wake link, true)) = x at h ⊢
  split
  · simp [h]
  cases x.1.jigMode link with
  | none =>
    dsimp only
    split_ifs <;> simp [h]
  | some m =>
    split
    · simp [h]
    · split <;> simp [h]
    · split_ifs <;> simp [h]

@[simp] theorem keepsQueue_execLinkAckTimeout (link mid : Nat) (op : OpRef) :
    KeepsQueue s (execLinkAckTimeout link mid op s) := by
  unfold execLinkAckTimeout
  dsimp only
  split_ifs <;> simp

@[simp] theorem pending_dmaPut (d : DmaEnd) (k : Nat) (b : Bytes) : (s.dmaPut d k b).pending = s.pending := by
  induction b generalizing s k with
  | nil => rfl
  | cons b l ih =>
    unfold State.dmaPut
    dsimp only
    rw [ih]
    split
    · rfl
    · split <;> simp

@[simp] theorem pending_dmaParity (e a2 : Nat) : (s.dmaParity e a2).pending = s.pending := by
  fun_induction State.dmaParity <;> simp_all

@[simp] theorem keepsQueue_execDmaDescriptor (e : Fin 8) (d : DmaDesc) : KeepsQueue s (execDmaDescriptor e d s) := by
  unfold execDmaDescriptor
  extract_lets +onlyGivenNames m
  split
  · simp
  split
  · simp
  extract_lets +onlyGivenNames t
  split
  · simp [t]
  split
  · next f _ => cases f.viol <;> simp [t]
  · extract_lets +onlyGivenNames b
    split <;> simp [t, apply_ite State.pending]

@[simp] theorem pending_writeBuffer (party addr room : Nat) (data : Bytes) :
    (s.writeBuffer party addr room data).1.pending = s.pending := by
  fun_cases State.writeBuffer <;> simp

end

/-! ### The contactless port -/

section
variable (s : State)

@[simp] theorem pending_mainUid : s.mainUid.pending = s.pending := by
  unfold State.mainUid
  split <;> simp

@[simp] theorem pending_modeTouch : s.modeTouch.pending = s.pending := by
  unfold State.modeTouch
  dsimp only
  split_ifs <;> simp

@[simp] theorem pending_endSession : s.endSession.pending = s.pending := by
  simp [State.endSession]

@[simp] theorem keepsQueue_execFieldRise (field : Nat) : KeepsQueue s (execFieldRise field s) := by
  unfold execFieldRise
  dsimp only
  split <;> simp

@[simp] theorem keepsQueue_execFieldFall (field : Nat) : KeepsQueue s (execFieldFall field s) := by
  unfold execFieldFall
  dsimp only
  split_ifs <;> simp

@[simp] theorem keepsQueue_execLocketNoiseReady (pass : BitVec 2) : KeepsQueue s (execLocketNoiseReady pass s) := by
  unfold execLocketNoiseReady
  dsimp only
  split_ifs <;> simp

@[simp] theorem keepsQueue_execLocketNoiseCellFail (cell : Fin 2) :
    KeepsQueue s (execLocketNoiseCellFail cell s) := by
  unfold execLocketNoiseCellFail
  dsimp only
  split_ifs <;> simp

@[simp] theorem pending_emit (b : Bytes) : (s.emit b).pending = s.pending := by
  unfold State.emit
  rfl

@[simp] theorem pending_tagBack : s.tagBack.pending = s.pending := by
  unfold State.tagBack
  rfl

@[simp] theorem pending_tagReady (star : Bool) : (s.tagReady star).pending = s.pending := by
  simp [State.tagReady]

@[simp] theorem keepsQueue_execReqa : KeepsQueue s (execReqa s) := by
  simp [execReqa, keepsQueue_ite]

@[simp] theorem keepsQueue_execWupa : KeepsQueue s (execWupa s) := by
  simp [execWupa, keepsQueue_ite]

@[simp] theorem keepsQueue_execAnticollision (level nbits : Nat) (bits : BitVec 32) :
    KeepsQueue s (execAnticollision level nbits bits s) := by
  fun_cases execAnticollision <;> simp

@[simp] theorem keepsQueue_execSelectI (level : Nat) (uid : BitVec 32) (bcc : BitVec 8) :
    KeepsQueue s (execSelectI level uid bcc s) := by
  unfold execSelectI
  dsimp only
  split_ifs <;> simp

@[simp] theorem pending_tagHalt : s.tagHalt.pending = s.pending := by
  simp [State.tagHalt]

@[simp] theorem keepsQueue_execHlta : KeepsQueue s (execHlta s) := by
  unfold execHlta
  split <;> simp

@[simp] theorem keepsQueue_execRats (fsdi _cid : BitVec 4) : KeepsQueue s (execRats fsdi _cid s) := by
  unfold execRats
  split <;> simp

@[simp] theorem keepsQueue_execPps (dri dsi : BitVec 2) : KeepsQueue s (execPps dri dsi s) := by
  unfold execPps
  dsimp only
  split <;> simp

@[simp] theorem keepsQueue_execSDeselect : KeepsQueue s (execSDeselect s) := by
  unfold execSDeselect
  split <;> simp

@[simp] theorem pending_sendMsg (m : Bytes) : (s.sendMsg m).pending = s.pending := by
  unfold State.sendMsg
  split <;> simp

@[simp] theorem keepsQueue_execChainedIBlock (inf : List (BitVec 8)) : KeepsQueue s (execChainedIBlock inf s) := by
  unfold execChainedIBlock
  split <;> simp

@[simp] theorem keepsQueue_execRBlock (ack number : Bool) : KeepsQueue s (execRBlock ack number s) := by
  fun_cases execRBlock <;> simp

theorem pending_withNonce {s : State} {f : Bytes → State → State} (h : ∀ b t, (f b t).pending = t.pending) :
    (s.withNonce f).pending = s.pending := by
  unfold State.withNonce
  split
  · exact pending_withDraw s (fun n t => h _ t) 4 128
  · simp [h]

@[simp] theorem pending_authFail : s.authFail.pending = s.pending := by
  simp [State.authFail]

@[simp] theorem pending_claspError (code : Byte) : (s.claspError code).pending = s.pending := by
  simp [State.claspError]

@[simp] theorem pending_sendSecure (c : Clasp) (plain : Bytes) : (s.sendSecure c plain).pending = s.pending := by
  unfold State.sendSecure
  split <;> simp

@[simp] theorem keepsQueue_execAuth1 (inf : List (BitVec 8)) : KeepsQueue s (execAuth1 inf s) := by
  unfold execAuth1
  split
  · simp
  extract_lets +onlyGivenNames m s0 t ulen key
  have ht : t.pending = s.pending := by simp [t]
  clear_value t
  split
  · simpa using ht
  split
  · simpa using ht
  split
  · simpa using ht
  split
  · simp [s0]
  · simpa [ht] using pending_withNonce (s := t) fun b u => by simp

@[simp] theorem keepsQueue_execAuth3 (inf : List (BitVec 8)) : KeepsQueue s (execAuth3 inf s) := by
  fun_cases execAuth3 <;> simp

@[simp] theorem keepsQueue_execSessionTimeout : KeepsQueue s (execSessionTimeout s) := by
  fun_cases execSessionTimeout <;> simp

@[simp] theorem pending_currentSlot : (s.currentSlot).2.pending = s.pending := by
  unfold State.currentSlot
  dsimp only
  repeat' split
  all_goals simp

@[simp] theorem pending_readSlot (a n : Nat) : (s.readSlot a n).1.pending = s.pending := by
  unfold State.readSlot
  dsimp only
  split <;> simp

theorem pending_mark {c : Clasp} {arg : Bytes} {t : State} (h : s.mark c arg = .inl t) : t.pending = s.pending := by
  unfold State.mark at h
  dsimp only at h
  split at h
  · cases h
  split at h
  · cases h
  split at h
  · split at h
    · cases h
    · cases h
      simp
  · cases h

@[simp] theorem pending_locket (c : Clasp) (p : Bytes) : (s.locket c p).1.pending = s.pending := by
  unfold State.locket
  dsimp only
  split
  · rfl
  · split_ifs <;> rfl
  · split_ifs <;> rfl
  · split
    · rfl
    split
    · rfl
    split
    · next k t ht =>
      have h : t.pending = s.pending := by simpa [ht] using pending_currentSlot s
      simp [h]
    · next t ht => simpa [ht] using pending_currentSlot s
  · split_ifs <;> rfl
  · rfl

@[simp] theorem pending_secureTag (inf : Bytes) : (s.secureTag inf).pending = s.pending := by
  unfold State.secureTag
  split
  · rfl
  split
  · simp
  split
  · simp
  next p _ =>
  extract_lets +onlyGivenNames c' _ t
  have ht : t.pending = s.pending := rfl
  clear_value t
  split
  · split
    · next h => exact (pending_mark _ h).trans ht
    · simp [apply_ite State.pending, ht]
  · split
    next u st r last hu =>
    have h : u.pending = s.pending := by simpa [hu, ht] using pending_locket t c' p
    simp [apply_ite State.pending, h]

@[simp] theorem pending_markRecord (i : Nat) : (s.markRecord i).pending = s.pending := by
  unfold State.markRecord
  dsimp only
  split <;> simp

@[simp] theorem pending_markDone (m : MarkOp) : (s.markDone m).pending = s.pending := by
  unfold State.markDone
  dsimp only
  split <;> simp

@[simp] theorem pending_markBegin (m : MarkOp) : (s.markBegin m).pending = s.pending := by
  unfold State.markBegin
  dsimp only
  split_ifs <;> simp

@[simp] theorem keepsQueue_execSWtxResponse (made : Nat) : KeepsQueue s (execSWtxResponse made s) := by
  unfold execSWtxResponse
  split
  · simp
  split
  · simp
  split
  · dsimp only
    split <;> simp
  split
  · simp
  · dsimp only
    split <;> simp

@[simp] theorem keepsQueue_execJournalArchive : KeepsQueue s (execJournalArchive s) := by
  unfold execJournalArchive
  dsimp only
  repeat' split
  all_goals simp_all

end

/-! ### The badge -/

section
variable (s : State)

@[simp] theorem pending_endBadge (b : Badge) (result : Nat) (identity : Bytes) :
    (s.endBadge b result identity).pending = s.pending := by
  simp [State.endBadge]

@[simp] theorem pending_carrierCheck : s.carrierCheck.pending = s.pending := by
  fun_cases State.carrierCheck <;> simp

@[simp] theorem pending_setBadge (b : Badge) : (s.setBadge b).pending = s.pending := by
  unfold State.setBadge
  rfl

@[simp] theorem pending_poll (b : Badge) : (s.poll b).pending = s.pending := by
  simp [State.poll]

@[simp] theorem pending_nextCard (b : Badge) : (s.nextCard b).pending = s.pending := by
  unfold State.nextCard
  split <;> simp

@[simp] theorem pending_cardFails (b : Badge) : (s.cardFails b).pending = s.pending := by
  simp [State.cardFails]

@[simp] theorem pending_badAnswer (b : Badge) : (s.badAnswer b).pending = s.pending := by
  unfold State.badAnswer
  split <;> simp

@[simp] theorem pending_cardError (b : Badge) (code : Byte) : (s.cardError b code).pending = s.pending := by
  simp [State.cardError]

@[simp] theorem pending_onUidBits (b : Badge) (level : Nat) (known bits : List Bool) (collision : Bool) :
    (s.onUidBits b level known bits collision).pending = s.pending := by
  unfold State.onUidBits
  dsimp only
  split_ifs <;> simp

@[simp] theorem pending_onSak (b : Badge) (level : Nat) (cascade iso4 : Bool) :
    (s.onSak b level cascade iso4).pending = s.pending := by
  unfold State.onSak
  dsimp only
  split_ifs <;> simp

@[simp] theorem pending_startAuth (b : Badge) : (s.startAuth b).pending = s.pending := by
  unfold State.startAuth
  split
  · simp
  · exact (pending_withNonce fun na t => by simp).trans (by simp)

@[simp] theorem pending_badgeDue : s.badgeDue.pending = s.pending := by
  fun_cases State.badgeDue <;> simp

@[simp] theorem keepsQueue_execCardAnswer (frame : CardFrame) : KeepsQueue s (execCardAnswer frame s) := by
  unfold execCardAnswer
  dsimp only
  repeat' split
  all_goals simp

@[simp] theorem keepsQueue_execCardResponseTimeout : KeepsQueue s (execCardResponseTimeout s) := by
  fun_cases execCardResponseTimeout <;> simp

@[simp] theorem keepsQueue_execAuth2 (inf : List (BitVec 8)) : KeepsQueue s (execAuth2 inf s) := by
  unfold execAuth2
  dsimp only
  split <;> simp [keepsQueue_ite]

@[simp] theorem pending_secureReader (b : Badge) (c : Clasp) (inf : Bytes) :
    (s.secureReader b c inf).pending = s.pending := by
  unfold State.secureReader
  dsimp only
  repeat' split
  all_goals simp

@[simp] theorem keepsQueue_execSecureFrame (inf : List (BitVec 8)) : KeepsQueue s (execSecureFrame inf s) := by
  fun_cases execSecureFrame <;> simp

@[simp] theorem keepsQueue_execErrorFrame (inf : List (BitVec 8)) : KeepsQueue s (execErrorFrame inf s) := by
  fun_cases execErrorFrame <;> simp

@[simp] theorem keepsQueue_execBadgeRead (r : Req) : KeepsQueue s (execBadgeRead r s) := by
  unfold execBadgeRead
  split
  · simp
  refine keepsQueue_driner fun t => ?_
  dsimp only
  split_ifs <;> simp

@[simp] theorem keepsQueue_execReaderGuardExpiry : KeepsQueue s (execReaderGuardExpiry s) := by
  fun_cases execReaderGuardExpiry <;> simp

@[simp] theorem keepsQueue_execReqaRetry : KeepsQueue s (execReqaRetry s) := by
  fun_cases execReqaRetry <;> simp

@[simp] theorem keepsQueue_execBadgeTimeout : KeepsQueue s (execBadgeTimeout s) := by
  fun_cases execBadgeTimeout <;> simp

@[simp] theorem pending_clCtrlWrite (v : Word) : (s.clCtrlWrite v).pending = s.pending := by
  simp [State.clCtrlWrite]

@[simp] theorem keepsQueue_execClConfig (r : Req) : KeepsQueue s (execClConfig r s) := by
  unfold execClConfig
  refine keepsQueue_drinerNow fun t => ?_
  dsimp only
  split <;> simp

@[simp] theorem keepsQueue_execJournalRead (r : Req) : KeepsQueue s (execJournalRead r s) := by
  unfold execJournalRead
  refine keepsQueue_drinerNow fun t => ?_
  dsimp only
  split <;> simp

@[simp] theorem pending_clRead (port : Nat) : (s.clRead port).2.pending = s.pending := by
  unfold State.clRead
  split <;> simp

@[simp] theorem pending_clWrite (port : Nat) (v : Word) : (s.clWrite port v).pending = s.pending := by
  unfold State.clWrite
  split <;> simp

end

end Sys2Proof.Machine
end

section
/-! PROOFS. What retirements, signatures, identity and the life cycle leave of the queue (R17). -/

namespace Sys2Proof.Machine
open Sys2Proof

/-! ### Retirements -/

section
variable (s : State)

theorem pending_assayMasks {c : ResClass} {m : BitVec 64} {t : State} (h : s.assayMasks c = some (m, t)) :
    t.pending = s.pending := by
  unfold State.assayMasks at h
  split at h
  · simp only [Option.bind_eq_some_iff, Option.map_eq_some_iff, Prod.mk.injEq] at h
    obtain ⟨y, hy, z, hz, -, rfl⟩ := h
    simp [pending_takeMask _ hy, pending_takeMask _ hz]
  · cases h
    rfl

@[simp] theorem pending_beginAssay (c : ResClass) (p : Nat) : (s.beginAssay c p).pending = s.pending := by
  unfold State.beginAssay
  dsimp only
  split
  · rfl
  split
  · split
    · next hm => simp [pending_assayMasks _ hm]
    · rfl
  · simp
  · rfl

@[simp] theorem pending_beginAssays : s.beginAssays.pending = s.pending := by
  simp [State.beginAssays]

@[simp] theorem pending_assayResult (c : ResClass) (p : Nat) (pass : Bool) :
    (s.assayResult c p pass).pending = s.pending := by
  unfold State.assayResult
  extract_lets +onlyGivenNames v _ t
  have ht : t.pending = s.pending := by
    cases h : assayKey c p <;> simp [t, h]
  clear_value t
  split
  · extract_lets +onlyGivenNames t1 t2
    have h2 : t2.pending = s.pending := by
      simp only [t2]
      split <;> simp [t1, ht]
    clear_value t2
    simp [apply_ite State.pending, h2]
  all_goals simp [apply_ite State.pending, ht]

@[simp] theorem pending_retiredEvent (c : ResClass) : (s.retiredEvent c).pending = s.pending := by
  unfold State.retiredEvent
  split <;> simp

@[simp] theorem pending_exhaust : s.exhaust.pending = s.pending := by
  unfold State.exhaust
  dsimp only
  split <;> simp [apply_ite State.pending]

@[simp] theorem pending_noiseGuard : s.noiseGuard.pending = s.pending := by
  unfold State.noiseGuard
  dsimp only
  split <;> simp

@[simp] theorem pending_afterMap (c : ResClass) : (s.afterMap c).pending = s.pending := by
  fun_cases State.afterMap <;> simp

@[simp] theorem pending_rerunOff (c : ResClass) (n : Option Nat) (p : Nat) :
    (s.rerunOff c n p).1.pending = s.pending := by
  have h (l : List Job) (a : State × Nat) :
      (l.foldl (fun a j => let (s, k) := a.1.retireUnder j; (s, a.2 + k)) a).1.pending = a.1.pending := by
    induction l generalizing a with
    | nil => rfl
    | cons j l ih => exact (ih _).trans (pending_retireUnder a.1 j)
  exact h _ _

@[simp] theorem pending_leaveRes (c : ResClass) (n : Option Nat) (p : Nat) :
    (s.leaveRes c n p).pending = s.pending := by
  unfold State.leaveRes
  dsimp only
  repeat' split
  all_goals simp

@[simp] theorem pending_setMap (c : ResClass) (n p : Nat) : (s.setMap c n p).pending = s.pending := rfl

@[simp] theorem pending_markRetired (c : ResClass) (p : Nat) : (s.markRetired c p).pending = s.pending := rfl

@[simp] theorem pending_setBringIn (c : ResClass) (b : Option (RetReq × Nat)) :
    (s.setBringIn c b).pending = s.pending := rfl

@[simp] theorem pending_endRetire (r : RetReq) (n : Option Nat) : (s.endRetire r n).pending = s.pending := by
  unfold State.endRetire
  dsimp only
  repeat' split
  all_goals simp

@[simp] theorem pending_trySpares (r : RetReq) (n : Nat) (l : List Bool) (fuel : Nat) :
    (s.trySpares r n l fuel).pending = s.pending := by
  fun_induction State.trySpares s r n l fuel
  case case3 hm _ => simp [pending_assayMasks _ hm]
  case case4 hm _ s2 ih => simp [ih, s2, pending_assayMasks _ hm]
  all_goals simp

@[simp] theorem pending_retireOne (r : RetReq) (assays : List Bool) : (s.retireOne r assays).pending = s.pending := by
  unfold State.retireOne
  dsimp only
  repeat' split
  all_goals simp

@[simp] theorem keepsQueue_execRetirement (cls : ResClass) (assays : List Bool) :
    KeepsQueue s (execRetirement cls assays s) := by
  fun_cases execRetirement <;> simp

@[simp] theorem pending_assayFails (c : ResClass) (p : Nat) (who : Option (Nat × Nat)) :
    (s.assayFails c p who).pending = s.pending := by
  simp [State.assayFails]

@[simp] theorem pending_assayReply (who : Option (Nat × Nat)) : (s.assayReply who).pending = s.pending := by
  unfold State.assayReply
  split <;> simp

@[simp] theorem pending_assayAnswered (c : ResClass) (p : Nat) (pass : Bool) (who : Option (Nat × Nat)) :
    (s.assayAnswered c p pass who).pending = s.pending := by
  unfold State.assayAnswered
  split <;> simp

@[simp] theorem pending_assayEnd (cls : ResClass) (phys : Nat) (pass : Bool) :
    (s.assayEnd cls phys pass).pending = s.pending := by
  unfold State.assayEnd
  dsimp only
  repeat' split
  all_goals simp

@[simp] theorem keepsQueue_execAssayDone (cls : ResClass) (phys : Nat) (pass : Bool) :
    KeepsQueue s (execAssayDone cls phys pass s) := by
  unfold execAssayDone
  dsimp only
  split_ifs <;> simp

@[simp] theorem keepsQueue_execStartupTestDone (cell : Fin 272) (bits : BitVec 4096) :
    KeepsQueue s (execStartupTestDone cell bits s) := by
  unfold execStartupTestDone
  dsimp only
  split_ifs <;> simp

@[simp] theorem keepsQueue_execPeriodicAssay (cls : ResClass) (phys : Nat) :
    KeepsQueue s (execPeriodicAssay cls phys s) := by
  unfold execPeriodicAssay
  dsimp only
  split_ifs <;> simp

@[simp] theorem keepsQueue_execLockstepMismatch (pair : Fin 2) : KeepsQueue s (execLockstepMismatch pair s) := by
  unfold execLockstepMismatch
  split <;> simp

@[simp] theorem keepsQueue_execFlCommandDone (e : FlEnd) : KeepsQueue s (execFlCommandDone e s) := by
  unfold execFlCommandDone
  dsimp only
  repeat' split
  all_goals simp

end

/-! ### Signatures -/

section
variable (s : State)

@[simp] theorem pending_measure (kind index : Nat) (digest : Bytes) :
    (s.measure kind index digest).pending = s.pending := by
  unfold State.measure
  rfl

@[simp] theorem pending_snapCheck : s.snapCheck.pending = s.pending := by
  unfold State.snapCheck
  split <;> simp

theorem pending_nextSnapshot {b : Bytes} {t : State} (h : s.nextSnapshot = some (b, t)) : t.pending = s.pending := by
  unfold State.nextSnapshot at h
  split at h <;> cases h <;> rfl

@[simp] theorem pending_seekSign : s.seekSign.pending = s.pending := by
  unfold State.seekSign
  extract_lets +onlyGivenNames t sign
  have ht : t.pending = s.pending := pending_seekSeal s
  have hsign (u : State) (n : Nat) (body : Bytes) (f : EngineFor) (second : Bool) :
      (sign u n body f second).pending = u.pending := by simp [sign]
  clear_value t sign
  split
  · exact ht
  split
  · split <;> simp [hsign, ht]
  split
  · exact ht
  split
  · next hs _ =>
    have hu := pending_nextSnapshot _ hs
    split <;> simp [hsign, hu, ht]
  · exact ht

@[simp] theorem pending_decommissionHalt : s.decommissionHalt.pending = s.pending := by
  unfold State.decommissionHalt
  split <;> simp

@[simp] theorem pending_storeSnapshot (body sig : Bytes) : (s.storeSnapshot body sig).pending = s.pending := by
  simp [State.storeSnapshot]

@[simp] theorem pending_dropReport (p t : Nat) : (s.dropReport p t).pending = s.pending := by
  unfold State.dropReport
  rfl

@[simp] theorem pending_signAgain (n : Nat) (e : Engine) : (s.signAgain n e).pending = s.pending := by
  fun_cases State.signAgain <;> simp

@[simp] theorem pending_signDone (n : Nat) (e : Engine) : (s.signDone n e).pending = s.pending := by
  unfold State.signDone
  dsimp only
  repeat' split
  all_goals simp

@[simp] theorem pending_endAway (n : Nat) (e : Engine) : (s.endAway n e).pending = s.pending := by
  simp [State.endAway]

@[simp] theorem keepsQueue_execEngineDone (n : Fin 4) (checkFails : Bool) :
    KeepsQueue s (execEngineDone n checkFails s) := by
  fun_cases execEngineDone <;> simp

@[simp] theorem keepsQueue_execHallmarkGet (r : Req) : KeepsQueue s (execHallmarkGet r s) := by
  unfold execHallmarkGet
  refine keepsQueue_driner fun t => ?_
  dsimp only
  split <;> simp

@[simp] theorem keepsQueue_execCertChainGet (r : Req) : KeepsQueue s (execCertChainGet r s) := by
  unfold execCertChainGet
  refine keepsQueue_drinerNow fun t => ?_
  simp

end

/-! ### Identity -/

section
variable (s : State)

@[simp] theorem keepsQueue_execIdentGet (r : Req) : KeepsQueue s (execIdentGet r s) := by
  unfold execIdentGet
  refine keepsQueue_drinerNow fun t => ?_
  simp

@[simp] theorem keepsQueue_execFeaturesGet (r : Req) : KeepsQueue s (execFeaturesGet r s) := by
  unfold execFeaturesGet
  refine keepsQueue_drinerNow fun t => ?_
  simp

@[simp] theorem keepsQueue_execCapacityGet (r : Req) : KeepsQueue s (execCapacityGet r s) := by
  unfold execCapacityGet
  refine keepsQueue_drinerNow fun t => ?_
  simp

@[simp] theorem keepsQueue_execProfileSet (r : Req) : KeepsQueue s (execProfileSet r s) := by
  unfold execProfileSet
  refine keepsQueue_drinerNow fun t => ?_
  dsimp only
  split
  · simp
  · split_ifs <;> simp

@[simp] theorem keepsQueue_execProfileGet (r : Req) : KeepsQueue s (execProfileGet r s) := by
  unfold execProfileGet
  refine keepsQueue_drinerNow fun t => ?_
  simp

@[simp] theorem keepsQueue_execAssayRun (r : Req) : KeepsQueue s (execAssayRun r s) := by
  unfold execAssayRun
  refine keepsQueue_driner fun t => ?_
  dsimp only
  split
  · simp
  · split_ifs <;> simp

end

/-! ### The life cycle -/

section
variable (s : State)

@[simp] theorem pending_toLifecycle (dest : Nat) : (s.toLifecycle dest).pending = s.pending := by
  simp [State.toLifecycle]

@[simp] theorem pending_loadModRow (n d : Nat) : (s.loadModRow n d).pending = s.pending := by
  simp [State.loadModRow]

@[simp] theorem pending_loadSealRow : s.loadSealRow.pending = s.pending := by
  unfold State.loadSealRow
  split <;> simp

@[simp] theorem pending_makeSealKey : s.makeSealKey.pending = s.pending := by
  unfold State.makeSealKey
  dsimp only
  split_ifs <;> simp

@[simp] theorem pending_sealKeyDue : s.sealKeyDue.pending = s.pending := by
  simp [State.sealKeyDue, apply_ite State.pending]

@[simp] theorem pending_blowRetire : s.blowRetire.pending = s.pending := by
  unfold State.blowRetire
  split <;> simp

@[simp] theorem pending_decommission : s.decommission.pending = s.pending := by
  simp [State.decommission]

@[simp] theorem pending_endLifecycle (dest party tag : Nat) (first second : Bool) :
    (s.endLifecycle dest party tag first second).pending = s.pending := by
  unfold State.endLifecycle
  extract_lets +onlyGivenNames answer
  have hanswer (t : State) (st : Nat) : (answer t st).pending = t.pending := by simp [answer, apply_ite State.pending]
  clear_value answer
  dsimp only
  split
  · simp [hanswer]
  split
  · simp [hanswer]
  split
  · split <;> simp
  split
  · simp
  split
  · simp [hanswer]
  split
  · simp [hanswer]
  · simp [hanswer]
  · split <;> simp [hanswer]

@[simp] theorem pending_descentKeys : s.descentKeys.pending = s.pending := by
  unfold State.descentKeys
  dsimp only
  split <;> simp [apply_ite State.pending]

@[simp] theorem pending_endRdp (dest : Nat) (first second : Bool) :
    (s.endRdp dest first second).pending = s.pending := by
  unfold State.endRdp
  dsimp only
  split_ifs <;> simp

@[simp] theorem pending_jigRun (t : Bytes) : (s.jigRun t).pending = s.pending := by
  unfold State.jigRun
  split <;> simp

theorem pending_jigAccept {b : Bytes} {t : State} (h : s.jigAccept b = some t) : t.pending = s.pending := by
  unfold State.jigAccept at h
  dsimp only at h
  split at h
  · cases h
  split at h
  · cases h
    rfl
  split at h
  · cases h
  split at h
  · cases h
    rfl
  · cases h

@[simp] theorem pending_armJig (t : Bytes) : (s.armJig t).pending = s.pending := by
  simp [State.armJig]

@[simp] theorem pending_endJigArm (party tag : Nat) (token : Bytes) (first second : Bool) :
    (s.endJigArm party tag token first second).pending = s.pending := by
  simp [State.endJigArm, apply_ite State.pending]

@[simp] theorem keepsQueue_execJigArm (r : Req) : KeepsQueue s (execJigArm r s) := by
  unfold execJigArm
  split
  · simp
  refine keepsQueue_driner fun t => ?_
  extract_lets +onlyGivenNames answer
  have hanswer (t : State) (st : Nat) : (answer t st).pending = t.pending := by simp [answer]
  clear_value answer
  split
  · exact hanswer _ _
  split
  · exact hanswer _ _
  split
  · exact hanswer _ _
  extract_lets +onlyGivenNames u
  have hu : u.pending = t.pending := by simp [u]
  clear_value u
  split
  · simpa using hu
  · next h => simpa using (pending_jigAccept _ h).trans hu

@[simp] theorem keepsQueue_execJigDisarm (r : Req) : KeepsQueue s (execJigDisarm r s) := by
  unfold execJigDisarm
  refine keepsQueue_drinerNow fun t => ?_
  simp

@[simp] theorem keepsQueue_execJigExpiry : KeepsQueue s (execJigExpiry s) := by
  fun_cases execJigExpiry <;> simp

@[simp] theorem keepsQueue_execTestPortUnlock : KeepsQueue s (execTestPortUnlock s) := by
  unfold execTestPortUnlock
  split <;> simp

@[simp] theorem keepsQueue_execTestPortProvision : KeepsQueue s (execTestPortProvision s) := by
  unfold execTestPortProvision
  split <;> simp

@[simp] theorem keepsQueue_execDecisionRecheck (second : Bool) : KeepsQueue s (execDecisionRecheck second s) := by
  unfold execDecisionRecheck
  dsimp only
  repeat' split
  all_goals simp

@[simp] theorem pending_applyRanges : s.applyRanges.pending = s.pending := by
  unfold State.applyRanges
  split <;> simp

@[simp] theorem pending_wrapSectors (w : Bytes) (id : Word) : (s.wrapSectors w id).pending = s.pending := by
  unfold State.wrapSectors
  rfl

@[simp] theorem pending_installTransport (key : BitVec 256) (id : Word) :
    (s.installTransport key id).pending = s.pending := by
  unfold State.installTransport
  split <;> simp

@[simp] theorem pending_claspBlock : s.claspBlock.pending = s.pending := by
  have h (f : State × Nat → Nat × ClaspKey → State × Nat) (hf : ∀ a e, (f a e).1.pending = a.1.pending)
      (l : List (Nat × ClaspKey)) (a : State × Nat) : (l.foldl f a).1.pending = a.1.pending := by
    induction l generalizing a with
    | nil => rfl
    | cons e l ih => exact (ih _).trans (hf a e)
  unfold State.claspBlock
  exact h _ (fun a e => by simp) _ _

theorem pending_applyItem {typ : Nat} {v : Bytes} {last : Bool} {t : State} {a : Nat}
    (h : s.applyItem typ v last = some (t, a)) : t.pending = s.pending := by
  unfold State.applyItem at h
  extract_lets +onlyGivenNames n done at h
  have hdone (l : Lc) (h : done l = some (t, a)) : t.pending = s.pending := by
    cases h
    rfl
  clear_value done
  split at h
  case h_3 | h_4 | h_5 =>
    split at h <;> cases h
    simp
  case h_11 =>
    extract_lets +onlyGivenNames x may at h
    clear_value may x
    split at h <;> cases h
    rfl
  case h_7 =>
    cases h
    simp
  case h_8 => exact hdone _ h
  case h_10 =>
    dsimp only at h
    split at h
    · cases h
    · split at h
      · cases h
        simp
      · cases h
  case h_12 => cases h
  all_goals
    split at h
    · exact hdone _ h
    · cases h

@[simp] theorem pending_applyItems (b : Bytes) (k : Nat) : (s.applyItems b k).1.pending = s.pending := by
  induction k generalizing s b with
  | zero => rfl
  | succ k ih =>
    unfold State.applyItems
    split
    · rfl
    dsimp only
    split
    · rfl
    split
    · rfl
    next t a h =>
    have ht := pending_applyItem _ h
    split
    · exact ht
    · exact (ih t _).trans ht

@[simp] theorem pending_runBundle (party tag : Nat) (b : Bytes) : (s.runBundle party tag b).pending = s.pending := by
  unfold State.runBundle
  extract_lets +onlyGivenNames answer sigLen body signed sq ct
  have hanswer (t : State) (st : Nat) : (answer t st).pending = t.pending := by simp [answer]
  clear_value answer signed
  split
  next pt tg _ =>
  split
  · exact hanswer _ _
  split
  · exact hanswer _ _
  extract_lets +onlyGivenNames t
  have ht : t.pending = s.pending := by
    simp only [t]
    split <;> simp
  clear_value t
  split
  · simp [hanswer, ht]
  split
  · simp [hanswer, ht]
  extract_lets +onlyGivenNames _ u
  have hu : u.pending = s.pending := ht
  clear_value u
  split
  next v ok act hv =>
  have h : v.pending = s.pending := by simpa [hv, hu] using pending_applyItems u pt pt.length
  split
  · simp [hanswer, h]
  · split <;> simp [hanswer, h]

@[simp] theorem keepsQueue_execBundle (r : Req) (data : List (BitVec 8)) : KeepsQueue s (execBundle r data s) := by
  unfold execBundle
  split
  · simp
  refine keepsQueue_driner fun t => ?_
  split
  · simp
  · split <;> simp

end

end Sys2Proof.Machine
end

section
/-! PROOFS. What the cores' instructions leave of the queue (R17, R329 to R371). -/

namespace Sys2Proof.Machine
open Sys2Proof

/-! ### The run of a core -/

section
variable (s : State)

@[simp] theorem pending_onCore (c : Nat) (f : Core → Core) : (s.onCore c f).pending = s.pending := by
  simp [State.onCore]

@[simp] theorem pending_bitWrite (c a : Nat) (v : Bool) : (s.bitWrite c a v).pending = s.pending := by
  unfold State.bitWrite
  dsimp only
  split_ifs <;> simp

@[simp] theorem pending_bitClear (c a : Nat) : (s.bitClear c a).pending = s.pending := by
  fun_cases State.bitClear <;> simp

@[simp] theorem pending_deferred (c : Nat) (d : Defer) (next : BitVec 24) :
    (s.deferred c d next).pending = s.pending := by
  unfold State.deferred
  split <;> simp

@[simp] theorem pending_complete (c len : Nat) : (s.complete c len).pending = s.pending := by
  fun_cases State.complete <;> simp

@[simp] theorem pending_branchTo (c len : Nat) (taken annul : Bool) (target : BitVec 24) (d : Defer) :
    (s.branchTo c len taken annul target d).pending = s.pending := by
  simp [State.branchTo]

theorem keepsQueue_runIns {s : State} {c : Nat} {i : Ins} {body : Ins → State → Eff} (h : (body i s).KeepsQueue s) :
    (s.runIns c i body).pending = s.pending := by
  unfold State.runIns
  extract_lets +onlyGivenNames k annulled
  clear_value annulled
  split
  · simp
  split
  · simp
  split
  · simp
  split <;> simp_all

/-- An instruction leaves the queue where its effect does. -/
theorem keepsQueue_lrun {s : State} {c : Fin 14} {serves : Ins → Bool} {body : Ins → State → Eff}
    (h : ∀ i, (body i s).KeepsQueue s) : KeepsQueue s (lrun c serves s body) := by
  unfold lrun
  split
  · simp
  split
  · simp
  · split
    · simpa using keepsQueue_runIns (h _)
    · simp

@[simp] theorem pending_coreCorrected (c : Nat) (e : MemErr) : (s.coreCorrected c e).pending = s.pending := by
  fun_cases State.coreCorrected <;> simp

@[simp] theorem keepsQueue_execFaultEntry (c : Fin 14) (err : Option MemErr) :
    KeepsQueue s (execFaultEntry c err s) := by
  unfold execFaultEntry
  split
  · simp
  split
  · simp
  · dsimp only
    split
    · simp
    split
    · split <;> simp
    · simp
  · simp

theorem keepsQueue_operand (c access : Nat) (i : Ins) : (s.operand c access i).KeepsQueue s := by
  unfold State.operand
  dsimp only
  split
  · exact keepsQueue_iLoad s _ _ _ _
  · exact keepsQueue_dLoad s _ _ _ _ _ _

theorem keepsQueue_putOperand (c access : Nat) (i : Ins) (v : Word) : (s.putOperand c access i v).KeepsQueue s := by
  unfold State.putOperand
  dsimp only
  split
  · simp
  · split <;> simp

end

/-! ### Moves and arithmetic -/

section
variable (s : State)

theorem keepsQueue_aluLoad (c k : Nat) (i : Ins) : (s.aluLoad c k i).KeepsQueue s := by
  have h := keepsQueue_operand s c 0 i
  unfold State.aluLoad
  split <;> simp_all

theorem keepsQueue_aluStore (c k : Nat) (i : Ins) (y : Word) : (s.aluStore c k i y).KeepsQueue s := by
  unfold State.aluStore
  extract_lets +onlyGivenNames a
  split
  · have h := keepsQueue_putOperand s c 1 i y
    split <;> simp_all
  extract_lets +onlyGivenNames access
  have h := keepsQueue_operand s c access i
  split
  · simp_all
  · simp
  next b t ht =>
  have h : t.pending = s.pending := by simpa [ht] using h
  split
  · simp
  dsimp only
  split
  · simp
  · simp [apply_ite State.pending, h]

theorem keepsQueue_alu (c k : Nat) (i : Ins) : (s.alu c k i).KeepsQueue s := by
  unfold State.alu
  dsimp only
  split
  · simp
  · simp
  · simp
  · exact keepsQueue_aluLoad s c k i
  · exact keepsQueue_aluStore s c k i _
  · exact keepsQueue_aluStore s c k i _

@[simp] theorem keepsQueue_aluRow (k : Nat) (c : Fin 14) : KeepsQueue s (aluRow k c s) := by
  unfold aluRow
  exact keepsQueue_lrun fun i => keepsQueue_alu s c.val k i

@[simp] theorem keepsQueue_execAdd (c : Fin 14) : KeepsQueue s (execAdd c s) := by
  simp [execAdd]

@[simp] theorem keepsQueue_execAdc (c : Fin 14) : KeepsQueue s (execAdc c s) := by
  simp [execAdc]

@[simp] theorem keepsQueue_execSub (c : Fin 14) : KeepsQueue s (execSub c s) := by
  simp [execSub]

@[simp] theorem keepsQueue_execSbc (c : Fin 14) : KeepsQueue s (execSbc c s) := by
  simp [execSbc]

@[simp] theorem keepsQueue_execCmp (c : Fin 14) : KeepsQueue s (execCmp c s) := by
  simp [execCmp]

@[simp] theorem keepsQueue_execAndI (c : Fin 14) : KeepsQueue s (execAndI c s) := by
  simp [execAndI]

@[simp] theorem keepsQueue_execOrI (c : Fin 14) : KeepsQueue s (execOrI c s) := by
  simp [execOrI]

@[simp] theorem keepsQueue_execXorI (c : Fin 14) : KeepsQueue s (execXorI c s) := by
  simp [execXorI]

@[simp] theorem keepsQueue_execTst (c : Fin 14) : KeepsQueue s (execTst c s) := by
  simp [execTst]

@[simp] theorem keepsQueue_execShl (c : Fin 14) : KeepsQueue s (execShl c s) := by
  simp [execShl]

@[simp] theorem keepsQueue_execShr (c : Fin 14) : KeepsQueue s (execShr c s) := by
  simp [execShr]

@[simp] theorem keepsQueue_execSar (c : Fin 14) : KeepsQueue s (execSar c s) := by
  simp [execSar]

@[simp] theorem keepsQueue_execRol (c : Fin 14) : KeepsQueue s (execRol c s) := by
  simp [execRol]

@[simp] theorem keepsQueue_execMul (c : Fin 14) : KeepsQueue s (execMul c s) := by
  simp [execMul]

@[simp] theorem keepsQueue_execMulhu (c : Fin 14) : KeepsQueue s (execMulhu c s) := by
  simp [execMulhu]

@[simp] theorem keepsQueue_regRow (op : Nat) (c : Fin 14) (f : Ins → Core → Core) :
    KeepsQueue s (regRow op c s f) := by
  unfold regRow
  exact keepsQueue_lrun fun i => by simp

@[simp] theorem keepsQueue_execNeg (c : Fin 14) : KeepsQueue s (execNeg c s) := by
  simp [execNeg]

@[simp] theorem keepsQueue_execNotI (c : Fin 14) : KeepsQueue s (execNotI c s) := by
  simp [execNotI]

@[simp] theorem keepsQueue_execSexb (c : Fin 14) : KeepsQueue s (execSexb c s) := by
  simp [execSexb]

@[simp] theorem keepsQueue_execSexh (c : Fin 14) : KeepsQueue s (execSexh c s) := by
  simp [execSexh]

@[simp] theorem keepsQueue_execDivu (c : Fin 14) : KeepsQueue s (execDivu c s) := by
  simp [execDivu]

@[simp] theorem keepsQueue_execDivs (c : Fin 14) : KeepsQueue s (execDivs c s) := by
  simp [execDivs]

@[simp] theorem keepsQueue_execRemu (c : Fin 14) : KeepsQueue s (execRemu c s) := by
  simp [execRemu]

@[simp] theorem keepsQueue_execRems (c : Fin 14) : KeepsQueue s (execRems c s) := by
  simp [execRems]

@[simp] theorem keepsQueue_execMulhs (c : Fin 14) : KeepsQueue s (execMulhs c s) := by
  simp [execMulhs]

@[simp] theorem keepsQueue_execClz (c : Fin 14) : KeepsQueue s (execClz c s) := by
  simp [execClz]

@[simp] theorem keepsQueue_execLea (c : Fin 14) : KeepsQueue s (execLea c s) := by
  simp [execLea]

theorem keepsQueue_signLoad (c : Nat) (i : Ins) : (s.signLoad c i).KeepsQueue s := by
  have h := keepsQueue_operand s c 0 i
  unfold State.signLoad
  split <;> simp_all

@[simp] theorem keepsQueue_execLdsb (c : Fin 14) : KeepsQueue s (execLdsb c s) := by
  unfold execLdsb
  exact keepsQueue_lrun fun i => keepsQueue_signLoad s _ i

@[simp] theorem keepsQueue_execLdsh (c : Fin 14) : KeepsQueue s (execLdsh c s) := by
  unfold execLdsh
  exact keepsQueue_lrun fun i => keepsQueue_signLoad s _ i

end

/-! ### The bit group -/

section
variable (s : State)

@[simp] theorem keepsQueue_bitToF (serves : Nat → Bool) (c : Fin 14) (f : Bool → Bool → Bool) :
    KeepsQueue s (bitToF serves c s f) := by
  unfold bitToF
  refine keepsQueue_lrun fun i => ?_
  dsimp only
  split <;> simp

@[simp] theorem keepsQueue_bitPut (serves : Nat → Bool) (access : Nat) (c : Fin 14) (f : Bool → Bool → Bool) :
    KeepsQueue s (bitPut serves access c s f) := by
  unfold bitPut
  refine keepsQueue_lrun fun i => ?_
  dsimp only
  split <;> simp

@[simp] theorem keepsQueue_execSetb (c : Fin 14) : KeepsQueue s (execSetb c s) := by
  simp [execSetb]

@[simp] theorem keepsQueue_execClrb (c : Fin 14) : KeepsQueue s (execClrb c s) := by
  simp [execClrb]

@[simp] theorem keepsQueue_execCplb (c : Fin 14) : KeepsQueue s (execCplb c s) := by
  simp [execCplb]

@[simp] theorem keepsQueue_execMovbToF (c : Fin 14) : KeepsQueue s (execMovbToF c s) := by
  simp [execMovbToF]

@[simp] theorem keepsQueue_execMovbFromF (c : Fin 14) : KeepsQueue s (execMovbFromF c s) := by
  simp [execMovbFromF]

@[simp] theorem keepsQueue_execAndb (c : Fin 14) : KeepsQueue s (execAndb c s) := by
  simp [execAndb]

@[simp] theorem keepsQueue_execOrb (c : Fin 14) : KeepsQueue s (execOrb c s) := by
  simp [execOrb]

@[simp] theorem keepsQueue_execXorb (c : Fin 14) : KeepsQueue s (execXorb c s) := by
  simp [execXorb]

@[simp] theorem keepsQueue_execAndnb (c : Fin 14) : KeepsQueue s (execAndnb c s) := by
  simp [execAndnb]

@[simp] theorem keepsQueue_execOrnb (c : Fin 14) : KeepsQueue s (execOrnb c s) := by
  simp [execOrnb]

@[simp] theorem keepsQueue_execTstb (c : Fin 14) : KeepsQueue s (execTstb c s) := by
  unfold execTstb
  refine keepsQueue_lrun fun i => ?_
  split
  · simp
  · split <;> simp

@[simp] theorem keepsQueue_execBop (c : Fin 14) : KeepsQueue s (execBop c s) := by
  unfold execBop
  refine keepsQueue_lrun fun i => ?_
  split <;> simp

@[simp] theorem keepsQueue_execTas (c : Fin 14) : KeepsQueue s (execTas c s) := by
  unfold execTas
  refine keepsQueue_lrun fun i => ?_
  extract_lets +onlyGivenNames k a
  have h := keepsQueue_dLoad s c.val k.pl 3 i.bank (effAddr k i).toNat 1
  split
  · simp_all
  · simp
  next b t ht =>
  have h : t.pending = s.pending := by simpa [ht] using h
  split
  · simp
  · simp [h]

@[simp] theorem keepsQueue_execLdrRs (c : Fin 14) : KeepsQueue s (execLdrRs c s) := by
  unfold execLdrRs
  refine keepsQueue_lrun fun i => ?_
  extract_lets +onlyGivenNames k a
  split
  · simp
  split
  · simp
  · simp
  split
  · simp
  have h := keepsQueue_dLoad (s.drain c.val 4) c.val k.pl 0 i.bank a 4
  split
  · simp
  · simp
  next b t ht =>
  have h : t.pending = s.pending := by simpa [ht] using h
  simp [h]

@[simp] theorem keepsQueue_execStc (c : Fin 14) : KeepsQueue s (execStc c s) := by
  unfold execStc
  refine keepsQueue_lrun fun i => ?_
  extract_lets +onlyGivenNames k a
  split
  · simp
  split
  · simp
  extract_lets +onlyGivenNames holds waits
  split
  · simp
  · simp [apply_ite State.pending]

@[simp] theorem keepsQueue_execClrrs (c : Fin 14) : KeepsQueue s (execClrrs c s) := by
  unfold execClrrs
  exact keepsQueue_lrun fun i => by simp

end

/-! ### Branches and calls -/

section
variable (s : State)

theorem keepsQueue_flowRow {s : State} {serves : Nat → Bool} {c : Fin 14} {body : Ins → State → Eff}
    (h : ∀ i, (body i s).KeepsQueue s) : KeepsQueue s (flowRow serves c s body) := keepsQueue_lrun h

@[simp] theorem keepsQueue_execBcc (c : Fin 14) : KeepsQueue s (execBcc c s) := by
  unfold execBcc
  exact keepsQueue_flowRow fun i => by simp [condBranch]

@[simp] theorem keepsQueue_execBccA (c : Fin 14) : KeepsQueue s (execBccA c s) := by
  unfold execBccA
  exact keepsQueue_flowRow fun i => by simp [condBranch]

@[simp] theorem keepsQueue_execJmp (c : Fin 14) : KeepsQueue s (execJmp c s) := by
  unfold execJmp
  exact keepsQueue_flowRow fun i => by simp

theorem keepsQueue_callTo (c : Nat) (target : BitVec 24) : (s.callTo c target).KeepsQueue s := by
  unfold State.callTo
  dsimp only
  split <;> simp

@[simp] theorem keepsQueue_execCall (c : Fin 14) : KeepsQueue s (execCall c s) := by
  unfold execCall
  exact keepsQueue_flowRow fun i => keepsQueue_callTo s _ _

@[simp] theorem keepsQueue_execBsr (c : Fin 14) : KeepsQueue s (execBsr c s) := by
  unfold execBsr
  exact keepsQueue_flowRow fun i => keepsQueue_callTo s _ _

theorem keepsQueue_retTo (c : Nat) : (s.retTo c).KeepsQueue s := by
  unfold State.retTo
  dsimp only
  split <;> split <;> simp

@[simp] theorem keepsQueue_execRet (c : Fin 14) : KeepsQueue s (execRet c s) := by
  unfold execRet
  exact keepsQueue_flowRow fun i => keepsQueue_retTo s _

theorem keepsQueue_bitBranch (want annul : Bool) (c : Nat) (i : Ins) : (bitBranch want annul c i s).KeepsQueue s := by
  unfold bitBranch
  split <;> simp

@[simp] theorem keepsQueue_execBbt (c : Fin 14) : KeepsQueue s (execBbt c s) := by
  unfold execBbt
  exact keepsQueue_flowRow fun i => keepsQueue_bitBranch s _ _ _ i

@[simp] theorem keepsQueue_execBbf (c : Fin 14) : KeepsQueue s (execBbf c s) := by
  unfold execBbf
  exact keepsQueue_flowRow fun i => keepsQueue_bitBranch s _ _ _ i

@[simp] theorem keepsQueue_execBbtA (c : Fin 14) : KeepsQueue s (execBbtA c s) := by
  unfold execBbtA
  exact keepsQueue_flowRow fun i => keepsQueue_bitBranch s _ _ _ i

@[simp] theorem keepsQueue_execBbfA (c : Fin 14) : KeepsQueue s (execBbfA c s) := by
  unfold execBbfA
  exact keepsQueue_flowRow fun i => keepsQueue_bitBranch s _ _ _ i

theorem keepsQueue_bitBranchClear (annul : Bool) (c : Nat) (i : Ins) : (bitBranchClear annul c i s).KeepsQueue s := by
  unfold bitBranchClear
  split <;> simp

@[simp] theorem keepsQueue_execBbtc (c : Fin 14) : KeepsQueue s (execBbtc c s) := by
  unfold execBbtc
  exact keepsQueue_flowRow fun i => keepsQueue_bitBranchClear s _ _ i

@[simp] theorem keepsQueue_execBbtcA (c : Fin 14) : KeepsQueue s (execBbtcA c s) := by
  unfold execBbtcA
  exact keepsQueue_flowRow fun i => keepsQueue_bitBranchClear s _ _ i

theorem keepsQueue_startLoop (c : Nat) (i : Ins) (count : Word) : (s.startLoop c i count).KeepsQueue s := by
  unfold State.startLoop
  dsimp only
  split <;> simp

@[simp] theorem keepsQueue_execLoopI_ (c : Fin 14) : KeepsQueue s (execLoopI_ c s) := by
  unfold execLoopI_
  exact keepsQueue_flowRow fun i => keepsQueue_startLoop s _ i _

@[simp] theorem keepsQueue_execLoopi (c : Fin 14) : KeepsQueue s (execLoopi c s) := by
  unfold execLoopi
  exact keepsQueue_flowRow fun i => keepsQueue_startLoop s _ i _

@[simp] theorem keepsQueue_execBreakl (c : Fin 14) : KeepsQueue s (execBreakl c s) := by
  unfold execBreakl
  exact keepsQueue_flowRow fun i => by simp

end

/-! ### The accumulators -/

section
variable (s : State)

@[simp] theorem pending_macFetch (c : Nat) : (s.macFetch c).1.pending = s.pending := by
  unfold State.macFetch
  extract_lets +onlyGivenNames k
  simp only [List.foldl_cons, List.foldl_nil]
  split <;> split <;> simp_all

@[simp] theorem keepsQueue_execMac (c : Fin 14) : KeepsQueue s (execMac c s) := by
  unfold execMac
  refine keepsQueue_lrun fun i => ?_
  extract_lets +onlyGivenNames k x y
  split
  next t refused ht =>
  have h : t.pending = s.pending := by simpa [ht] using pending_macFetch s c.val
  simp [h]

@[simp] theorem keepsQueue_execMacr (c : Fin 14) : KeepsQueue s (execMacr c s) := by
  unfold execMacr
  exact keepsQueue_lrun fun i => by simp

@[simp] theorem keepsQueue_accRow (op : Nat) (c : Fin 14) (f : Ins → Core → Core) :
    KeepsQueue s (accRow op c s f) := by
  unfold accRow
  refine keepsQueue_lrun fun i => ?_
  split <;> simp

@[simp] theorem keepsQueue_execAcsr (c : Fin 14) : KeepsQueue s (execAcsr c s) := by
  simp [execAcsr]

@[simp] theorem keepsQueue_execAcsra (c : Fin 14) : KeepsQueue s (execAcsra c s) := by
  simp [execAcsra]

@[simp] theorem keepsQueue_execAcsat (c : Fin 14) : KeepsQueue s (execAcsat c s) := by
  simp [execAcsat]

@[simp] theorem keepsQueue_execAcclr (c : Fin 14) : KeepsQueue s (execAcclr c s) := by
  unfold execAcclr
  exact keepsQueue_lrun fun i => by simp

end

/-! ### System instructions -/

section
variable (s : State)

theorem keepsQueue_opRow {s : State} {op : Nat} {c : Fin 14} {body : Ins → State → Eff}
    (h : ∀ i, (body i s).KeepsQueue s) : KeepsQueue s (opRow op c s body) := keepsQueue_lrun h

@[simp] theorem keepsQueue_execNop (c : Fin 14) : KeepsQueue s (execNop c s) := by
  unfold execNop
  exact keepsQueue_opRow fun i => by simp

@[simp] theorem keepsQueue_execWait (c : Fin 14) : KeepsQueue s (execWait c s) := by
  unfold execWait
  refine keepsQueue_opRow fun i => ?_
  split <;> simp

@[simp] theorem keepsQueue_execWaitWake (c : Fin 14) : KeepsQueue s (execWaitWake c s) := by
  unfold execWaitWake
  split <;> simp

@[simp] theorem keepsQueue_execBrk (c : Fin 14) : KeepsQueue s (execBrk c s) := by
  unfold execBrk
  exact keepsQueue_opRow fun i => by simp

@[simp] theorem keepsQueue_execIsync (c : Fin 14) : KeepsQueue s (execIsync c s) := by
  unfold execIsync
  exact keepsQueue_opRow fun i => by simp

@[simp] theorem keepsQueue_execFence (c : Fin 14) : KeepsQueue s (execFence c s) := by
  unfold execFence
  refine keepsQueue_opRow fun i => ?_
  dsimp only
  split <;> simp

@[simp] theorem keepsQueue_execRetx (c : Fin 14) (upset : Bool) : KeepsQueue s (execRetx c upset s) := by
  unfold execRetx
  exact keepsQueue_opRow fun i => by simp

@[simp] theorem keepsQueue_execSc (c : Fin 14) : KeepsQueue s (execSc c s) := by
  unfold execSc
  exact keepsQueue_lrun fun i => by simp

@[simp] theorem keepsQueue_execUdf (c : Fin 14) : KeepsQueue s (execUdf c s) := by
  unfold execUdf
  exact keepsQueue_opRow fun i => by simp

@[simp] theorem keepsQueue_execMfs (c : Fin 14) : KeepsQueue s (execMfs c s) := by
  unfold execMfs
  refine keepsQueue_opRow fun i => ?_
  dsimp only
  split <;> simp

@[simp] theorem keepsQueue_execMts (c : Fin 14) : KeepsQueue s (execMts c s) := by
  unfold execMts
  refine keepsQueue_opRow fun i => ?_
  dsimp only
  split <;> simp

@[simp] theorem keepsQueue_execEvpost (c : Fin 14) : KeepsQueue s (execEvpost c s) := by
  unfold execEvpost
  refine keepsQueue_opRow fun i => ?_
  dsimp only
  split_ifs <;> simp

end

end Sys2Proof.Machine
end

section
/-! PROOFS. What ports, the start and the tenant leave of the queue; every step answers a next state (R17). -/

namespace Sys2Proof.Machine
open Sys2Proof

/-! ### The ports -/

section
variable (s : State)

@[simp] theorem pending_after {o : Out} (h : KeepsQueue s o) : (after o s).pending = s.pending := by
  obtain ⟨t, rfl, ht⟩ := h
  exact ht

@[simp] theorem pending_windowWrite (mid window reg : Nat) (v : Word) :
    (s.windowWrite mid window reg v).pending = s.pending := by
  unfold State.windowWrite
  dsimp only
  repeat' split
  all_goals simp

@[simp] theorem pending_bindPortWrite (port : Nat) (v : Word) : (s.bindPortWrite port v).pending = s.pending := by
  unfold State.bindPortWrite
  dsimp only
  split_ifs <;> simp

theorem keepsQueue_pread (c pl port : Nat) : (s.pread c pl port).KeepsQueue s := by
  unfold State.pread
  extract_lets +onlyGivenNames pair
  have hpair (r : Word × State) (h : r.2.pending = s.pending) : (pair r).KeepsQueue s := h
  clear_value pair
  repeat' with_reducible refine iteInduction (motive := PRes.KeepsQueue s) (fun _ => ?_) fun _ => ?_
  any_goals simp [hpair]
  · split
    · next h => exact hpair _ (pending_localRead _ h)
    · simp
  · split
    · next h => exact hpair _ (pending_nhRead _ h)
    · simp

theorem pending_pwrite {c pl port : Nat} {v : Word} : ∀ t ∈ s.pwrite c pl port v, t.pending = s.pending := by
  unfold State.pwrite
  extract_lets mid
  have hlocal : ∀ t ∈ s.localWrite c port v, t.pending = s.pending := fun t h => pending_localWrite s h
  repeat' with_reducible refine forall_mem_ite ?_ ?_
  case refine_2.refine_1 => exact hlocal
  all_goals simp

theorem keepsQueue_portIn (c port d : Nat) (fin : Core → Core) : (s.portIn c port d fin).KeepsQueue s := by
  have h := keepsQueue_pread s c (s.core c).pl port
  unfold State.portIn
  dsimp only
  split
  · simp
  split
  · simp
  · split <;> simp_all

theorem keepsQueue_portOut (c port : Nat) (v : Word) (fin : Core → Core) : (s.portOut c port v fin).KeepsQueue s := by
  unfold State.portOut
  dsimp only
  split
  · simp
  next h =>
  split
  · simp
  · simpa using pending_pwrite s _ h

@[simp] theorem keepsQueue_execInP (c : Fin 14) : KeepsQueue s (execInP c s) := by
  unfold execInP
  exact keepsQueue_lrun fun i => keepsQueue_portIn s _ _ _ _

@[simp] theorem keepsQueue_execOutP (c : Fin 14) : KeepsQueue s (execOutP c s) := by
  unfold execOutP
  exact keepsQueue_lrun fun i => keepsQueue_portOut s _ _ _ _

@[simp] theorem keepsQueue_execMov (c : Fin 14) : KeepsQueue s (execMov c s) := by
  unfold execMov
  refine keepsQueue_lrun fun i => ?_
  dsimp only
  split
  · exact keepsQueue_portIn s _ _ _ _
  split
  · exact keepsQueue_portOut s _ _ _ _
  · exact keepsQueue_alu s _ _ _

@[simp] theorem pending_glbRead (fn off : Nat) : (s.glbRead fn off).2.pending = s.pending := by
  fun_cases State.glbRead <;> simp

@[simp] theorem pending_maskWrite (fn : Nat) (m : BitVec 4) : (s.maskWrite fn m).pending = s.pending := by
  simp [State.maskWrite, apply_ite State.pending]

@[simp] theorem pending_glbWrite (fn off : Nat) (v : Word) : (s.glbWrite fn off v).pending = s.pending := by
  fun_cases State.glbWrite <;> simp

@[simp] theorem pending_vecWrite (fn off : Nat) (w : Word) : (s.vecWrite fn off w).pending = s.pending := by
  simp [State.vecWrite]

@[simp] theorem pending_barRead (fn bar off : Nat) : (s.barRead fn bar off).2.pending = s.pending := by
  unfold State.barRead
  split <;> simp

@[simp] theorem pending_barWrite (fn bar off : Nat) (v : Word) : (s.barWrite fn bar off v).pending = s.pending := by
  unfold State.barWrite
  split <;> simp

@[simp] theorem keepsQueue_execHostRegisterRead (fn : Fin 64) (bar offset : Nat) (ask : BarAsk) :
    KeepsQueue s (execHostRegisterRead fn bar offset ask s) := by
  unfold execHostRegisterRead
  dsimp only
  split_ifs <;> simp

@[simp] theorem pending_hostBarWrite (fn bar off size : Nat) (v : BitVec 64) :
    (s.hostBarWrite fn bar off size v).pending = s.pending := by
  unfold State.hostBarWrite
  dsimp only
  split_ifs <;> simp

@[simp] theorem keepsQueue_execRegisterWrite (a : RegAccess) (value : BitVec 64) :
    KeepsQueue s (execRegisterWrite a value s) := by
  unfold execRegisterWrite
  split
  · simp
  split
  · simp
  split
  · simp
  split
  · next ht => simpa using pending_pwrite s _ ht
  · split <;> simp

end

/-! ### The start -/

section
variable (s : State)

@[simp] theorem pending_imageRun (a : Nat) : (s.imageRun a).pending = s.pending := by
  unfold State.imageRun
  dsimp only
  split <;> simp

@[simp] theorem pending_putImage (a : Nat) (b : Bytes) : (s.putImage a b).pending = s.pending := by
  unfold State.putImage
  rfl

@[simp] theorem pending_protect (l : List Nat) : (s.protect l).pending = s.pending := by
  unfold State.protect
  rfl

@[simp] theorem pending_installStaged : s.installStaged.pending = s.pending := by
  unfold State.installStaged
  dsimp only
  split_ifs <;> simp

@[simp] theorem pending_romLocks : s.romLocks.pending = s.pending := by
  simp [State.romLocks]

@[simp] theorem pending_handOver (n : Nat) : (s.handOver n).pending = s.pending := by
  simp [State.handOver]

@[simp] theorem pending_enterLoader : s.enterLoader.pending = s.pending := by
  simp [State.enterLoader]

@[simp] theorem keepsQueue_execBootRomStart : KeepsQueue s (execBootRomStart s) := by
  unfold execBootRomStart
  dsimp only
  repeat' split
  all_goals simp

@[simp] theorem pending_startTime : s.startTime.pending = s.pending := by
  unfold State.startTime
  extract_lets +onlyGivenNames shadow b
  clear_value b
  split
  · split
    · rw [pending_timeLoad]
    · rw [pending_armTime]
  · rw [pending_armTime]

@[simp] theorem pending_loadModRows : s.loadModRows.pending = s.pending := by
  unfold State.loadModRows
  dsimp only
  split_ifs <;> simp

@[simp] theorem pending_loadArchiveKey : s.loadArchiveKey.pending = s.pending := by
  unfold State.loadArchiveKey
  dsimp only
  split_ifs <;> simp

@[simp] theorem pending_bindOwner : s.bindOwner.pending = s.pending := by
  simp [State.bindOwner, apply_ite State.pending]

@[simp] theorem pending_loadTmpCfg : s.loadTmpCfg.pending = s.pending := by
  simp [State.loadTmpCfg]

@[simp] theorem pending_bootRecord : s.bootRecord.pending = s.pending := by
  simp [State.bootRecord]

@[simp] theorem keepsQueue_execFirmwareStart : KeepsQueue s (execFirmwareStart s) := by
  unfold execFirmwareStart
  dsimp only
  split_ifs <;> simp

@[simp] theorem keepsQueue_execLoaderImageLoad (r : Req) (data : List (BitVec 8)) :
    KeepsQueue s (execLoaderImageLoad r data s) := by
  unfold execLoaderImageLoad
  split
  · simp
  refine keepsQueue_driner fun t => ?_
  dsimp only
  repeat' split
  all_goals simp

end

/-! ### The tenant -/

section
variable (s : State)

@[simp] theorem pending_tenantRun (b : Bytes) : (s.tenantRun b).pending = s.pending := by
  unfold State.tenantRun
  split <;> simp

@[simp] theorem pending_installTenant (n : Nat) (b : Bytes) : (s.installTenant n b).pending = s.pending := by
  simp [State.installTenant]

@[simp] theorem keepsQueue_execTpLoad (r : Req) (data : List (BitVec 8)) : KeepsQueue s (execTpLoad r data s) := by
  unfold execTpLoad
  extract_lets +onlyGivenNames n
  split
  · simp
  refine keepsQueue_driner fun t => ?_
  extract_lets +onlyGivenNames answer
  have hanswer (t : State) (st : Nat) (p : Bytes) : (answer t st p).pending = t.pending := by simp [answer]
  clear_value answer
  split
  · exact hanswer _ _ _
  split
  · exact hanswer _ _ _
  split
  · exact hanswer _ _ _
  · dsimp only
    split_ifs <;> simp [hanswer]

@[simp] theorem keepsQueue_execFirmwareStage (r : Req) (data : List (BitVec 8)) :
    KeepsQueue s (execFirmwareStage r data s) := by
  unfold execFirmwareStage
  split
  · simp
  refine keepsQueue_driner fun t => ?_
  dsimp only
  repeat' split
  all_goals simp

theorem keepsQueue_tenantCmd {s : State} {op : Nat} {r : Req} {body : Nat → State → State × Nat × Bytes}
    (h : ∀ n t, (body n t).1.pending = t.pending) : KeepsQueue s (tenantCmd op r s body) := by
  unfold tenantCmd
  refine keepsQueue_drinerNow fun t => ?_
  dsimp only
  split
  · rfl
  · exact h _ t

@[simp] theorem keepsQueue_execTpStart (r : Req) : KeepsQueue s (execTpStart r s) := by
  unfold execTpStart
  refine keepsQueue_tenantCmd fun n t => ?_
  dsimp only
  split
  · rfl
  · split <;> simp

@[simp] theorem keepsQueue_execTpStop (r : Req) : KeepsQueue s (execTpStop r s) := by
  unfold execTpStop
  refine keepsQueue_tenantCmd fun n t => ?_
  dsimp only
  split
  · rfl
  · split <;> simp

@[simp] theorem keepsQueue_execTpSources (r : Req) : KeepsQueue s (execTpSources r s) := by
  unfold execTpSources
  refine keepsQueue_tenantCmd fun n t => ?_
  dsimp only
  split <;> rfl

@[simp] theorem keepsQueue_execTpStatus (r : Req) : KeepsQueue s (execTpStatus r s) := by
  unfold execTpStatus
  exact keepsQueue_tenantCmd fun n t => rfl

end

/-! ### Every command -/

section
variable (s : State)

@[simp] theorem keepsQueue_exec (i : Instr) : KeepsQueue s (exec i s) := by
  cases i
  all_goals dsimp only [exec]
  all_goals simp

end

/-! ### Every cycle -/

section
variable (s : State)

@[simp] theorem pending_tickTime : s.tickTime.pending = s.pending := by
  unfold State.tickTime
  dsimp only
  split_ifs <;> simp

@[simp] theorem pending_tickClk : s.tickClk.pending = s.pending := by
  unfold State.tickClk
  dsimp only
  split_ifs <;> simp

@[simp] theorem pending_gateIslands : s.gateIslands.pending = s.pending := by
  unfold State.gateIslands
  rfl

@[simp] theorem pending_tick : s.tick.pending = s.pending := by
  unfold State.tick
  extract_lets +onlyGivenNames t0 t1 t2 t3 t4 t5 t6
  have h1 : t1.pending = s.pending := by simp [t1, t0]
  clear_value t1
  have h2 : t2.pending = s.pending := by simp [t2, apply_ite State.pending, h1]
  clear_value t2
  have h3 : t3.pending = s.pending := by simp [t3, apply_ite State.pending, h2]
  clear_value t3
  have h4 : t4.pending = s.pending := by simp [t4, apply_ite State.pending, h3]
  clear_value t4
  have h5 : t5.pending = s.pending := by simp [t5, apply_ite State.pending, h4]
  clear_value t5
  simp [t6, apply_ite State.pending, h5]

end

/-- Settles O58: the command, and the cycle of an empty queue, act on a state whose queue has lost the command, and
keep that queue (`keepsQueue_exec`, `pending_tick`). -/
theorem everyStepAnswersAndTakesOneCommand : Obligations.EveryStepAnswersAndTakesOneCommand := by
  unfold Obligations.EveryStepAnswersAndTakesOneCommand
  intro s
  unfold step
  cases h : s.pending with
  | nil => exact ⟨s.tick, rfl, by simp [h]⟩
  | cons c l => exact keepsQueue_exec { s with pending := l } c

end Sys2Proof.Machine
end

section
/-! PROOFS. One cycle of D0 moves the clock by one: nothing else that a cycle does touches the time (R44, R58). -/

namespace Sys2Proof.Machine
open Sys2Proof

theorem now_of_outside {s t : State} (h : t.outside = s.outside) : t.now = s.now := (parts_of_outside h).1

@[simp] theorem now_each {α : Type} {f : α → State → State} (h : ∀ a s, (f a s).now = s.now) (l : List α) (s : State) :
    (each l f s).now = s.now := each_keeps s State.now f h l

section
variable (s : State)

/-! ### What a part of a cycle shares with the others -/

@[simp] theorem now_setCore (c : Nat) (k : Core) : (s.setCore c k).now = s.now := rfl
@[simp] theorem now_setPa (n : Nat) (p : Pa) : (s.setPa n p).now = s.now := rfl
@[simp] theorem now_setLane (n : Nat) (l : Lane) : (s.setLane n l).now = s.now := rfl
@[simp] theorem now_setHunit (n : Nat) (u : HashUnit) : (s.setHunit n u).now = s.now := rfl
@[simp] theorem now_setLoupe (i : Nat) (l : Loupe) : (s.setLoupe i l).now = s.now := rfl
@[simp] theorem now_ask (p n : Nat) : (s.ask p n).now = s.now := now_of_outside (outside_ask s p n)
@[simp] theorem now_draw (p n : Nat) : (s.draw p n).2.now = s.now := now_of_outside (outside_draw s p n)
@[simp] theorem now_place (prio : Bool) (t : Tlp) : (s.place prio t).now = s.now := now_of_outside (outside_place s prio t)

@[simp] theorem now_reply (party tag op st : Nat) (p : Bytes) : (s.reply party tag op st p).now = s.now :=
  now_of_outside (outside_reply s party tag op st p)

@[simp] theorem now_withDraw {f : Nat → State → State} (h : ∀ v t, (f v t).now = t.now) (p n : Nat) :
    (s.withDraw p n f).now = s.now := by
  unfold State.withDraw
  split <;> simp [h]

/-! ### The clocks (R52, R53, R58) -/

@[simp] theorem now_seedPps (n : Nat) : (s.seedPps n).now = s.now := by
  unfold State.seedPps
  split <;> rfl

@[simp] theorem now_loupeResult (ch n : Nat) : (s.loupeResult ch n).now = s.now := by
  unfold State.loupeResult
  dsimp only
  split
  · exact now_seedPps _ _
  · rfl

@[simp] theorem now_loupeEdge (code pin n ch : Nat) : (s.loupeEdge code pin n ch).now = s.now := by
  unfold State.loupeEdge
  dsimp only
  split
  · rfl
  · split <;> simp

@[simp] theorem now_loupeEdges (code pin n : Nat) : (s.loupeEdges code pin n).now = s.now :=
  now_each (fun ch t => now_loupeEdge t code pin n ch) _ s

@[simp] theorem now_tickClk : s.tickClk.now = s.now := by
  unfold State.tickClk State.loupeTick
  dsimp only
  split_ifs <;> simp

@[simp] theorem now_tickTime : s.tickTime.now = s.now := by
  unfold State.tickTime
  dsimp only
  split_ifs <;> rfl

/-! ### The bench and its assays (R200, R206, R211, R215) -/

@[simp] theorem now_unitCycle (j : Job) (p : Nat) : (s.unitCycle j p).now = s.now := by
  unfold State.unitCycle
  dsimp only
  split_ifs <;> rfl

@[simp] theorem now_useCounter (n i : Nat) : (s.useCounter n i).2.now = s.now := by
  unfold State.useCounter
  dsimp only
  split <;> rfl

@[simp] theorem now_streamOut (j : Job) : (s.streamOut j).1.now = s.now := by
  unfold State.streamOut State.invocation
  dsimp only
  repeat' split
  all_goals simp

@[simp] theorem now_jobWriteAt (j : Job) (off : Nat) (data : Bytes) : (s.jobWriteAt j off data).now = s.now :=
  now_each (fun _ t => now_place t _ _) _ s

@[simp] theorem now_stepLanes (j : Job) (out : Bytes) (b : Nat) : (s.stepLanes j out b).now = s.now :=
  now_each (fun _ t => now_setLane t _ _) _ s

/-- What folds over a pair keep of its state when each step keeps it. -/
theorem now_foldl_fst {α β : Type} {f : State × β → α → State × β} (h : ∀ a k, (f a k).1.now = a.1.now) (l : List α)
    (a : State × β) : (l.foldl f a).1.now = a.1.now := by
  induction l generalizing a with
  | nil => rfl
  | cons k l ih => exact (ih _).trans (h a k)

@[simp] theorem now_laneCycle (j : Job) : (s.laneCycle j).now = s.now := by
  unfold State.laneCycle
  extract_lets +onlyGivenNames e stage t bl b ctr g ds ended gs _ u
  have ht : t.now = s.now := by
    refine now_each (fun p v => ?_) _ s
    dsimp only
    split <;> rfl
  have hu : u.now = s.now := ht
  clear_value t u
  split
  · exact ht
  split
  · simpa using hu
  split
  next v j' out hv =>
  have h : v.now = s.now := by simpa [hv, hu] using now_streamOut u j
  split
  · exact h
  · dsimp only
    refine (now_stepLanes _ _ _ _).trans ((now_foldl_fst (fun a k => ?_) _ _).trans h)
    split <;> simp

@[simp] theorem now_benchCycle : s.benchCycle.now = s.now := by
  refine now_each (fun j t => ?_) _ s
  split
  · exact now_unitCycle t j _
  · split <;> simp

theorem now_takeMask {c : BitVec 2} {x : BitVec 64 × State} (h : s.takeMask c = some x) : x.2.now = s.now := by
  unfold State.takeMask at h
  dsimp only at h
  split at h <;> cases h <;> rfl

theorem now_throttle : s.throttle.now = s.now := by
  unfold State.throttle
  dsimp only
  split_ifs <;> rfl

theorem now_assayMasks {c : ResClass} {m : BitVec 64} {t : State} (h : s.assayMasks c = some (m, t)) : t.now = s.now := by
  unfold State.assayMasks at h
  split at h
  · simp only [Option.bind_eq_some_iff, Option.map_eq_some_iff, Prod.mk.injEq] at h
    obtain ⟨y, hy, z, hz, -, rfl⟩ := h
    rw [now_throttle, now_takeMask _ hz, now_takeMask _ hy]
  · cases h
    rfl

@[simp] theorem now_beginAssays : s.beginAssays.now = s.now := by
  refine now_each (fun a t => ?_) _ s
  unfold State.beginAssay
  dsimp only
  split
  · rfl
  split
  · split
    · next hm => exact (now_assayMasks t hm :)
    · rfl
  · rfl
  · rfl

/-! ### The cores' store buffers (R354) -/

@[simp] theorem now_loseRsv (by_ : Option Nat) (granule : Nat) : (s.loseRsv by_ granule).now = s.now := by
  refine now_each (fun c t => ?_) _ s
  dsimp only
  split <;> rfl

@[simp] theorem now_drainOne (c : Nat) : (s.drainOne c).now = s.now := by
  unfold State.drainOne State.sharedStore
  dsimp only
  split
  · rfl
  · split
    · rfl
    · split
      · rfl
      · exact (now_loseRsv _ _ _).trans (now_loseRsv _ _ _)

/-! ### The archive's upkeep (R263, R287) -/

@[simp] theorem now_dealSeg (n : Nat) : (s.dealSeg n).now = s.now := now_of_outside (outside_dealSeg s n)
@[simp] theorem now_moveSeg (n : Nat) : (s.moveSeg n).now = s.now := now_of_outside (outside_moveSeg s n)

@[simp] theorem now_govern : s.govern.now = s.now := by
  unfold State.govern
  extract_lets t u v
  have hu : u.now = s.now := by simp [u, t]
  clear_value u
  have hv : v.now = s.now := by
    refine (now_each (fun g w => ?_) _ u).trans hu
    split
    · rfl
    · split <;> rfl
  clear_value v
  refine (now_each (fun e w => ?_) _ v).trans hv
  split <;> rfl

@[simp] theorem now_arcFault (block kind seg : Nat) : (s.arcFault block kind seg).now = s.now := by
  unfold State.arcFault
  dsimp only
  split <;> rfl

@[simp] theorem now_unreadableSeg (block seg : Nat) (ws : List Nat) : (s.unreadableSeg block seg ws).now = s.now :=
  (now_of_outside ((outside_arcNotice _ _ _).trans (outside_arcRecord _ _ _ _ _ _))).trans (now_arcFault _ _ _ _)

@[simp] theorem now_scrub (seg : Nat) (result : ReadEnd) : (s.scrub seg result).now = s.now := by
  unfold State.scrub
  dsimp only
  split
  · rfl
  split
  · rfl
  cases result with
  | hard n =>
    dsimp only
    split
    · rfl
    · exact now_arcFault _ _ _ _
  | soft => exact now_arcFault _ _ _ _
  | unreadable m =>
    dsimp only
    split
    · rfl
    · exact now_unreadableSeg _ _ _ _

@[simp] theorem now_scrubPass : s.scrubPass.now = s.now := now_each (fun n t => now_scrub t.freeScrub.2 n _) _ s

/-! ### What waited for noise (R238, R457, R500, R525) -/

@[simp] theorem now_goDue : s.goDue.now = s.now := by
  refine now_each (fun n t => ?_) _ s
  split
  · exact now_of_outside (outside_startOp t n .register)
  · rfl

@[simp] theorem now_unwrapStore (u : Unwrap) : (s.unwrapStore u).now = s.now := by
  refine now_withDraw _ (fun n t => ?_) 4 256
  dsimp only
  split <;> exact now_reply _ _ _ _ _ _

@[simp] theorem now_storeDue : s.storeDue.now = s.now := by
  fun_cases State.storeDue <;> simp

@[simp] theorem now_sweepCheck (q : Nat) : (s.sweepCheck q).now = s.now := by
  fun_cases State.sweepCheck <;> simp

@[simp] theorem now_sweepDue : s.sweepDue.now = s.now := by
  fun_cases State.sweepDue <;> simp

@[simp] theorem now_mainUid : s.mainUid.now = s.now := by
  unfold State.mainUid
  split <;> simp

@[simp] theorem now_sealKeyDue : s.sealKeyDue.now = s.now := by
  have hm (t : State) : t.makeSealKey.now = t.now := by
    unfold State.makeSealKey
    dsimp only
    split_ifs <;> simp
  have hl (t : State) : t.loadSealRow.now = t.now := by
    unfold State.loadSealRow
    split
    · exact now_draw t 4 544
    · rfl
  unfold State.sealKeyDue
  split
  · rfl
  · split
    · exact now_ask s 4 544
    · exact (hl _).trans (hm s)

/-! ### The badge (R459, R464, R479) -/

@[simp] theorem now_endBadge (b : Badge) (result : Nat) (identity : Bytes) : (s.endBadge b result identity).now = s.now := by
  have hm (t : State) : t.modeTouch.now = t.now := by
    unfold State.modeTouch
    dsimp only
    split
    · rfl
    · exact (now_mainUid _).trans (by split <;> rfl)
  exact (hm _).trans (now_reply _ _ _ _ _ _)

@[simp] theorem now_cardFails (b : Badge) : (s.cardFails b).now = s.now := by
  unfold State.cardFails State.nextCard
  dsimp only
  split
  · exact now_endBadge _ _ _ _
  · rfl

theorem now_withNonce {f : Bytes → State → State} (h : ∀ b t, (f b t).now = t.now) : (s.withNonce f).now = s.now := by
  unfold State.withNonce
  split
  · exact now_withDraw s (fun n t => h _ t) 4 128
  · exact h _ _

@[simp] theorem now_startAuth (b : Badge) : (s.startAuth b).now = s.now := by
  unfold State.startAuth
  split
  · exact now_cardFails s b
  · exact now_withNonce _ fun na t => rfl

@[simp] theorem now_badgeDue : s.badgeDue.now = s.now := by
  fun_cases State.badgeDue <;> simp

@[simp] theorem now_carrierCheck : s.carrierCheck.now = s.now := by
  fun_cases State.carrierCheck <;> simp

/-! ### Snapshots, signatures and the module reset that is due (R485, R493) -/

@[simp] theorem now_snapCheck : s.snapCheck.now = s.now := by
  unfold State.snapCheck
  split <;> rfl

theorem now_nextSnapshot {b : Bytes} {t : State} (h : s.nextSnapshot = some (b, t)) : t.now = s.now := by
  unfold State.nextSnapshot at h
  split at h <;> cases h <;> rfl

@[simp] theorem now_seekSign : s.seekSign.now = s.now := by
  unfold State.seekSign
  extract_lets +onlyGivenNames t sign
  have ht : t.now = s.now := now_of_outside (outside_seekSeal s)
  have hsign (u : State) (n : Nat) (body : Bytes) (f : EngineFor) (second : Bool) :
      (sign u n body f second).now = u.now := now_of_outside ((outside_fwSign _ _ _ _ _ _).trans (outside_hashes _ _))
  clear_value t sign
  split
  · exact ht
  split
  · split <;> simp [hsign, ht]
  split
  · exact ht
  split
  · next hs _ =>
    have hu := now_nextSnapshot _ hs
    split <;> simp [hsign, hu, ht]
  · exact ht

@[simp] theorem now_assertReset : s.assertReset.now = s.now := (parts_of_standing_with (standing_assertReset s)).1

/-! ### A cycle -/

/-- A cycle lets the time advance by one; each of its parts keeps the time. -/
theorem now_tick : s.tick.now = s.now + 1 := by
  unfold State.tick
  extract_lets +onlyGivenNames t0 t1 t2 t3 t4 t5 t6
  have h1 : t1.now = s.now + 1 := (now_tickClk _).trans (now_tickTime t0)
  clear_value t1
  have h2 : t2.now = s.now + 1 := by
    rw [← h1]
    unfold t2
    split
    · exact (now_beginAssays _).trans (now_benchCycle t1)
    · rfl
  clear_value t2
  have h3 : t3.now = s.now + 1 := by simp [t3, apply_ite State.now, h2]
  clear_value t3
  have h4 : t4.now = s.now + 1 := by simp [t4, apply_ite State.now, h3]
  clear_value t4
  have h5 : t5.now = s.now + 1 := by simp [t5, apply_ite State.now, h4]
  clear_value t5
  simp [t6, apply_ite State.now, h5]

end

/-- Settles O57: a step is `exec` of the front command on the queue's rest, or a cycle, which moves the time by one
(`now_tick`) and keeps the empty queue. -/
theorem stepRunsTheFrontCommand : Obligations.StepRunsTheFrontCommand := by
  unfold Obligations.StepRunsTheFrontCommand step
  refine fun s => ⟨fun c l h => by simp only [h], fun h => ⟨by simp only [h], now_tick s, ?_⟩⟩
  rw [pending_tick, h]

end Sys2Proof.Machine
end

section
/-! PROOFS. The missing clock, and the state after reset (R49, R50, R328, R451). -/

namespace Sys2Proof.Machine
open Sys2Proof

/-! ### The clock's rows -/

/-- Refutes O4 in its last clause. A missing clock asserts module reset, which sets TMP_SRC_STAT to its reset value (R451:
FIRES 0, not one of the kept fields), and source 12 fires after that: FIRES then reads 1, whatever it read before. With one
firing counted since the last start the clause asks for 2. -/
theorem not_clockRows : ¬ Obligations.ClockRows := by
  unfold Obligations.ClockRows
  intro h
  obtain ⟨-, -, -, -, -, -, -, hmissing⟩ := h { State.reset with
    clk := { State.reset.clk with mcArmed := true }
    tmp := { State.reset.tmp with srcs := [(12, { fires := 1 })] } } rfl
  obtain ⟨t, ht, -, -, -, -, -, hfires⟩ := hmissing rfl rfl
  obtain rfl := Host.Outcome.next.inj ht
  revert hfires
  decide +kernel

/-! ### The state after reset -/

/-- Only the two cores of firmware pair A differ from an idle core at reset. -/
theorem core_reset_of_two_le {c : Nat} (h : 2 ≤ c) : State.reset.core c = {} := by
  have h0 : 0 ≠ c := by omega
  have h1 : 1 ≠ c := by omega
  simp [State.core, State.reset, tget, h0, h1]

/-- Both cores of firmware pair A stand at the boot ROM's entry. -/
theorem core_reset_of_lt_two {c : Nat} (h : c < 2) : State.reset.core c = { pc := 0xFC0000 } := by
  interval_cases c <;> rfl

/-- No row of the key store is listed at reset, and an unlisted row is empty. -/
theorem kState_krow_reset (n : Nat) : kState (State.reset.krow n) = kEmpty := by
  change kState {} = kEmpty
  decide

/-- Settles O60: the cores and the key rows are those of the lemmas above; every other part holds its default. -/
theorem resetState : Obligations.ResetState := by
  unfold Obligations.ResetState
  refine ⟨rfl, rfl, rfl, rfl, rfl, rfl, rfl, rfl, rfl, rfl, fun c hc => ?_, fun c hc => ?_, fun q => ⟨rfl, rfl⟩,
    kState_krow_reset, rfl, rfl, rfl, rfl, fun c => ⟨rfl, rfl, rfl⟩, rfl⟩
  · rw [core_reset_of_lt_two hc]
    exact ⟨rfl, rfl, rfl⟩
  · rw [core_reset_of_two_le hc]

end Sys2Proof.Machine
end
section
/-! PROOFS. What Loupe's edges and a change of quality leave of the module as it was (R52, R69, R88). -/

namespace Sys2Proof.Machine
open Sys2Proof

/-! ### Loupe's edges -/

/-- The state without what edges at Loupe's channels change: the channels, the free values drawn, and f with its seeds. -/
def State.unmeasured (s : State) : State :=
  { s with clk := { s.clk with loupe := [] }, free := 0, loop := { s.loop with f := 0, seeded := 0 } }

section
variable (s : State)

theorem unmeasured_seedPps (n : Nat) : (s.seedPps n).unmeasured = s.unmeasured := by
  unfold State.seedPps
  split_ifs <;> rfl

theorem unmeasured_loupeResult (ch n : Nat) : (s.loupeResult ch n).unmeasured = s.unmeasured := by
  unfold State.loupeResult
  dsimp only
  split
  · exact (unmeasured_seedPps _ _).trans rfl
  · rfl

theorem unmeasured_loupeEdge (code pin n ch : Nat) : (s.loupeEdge code pin n ch).unmeasured = s.unmeasured := by
  unfold State.loupeEdge
  dsimp only
  split
  · rfl
  · split
    · exact Eq.trans (by rfl) (unmeasured_loupeResult s ch _)
    · rfl

theorem unmeasured_loupeEdges (code pin n : Nat) : (s.loupeEdges code pin n).unmeasured = s.unmeasured :=
  each_keeps s State.unmeasured _ (fun ch s => unmeasured_loupeEdge s code pin n ch) _

/-- The parts of a state that edges at Loupe's channels leave as they were. -/
@[simp] theorem loupeEdges_parts (code pin n : Nat) : (s.loupeEdges code pin n).tim = s.tim ∧
    (s.loupeEdges code pin n).dv = s.dv ∧ (s.loupeEdges code pin n).pwr = s.pwr ∧
    (s.loupeEdges code pin n).clk.rootOk = s.clk.rootOk ∧ (s.loupeEdges code pin n).loop.ppsoOn = s.loop.ppsoOn ∧
    (s.loupeEdges code pin n).loop.ppsoPhase = s.loop.ppsoPhase ∧
    (s.loupeEdges code pin n).loop.ppsoEnd = s.loop.ppsoEnd := by
  have h := unmeasured_loupeEdges s code pin n
  have hloop := congrArg State.loop h
  exact ⟨(congrArg State.tim h :), (congrArg State.dv h :), (congrArg State.pwr h :),
    (congrArg (fun t => t.clk.rootOk) h :), (congrArg Loop.ppsoOn hloop :), (congrArg Loop.ppsoPhase hloop :),
    (congrArg Loop.ppsoEnd hloop :)⟩

/-! ### What Dovetail holds -/

/-- Dovetail but for the events still on their links. -/
def State.dovetail (s : State) : Dv := { s.dv with inbox := [] }

/-- What an unchanged Dovetail says of its store and its last release. -/
theorem store_of_dovetail {s t : State} (h : t.dovetail = s.dovetail) :
    t.dv.store = s.dv.store ∧ t.dv.lastRel = s.dv.lastRel :=
  ⟨(congrArg Dv.store h :), (congrArg Dv.lastRel h :)⟩

theorem dovetail_of_dv {s t : State} (h : t.dv = s.dv) : t.dovetail = s.dovetail := by
  rw [State.dovetail, State.dovetail, h]

/-! The egress queues and the mailboxes leave Dovetail, its links included. -/

@[simp] theorem dv_each {α : Type} {f : α → State → State} (h : ∀ a s, (f a s).dv = s.dv) (l : List α) (s : State) :
    (each l f s).dv = s.dv := each_keeps s State.dv f h l

@[simp] theorem dv_creditLate : s.creditLate.dv = s.dv := by
  unfold State.creditLate
  refine dv_each (fun t s => ?_) _ _
  dsimp only
  split <;> rfl

@[simp] theorem dv_creditWait : s.creditWait.dv = s.dv := by
  unfold State.creditWait
  dsimp only
  split <;> simp [apply_ite State.dv]

@[simp] theorem dv_place (prio : Bool) (t : Tlp) : (s.place prio t).dv = s.dv := by
  unfold State.place
  cases prio <;> simp

@[simp] theorem dv_msix (fn vec : Nat) (prio : Bool) : (s.msix fn vec prio).dv = s.dv := by
  unfold State.msix
  dsimp only
  split_ifs <;> simp

@[simp] theorem dv_cause (fn b : Nat) : (s.cause fn b).dv = s.dv := by
  unfold State.cause
  dsimp only
  split <;> simp

@[simp] theorem dv_signal (ch : Nat) : (s.signal ch).dv = s.dv := by
  unfold State.signal
  dsimp only
  split
  · simp
  · split <;> simp
  · rfl

@[simp] theorem dv_dbSet (ch : Nat) (bits : Word) : (s.dbSet ch bits).dv = s.dv := by
  unfold State.dbSet
  dsimp only
  split <;> simp

@[simp] theorem dv_push (ch : Nat) (m : List Word) : (s.push ch m).dv = s.dv := by
  unfold State.push
  dsimp only
  split_ifs <;> simp

@[simp] theorem dv_notice (fn op : Nat) (p : Bytes) : (s.notice fn op p).dv = s.dv := by
  unfold State.notice
  dsimp only
  split_ifs <;> simp

@[simp] theorem dv_noticeAll (op : Nat) (p : Bytes) : (s.noticeAll op p).dv = s.dv := by
  simp [State.noticeAll]

@[simp] theorem dv_statusTouch : s.statusTouch.dv = s.dv := by
  simp [State.statusTouch, apply_ite State.dv]

theorem outside_noticeAll (op : Nat) (p : Bytes) : (s.noticeAll op p).outside = s.outside :=
  outside_each s _ (fun fn s => outside_notice s fn op p) _

/-! ### Quality -/

/-- QUAL, the stamp of the last time record and the bracket's end take values: all that a change of quality changes outside the
archive and the mailboxes. -/
def State.requalified (q : BitVec 2) (g : Gts) (b : Option Gts) : State :=
  { s with tim := { s.tim with qual := q }, loop := { s.loop with recGts := g, bracketEnd := b } }

/-! The kernel takes a stamp apart into its bits when it compares it with another one, so what holds whatever the stamp is
stated of a variable first. -/

/-- The stamp of the last time record is another. -/
def State.recordedAt (g : Gts) : State := { s with loop := { s.loop with recGts := g } }

/-- The bracket ends. -/
def State.bracketedAt (b : Gts) : State := { s with loop := { s.loop with bracketEnd := some b } }

theorem bracketedAt_outside {t : State} {q : BitVec 2} {g : Gts} (b : Gts)
    (h : t.outside = (s.requalified q g s.loop.bracketEnd).outside) :
    (t.bracketedAt b).outside = (s.requalified q g (some b)).outside := by
  have hloop : t.loop = (s.requalified q g s.loop.bracketEnd).loop := congrArg Outside.loop h
  change { t.outside with loop := { t.loop with bracketEnd := some b } } = _
  rw [h, hloop]
  rfl

theorem recordedAt_parts (g : Gts) : (s.recordedAt g).drn = s.drn ∧ (s.recordedAt g).dovetail = s.dovetail ∧
    (s.recordedAt g).tim = s.tim ∧ (s.recordedAt g).loop = { s.loop with recGts := g } := ⟨rfl, rfl, rfl, rfl⟩

theorem event_parts (typ src : Nat) (cls : BitVec 2) (body : Bytes) : (s.event typ src cls body).drn = s.drn ∧
    (s.event typ src cls body).dovetail = s.dovetail ∧ (s.event typ src cls body).tim = s.tim ∧
    (s.event typ src cls body).loop = s.loop := ⟨rfl, rfl, rfl, rfl⟩

theorem timeRec_eq (facts : List Nat) : s.timeRec facts =
    (s.recordedAt s.gts).event 0x0011 0x006 c1 (Config.openBody 0x0011 facts) := rfl

/-- A time record keeps its stamp and posts one event. -/
theorem outside_timeRec (facts : List Nat) : (s.timeRec facts).outside = (s.recordedAt s.gts).outside := by
  rw [timeRec_eq, outside_event]

@[simp] theorem timeRec_parts (facts : List Nat) : (s.timeRec facts).drn = s.drn ∧
    (s.timeRec facts).dovetail = s.dovetail ∧ (s.timeRec facts).tim = s.tim ∧
    (s.timeRec facts).loop = { s.loop with recGts := s.gts } := by
  obtain ⟨hdrn, hdv, htim, hloop⟩ := recordedAt_parts s s.gts
  obtain ⟨hdrn', hdv', htim', hloop'⟩ := event_parts (s.recordedAt s.gts) 0x0011 0x006 c1 (Config.openBody 0x0011 facts)
  rw [timeRec_eq]
  exact ⟨hdrn'.trans hdrn, hdv'.trans hdv, htim'.trans htim, hloop'.trans hloop⟩

theorem recordedAt_requalified (q : BitVec 2) (g : Gts) :
    (({ s with tim := { s.tim with qual := q } } : State).recordedAt g).outside =
      (s.requalified q g s.loop.bracketEnd).outside := rfl

/-- What the report of a change of quality does: the record, the status and the notice, and the bracket's end. -/
theorem setQual_eq (q : BitVec 2) (h : s.tim.qual ≠ q) : ∃ p facts,
    let t := ((({ s with tim := { s.tim with qual := q } } : State).timeRec facts).statusTouch.noticeAll 0x0280 p)
    s.setQual q = if t.loop.bracketEnd.isNone && !t.loop.startHold && decide (q.toNat ≤ 1) then t.bracketedAt t.gts else t := by
  unfold State.setQual
  dsimp only
  rw [if_neg h]
  exact ⟨_, _, rfl⟩

/-- A change of quality leaves what lies outside the archive and the mailboxes but for QUAL, the stamp of the last time record
and the bracket's end; it leaves the commands outstanding, and what Dovetail holds. -/
theorem setQual_does (q : BitVec 2) : ∃ g b, (s.setQual q).outside = (s.requalified q g b).outside ∧
    (s.setQual q).drn.out = s.drn.out ∧ (s.setQual q).dovetail = s.dovetail := by
  by_cases h : s.tim.qual = q
  · subst h
    exact ⟨s.loop.recGts, s.loop.bracketEnd, by rw [State.setQual, if_pos rfl]; exact ⟨rfl, rfl, rfl⟩⟩
  obtain ⟨p, facts, he⟩ := setQual_eq s q h
  generalize hu : ({ s with tim := { s.tim with qual := q } } : State) = u at he
  generalize ht : (u.timeRec facts).statusTouch.noticeAll 0x0280 p = t at he
  obtain ⟨hdrn, hdv, -, -⟩ := timeRec_parts u facts
  have ho : t.outside = (s.requalified q u.gts s.loop.bracketEnd).outside := by
    rw [← ht, outside_noticeAll, outside_statusTouch, outside_timeRec, ← recordedAt_requalified, hu]
  have hout : t.drn.out = s.drn.out := by
    have hq : t.quiet = (u.timeRec facts).quiet := by rw [← ht, quiet_noticeAll, quiet_statusTouch]
    rw [show t.drn.out = (u.timeRec facts).drn.out from congrArg Quiet.out hq, hdrn, ← hu]
  have hd : t.dovetail = s.dovetail := by
    rw [← ht, dovetail_of_dv ((dv_noticeAll _ _ _).trans (dv_statusTouch _)), hdv, ← hu]
    rfl
  rw [he]
  split
  · exact ⟨_, _, bracketedAt_outside s t.gts ho, hout, hd⟩
  · exact ⟨_, _, ho, hout, hd⟩

@[simp] theorem setQual_tim (q : BitVec 2) : (s.setQual q).tim = { s.tim with qual := q } := by
  obtain ⟨_, _, h, -, -⟩ := setQual_does s q
  exact (congrArg Outside.tim h :)

/-- The parts of a state that a change of quality leaves as they were. -/
@[simp] theorem setQual_parts (q : BitVec 2) : (s.setQual q).now = s.now ∧ (s.setQual q).clk = s.clk ∧
    (s.setQual q).pending = s.pending ∧ (s.setQual q).lc = s.lc ∧ (s.setQual q).drn.out = s.drn.out ∧
    (s.setQual q).dovetail = s.dovetail := by
  obtain ⟨_, _, h, hout, hd⟩ := setQual_does s q
  exact ⟨(congrArg Outside.now h :), (congrArg Outside.clk h :), (congrArg Outside.pending h :),
    (congrArg Outside.lc h :), hout, hd⟩

/-- The parts of the loop that a change of quality leaves as they were. -/
@[simp] theorem setQual_loop (q : BitVec 2) : (s.setQual q).loop.f = s.loop.f ∧ (s.setQual q).loop.slew = s.loop.slew ∧
    (s.setQual q).loop.rejected = s.loop.rejected ∧ (s.setQual q).loop.lastSec = s.loop.lastSec ∧
    (s.setQual q).loop.lossAt = s.loop.lossAt := by
  obtain ⟨_, _, h, -, -⟩ := setQual_does s q
  have hl := congrArg Outside.loop h
  exact ⟨(congrArg Loop.f hl :), (congrArg Loop.slew hl :), (congrArg Loop.rejected hl :),
    (congrArg Loop.lastSec hl :), (congrArg Loop.lossAt hl :)⟩

end

end Sys2Proof.Machine
end
section
/-! PROOFS. TIME_IN: its edges, its frames and its loss (R61 to R64, R526). -/

namespace Sys2Proof.Machine
open Sys2Proof

/-! ### An edge of TIME_IN -/

/-- The state with which an edge of TIME_IN is judged: Loupe has counted a rising one. -/
def State.tinCounted (s : State) (rising : Bool) : State := if rising then s.loupeEdges 6 0 1 else s

theorem tinCounted_parts (s : State) (rising : Bool) : (s.tinCounted rising).tim = s.tim ∧
    (s.tinCounted rising).now = s.now ∧ (s.tinCounted rising).clk.rootOk = s.clk.rootOk := by
  cases rising
  · exact ⟨rfl, rfl, rfl⟩
  · exact ⟨(loupeEdges_parts s 6 0 1).1, now_loupeEdges s 6 0 1, (loupeEdges_parts s 6 0 1).2.2.2.1⟩

theorem capture_of_tim {s t : State} (htim : t.tim = s.tim) (hr : t.clk.rootOk = s.clk.rootOk) (p : Nat) :
    t.capture p = s.capture p := by
  unfold State.capture
  rw [htim, hr]

theorem capture_of_rootOk {s : State} (hr : s.clk.rootOk = true) (p : Nat) : s.capture p =
    unitsGts ((s.tim.sec * 1000000000 * 2 ^ 40 + s.tim.acc + p * s.tim.inc / 4) / 2 ^ 24) s.tim.qual := by
  unfold State.capture
  rw [hr]
  rfl

theorem edgeTheta_of_tim {s t : State} (htim : t.tim = s.tim) (g : Gts) :
    t.edgeTheta (t.tinStamp g) = s.edgeTheta (s.tinStamp g) := by
  unfold State.edgeTheta State.tinStamp
  rw [htim]

theorem spaced_iff (s : State) (l : Nat) :
    s.spaced l = true ↔ secC ≤ (s.now - l) + 10 * usC ∧ s.now - l ≤ secC + 10 * usC := by
  simp [State.spaced]

/-- An edge of TIME_IN stands at the distance that its mode asks from the one before it (R62, R63). -/
def State.tinSpaced (s : State) : Bool :=
  if s.tinMode = 1 then !s.tim.tinValid || s.tim.tinLast.all s.spaced
  else s.tim.markAt.all fun l => s.spaced l || l + 3000000000 ≤ s.now

theorem tinSpaced_of_tim {s t : State} (htim : t.tim = s.tim) (hnow : t.now = s.now) : t.tinSpaced = s.tinSpaced := by
  unfold State.tinSpaced State.spaced State.tinMode
  rw [htim, hnow]

/-- A reference marker is captured. -/
def State.markerAt (s : State) (g : Gts) : State :=
  { s with tim := { s.tim with mark := some g, markAt := some s.now } }

section
variable {s : State} (hup : s.up = true) (hr : s.clk.rootOk = true) (p : Fin 4) {rising : Bool} {w : Nat}
include hup hr

/-- The inactive edge of TIME_IN is counted, and does nothing else. -/
theorem tinEdge_inactive (hm : s.tinMode = 1 ∨ s.tinMode = 2) (h : rising = bit s.tim.ctrl 2) :
    exec (.tinEdge p ⟨rising, w⟩) s = .next (s.tinCounted rising) := by
  obtain ⟨htim, -, -⟩ := tinCounted_parts s rising
  change execTinEdge p ⟨rising, w⟩ s = _
  unfold execTinEdge
  rw [if_neg (by rcases hm with h | h <;> simp [hup, hr, h])]
  exact if_pos (by rw [h, ← h]; exact htim.symm ▸ h)

/-- An active edge is judged by its width and by its distance from the one before it: it is bad, or it is a second's edge in
1PPS mode and a frame's marker in IRIG-B mode. -/
theorem tinEdge_active (hm : s.tinMode = 1 ∨ s.tinMode = 2) (h : rising ≠ bit s.tim.ctrl 2) :
    exec (.tinEdge p ⟨rising, w⟩) s =
      if !((1000 ≤ w && w ≤ 900000000) && s.tinSpaced) then .next (timEvent (s.tinCounted rising) 0)
      else .next (if s.tinMode = 1 then (s.tinCounted rising).tinGood (s.edgeTheta (s.tinStamp (s.capture p.val)))
        else (s.tinCounted rising).markerAt (s.capture p.val)) := by
  obtain ⟨htim, hnow, hroot⟩ := tinCounted_parts s rising
  change execTinEdge p ⟨rising, w⟩ s = _
  unfold execTinEdge
  rw [if_neg (by rcases hm with h | h <;> simp [hup, hr, h]), ← capture_of_tim htim hroot, ← edgeTheta_of_tim htim,
    ← tinSpaced_of_tim htim hnow]
  have hmode : s.tinMode = (s.tinCounted rising).tinMode := by rw [State.tinMode, State.tinMode, htim]
  rw [hmode] at hm ⊢
  rw [← htim] at h
  unfold State.tinCounted at h hm ⊢
  dsimp only
  generalize (if rising = true then s.loupeEdges 6 0 1 else s) = u at h hm ⊢
  rw [if_neg h]
  rcases hm with hm | hm
  · simp only [State.tinSpaced, hm]
    cases u.tim.tinValid <;> cases u.tim.tinLast <;> simp
  · simp only [State.tinSpaced, hm]
    cases u.tim.markAt <;> simp [State.markerAt]

end

/-! ### A decoded frame -/

theorem irigFollows_of_succession {s : State} {utc : Int}
    (h : ∀ p leap, s.tim.irigPrev = some (p, leap) → utc = p + (if leap then 0 else 1)) : s.irigFollows utc = true := by
  unfold State.irigFollows
  cases hp : s.tim.irigPrev with
  | none => rfl
  | some q =>
    have := h q.1 q.2 hp
    cases hq : q.2 <;> simp_all

/-- The state with a valid frame taken, in which no second is skipped (R63, R64). -/
def State.irigTaken (s : State) (f : Irig) : State :=
  let ieee := bit s.tim.ctrl 3
  let t : State := { s with tim := { s.tim with
    irigPrev := some (irigUtc s f, f.sec == 60)
    irigMark := s.tim.mark
    irigSeed := s.frameSeed
    irigRun := s.tim.irigRun + 1
    mark := none
    irigQuality := if ieee then f.quality else s.tim.irigQuality
    utc := if ieee then setFld s.tim.utc 17 16 (b2n f.lsp + 2 * b2n f.lsDelete) else s.tim.utc } }
  if ieee && bit s.tim.utc 16 && f.sec = 60 then t.leap false else t

/-- The second frame in a row is a good edge. -/
def State.irigGood (s : State) (theta : Option Int) : State := if s.tim.irigRun < 2 then s else s.tinGood theta

section
variable {s : State} (hup : s.up = true) (hr : s.clk.rootOk = true) (hm : s.tinMode = 2) {f : Irig}
include hup hr hm

/-- A frame whose markers or whose parity fail is bad. -/
theorem irigFrame_bad (h : f.markersOk = false ∨ (bit s.tim.ctrl 3 = true ∧ f.parityOk = false)) :
    exec (.irigFrame f) s = .next s.irigBad := by
  change execIrigFrame f s = _
  unfold execIrigFrame
  rw [if_neg (by simp [hup, hr, hm])]
  exact if_pos (by rcases h with h | ⟨h, h'⟩ <;> simp [*])

/-- A frame in succession, with no leap second to skip, is taken, after an announced inserted second has been; the second
frame in a row is a good edge. -/
theorem irigFrame_taken (hk : f.markersOk = true) (hp : bit s.tim.ctrl 3 = true → f.parityOk = true)
    (hf : s.irigFollows (irigUtc s f) = true)
    (hskip : bit s.tim.ctrl 3 = true → bit s.tim.utc 17 = false) :
    ∃ theta, exec (.irigFrame f) s = .next ((s.irigTaken f).irigGood theta) := by
  have hbad : (!f.markersOk || (bit s.tim.ctrl 3 && !f.parityOk) || !s.irigFollows (irigUtc s f)) = false := by
    cases h : bit s.tim.ctrl 3 <;> simp_all
  change ∃ theta, execIrigFrame f s = _
  unfold execIrigFrame
  rw [if_neg (by simp [hup, hr, hm])]
  simp only [hbad]
  cases h : bit s.tim.ctrl 3 with
  | false =>
    simp only [State.irigTaken, h, Bool.not_false, Bool.false_and, Bool.false_eq_true, if_false]
    exact ⟨_, rfl⟩
  | true =>
    simp only [State.irigTaken, h, hskip h, Bool.not_false, Bool.and_false, Bool.false_and,
      Bool.and_true, Bool.false_eq_true, if_false]
    exact ⟨_, rfl⟩

end

theorem irigGood_eq (s : State) (theta : Option Int) : ∃ tim : Tim, s.irigGood theta = { s with tim := tim } ∧
    tim.irigPrev = s.tim.irigPrev ∧ tim.irigRun = s.tim.irigRun ∧ tim.utc = s.tim.utc ∧ tim.events = s.tim.events ∧
    tim.irigQuality = s.tim.irigQuality ∧ (s.tim.irigRun < 2 → tim.tinValid = s.tim.tinValid) ∧
    (2 ≤ s.tim.irigRun → tim.tinValid = true ∧ tim.tinLast = some s.now) := by
  unfold State.irigGood
  split_ifs with h
  · exact ⟨s.tim, rfl, rfl, rfl, rfl, rfl, rfl, fun _ => rfl, fun h' => absurd h (by omega)⟩
  · exact ⟨_, rfl, rfl, rfl, rfl, rfl, rfl, fun h' => absurd h' h, fun _ => ⟨rfl, rfl⟩⟩

theorem irigTaken_plain {s : State} (f : Irig) (h : bit s.tim.ctrl 3 = false) : ∃ tim : Tim,
    s.irigTaken f = { s with tim := tim } ∧ tim.irigPrev = some (irigUtc s f, f.sec == 60) ∧
    tim.irigRun = s.tim.irigRun + 1 ∧ tim.utc = s.tim.utc ∧ tim.tinValid = s.tim.tinValid := by
  simp only [State.irigTaken, h]
  exact ⟨_, rfl, rfl, rfl, rfl, rfl⟩

theorem ofSigned_lt (w : Nat) (i : Int) : ofSigned w i < 2 ^ w := by
  have h : (0 : Int) < (2 ^ w : Nat) := by positivity
  have := Int.emod_lt_of_pos i h
  have := Int.emod_nonneg i h.ne'
  unfold ofSigned
  omega

/-- The announced second is taken with the frame that spells it: TAI-UTC moves, and the announcement ends. -/
theorem irigTaken_leap {s : State} {f : Irig} (h : bit s.tim.ctrl 3 = true) (hp : bit s.tim.utc 16 = true)
    (hs : f.sec = 60) : fld (s.irigTaken f).tim.utc 15 0 = ofSigned 16 (s.taiUtc + 1) ∧
    fld (s.irigTaken f).tim.utc 17 16 = 0 ∧ bit (s.irigTaken f).tim.events 9 = true ∧
    (s.irigTaken f).tim.irigQuality = f.quality := by
  simp only [State.irigTaken, h, hp, hs, Bool.true_and, decide_true, if_true, State.leap, timEvent, State.taiUtc]
  refine ⟨?_, ?_, ?_, trivial⟩
  · rw [fld_setFld_other _ _ _ _ _ _ (by decide), fld_setFld_same _ _ _ _ (by decide),
      fld_setFld_other _ _ _ _ _ _ (by decide)]
    exact Nat.mod_eq_of_lt (ofSigned_lt _ _)
  · rw [fld_setFld_same _ _ _ _ (by decide)]
    rfl
  · simp

/-! ### The loss of the reference -/

/-- Holdover begins: QUAL is 0b10, the slew ends, and the estimate counts from now. -/
theorem toHoldover_parts (s : State) (e : Nat) : ∃ f, (s.toHoldover e).tim = { s.tim with inc := incOf f 0, qual := 2 } ∧
    (s.toHoldover e).loop.slew = 0 ∧ (s.toHoldover e).loop.lossAt = s.now := by
  unfold State.toHoldover
  exact ⟨_, setQual_tim _ _, (setQual_loop _ _).2.1, (setQual_loop _ _).2.2.2.2⟩

@[simp] theorem toHoldover_keeps (s : State) (e : Nat) : (s.toHoldover e).now = s.now ∧ (s.toHoldover e).clk = s.clk ∧
    (s.toHoldover e).pending = s.pending ∧ (s.toHoldover e).lc = s.lc ∧ (s.toHoldover e).drn.out = s.drn.out ∧
    (s.toHoldover e).dovetail = s.dovetail := by
  unfold State.toHoldover
  exact setQual_parts _ _

/-- No source disciplines, and the source that is gone counts anew. -/
def State.unsourced (s : State) (tin : Bool) : State :=
  let t : State := { s with tim := { s.tim with src := 0 } }
  if tin then { t with loop := { t.loop with inBound := 0 } } else { t with loop := { t.loop with inBoundPtm := 0 } }

theorem unsourced_parts (s : State) (tin : Bool) : (s.unsourced tin).tim = { s.tim with src := 0 } ∧
    (s.unsourced tin).now = s.now ∧ (s.unsourced tin).clk = s.clk ∧ (s.unsourced tin).pending = s.pending ∧
    (s.unsourced tin).lc = s.lc ∧ (s.unsourced tin).drn = s.drn ∧ (s.unsourced tin).dv = s.dv := by
  cases tin <;> exact ⟨rfl, rfl, rfl, rfl, rfl, rfl, rfl⟩

/-- PTM is in bound and takes over from TIME_IN. -/
def State.ptmHolds (s : State) (tin : Bool) : Bool := tin && s.tim.ptmValid && !s.loop.ptmDropped && 8 ≤ s.loop.inBoundPtm

/-- The state with PTM as the source. -/
def State.onPtm (s : State) (tin : Bool) : State :=
  { s.unsourced tin with tim := { (s.unsourced tin).tim with src := 3 } }

theorem sourceGone_eq (s : State) (tin : Bool) : s.sourceGone tin =
    if 2 ≤ s.tim.qual.toNat then s.unsourced tin else
    if s.ptmHolds tin then (s.onPtm tin).setQual 1 else (s.unsourced tin).toHoldover s.estErr := by
  cases tin <;> rfl

theorem onPtm_tim (s : State) (tin : Bool) : (s.onPtm tin).tim = { s.tim with src := 3 } := by
  rw [State.onPtm, (unsourced_parts s tin).1]

/-- A source that is gone leaves the time block as it was but for the source, QUAL and INC. -/
theorem sourceGone_does (s : State) (tin : Bool) : ∃ src q inc,
    (s.sourceGone tin).tim = { s.tim with src := src, qual := q, inc := inc } ∧
    (s.sourceGone tin).clk = s.clk ∧ (s.sourceGone tin).pending = s.pending ∧ (s.sourceGone tin).lc = s.lc ∧
    (s.sourceGone tin).drn.out = s.drn.out ∧ (s.sourceGone tin).dovetail = s.dovetail := by
  obtain ⟨htim, hnow, hclk, hpend, hlc, hdrn, hdv⟩ := unsourced_parts s tin
  rw [sourceGone_eq]
  split_ifs
  · exact ⟨_, _, _, htim, hclk, hpend, hlc, by rw [hdrn], by rw [State.dovetail, hdv]; rfl⟩
  · obtain ⟨-, hclk', hpend', hlc', hout', hdv'⟩ := setQual_parts (s.onPtm tin) 1
    exact ⟨_, _, _, by rw [setQual_tim, onPtm_tim], hclk'.trans hclk, hpend'.trans hpend, hlc'.trans hlc,
      hout'.trans (by rw [State.onPtm, hdrn]), hdv'.trans (by rw [State.dovetail, State.onPtm, hdv]; rfl)⟩
  · obtain ⟨f, h, -, -⟩ := toHoldover_parts (s.unsourced tin) s.estErr
    obtain ⟨-, hclk', hpend', hlc', hout', hdv'⟩ := toHoldover_keeps (s.unsourced tin) s.estErr
    exact ⟨_, _, _, by rw [h, htim], hclk'.trans hclk, hpend'.trans hpend, hlc'.trans hlc,
      hout'.trans (by rw [hdrn]), hdv'.trans (by rw [State.dovetail, hdv]; rfl)⟩

/-- A lock whose source goes passes to PTM when PTM holds. -/
theorem sourceGone_toPtm {s : State} (hq : s.tim.qual.toNat < 2) (hv : s.tim.ptmValid = true)
    (hd : s.loop.ptmDropped = false) (hb : 8 ≤ s.loop.inBoundPtm) :
    (s.sourceGone true).tim.src = 3 ∧ (s.sourceGone true).tim.qual = 1 := by
  rw [sourceGone_eq, if_neg (by omega), if_pos (by simp [State.ptmHolds, hv, hd, hb]), setQual_tim, onPtm_tim]
  exact ⟨rfl, rfl⟩

/-- A lock whose source goes while PTM does not hold passes to holdover. -/
theorem sourceGone_toHoldover {s : State} (hq : s.tim.qual.toNat < 2) (hv : s.tim.ptmValid = false) :
    (s.sourceGone true).tim.src = 0 ∧ (s.sourceGone true).tim.qual = 2 ∧ (s.sourceGone true).loop.slew = 0 ∧
    (s.sourceGone true).loop.lossAt = s.now := by
  obtain ⟨f, htim, hslew, hat⟩ := toHoldover_parts (s.unsourced true) s.estErr
  rw [sourceGone_eq, if_neg (by omega), if_neg (by simp [State.ptmHolds, hv])]
  exact ⟨by rw [htim]; rfl, by rw [htim], hslew, hat⟩

/-- TIME_IN has no valid edge any more. -/
def State.tinGone (s : State) : State :=
  timEvent { s with tim := { s.tim with
    tinValid := false, tinTheta := none, irigRun := 0, irigPrev := none, irigMark := none, markAt := none } } 1

/-- 2.5 s without a valid edge lose the reference, and the source with it when TIME_IN disciplines. -/
theorem tinLost_does {s : State} (hup : s.up = true) {l : Nat} (hv : s.tim.tinValid = true) (hl : s.tim.tinLast = some l)
    (h : l + 3000000000 ≤ s.now) : exec .tinLost s =
      .next (if s.tim.src = 1 || s.tim.src = 2 then s.tinGone.sourceGone true else s.tinGone) := by
  change execTinLost s = _
  unfold execTinLost
  rw [hv, hl]
  exact if_neg (by simp [hup]; omega)

theorem tinSpaced_pps {s : State} (hm : s.tinMode = 1)
    (h : s.tim.tinValid = false ∨
      ∃ l, s.tim.tinLast = some l ∧ secC ≤ (s.now - l) + 10 * usC ∧ s.now - l ≤ secC + 10 * usC) :
    s.tinSpaced = true := by
  rw [State.tinSpaced, if_pos hm]
  rcases h with h | ⟨l, hl, h⟩
  · simp [h]
  · simp [hl, (spaced_iff s l).2 h]

theorem tinSpaced_irig {s : State} (hm : s.tinMode = 2)
    (h : s.tim.markAt = none ∨ ∃ l, s.tim.markAt = some l ∧ (l + 3000000000 ≤ s.now ∨
      (secC ≤ (s.now - l) + 10 * usC ∧ s.now - l ≤ secC + 10 * usC))) : s.tinSpaced = true := by
  rw [State.tinSpaced, if_neg (by rw [hm]; decide)]
  rcases h with h | ⟨l, hl, h | h⟩
  · simp [h]
  · simp [hl, h]
  · simp [hl, (spaced_iff s l).2 h]

theorem timEvent_tinCounted (s : State) (rising : Bool) (n : Nat) : timEvent (s.tinCounted rising) n =
    { s.tinCounted rising with tim := { s.tim with events := setBit s.tim.events n true } } := by
  rw [timEvent, (tinCounted_parts s rising).1]

theorem tinGood_tinCounted (s : State) (rising : Bool) (theta : Option Int) : (s.tinCounted rising).tinGood theta =
    { s.tinCounted rising with tim := { s.tim with
      tinValid := true, tinLast := some s.now, tinTheta := theta, tinEdge := true
      tinDropped := s.tim.tinDropped && s.tim.tinValid } } := by
  obtain ⟨htim, hnow, -⟩ := tinCounted_parts s rising
  simp only [State.tinGood, htim, hnow]

theorem markerAt_tinCounted (s : State) (rising : Bool) (g : Gts) : (s.tinCounted rising).markerAt g =
    { s.tinCounted rising with tim := { s.tim with mark := some g, markAt := some s.now } } := by
  obtain ⟨htim, hnow, -⟩ := tinCounted_parts s rising
  simp only [State.markerAt, htim, hnow]

/-- Settles O5: each clause by the lemma about its command; the edges that Loupe counts leave the time block alone. -/
theorem timeInput : Obligations.TimeInput := by
  unfold Obligations.TimeInput
  intro s hup hr
  refine ⟨fun p rising w hm => ⟨fun h => tinEdge_inactive hup hr p hm h, fun h hw => ?_, fun h h1 h2 hpps hs => ?_,
    fun h h1 h2 hirig hs => ?_⟩, fun f hm hp hk hs => ?_, fun f hm hp hk hpar hpend hdel hsec hs => ?_,
    fun f hm h => irigFrame_bad hup hr hm h, fun l hv hl hlate => ⟨_, tinLost_does hup hv hl hlate, ?_⟩⟩
  · rw [tinEdge_active hup hr p hm h, if_pos (by rcases hw with hw | hw <;> simp <;> omega)]
    exact congrArg Host.Outcome.next (timEvent_tinCounted s rising 0)
  · rw [tinEdge_active hup hr p hm h, if_neg (by simp [h1, h2, tinSpaced_pps hpps hs]),
      if_pos (show s.tinMode = 1 from hpps), capture_of_rootOk hr]
    exact congrArg Host.Outcome.next (tinGood_tinCounted s rising _)
  · rw [tinEdge_active hup hr p hm h, if_neg (by simp [h1, h2, tinSpaced_irig hirig hs]),
      if_neg (show ¬ s.tinMode = 1 by rw [State.tinMode, hirig]; decide)]
    exact congrArg Host.Outcome.next (markerAt_tinCounted s rising _)
  · obtain ⟨theta, he⟩ := irigFrame_taken hup hr hm hk (by simp [hp]) (irigFollows_of_succession hs) (by simp [hp])
    obtain ⟨tim, htim, hprev, hrun, hutc, hval⟩ := irigTaken_plain f hp
    obtain ⟨tim', hgood, hprev', hrun', hutc', -, -, hfirst, hsecond⟩ := irigGood_eq (s.irigTaken f) theta
    rw [htim] at hprev' hrun' hutc' hfirst hsecond
    refine ⟨_, he, ?_⟩
    rw [hgood, htim]
    exact ⟨hprev'.trans hprev, hrun'.trans hrun, hutc'.trans hutc, rfl, fun h0 => (hfirst (by rw [hrun]; omega)).trans hval,
      fun h1 => hsecond (by rw [hrun]; omega)⟩
  · obtain ⟨theta, he⟩ := irigFrame_taken hup hr hm hk (fun _ => hpar) (irigFollows_of_succession hs) (fun _ => hdel)
    obtain ⟨hsecs, hann, hev, hq⟩ := irigTaken_leap hp hpend hsec
    obtain ⟨tim', hgood, -, -, hutc', hev', hq', -, -⟩ := irigGood_eq (s.irigTaken f) theta
    refine ⟨_, he, ?_⟩
    rw [hgood]
    exact ⟨by rw [← hsecs, ← hutc'], by rw [← hann, ← hutc'], by rw [← hev, ← hev'], by rw [← hq, ← hq']⟩
  · obtain ⟨src, q, inc, htim, -, hpend, -⟩ := sourceGone_does s.tinGone true
    have hsrc : s.tim.src = 0 ∨ s.tim.src = 3 → ¬ (s.tim.src = 1 ∨ s.tim.src = 2) := by
      intro h h'
      rcases h with h | h <;> rcases h' with h' | h' <;> simp [h] at h'
    split_ifs with hsource
    · simp only [Bool.or_eq_true, decide_eq_true_eq] at hsource
      refine ⟨by rw [htim]; rfl, by rw [htim]; simp [State.tinGone, timEvent], hpend, fun h => absurd hsource (hsrc h),
        fun _ hq => ⟨fun h1 h2 h3 => sourceGone_toPtm hq h1 h2 h3, fun h => sourceGone_toHoldover hq h⟩⟩
    · simp only [Bool.or_eq_true, decide_eq_true_eq] at hsource
      exact ⟨rfl, by simp [State.tinGone, timEvent], rfl, fun _ => ⟨rfl, rfl⟩, fun h => absurd h hsource⟩

end Sys2Proof.Machine
end
section
/-! PROOFS. A PTM Request joins the priority queue (R65, R105, R109). -/

namespace Sys2Proof.Machine
open Sys2Proof

/-- Refutes O6 in its first clause. A placement at the tail of the priority queue also ends the wait of the queue's head when
credit covers the head again (R106), and the end of a counted wait writes OUTSIDE and cause 7 into every completion entry that
stands in the queue: the queue before the Request is then not the one that stood there. The state holds one such entry at the
head, credit for it, and a counted wait that nothing has ended yet. -/
theorem not_ptmDialogs : ¬ Obligations.PtmDialogs := by
  unfold Obligations.PtmDialogs
  intro h
  obtain ⟨hrequest, -⟩ := h { State.reset with
    now := 1000 * msC
    clk := { State.reset.clk with rootOk := true }
    pci := { State.reset.pci with
      up := true, ptmEn := true, credit := { ph := 1, pd := 1 }, waitAt := some 0, waitCounted := true
      prio := [{ id := 0, fn := 0, kind := .write, addr := 0, data := List.replicate 16 0, cqe := true }] } }
  obtain ⟨t, x, ht, -, hprio, -⟩ := hrequest rfl rfl rfl rfl (by decide) rfl rfl rfl (by decide)
  obtain rfl := Host.Outcome.next.inj ht
  have hhead := (congrArg List.head? hprio).trans (List.head?_append_of_ne_nil _ (by simp))
  revert hhead
  decide +kernel

end Sys2Proof.Machine
end
section
/-! PROOFS. Ports as the cores reach them, and posted events (R82, R361, R362, R371). -/

namespace Sys2Proof.Machine
open Sys2Proof

section
variable {c : Fin 14} {s : State} {i : Ins} (h : s.runs c i) {e : Instr} {serves : Ins → Bool} {body : Ins → State → Eff}
  (he : exec e s = lrun c serves s body) (hs : serves i = true)
include h he hs

theorem completesIn_of_done {t : State} (hb : body i s = .done t) : completesIn e c i s t := by
  rw [completesIn, he, lrun_runs h serves body hs, hb]
  rfl

theorem exec_of_flt {f : Flt} (hb : body i s = .flt f s) : exec e s = .next (s.takeFault c.val f) := by
  rw [he, lrun_runs h serves body hs, hb]
  rfl

/-! ### Ports -/

variable {port : Nat} {fin : Core → Core}

/-- A row that reads a port: allowed, it completes with the port's value; forbidden by the block, it faults. -/
theorem portIn_cases (hb : body i s = s.portIn c.val port i.d fin) :
    (∀ w t, s.pread c.val (s.core c.val).pl port = .ok w t →
      mpuCheck (s.mpu c.val) 2 0 (s.core c.val).pl vMpuData [port] 0 = none →
      completesIn e c i s (t.onCore c.val fun k => (fin k).setReg i.d w)) ∧
    (mayReadPort c.val (s.core c.val).pl port = false →
      exec e s = .next (s.takeFault c.val { vec := 2, addr := BitVec.ofNat 32 port, space := 2, access := 0 })) := by
  refine ⟨fun w t hr hmpu => completesIn_of_done h he hs ?_, fun hdenied => exec_of_flt h he hs ?_⟩
  · simp only [hb, State.portIn, hr, hmpu]
  · have hr : s.pread c.val (s.core c.val).pl port = .denied := by simp [State.pread, hdenied]
    simp only [hb, State.portIn, hr]
    rfl

/-- A row that writes a port: allowed, it completes with the write; forbidden by the block, it faults. -/
theorem portOut_cases {v : Word} (hb : body i s = s.portOut c.val port v fin) :
    (∀ t, s.pwrite c.val (s.core c.val).pl port v = some t →
      mpuCheck (s.mpu c.val) 2 1 (s.core c.val).pl vMpuData [port] 0 = none →
      completesIn e c i s (t.onCore c.val fin)) ∧
    (mayWritePort c.val (s.core c.val).pl port = false →
      exec e s = .next (s.takeFault c.val { vec := 2, addr := BitVec.ofNat 32 port, space := 2, access := 1 })) := by
  refine ⟨fun t hw hmpu => completesIn_of_done h he hs ?_, fun hdenied => exec_of_flt h he hs ?_⟩
  · simp only [hb, State.portOut, hw, hmpu]
  · simp only [hb, State.portOut, pwrite_denied s v hdenied]
    rfl

end

/-! ### Posted events -/

/-- The event that EVPOST sends for core `c`: class and source from register s, the datum from register d. -/
def State.postedEvent (s : State) (c : Nat) (i : Ins) : DvEv :=
  let k := s.core c
  { typ := 0x0010, src := fld (k.reg i.s) 11 0, cls := BitVec.ofNat 2 (fld (k.reg i.s) 13 12), gts := s.stampAt 5
    core := some c, body := Config.openBody 0x0010 [0, fld (k.reg i.s) 11 0, (k.reg i.d).toNat], jig := s.jigOn }

section
variable {c : Fin 14} {s : State} {i : Ins} (h : s.runs c i) (hop : i.op = 0xE6)
include h hop

/-- EVPOST posts, or refuses and tells so in F; a source that the core may not post is told by an event of the core's own. -/
theorem evpost_completes : completesIn (.evpost c) c i s (
    let w := (s.core c.val).reg i.s
    let told := s.event 0x0010 (coreSrc c.val) c1 (Config.openBody 0x0010 [1, fld w 11 0, ((s.core c.val).reg i.d).toNat])
    let flag (t : State) (b : Bool) := t.onCore c.val fun k => k.setFlag srF b
    if w.toNat ≥ 2 ^ 14 then flag s false
    else if !s.mayPost c.val (fld w 11 0) then flag told false
    else if 8 ≤ s.posted c.val then flag s false
    else flag { s with dv := { s.dv with inbox := s.dv.inbox ++ [s.postedEvent c.val i] } } true) := by
  refine completesIn_of_done h (serves := fun i => i.op = 0xE6) rfl (by simp [hop]) ?_
  dsimp only
  split_ifs <;> rfl

end

/-- Settles O51: the port rows by `portIn_cases` and `portOut_cases`, EVPOST by `evpost_completes`. -/
theorem portsAndPostedEvents : Obligations.PortsAndPostedEvents := by
  unfold Obligations.PortsAndPostedEvents
  refine ⟨fun c s i h => ⟨fun hop => ?_, fun hop => ?_, fun hop => ?_, fun hop => ?_, fun hop hp => ?_, fun hop hp => ?_⟩,
    fun c s i h hop => ⟨fun hw => ?_, fun hw => ⟨fun hmay hroom => ?_, fun hmay hfull => ?_, fun hmay => ?_⟩⟩⟩
  · exact portIn_cases h rfl (by simp [hop]) (by simp [hop, portOf])
  · exact portIn_cases h rfl (by simp [hop]) (by simp [hop, portOf])
  · exact portOut_cases h rfl (by simp [hop]) (by simp [hop, portOf])
  · exact portOut_cases h rfl (by simp [hop]) (by simp [hop, portOf])
  · exact portIn_cases h rfl (by simp [hop, aluOp]) (by simp [hop, hp, portOf])
  · exact portOut_cases h rfl (by simp [hop, aluOp]) (by simp [hop, hp, portOf])
  all_goals have hpost := evpost_completes h hop
  · rw [if_pos hw] at hpost
    exact ⟨_, hpost, rfl⟩
  · rw [if_neg (by omega), if_neg (by simp [hmay]), if_neg (by omega)] at hpost
    exact ⟨_, hpost, rfl, Nat.mod_eq_of_lt (fld_lt _ 13 12), rfl, rfl⟩
  · rw [if_neg (by omega), if_neg (by simp [hmay]), if_pos hfull] at hpost
    exact ⟨_, hpost, rfl⟩
  · rw [if_neg (by omega), if_pos (by simp [hmay])] at hpost
    exact ⟨_, hpost, rfl, rfl⟩

end Sys2Proof.Machine
end
section
/-! PROOFS. Event pins (R77 to R80). -/

namespace Sys2Proof.Machine
open Sys2Proof

/-! ### Raw edges -/

/-- The state with a raw edge of a pin taken in, which Loupe counts when it is a rising one. -/
def State.pinEdged (s : State) (n : Nat) (level : Bool) : State :=
  if level then (s.setPin n { s.pin n with raw := level }).loupeEdges 9 n 1 else s.setPin n { s.pin n with raw := level }

theorem pin_pinEdged (s : State) (n : Nat) (level : Bool) :
    (s.pinEdged n level).pin n = { s.pin n with raw := level } := by
  have h : (s.pinEdged n level).dv = (s.setPin n { s.pin n with raw := level }).dv := by
    unfold State.pinEdged
    split
    · exact (loupeEdges_parts _ 9 n 1).2.1
    · rfl
  rw [State.pin, h]
  exact (setPin_get _ _ _ _).trans (if_pos rfl)

@[simp] theorem pin_post (s : State) (e : DvEv) (n : Nat) : (s.post e).pin n = s.pin n := rfl

/-- The pending change of a pin after a raw edge with a stamp (R78). -/
def State.pinPending (s : State) (n : Nat) (level : Bool) (g : Gts) : PinPend :=
  match (s.pin n).pend with
  | none => { first := g, run := g, runAt := s.now, bounces := 0 }
  | some d =>
    if level = (s.pin n).accepted then { d with runAt := s.now, bounces := d.bounces + 1 }
    else { d with run := g, runAt := s.now }

section
variable {s : State} (hup : s.up = true) (pin : Fin 16) (ph : Fin 4) {level : Bool}

theorem evtEdge_same (h : (s.pin pin.val).raw = level) : exec (.evtEdge pin ph level) s = .next s := if_pos h

variable (h : (s.pin pin.val).raw ≠ level)
include hup h

/-- A raw edge is taken in; at a pin that is not enabled, and before ROOT_OK, nothing else comes of it. -/
theorem evtEdge_idle (hoff : s.clk.rootOk = false ∨ bit (s.pin pin.val).ctrl 0 = false) :
    exec (.evtEdge pin ph level) s = .next (s.pinEdged pin.val level) := by
  change execEvtEdge pin ph level s = _
  unfold execEvtEdge
  simp only [hup, Bool.and_true, Bool.true_and]
  rw [if_neg h, if_pos (by rcases hoff with h | h <;> simp [h])]
  rfl

variable (hr : s.clk.rootOk = true) (hon : bit (s.pin pin.val).ctrl 0 = true)
include hr hon

/-- A raw edge at an enabled pin is accepted at once where no filter runs, and otherwise leaves its change pending. -/
theorem evtEdge_pending : exec (.evtEdge pin ph level) s = .next (
    if level ≠ (s.pin pin.val).accepted && pinLen (s.pin pin.val).ctrl = 0 then
      (s.pinEdged pin.val level).pinAccept pin.val (s.pinPending pin.val level (s.capture ph.val))
    else (s.pinEdged pin.val level).setPin pin.val { s.pin pin.val with
      raw := level, pend := some (s.pinPending pin.val level (s.capture ph.val)) }) := by
  change execEvtEdge pin ph level s = _
  unfold execEvtEdge
  simp only [hup, Bool.and_true, Bool.true_and]
  rw [if_neg h, if_neg (by simp [hr, hon])]
  split <;> rfl

end

/-! ### The filter -/

/-- A change of a kind that is not selected is accepted without an event. -/
theorem pinAccept_unselected {s : State} {n : Nat} (d : PinPend)
    (h : bit (s.pin n).ctrl (if (s.pin n).raw then 1 else 2) = false) :
    s.pinAccept n d = s.setPin n { s.pin n with accepted := (s.pin n).raw, pend := none } := by
  unfold State.pinAccept
  exact if_pos (by rw [h]; rfl)

section
variable {s : State} {n : Nat} (d : PinPend) (h : bit (s.pin n).ctrl (if (s.pin n).raw then 1 else 2) = true)
include h

/-- An event that finds 32 of its pin waiting is lost. -/
theorem pinAccept_lost (hq : 32 ≤ s.pinQueue n) : s.pinAccept n d = s.setPin n { s.pin n with
    accepted := (s.pin n).raw, pend := none, lost := satInc (s.pin n).lost 65535, overflow := true } := by
  unfold State.pinAccept
  dsimp only
  rw [if_neg (by simp [h]), if_pos hq, setPin_setPin]

/-- A change of a selected kind is an event. -/
theorem pinAccept_posts (hq : s.pinQueue n < 32) : ∃ e, s.pinAccept n d = (s.setPin n { s.pin n with
      accepted := (s.pin n).raw, pend := none, excSince := 0, lost := 0 }).post e ∧ e.typ = 0x0010 ∧ e.src = 0x010 + n ∧
    e.gts = pinStamp (s.pin n).ctrl d ∧ e.cls.toNat = fld (s.pin n).ctrl 19 18 := by
  unfold State.pinAccept
  dsimp only
  rw [if_neg (by simp [h]), if_neg (by omega), setPin_setPin]
  exact ⟨_, rfl, rfl, rfl, rfl, Nat.mod_eq_of_lt (fld_lt _ 19 18)⟩

end

section
variable {s : State} (hup : s.up = true) (pin : Fin 16) {d : PinPend} (hd : (s.pin pin.val).pend = some d)
  (hlate : d.runAt + pinLen (s.pin pin.val).ctrl ≤ s.now)
include hup hd hlate

/-- A level that has held for the filter length is accepted, or ends an excursion. -/
theorem evtFilterDone_does : exec (.evtFilterDone pin) s = .next (
    if (s.pin pin.val).raw ≠ (s.pin pin.val).accepted then s.pinAccept pin.val d
    else s.setPin pin.val { s.pin pin.val with
      pend := none, excursions := satInc (s.pin pin.val).excursions 65535
      excSince := satInc (s.pin pin.val).excSince 65535 }) := by
  change execEvtFilterDone pin s = _
  unfold execEvtFilterDone
  simp only [hd]
  rw [if_neg (by simp [hup]; omega)]
  split <;> rfl

end

/-! ### ROOT_OK -/

/-- The pins take their present levels and nothing is posted. -/
theorem pinLevels_of {t : State} (s : State) (l : List Nat) (n : Nat) (hraw : (t.pin n).raw = (s.pin n).raw)
    (hin : t.dv.inbox = s.dv.inbox) (hl : n ∈ l ∨ (t.pin n).accepted = (s.pin n).raw ∧ (t.pin n).pend = none) :
    ((each l (fun i s => s.pinLevel i) t).pin n).accepted = (s.pin n).raw ∧
    ((each l (fun i s => s.pinLevel i) t).pin n).pend = none ∧
    (each l (fun i s => s.pinLevel i) t).dv.inbox = s.dv.inbox := by
  induction l generalizing t with
  | nil => simpa [each, hin] using hl
  | cons m l ih =>
    refine ih (t := t.pinLevel m) ?_ hin ?_
    all_goals by_cases hm : n = m
    · subst hm
      simp [State.pinLevel, hraw]
    · simp [State.pinLevel, hm, hraw]
    · subst hm
      simp [State.pinLevel, hraw]
    · simpa [State.pinLevel, hm] using hl

/-- Settles O9: each clause by the lemma about its command. -/
theorem eventPins : Obligations.EventPins := by
  unfold Obligations.EventPins
  intro s pin hup
  refine ⟨fun ph level h => evtEdge_same pin ph h, fun ph level h hoff => evtEdge_idle hup pin ph h (.inr hoff),
    fun ph level hr hon h => ?_, fun d hd hlate heq => ?_,
    fun d hd hlate hne => ⟨fun hsel => ?_, fun hsel hq => ?_, fun hsel hq => ?_⟩, fun v hv => ?_, fun v hv => ?_, fun ph level h hr => evtEdge_idle hup pin ph h (.inl hr), fun hr hcount => ?_⟩
  · have hdoes := evtEdge_pending hup pin ph h hr hon
    rw [capture_of_rootOk hr] at hdoes
    refine ⟨fun hp hne hlen => ?_, fun d hp heq => ?_, fun d hp hne hlen => ?_, fun hne hlen hsel => ?_⟩
    · rw [if_neg (by simp [hlen])] at hdoes
      simp only [State.pinPending, hp] at hdoes
      exact hdoes
    · rw [if_neg (by simp [heq])] at hdoes
      simp only [State.pinPending, hp, if_pos heq] at hdoes
      exact hdoes
    · rw [if_neg (by simp [hlen])] at hdoes
      simp only [State.pinPending, hp, if_neg hne] at hdoes
      exact hdoes
    · rw [if_pos (by simp [hlen, hne]), pinAccept_unselected _ (by rw [pin_pinEdged]; exact hsel), pin_pinEdged] at hdoes
      exact hdoes
  · rw [evtFilterDone_does hup pin hd hlate, if_neg (by simp [heq])]
  · rw [evtFilterDone_does hup pin hd hlate, if_pos hne, pinAccept_unselected d hsel]
  · obtain ⟨e, he, htyp, hsrc, hgts, hcls⟩ := pinAccept_posts d hsel hq
    refine ⟨_, { e with jig := s.jigOn }, by rw [evtFilterDone_does hup pin hd hlate, if_pos hne, he],
      rfl, htyp, hsrc, hgts, hcls, ?_⟩
    simp +contextual
  · rw [evtFilterDone_does hup pin hd hlate, if_pos hne, pinAccept_lost d hsel hq]
  · change execEvtCtrlWrite pin v s = _
    rw [execEvtCtrlWrite, if_pos hup, State.pinCtrl, if_neg hv]
  · change execEvtCtrlWrite pin v s = _
    rw [execEvtCtrlWrite, if_pos hup, State.pinCtrl, if_pos hv]
  · refine ⟨_, if_neg (by simp [hup, hr]; omega), ?_⟩
    exact pinLevels_of s (upto 16) pin.val rfl rfl (.inl (List.mem_range.2 pin.isLt))

end Sys2Proof.Machine
end
section
/-! PROOFS. The discipline loop at a second boundary (R66 to R72, R87). -/

namespace Sys2Proof.Machine
open Sys2Proof

/-! ### What the GTS depends on -/

theorem gts_of {s t : State} (hsec : t.tim.sec = s.tim.sec) (hacc : t.tim.acc = s.tim.acc)
    (hqual : t.tim.qual = s.tim.qual) : t.gts = s.gts := by
  unfold State.gts
  rw [hsec, hacc, hqual]

theorem units_of {s t : State} (hsec : t.tim.sec = s.tim.sec) (hacc : t.tim.acc = s.tim.acc)
    (hqual : t.tim.qual = s.tim.qual) : t.units = s.units := congrArg gtsUnits (gts_of hsec hacc hqual)

/-! ### What a second begins with -/

/-- TIME_IN's offset of the second, while its reference counts. -/
def State.tinOffset (s : State) : Option Int :=
  if s.tim.tinValid && !s.tim.tinDropped && !s.tim.xchkHold then s.tim.tinTheta else none

/-- A map that firmware has committed is in force from the second's beginning. -/
def State.mapTaken (s : State) : State :=
  match s.loop.mapNext with
  | some m => { s with loop := { s.loop with mapNow := some m, mapNext := none } }
  | none => s

/-- A map that has become stale is told. -/
def State.staleTold (s : State) : State := if s.mapOld && !s.tim.mapStale then timEvent s 7 else s

theorem mapTaken_eq (s : State) :
    ∃ now next, s.mapTaken = { s with loop := { s.loop with mapNow := now, mapNext := next } } := by
  unfold State.mapTaken
  split <;> exact ⟨_, _, rfl⟩

theorem staleTold_eq (s : State) : ∃ ev, s.staleTold = { s with tim := { s.tim with events := ev } } := by
  unfold State.staleTold
  split <;> exact ⟨_, rfl⟩

/-- With PTM disabled a second begins with TIME_IN's offset alone; of the time block only the marks of the second's references
and the events change, and of the loop the map and the count of seconds. -/
theorem secondStart_eq {s : State} (h : s.pci.ptmEn = false) : ∃ stale ev now next slope,
    s.secondStart = ({ s with
      tim := { s.tim with mapStale := stale, ptmValid := false, tinTheta := none, events := ev }
      loop := { s.loop with mapNow := now, mapNext := next, dialogs := [], lastSec := s.tim.sec, ptmDropped := false } },
      s.tinOffset, none, slope) := by
  have hstart : s.secondStart =
      let stale := s.mapTaken.mapOld
      let u := s.mapTaken.staleTold
      let ptm := if stale || !u.pci.ptmEn || !bit u.tim.ctrl 4 then none else ptmOffset u.loop.dialogs
      ({ u with tim := { u.tim with mapStale := stale, ptmValid := ptm.isSome, tinTheta := none }
                loop := { u.loop with dialogs := [], lastSec := u.tim.sec
                                      ptmDropped := u.loop.ptmDropped && ptm.isSome } },
        u.tinOffset, ptm, u.slopeSeed u.loop.dialogs) := rfl
  obtain ⟨now, next, hmap⟩ := mapTaken_eq s
  obtain ⟨ev, htold⟩ := staleTold_eq s.mapTaken
  rw [hstart, htold, hmap]
  simp only [h, Bool.not_false, Bool.or_true, Bool.true_or, if_true, Option.isSome_none, Bool.and_false]
  exact ⟨_, _, _, _, _, rfl⟩

/-- A second begins in which PTM gives no offset: what disciplines the counter stands as it did. -/
def State.secondBegun (s : State) (stale : Bool) (ev : Word) (now next : Option PtmMap) (tin ptm run : Nat) : State :=
  { s with
    tim := { s.tim with mapStale := stale, ptmValid := false, tinTheta := none, events := ev, tinEdge := false }
    loop := { s.loop with mapNow := now, mapNext := next, dialogs := [], lastSec := s.tim.sec, ptmDropped := false
                          inBound := tin, inBoundPtm := ptm, xchkRun := run } }

/-- The rate of the second joins the loop's history. -/
def State.remembered (s : State) : State := { s with loop := { s.loop with hist := (s.loop.f :: s.loop.hist).take 64 } }

section
variable {s : State} (hup : s.up = true) (hr : s.clk.rootOk = true) (hsec : s.loop.lastSec < s.tim.sec)
  (hptm : s.pci.ptmEn = false)

/-- LOOP_SECOND of a second that does not begin leaves the state. -/
theorem loopSecond_other {n : Nat} (h : n ≠ s.tim.sec ∨ n ≤ s.loop.lastSec) : exec (.loopSecond n) s = .next s := by
  refine if_pos ?_
  simp only [Bool.or_eq_true, decide_eq_true_eq]
  rcases h with h | h
  · exact .inl (.inr h)
  · by_cases hn : n = s.tim.sec
    · exact .inr (hn ▸ h)
    · exact .inl (.inr hn)

include hup hr hsec hptm

/-- In the start hold an offset is told and disciplines nothing (R87). -/
theorem loopSecond_hold {theta : Int} (hhold : s.loop.startHold = true) (ht : s.tinOffset = some theta) :
    ∃ stale ev now next tin ptm run, let u := s.secondBegun stale ev now next tin ptm run
      exec (.loopSecond s.tim.sec) s = .next { u with tim := { u.tim with theta := thetaReg theta } } := by
  obtain ⟨stale, ev, now, next, slope, hstart⟩ := secondStart_eq hptm
  refine ⟨stale, ev, now, next, s.loop.inBound, s.loop.inBoundPtm, s.loop.xchkRun, ?_⟩
  change execLoopSecond s.tim.sec s = _
  unfold execLoopSecond
  rw [if_neg (by simp [hup, hr, hsec]), hstart, ht]
  exact if_pos hhold

variable (hhold : s.loop.startHold = false)
include hhold

/-- A second with an offset of TIME_IN alone is that source's. -/
theorem loopSecond_tin {theta : Int} (ht : s.tinOffset = some theta) :
    ∃ stale ev now next tin ptm run, let u := s.secondBegun stale ev now next tin ptm run
    exec (.loopSecond s.tim.sec) s =
      .next (u.runSource (if s.tinMode = 2 then 2 else 1) theta u.tim.irigSeed).remembered := by
  obtain ⟨stale, ev, now, next, slope, hstart⟩ := secondStart_eq hptm
  refine ⟨stale, ev, now, next, inRow s.loop.inBound (if (if s.tinMode = 2 then 2 else 1) = 2 then 200 else 50) (some theta),
    inRow s.loop.inBoundPtm 200 none, 0, ?_⟩
  change execLoopSecond s.tim.sec s = _
  unfold execLoopSecond
  rw [if_neg (by simp [hup, hr, hsec]), hstart, ht]
  exact if_neg (by simp [hhold])

/-- A second without an offset ends the slew, and PTM as the source. -/
theorem loopSecond_none (ht : s.tinOffset = none) :
    ∃ stale ev now next tin ptm run, let u := s.secondBegun stale ev now next tin ptm run
    exec (.loopSecond s.tim.sec) s =
      .next (if s.tim.src = 3 then (u.sourceGone false).noSlew else u.noSlew).remembered := by
  obtain ⟨stale, ev, now, next, slope, hstart⟩ := secondStart_eq hptm
  refine ⟨stale, ev, now, next, inRow s.loop.inBound (if (if s.tinMode = 2 then 2 else 1) = 2 then 200 else 50) none,
    inRow s.loop.inBoundPtm 200 none, 0, ?_⟩
  change execLoopSecond s.tim.sec s = _
  unfold execLoopSecond
  rw [if_neg (by simp [hup, hr, hsec]), hstart, ht]
  exact if_neg (by simp [hhold])

end

/-! ### The disciplining source's second -/

theorem takeGate_parts (s : State) (src : Nat) : (s.takeGate src).tim = s.tim ∧ (s.takeGate src).loop = s.loop := by
  unfold State.takeGate
  split <;> exact ⟨rfl, rfl⟩

/-- The state with a source and its offset told. -/
def State.sourced (s : State) (src : Nat) (theta : Int) : State :=
  { s.takeGate src with tim := { (s.takeGate src).tim with src := BitVec.ofNat 2 src, theta := thetaReg theta } }

theorem sourced_parts (s : State) (src : Nat) (theta : Int) :
    (s.sourced src theta).tim = { s.tim with src := BitVec.ofNat 2 src, theta := thetaReg theta } ∧
    (s.sourced src theta).loop = s.loop := by
  obtain ⟨htim, hloop⟩ := takeGate_parts s src
  exact ⟨by rw [State.sourced, htim], hloop⟩

/-- The state with a sample rejected. -/
def State.sampleRejected (s : State) (src : Nat) : State :=
  (timEvent { s with loop := { s.loop with rejected := s.loop.rejected + 1 } } 2).timeRec [6, src]

theorem sampleRejected_parts (s : State) (src : Nat) :
    (s.sampleRejected src).tim = { s.tim with events := setBit s.tim.events 2 true } ∧
    (s.sampleRejected src).loop.rejected = s.loop.rejected + 1 ∧ (s.sampleRejected src).loop.f = s.loop.f := by
  unfold State.sampleRejected
  obtain ⟨-, -, htim, hloop⟩ := timeRec_parts (timEvent { s with loop := { s.loop with rejected := s.loop.rejected + 1 } } 2)
    [6, src]
  rw [htim, hloop]
  exact ⟨rfl, rfl, rfl⟩

/-- Under lock an offset of 10 us or more is rejected; fewer than three in a row drop no source. -/
theorem runSource_rejects {s : State} {theta : Int} (src : Nat) (seed : Option Int) (hq : s.tim.qual.toNat ≤ 1)
    (h : 10000 * 65536 ≤ theta.natAbs) (hrej : s.loop.rejected < 2) :
    s.runSource src theta seed = (s.sourced src theta).sampleRejected src := by
  obtain ⟨htim, hloop⟩ := sourced_parts s src theta
  have hcond : (decide (theta.natAbs ≥ 10000 * 65536) && decide ((s.sourced src theta).tim.qual.toNat ≤ 1)) = true := by
    rw [htim]
    simp [h, hq]
  refine (if_pos hcond).trans (if_neg ?_)
  have := (sampleRejected_parts (s.sourced src theta) src).2.1
  rw [hloop] at this
  exact this ▸ by omega

theorem runSource_accepts {s : State} {theta : Int} (src : Nat) (seed : Option Int)
    (h : 2 ≤ s.tim.qual.toNat ∨ theta.natAbs < 10000 * 65536) :
    s.runSource src theta seed = ((s.sourced src theta).acceptOffset src theta seed).lockQual src := by
  have hcond : ¬ (decide (theta.natAbs ≥ 10000 * 65536) && decide ((s.sourced src theta).tim.qual.toNat ≤ 1)) = true := by
    rw [(sourced_parts s src theta).1]
    simp only [Bool.and_eq_true, decide_eq_true_eq]
    rintro ⟨h1, h2⟩
    rcases h with h | h <;> omega
  exact if_neg hcond

/-- QUAL is all that a lock changes of the time block and of the loop's rates. -/
theorem lockQual_parts (s : State) (src : Nat) : ∃ q, (s.lockQual src).tim = { s.tim with qual := q } ∧
    (s.lockQual src).loop.f = s.loop.f ∧ (s.lockQual src).loop.slew = s.loop.slew ∧
    (s.lockQual src).loop.rejected = s.loop.rejected ∧ (s.lockQual src).loop.lastSec = s.loop.lastSec := by
  unfold State.lockQual
  split_ifs
  · obtain ⟨hf, hslew, hrej, hlast, -⟩ := setQual_loop s 0
    exact ⟨_, setQual_tim s 0, hf, hslew, hrej, hlast⟩
  · obtain ⟨hf, hslew, hrej, hlast, -⟩ := setQual_loop s 1
    exact ⟨_, setQual_tim s 1, hf, hslew, hrej, hlast⟩
  · exact ⟨_, rfl, rfl, rfl, rfl, rfl⟩

/-! ### An accepted offset of 1PPS -/

/-- f and s after an offset of 1PPS (R67). -/
def State.ppsRate (s : State) (theta : Int) : Int :=
  clampI (200000 * 2 ^ 31) (s.loop.f + theta * 2 ^ (15 - fld s.tim.loop 7 4))
def State.ppsSlew (s : State) (theta : Int) : Int := clampI (50000 * 2 ^ 31) (theta * 2 ^ (15 - fld s.tim.loop 3 0))

/-- The state disciplined by an offset of 1PPS. -/
def State.ppsDisciplined (s : State) (theta : Int) : State :=
  { s with tim := { s.tim with backPend := false, inc := incOf (s.ppsRate theta) (s.ppsSlew theta) }
           loop := { s.loop with
             rejected := 0, seeded := s.loop.seeded ||| 0, f := s.ppsRate theta, slew := s.ppsSlew theta } }

section
variable {s : State} {theta : Int} (seed : Option Int)

theorem acceptOffset_pps : s.acceptOffset 1 theta seed =
    if 2 ≤ s.tim.qual.toNat && theta < -(10000000 * nsU) then
      ({ s with tim := { s.tim with backPend := true }, loop := { s.loop with rejected := 0 } } : State).noSlew
    else if 2 ≤ s.tim.qual.toNat && 10000 * nsU ≤ theta then
      let u := s.ppsDisciplined theta
      let after : Nat := (Int.ofNat u.units + theta).toNat
      (timEvent { u.setCounter after with tim := { (u.setCounter after).tim with loaded := true } } 5).timeRec
        [3, u.units, after]
    else s.ppsDisciplined theta := rfl

theorem acceptOffset_near (h : theta.natAbs < 10000 * 65536) : s.acceptOffset 1 theta seed = s.ppsDisciplined theta := by
  rw [acceptOffset_pps, if_neg (by rw [Bool.and_eq_true, decide_eq_true_eq, decide_eq_true_eq, nsU]; omega),
    if_neg (by rw [Bool.and_eq_true, decide_eq_true_eq, decide_eq_true_eq, nsU]; omega)]

/-- Out of lock an offset of more than 10 ms backward waits for firmware. -/
theorem acceptOffset_backward (hq : 2 ≤ s.tim.qual.toNat) (h : theta < -(10000000 * 65536)) :
    s.acceptOffset 1 theta seed =
      ({ s with tim := { s.tim with backPend := true }, loop := { s.loop with rejected := 0 } } : State).noSlew := by
  rw [acceptOffset_pps, if_pos (by rw [Bool.and_eq_true, decide_eq_true_eq, decide_eq_true_eq, nsU]; omega)]

/-- Out of lock an offset of 10 us or more forward steps the counter. -/
theorem acceptOffset_forward (hq : 2 ≤ s.tim.qual.toNat) (h : 10000 * 65536 ≤ theta) :
    let after := ((s.units : Int) + theta).toNat
    (s.acceptOffset 1 theta seed).tim.sec = after / 65536 / 1000000000 ∧
    (s.acceptOffset 1 theta seed).tim.acc = after % (65536 * 1000000000) * 2 ^ 24 ∧
    (s.acceptOffset 1 theta seed).tim.loaded = true ∧ bit (s.acceptOffset 1 theta seed).tim.events 5 = true := by
  rw [acceptOffset_pps, if_neg (by rw [Bool.and_eq_true, decide_eq_true_eq, decide_eq_true_eq, nsU]; omega),
    if_pos (by rw [Bool.and_eq_true, decide_eq_true_eq, decide_eq_true_eq, nsU]; omega)]
  dsimp only
  rw [units_of (s := s) (t := s.ppsDisciplined theta) rfl rfl rfl, (timeRec_parts _ _).2.2.1]
  exact ⟨rfl, rfl, rfl, by simp [timEvent]⟩

end

/-! ### 1PPS's second -/

section
variable {s : State} {theta : Int} (seed : Option Int)

theorem runSource_near (h : theta.natAbs < 10000 * 65536) :
    (s.runSource 1 theta seed).loop.f = s.ppsRate theta ∧ (s.runSource 1 theta seed).loop.slew = s.ppsSlew theta ∧
    (s.runSource 1 theta seed).tim.inc = incOf (s.ppsRate theta) (s.ppsSlew theta) ∧ (s.runSource 1 theta seed).tim.src = 1 ∧
    (s.runSource 1 theta seed).tim.theta = thetaReg theta ∧ (s.runSource 1 theta seed).loop.rejected = 0 ∧
    (s.runSource 1 theta seed).loop.lastSec = s.loop.lastSec := by
  obtain ⟨htim, hloop⟩ := sourced_parts s 1 theta
  rw [runSource_accepts 1 seed (.inr h), acceptOffset_near seed h]
  obtain ⟨q, hq, hf, hslew, hrej, hlast⟩ := lockQual_parts ((s.sourced 1 theta).ppsDisciplined theta) 1
  rw [hq, hf, hslew, hrej, hlast]
  simp only [State.ppsDisciplined, State.ppsRate, State.ppsSlew, htim, hloop]
  exact ⟨trivial, trivial, trivial, rfl, trivial, trivial, trivial⟩

theorem runSource_far (hq : s.tim.qual.toNat ≤ 1) (h : 10000 * 65536 ≤ theta.natAbs) (hrej : s.loop.rejected < 2) :
    (s.runSource 1 theta seed).loop.rejected = s.loop.rejected + 1 ∧ bit (s.runSource 1 theta seed).tim.events 2 = true ∧
    (s.runSource 1 theta seed).tim.inc = s.tim.inc ∧ (s.runSource 1 theta seed).loop.f = s.loop.f ∧
    (s.runSource 1 theta seed).tim.qual = s.tim.qual := by
  obtain ⟨htim, hloop⟩ := sourced_parts s 1 theta
  obtain ⟨htim', hrej', hf'⟩ := sampleRejected_parts (s.sourced 1 theta) 1
  rw [runSource_rejects 1 seed hq h hrej, htim', hrej', hf', hloop, htim]
  exact ⟨rfl, by simp, rfl, rfl, rfl⟩

theorem runSource_forward (hq : 2 ≤ s.tim.qual.toNat) (h : 10000 * 65536 ≤ theta) :
    let after := ((s.units : Int) + theta).toNat
    (s.runSource 1 theta seed).tim.sec = after / 65536 / 1000000000 ∧
    (s.runSource 1 theta seed).tim.acc = after % (65536 * 1000000000) * 2 ^ 24 ∧
    (s.runSource 1 theta seed).tim.loaded = true ∧ bit (s.runSource 1 theta seed).tim.events 5 = true := by
  obtain ⟨htim, -⟩ := sourced_parts s 1 theta
  rw [runSource_accepts 1 seed (.inl hq)]
  obtain ⟨q, hqual, -⟩ := lockQual_parts ((s.sourced 1 theta).acceptOffset 1 theta seed) 1
  have hforward := acceptOffset_forward (s := s.sourced 1 theta) seed (by rw [htim]; exact hq) h
  rw [units_of (s := s) (by rw [htim]) (by rw [htim]) (by rw [htim])] at hforward
  rw [hqual]
  exact hforward

theorem runSource_backward (hq : 2 ≤ s.tim.qual.toNat) (h : theta < -(10000000 * 65536)) :
    (s.runSource 1 theta seed).tim.backPend = true ∧ (s.runSource 1 theta seed).tim.inc = incOf s.loop.f 0 ∧
    (s.runSource 1 theta seed).tim.sec = s.tim.sec ∧ (s.runSource 1 theta seed).tim.acc = s.tim.acc ∧
    (s.runSource 1 theta seed).loop.f = s.loop.f := by
  obtain ⟨htim, hloop⟩ := sourced_parts s 1 theta
  rw [runSource_accepts 1 seed (.inl hq), acceptOffset_backward seed (by rw [htim]; exact hq) h]
  obtain ⟨q, hqual, hf, -⟩ := lockQual_parts (State.noSlew { s.sourced 1 theta with
    tim := { (s.sourced 1 theta).tim with backPend := true }
    loop := { (s.sourced 1 theta).loop with rejected := 0 } }) 1
  rw [hqual, hf]
  simp only [State.noSlew, State.applyInc, htim, hloop]
  exact ⟨trivial, trivial, trivial, trivial, trivial⟩

end

/-- Settles O7: `loopSecond_tin` and `loopSecond_none` say whose second it is, and the lemmas about an accepted and a rejected
offset what it does. -/
theorem disciplineLoop : Obligations.DisciplineLoop := by
  unfold Obligations.DisciplineLoop
  intro s hup hr
  refine ⟨fun theta hsec htheta hval hdrop hx hptm hm => ?_, fun n h => loopSecond_other h,
    fun hsec ht hptm hhold hsrc => ?_, fun hq hover => ?_, fun hx hlate => if_pos (by simp [hup, hx, hlate])⟩
  · have ht : s.tinOffset = some theta := by simp [State.tinOffset, hval, hdrop, hx, htheta]
    have hsecond : s.loop.startHold = false → ∃ stale ev now next tin ptm run seed, exec (.loopSecond s.tim.sec) s =
        .next ((s.secondBegun stale ev now next tin ptm run).runSource 1 theta seed).remembered := by
      intro hhold
      obtain ⟨stale, ev, now, next, n, m, k, he⟩ := loopSecond_tin hup hr hsec hptm hhold ht
      rw [if_neg (show ¬ s.tinMode = 2 by rw [State.tinMode, hm]; decide)] at he
      exact ⟨stale, ev, now, next, n, m, k, _, he⟩
    refine ⟨fun hhold => ?_, fun hhold hq hnear => ?_, fun hhold hq hfar hrej => ?_, fun hhold hq hfar => ?_,
      fun hhold hq hfar => ?_⟩
    · obtain ⟨stale, ev, now, next, n, m, k, he⟩ := loopSecond_hold hup hr hsec hptm hhold ht
      exact ⟨_, he, rfl, rfl, rfl, rfl, rfl⟩
    all_goals obtain ⟨stale, ev, now, next, n, m, k, seed, he⟩ := hsecond hhold
    · exact ⟨_, he, runSource_near seed hnear⟩
    · exact ⟨_, he, runSource_far seed hq hfar hrej⟩
    · exact ⟨_, he, runSource_forward (s := s.secondBegun stale ev now next n m k) seed hq hfar⟩
    · exact ⟨_, he, runSource_backward seed hq hfar⟩
  · obtain ⟨stale, ev, now, next, n, m, k, he⟩ :=
      loopSecond_none hup hr hsec hptm hhold (by simp [State.tinOffset, ht])
    exact ⟨_, he.trans (congrArg (fun t : State => Host.Outcome.next t.remembered) (if_neg hsrc)),
      rfl, rfl, rfl, rfl, rfl, rfl⟩
  · refine ⟨_, if_pos (by simp [hup, hq, State.holdOver, hover]), ?_⟩
    obtain ⟨hf, -⟩ := setQual_loop s 3
    rw [setQual_tim]
    exact ⟨rfl, rfl, hf, rfl, rfl⟩

end Sys2Proof.Machine
end
section
/-! PROOFS. Loads, rebases, the shadow and PPSO, and what the archive's intake leaves of Dovetail (R60, R72 to R76, R86 to R88). -/

namespace Sys2Proof.Machine
open Sys2Proof

/-! ### Responses, jobs and hash units -/

section
variable (s : State)

@[simp] theorem dv_reply (party tag op status : Nat) (payload : Bytes) :
    (s.reply party tag op status payload).dv = s.dv := by
  unfold State.reply
  split <;> rfl

@[simp] theorem dv_freeUnits (j : Job) : (s.freeUnits j).dv = s.dv := by
  unfold State.freeUnits
  split <;> simp

@[simp] theorem dv_finishJob (j : Job) (status : Nat) (result : Bytes) : (s.finishJob j status result).dv = s.dv := by
  unfold State.finishJob
  split
  · rfl
  · exact dv_freeUnits s j

@[simp] theorem dv_jobRecorded (id status dseq : Nat) : (s.jobRecorded id status dseq).dv = s.dv := by
  unfold State.jobRecorded
  split <;> simp

@[simp] theorem dv_hashWork (cycles : Nat) (avoid : Option Nat) : (s.hashWork cycles avoid).dv = s.dv := by
  unfold State.hashWork
  dsimp only
  split <;> simp [apply_ite State.dv]

@[simp] theorem dv_hashes (len : Nat) : (s.hashes len).dv = s.dv := dv_hashWork s _ _

/-! ### Segments and stripes -/

@[simp] theorem dv_markErase (b : Nat) (f : EraseFor) : (s.markErase b f).dv = s.dv := rfl

@[simp] theorem dv_eraseAhead (b : Nat) : (s.eraseAhead b).dv = s.dv := by
  fun_cases State.eraseAhead <;> simp

@[simp] theorem dv_arcEvent (b : Nat) : (s.arcEvent b).dv = s.dv := rfl

@[simp] theorem dv_arcNotice (code dseq : Nat) : (s.arcNotice code dseq).dv = s.dv := dv_notice s _ _ _

@[simp] theorem dv_leaveStripe : s.leaveStripe.dv = s.dv := by
  simp [State.leaveStripe, apply_ite State.dv]

@[simp] theorem dv_fillSets : s.fillSets.dv = s.dv := by
  unfold State.fillSets
  refine dv_each (fun n s => ?_) _ _
  split <;> rfl

@[simp] theorem dv_takeEmergency : s.takeEmergency.dv = s.dv := by
  unfold State.takeEmergency
  split <;> simp

@[simp] theorem dv_newStripe : s.newStripe.dv = s.dv := by
  unfold State.newStripe
  dsimp only
  split <;> simp

@[simp] theorem dv_dealSeg (num : Nat) : (s.dealSeg num).dv = s.dv := by
  unfold State.dealSeg
  dsimp only
  split <;> simp [apply_ite State.dv]

@[simp] theorem dv_newSeg : s.newSeg.dv = s.dv := by
  simp [State.newSeg]

@[simp] theorem dv_growStream (seg0 a b : Nat) : (s.growStream seg0 a b).dv = s.dv := by
  simp [State.growStream]

/-! ### Records, gaps, runs and drawers -/

@[simp] theorem dv_answer (w : Waiter) (status dseq : Nat) (gts : Gts) : (s.answer w status dseq gts).dv = s.dv := by
  unfold State.answer
  dsimp only
  split <;> simp

@[simp] theorem dv_recNotice (r : Rec) : (s.recNotice r).dv = s.dv := by
  unfold State.recNotice
  dsimp only
  split <;> simp [apply_ite State.dv]

@[simp] theorem dv_placeRec (r : Rec) (w : Waiter) : (s.placeRec r w).dv = s.dv := by
  unfold State.placeRec
  dsimp only
  repeat' split
  all_goals simp

@[simp] theorem dv_putGap (g : Gap) : (s.putGap g).dv = s.dv := dv_placeRec _ _ _

@[simp] theorem dv_closeGaps (p : Gap → Bool) : (s.closeGaps p).dv = s.dv := by
  unfold State.closeGaps
  split <;> simp

@[simp] theorem dv_gapDrop (cls cause records bytes : Nat) (first last : Gts) :
    (s.gapDrop cls cause records bytes first last).dv = s.dv := by
  unfold State.gapDrop
  dsimp only
  split <;> simp

@[simp] theorem dv_putRun (r : Run) : (s.putRun r).dv = s.dv := dv_placeRec _ _ _

@[simp] theorem dv_endRuns (p : Run → Bool) : (s.endRuns p).dv = s.dv := by
  unfold State.endRuns
  split <;> simp

@[simp] theorem dv_newDrawer : s.newDrawer.dv = s.dv := dv_placeRec _ _ _

@[simp] theorem dv_closeDrawer (cause : Nat) : (s.closeDrawer cause).dv = s.dv := by
  unfold State.closeDrawer
  dsimp only
  split <;> simp [apply_ite State.dv]

@[simp] theorem dv_seqFit (r : Rec) (w : Waiter) : (s.seqFit r w).dv = s.dv := by
  fun_cases State.seqFit <;> simp

@[simp] theorem dv_arcRecord (code block seg count : Nat) (extra : Bytes) :
    (s.arcRecord code block seg count extra).dv = s.dv := by
  unfold State.arcRecord
  split <;> simp

@[simp] theorem dv_usage : s.usage.dv = s.dv := by
  unfold State.usage
  dsimp only
  split_ifs <;> simp

@[simp] theorem dv_seqNow (r : Rec) (w : Waiter) : (s.seqNow r w).dv = s.dv := by
  simp [State.seqNow]

/-! ### The intake -/

@[simp] theorem dv_calmCheck : s.calmCheck.dv = s.dv := rfl

@[simp] theorem dv_keepDuty (old : State) : (s.keepDuty old).dv = s.dv := by
  unfold State.keepDuty
  refine dv_each (fun e t => ?_) _ _
  dsimp only
  split <;> rfl

@[simp] theorem dv_capacityNotice : s.capacityNotice.dv = s.dv := dv_notice s _ _ _

@[simp] theorem dv_countRepeat (a : Arrival) : (s.countRepeat a).dv = s.dv := by
  unfold State.countRepeat
  dsimp only
  split <;> simp [apply_ite State.dv]

@[simp] theorem dv_originalPlaced (r : Rec) (dseq : Nat) : (s.originalPlaced r dseq).dv = s.dv := by
  simp [State.originalPlaced]

/-! Capacity that comes and goes with the profile is posted, and leaves the store and the last release. -/

theorem dovetail_setCause (cause : Nat) (on : Bool) (count : Nat) : (s.setCause cause on count).dovetail = s.dovetail := by
  unfold State.setCause
  split
  · rfl
  · exact (dovetail_of_dv ((dv_capacityNotice _).trans (dv_statusTouch _))).trans rfl

theorem dovetail_laneGuard : s.laneGuard.dovetail = s.dovetail := by
  unfold State.laneGuard
  dsimp only
  split_ifs
  · exact dovetail_setCause _ _ _ _
  · exact dovetail_setCause _ _ _ _
  · rfl

theorem dovetail_toProfile (p : Profile) (cause : Nat) : (s.toProfile p cause).dovetail = s.dovetail := by
  refine (dovetail_of_dv ((dv_noticeAll _ _ _).trans (dv_statusTouch _))).trans ?_
  exact (dovetail_laneGuard _).trans (dovetail_of_dv ((dv_keepDuty _ _).trans (dv_keepDuty _ _)))

theorem dovetail_enterIncident : s.enterIncident.dovetail = s.dovetail := by
  unfold State.enterIncident
  split
  · rfl
  · exact (dovetail_of_dv ((dv_arcRecord _ _ _ _ _ _).trans (dv_arcEvent _ _))).trans (dovetail_toProfile _ _ _)

theorem dovetail_acceptRec (a : Arrival) : (s.acceptRec a).dovetail = s.dovetail := by
  refine (dovetail_of_dv (dv_calmCheck _)).trans ((dovetail_enterIncident _).trans (dovetail_of_dv ?_))
  simp [apply_ite State.dv]

theorem dovetail_intake (a : Arrival) : (s.intake a).dovetail = s.dovetail := by
  unfold State.intake
  dsimp only
  have hacc := dovetail_acceptRec s a
  split_ifs
  · exact dovetail_of_dv (dv_answer s _ _ _ _)
  · exact hacc
  · exact dovetail_of_dv (by simp)
  · exact dovetail_of_dv (dv_countRepeat s a)
  · exact hacc
  · exact dovetail_of_dv (by simp)
  · exact hacc

theorem dovetail_foldl {α : Type} {f : State → α → State} (h : ∀ t a, (f t a).dovetail = t.dovetail) (l : List α)
    (s : State) :
    (l.foldl f s).dovetail = s.dovetail := by
  induction l generalizing s with
  | nil => rfl
  | cons a l ih => rw [List.foldl_cons, ih, h]

/-- What the intake takes and sequences before a rebase leaves the store and the last release. -/
theorem dovetail_drainIntake : s.drainIntake.dovetail = s.dovetail := by
  have hin (t : State) : (nextOr t (execRecordIntake t)).dovetail = t.dovetail := by
    fun_cases execRecordIntake
    · rfl
    · rfl
    · exact dovetail_intake _ _
  have hseq (t : State) : (nextOr t (execRecordSequence t)).dovetail = t.dovetail := by
    refine dovetail_of_dv ?_
    unfold execRecordSequence
    dsimp only
    repeat' split
    all_goals simp [nextOr]
  exact (dovetail_foldl (fun t _ => hseq t) _ _).trans (dovetail_foldl (fun t _ => hin t) _ _)

end

/-! ### The store runs empty (R73 step 1) -/

/-- Not every held event waits for another: one of the lowest AO sequence number waits for none. -/
theorem not_all_blocked {l : List DvEv} (h : ∀ x ∈ l, dvBlocked l x = true) : l = [] := by
  have hblocked : ∀ x ∈ l, ∃ a b, x.aoseq = some a ∧ b < a ∧ ∃ y ∈ l, y.aoseq = some b := by
    intro x hx
    obtain ⟨a, ha, hany⟩ := (Option.any_eq_true _ _).1 (h x hx)
    obtain ⟨y, hy, hyany⟩ := List.any_eq_true.1 hany
    obtain ⟨b, hb, hlt⟩ := (Option.any_eq_true _ _).1 hyany
    exact ⟨a, b, ha, of_decide_eq_true hlt, y, hy, hb⟩
  have hnone : ∀ n, ∀ x ∈ l, x.aoseq ≠ some n := by
    intro n
    induction n using Nat.strong_induction_on with
    | _ n ih =>
      intro x hx hn
      obtain ⟨a, b, ha, hb, y, hy, hyb⟩ := hblocked x hx
      exact ih b (by rw [hn] at ha; cases ha; exact hb) y hy hyb
  rcases l with _ | ⟨x, l⟩
  · rfl
  · obtain ⟨a, b, ha, -⟩ := hblocked x (by simp)
    exact absurd ha (hnone a x (by simp))

theorem dvHead_none {s : State} (h : s.dvHead = none) : s.dv.store = [] := by
  have hf := dvFirst_spec (fun e => !dvBlocked s.dv.store e) s.dv.store [] none (by simp [FirstOf])
  change FirstOf _ _ s.dvHead at hf
  rw [h] at hf
  refine not_all_blocked fun x hx => ?_
  simpa using hf x hx

theorem length_ldel {α : Type} {l : List α} {i : Nat} {a : α} (h : l[i]? = some a) : (ldel l i).length + 1 = l.length := by
  induction l generalizing i with
  | nil => simp at h
  | cons x l ih =>
    cases i with
    | zero => rfl
    | succ i => exact congrArg (· + 1) (ih h)

/-- As many releases as the store holds events empty it. -/
theorem store_dvFlush (n : Nat) (s : State) (h : s.dv.store.length ≤ n) : (s.dvFlush n).dv.store = [] := by
  induction n generalizing s with
  | zero => exact List.length_eq_zero_iff.1 (Nat.le_zero.1 h)
  | succ n ih =>
    unfold State.dvFlush
    cases hd : s.dvHead with
    | none => exact dvHead_none hd
    | some p =>
      have hlen := length_ldel (dvHead_first hd).1
      exact ih _ (by rw [(dvOut_dv _ _ _).2.1]; dsimp only; omega)

/-! ### A rebase -/

/-- The state of a rebase before its quality is reported and its record written. -/
def State.rebased (s : State) (u : Nat) : State :=
  let t := ((s.dvFlush s.dv.store.length).drainIntake.closeDrawer 8).setCounter u
  { t with tim := { t.tim with backPend := false, loaded := true }, dv := { t.dv with lastRel := none } }

theorem rebased_store (s : State) (u : Nat) : (s.rebased u).dv.store = [] := by
  obtain ⟨hstore, -⟩ := store_of_dovetail (dovetail_drainIntake (s.dvFlush s.dv.store.length))
  change ((s.dvFlush s.dv.store.length).drainIntake.closeDrawer 8).dv.store = []
  rw [dv_closeDrawer, hstore, store_dvFlush _ _ (Nat.le_refl _)]

/-- The record of a rebase leaves the time block and Dovetail. -/
theorem rebase_eq {s : State} (hr : s.clk.rootOk = true) (u : Nat) :
    (s.rebase u).tim = ((s.rebased u).setQual 3).tim ∧ (s.rebase u).dv = ((s.rebased u).setQual 3).dv := by
  obtain ⟨r, h⟩ : ∃ r, s.rebase u = if ((s.rebased u).setQual 3).arc.openDrawer.isSome then
      ((s.rebased u).setQual 3).placeRec r .none else ((s.rebased u).setQual 3).arrive r .none false :=
    ⟨_, if_neg (by simp [hr])⟩
  rw [h]
  generalize (s.rebased u).setQual 3 = w
  split
  · exact ⟨(congrArg Outside.tim (outside_placeRec w r .none) :), dv_placeRec w r .none⟩
  · exact ⟨rfl, rfl⟩

/-- A rebase sets the counter either way, leaves QUAL at 0b11, and holds no event and no last release. -/
theorem rebase_parts {s : State} (hr : s.clk.rootOk = true) (u : Nat) :
    (s.rebase u).tim.sec = u / 65536 / 1000000000 ∧ (s.rebase u).tim.acc = u % (65536 * 1000000000) * 2 ^ 24 ∧
    (s.rebase u).tim.qual = 3 ∧ (s.rebase u).tim.backPend = false ∧ (s.rebase u).tim.loaded = true ∧
    (s.rebase u).dv.store = [] ∧ (s.rebase u).dv.lastRel = none := by
  obtain ⟨htim, hdv⟩ := rebase_eq hr u
  obtain ⟨-, -, -, -, -, hheld⟩ := setQual_parts (s.rebased u) 3
  obtain ⟨hstore, hlast⟩ := store_of_dovetail hheld
  rw [htim, hdv, setQual_tim, hstore, hlast, rebased_store]
  exact ⟨rfl, rfl, rfl, rfl, rfl, rfl, rfl⟩

/-! ### Loads -/

section
variable {s : State} {u : Nat}

/-- A load forward while the root runs and QUAL is 0b11 sets the counter and ends the start hold. -/
theorem timeLoad_allowed (hr : s.clk.rootOk = true) (hq : s.tim.qual = 3) (h : s.units < u) :
    (s.timeLoad u).tim.sec = u / 65536 / 1000000000 ∧ (s.timeLoad u).tim.acc = u % (65536 * 1000000000) * 2 ^ 24 ∧
    (s.timeLoad u).tim.loaded = true ∧ (s.timeLoad u).tim.qual = s.tim.qual ∧ (s.timeLoad u).loop.startHold = false ∧
    (s.timeLoad u).loop.armed = true ∧ (s.loop.startHold = true → (s.timeLoad u).loop.loadAt = s.now) ∧
    (s.timeLoad u).dovetail = s.dovetail ∧ (s.timeLoad u).drn = s.drn := by
  unfold State.timeLoad
  rw [if_pos (by simp [State.loadAllowed, hr, hq, h])]
  dsimp only
  obtain ⟨hdrn, hdv, htim, hloop⟩ := timeRec_parts
    (State.armTime { s.setCounter u with tim := { (s.setCounter u).tim with loaded := true } }) [2, s.units, u]
  rw [hdrn, hdv, htim, hloop]
  exact ⟨rfl, rfl, rfl, rfl, rfl, rfl, fun h => if_pos h, rfl, rfl⟩

theorem timeLoad_refused (h : s.clk.rootOk = false ∨ s.tim.qual ≠ 3 ∨ u ≤ s.units) :
    s.loadAllowed u = false ∧ s.timeLoad u = timEvent s 6 := by
  have hno : s.loadAllowed u = false := by
    rcases h with h | h | h
    · simp [State.loadAllowed, h]
    · rw [State.loadAllowed, decide_eq_false h, Bool.and_false, Bool.false_and]
    · rw [State.loadAllowed, decide_eq_false (Nat.not_lt.2 h), Bool.and_false]
  exact ⟨hno, if_neg (by simp [hno])⟩

end

/-! ### The time shadow -/

theorem copyShadow_at {s : State} (k : Nat) : State.copyShadow { s with loop := { s.loop with shadowIdx := k } } =
    { s with loop := { s.loop with shadowIdx := k }
             tim := { s.tim with shadow := (s.gts >>> 18).truncate 78, shadowPresent := true } } := by
  simp only [State.copyShadow, State.gts]

theorem shadowCopy_due {s : State} (hup : s.up = true) (harm : s.loop.armed = true)
    (hk : s.units / 65536 / 2 ^ 20 ≠ s.loop.shadowIdx) : exec .shadowCopy s =
      .next (State.copyShadow { s with loop := { s.loop with shadowIdx := s.units / 65536 / 2 ^ 20 } }) :=
  if_neg (by simp only [hup, harm, Bool.not_true, Bool.false_or, decide_eq_true_eq]; exact hk)

/-! ### PPSO -/

theorem setPpso_parts (s : State) (on : Bool) : (s.setPpso on).tim = s.tim ∧ (s.setPpso on).loop.ppsoOn = on ∧
    (s.setPpso on).loop.ppsoPhase = s.loop.ppsoPhase ∧ (s.setPpso on).loop.ppsoEnd = s.loop.ppsoEnd := by
  unfold State.setPpso
  dsimp only
  split <;> simp

theorem ppsoLevel_setPpso (s : State) (on : Bool) : (s.setPpso on).ppsoLevel = (on != bit s.tim.ppsoCtrl 1) := by
  obtain ⟨htim, hon, -⟩ := setPpso_parts s on
  rw [State.ppsoLevel, hon, htim]

/-- What lies between the counter and PPSO's next edge, in the units of the counter's sub-second part. -/
def State.ppsoAhead (s : State) : Nat :=
  ((s.tim.ppsoOfs.toInt * 2 ^ 40 - (s.tim.acc : Int)).emod (1000000000 * 2 ^ 40)).toNat

/-- The state with a pulse's end and its phase set. -/
def State.ppsoBegun (s : State) (p : BitVec 2) : State :=
  { s with loop := { s.loop with stepped := false, ppsoEnd := s.now + s.ppsoWidth, ppsoPhase := p } }

/-- A boundary in this cycle begins a pulse where the quality allows. -/
theorem ppsoPulse_due {s : State} {p : BitVec 2} (hup : s.up = true) (hr : s.clk.rootOk = true)
    (hen : bit s.tim.ppsoCtrl 0 = true) (hoff : s.loop.ppsoOn = false) (hstep : s.loop.stepped = false)
    (hq : s.tim.qual.toNat ≤ fld s.tim.ppsoCtrl 3 2) (hp : s.ppsoPhase = some p) :
    exec .ppsoPulse s = .next ((s.ppsoBegun p).setPpso true) := by
  change execPpsoPulse s = _
  unfold execPpsoPulse
  dsimp only
  rw [if_neg (by simp [hup, hr, hen, hoff, hstep, hq]), hp]
  rfl

/-- Settles O8: a rebase by `rebase_parts`, a load by `timeLoad_allowed` and `timeLoad_refused`, PPSO by `setPpso_parts`; the
other commands change what they name. -/
theorem timeSetting : Obligations.TimeSetting := by
  unfold Obligations.TimeSetting
  intro s hup
  refine ⟨fun hr hq h => ?_, fun h => ?_, fun hr => ?_, if_pos hup, fun harm hk => ?_, fun harm => ?_,
    fun hhold hnone hlate => ?_, fun hr hen hoff hstep hq hcycle => ?_, fun hon hend => ?_⟩
  · obtain ⟨hsec, hacc, hloaded, hqual, hhold, harm, hat, hheld, -⟩ := timeLoad_allowed hr hq h
    exact ⟨_, if_pos hup, hsec, hacc, hloaded, hhold, harm, hat, hqual.trans hq, (store_of_dovetail hheld).1⟩
  · exact (if_pos hup).trans (congrArg Host.Outcome.next (timeLoad_refused h).2)
  · exact ⟨_, if_pos hup, rebase_parts hr _⟩
  · exact (shadowCopy_due hup harm hk).trans (congrArg Host.Outcome.next (copyShadow_at _))
  · exact if_pos (by simp [harm])
  · exact if_neg (by simp [hup, hhold, hnone, hlate])
  · obtain ⟨htim, hon, hphase, hend⟩ := setPpso_parts (s.ppsoBegun (BitVec.ofNat 2 (4 * s.ppsoAhead / s.tim.inc))) true
    refine ⟨_, ppsoPulse_due hup hr hen hoff hstep hq (if_pos hcycle), hon, hphase, hend, ?_, htim⟩
    rw [ppsoLevel_setPpso, Bool.true_bne]
    rfl
  · obtain ⟨htim, hon', -⟩ := setPpso_parts s false
    refine ⟨_, if_pos (by simp [hup, hon, hend]), hon', ?_, htim⟩
    rw [ppsoLevel_setPpso, Bool.false_bne]

end Sys2Proof.Machine
end
section
/-! PROOFS. The time commands of Driner (R73, R90, R91). -/

namespace Sys2Proof.Machine
open Sys2Proof

/-! ### Numbers that a payload spells -/

theorem ofLe_lt (b : Bytes) : ofLe b < 2 ^ (8 * b.length) := by
  induction b with
  | nil => decide
  | cons x b ih =>
    have hx := x.isLt
    rw [ofLe, List.length_cons, Nat.mul_add, Nat.pow_add]
    omega

theorem leAt_lt (b : Bytes) (o n : Nat) : leAt b o n < 2 ^ (8 * n) := by
  have h : (sub b o n).length = n := by
    simp only [sub, List.length_append, List.length_replicate]
    have := List.length_take_le n (b.drop o)
    omega
  exact (ofLe_lt (sub b o n)).trans_eq (by rw [h])

/-! ### Fields of words that are put together -/

section
variable (a b : Word) (hi lo v : Nat)

theorem fld_or : fld (a ||| b) hi lo = fld a hi lo ||| fld b hi lo := by
  refine Nat.eq_of_testBit_eq fun j => ?_
  rw [Nat.testBit_or, testBit_fld, testBit_fld, testBit_fld, ← Bool.and_or_distrib_left]
  exact congrArg _ BitVec.getLsbD_or

theorem fld_bf_same (h : hi < 32) (hv : v < 2 ^ (hi + 1 - lo)) : fld (bf hi lo v) hi lo = v := by
  refine Nat.eq_of_testBit_eq fun j => ?_
  rw [testBit_fld, bit, getLsbD_bf]
  by_cases hj : j < hi + 1 - lo
  · simp [hj, show lo + j < 32 by omega]
  · simp [hj, Nat.testBit_lt_two_pow (Nat.lt_of_lt_of_le hv (Nat.pow_le_pow_right (by decide) (Nat.le_of_not_lt hj)))]

variable {hi lo} in
theorem fld_bf_other {hi' lo' : Nat} (h : hi < lo' ∨ hi' < lo) : fld (bf hi' lo' v) hi lo = 0 := by
  refine Nat.eq_of_testBit_eq fun j => ?_
  rw [testBit_fld, bit, getLsbD_bf, Nat.zero_testBit]
  by_cases hj : j < hi + 1 - lo
  · rcases h with h | h
    · simp [show ¬ lo' ≤ lo + j by omega]
    · simp [show ¬ lo + j - lo' < hi' + 1 - lo' by omega]
  · simp [hj]

theorem fld_and : fld (a &&& b) hi lo = fld a hi lo &&& fld b hi lo := by
  refine Nat.eq_of_testBit_eq fun j => ?_
  rw [Nat.testBit_and, testBit_fld, testBit_fld, testBit_fld,
    show bit (a &&& b) (lo + j) = (bit a (lo + j) && bit b (lo + j)) from BitVec.getLsbD_and]
  cases decide (j < hi + 1 - lo) <;> simp

/-- A mask that covers a field keeps it. -/
theorem fld_and_mask {m : Word} (h : fld m hi lo = 2 ^ (hi + 1 - lo) - 1) : fld (a &&& m) hi lo = fld a hi lo := by
  rw [fld_and, h, Nat.and_two_pow_sub_one_eq_mod, Nat.mod_eq_of_lt (fld_lt a hi lo)]

/-- A mask that leaves a field out clears it. -/
theorem fld_and_off {m : Word} (h : fld m hi lo = 0) : fld (a &&& m) hi lo = 0 := by
  rw [fld_and, h, Nat.and_zero]

end

/-! ### A command that changes the time block -/

/-- A command answers, and leaves the time block, the loop and Dovetail as `f` makes them. -/
def State.does (s : State) (e : Instr) (r : Req) (op st : Nat) (p : Bytes) (f : State → State) : Prop :=
  ∃ t d, exec e s = .next t ∧ t.answers r op st p ∧ t.tim = (f { s with drn := d }).tim ∧
    t.loop = (f { s with drn := d }).loop ∧ t.dv = (f { s with drn := d }).dv

/-- A command that answers at once does what its body does, where that leaves the commands outstanding. -/
theorem does_of_body {s : State} {op : Nat} {r : Req} (h : s.begins op r) {e : Instr} {body : State → State × Nat × Bytes}
    {f : State → State} {st : Nat} {p : Bytes} (he : exec e s = drinerNow op r s body)
    (hb : ∀ d, body { s with drn := d } = (f { s with drn := d }, st, p))
    (hout : ∀ d, (f { s with drn := d }).drn.out = d.out) : s.does e r op st p f := by
  have hbody : body (s.begun op r) = (f { s with drn := (s.begun op r).drn }, st, p) := by rw [begun_eq]; exact hb _
  refine ⟨_, (s.begun op r).drn, he.trans (drinerNow_begins h body), ?_⟩
  rw [hbody]
  refine ⟨reply_answers ?_ st p, ?_⟩
  · rw [hout]
    exact begun_contains s op r
  · rw [reply_eq]
    exact ⟨rfl, rfl, rfl⟩

section
variable {s : State} {r : Req}

/-! ### What is only read -/

theorem timeGet_answers (h : s.begins 0x0201 r) : exec (.timeGet r) s = .next ((s.begun 0x0201 r).holdFor true r.party
    0x0201 r.tag stOk false (le 12 (s.takenGts r).toNat ++ le 4 (min s.estErr 65535) ++ le 1 s.tim.src.toNat)) := by
  change drinerNow 0x0201 r s (fun t =>
    (t, stOk, le 12 (s.takenGts r).toNat ++ le 4 (min t.estErr 65535) ++ le 1 t.tim.src.toNat)) = _
  exact drinerNow_reads h fun _ => rfl

theorem timeStatus_answers (h : s.begins 0x0202 r) : exec (.timeStatus r) s = .next ((s.begun 0x0202 r).holdFor true r.party
    0x0202 r.tag stOk false (le 4 s.timStatus.toNat ++ le 4 s.tim.theta.toNat ++ le 8 s.tim.inc ++ le 4 s.tim.utc.toNat ++
      le 4 s.tim.events.toNat)) := by
  change execTimeStatus r s = _
  exact drinerNow_reads h fun _ => rfl

/-! ### What takes its fields -/

theorem ctrlTime_parts (s : State) (v : Word) :
    (s.ctrlTime v).tim.ctrl = v &&& 0xFF1F ∧ (s.ctrlTime v).drn.out = s.drn.out := by
  have hkeep (t : State) : (t.sourceGone true).tim.ctrl = t.tim.ctrl ∧ (t.sourceGone true).drn.out = t.drn.out := by
    obtain ⟨src, q, inc, htim, -, -, -, hout, -⟩ := sourceGone_does t true
    exact ⟨by rw [htim], hout⟩
  unfold State.ctrlTime
  dsimp only
  split_ifs <;> simp [hkeep, timEvent]

/-- The state with the fields of TIME_CONFIG taken. -/
def State.timeConfigured (s : State) (p : Bytes) : State :=
  let b (i : Nat) := leAt p i 1
  let t := s.ctrlTime (bf 1 0 (b 0) ||| bf 2 2 (b 1) ||| bf 3 3 (b 2) ||| bf 4 4 (b 3) ||| bf 15 8 (b 4))
  { t with tim := { t.tim with
      loop := bf 3 0 (b 5) ||| bf 7 4 (b 6) ||| bf 17 8 (leAt p 8 2)
      tinDelay := BitVec.ofNat 20 (leAt p 12 4)
      hold := bf 15 0 (leAt p 16 2) ||| bf 31 16 (leAt p 18 2) } }

theorem timeConfig_does (h : s.begins 0x0203 r) (h0 : leAt r.payload 0 1 ≤ 2) (h1 : leAt r.payload 1 1 ≤ 1)
    (h2 : leAt r.payload 2 1 ≤ 1) (h3 : leAt r.payload 3 1 ≤ 1) (h5 : leAt r.payload 5 1 ≤ 15)
    (h6 : leAt r.payload 6 1 ≤ 15) (h7 : leAt r.payload 7 1 = 0) (h8 : 1 ≤ leAt r.payload 8 2)
    (h8' : leAt r.payload 8 2 ≤ 1000) (h10 : leAt r.payload 10 2 = 0) (h12 : leAt r.payload 12 4 < 2 ^ 20) :
    s.does (.timeConfig r) r 0x0203 stOk [] (·.timeConfigured r.payload) := by
  have he : exec (.timeConfig r) s = execTimeConfig r s := rfl
  unfold execTimeConfig at he
  refine does_of_body h he (fun d => if_neg ?_) (fun d => ?_)
  · simp only [Bool.or_eq_true, decide_eq_true_eq]
    omega
  · exact (ctrlTime_parts { s with drn := d } _).2

/-- The state with the map of TIME_SET_MAP committed. -/
def State.mapSet (s : State) (p : Bytes) : State :=
  let t0 : Gts := BitVec.ofNat 96 (leAt p 8 12)
  ({ s with tim := { s.tim with map :=
    { p0 := BitVec.ofNat 64 (leAt p 0 8), t0Nsec := BitVec.ofNat 30 (gtsNsec t0), t0Sec := BitVec.ofNat 48 (gtsSec t0)
      rate := BitVec.ofNat 32 (leAt p 20 4), unc := BitVec.ofNat 16 (leAt p 24 4) } } } : State).mapCommit

theorem timeSetMap_does (h : s.begins 0x0204 r) (hn : gtsNsec (BitVec.ofNat 96 (leAt r.payload 8 12)) ≤ 999999999)
    (hu : leAt r.payload 24 4 ≤ 65535) : s.does (.timeSetMap r) r 0x0204 stOk [] (·.mapSet r.payload) := by
  have he : exec (.timeSetMap r) s = execTimeSetMap r s := rfl
  unfold execTimeSetMap at he
  refine does_of_body h he (fun d => if_neg ?_) (fun d => ?_)
  · simp only [Bool.or_eq_true, decide_eq_true_eq]
    omega
  · rfl

theorem timeSetUtc_does (h : s.begins 0x0205 r) (hv : leAt r.payload 2 2 ≤ 1) :
    s.does (.timeSetUtc r) r 0x0205 stOk []
      (·.timWrite 0x0510 (bf 15 0 (leAt r.payload 0 2) ||| bf 31 31 (leAt r.payload 2 2))) := by
  have he : exec (.timeSetUtc r) s = execTimeSetUtc r s := rfl
  unfold execTimeSetUtc at he
  refine does_of_body h he (fun d => if_neg ?_) (fun d => ?_)
  · exact Nat.not_lt.2 hv
  · rfl

/-- The state with the fields of PPSO_CONFIG taken. -/
def State.ppsoConfigured (s : State) (p : Bytes) : State :=
  { s with tim := { s.tim with
    ppsoCtrl := bf 0 0 (leAt p 0 1) ||| bf 1 1 (leAt p 1 1) ||| bf 3 2 (leAt p 2 1) ||| bf 22 4 (leAt p 4 4)
    ppsoOfs := BitVec.ofNat 32 (leAt p 8 4) } }

theorem ppsoConfig_does (h : s.begins 0x0208 r) (h0 : leAt r.payload 0 1 ≤ 1) (h1 : leAt r.payload 1 1 ≤ 1)
    (h2 : leAt r.payload 2 1 ≤ 3) (h3 : leAt r.payload 3 1 = 0) (h4 : 1 ≤ leAt r.payload 4 4)
    (h4' : leAt r.payload 4 4 ≤ 500000) (h8 : (BitVec.ofNat 32 (leAt r.payload 8 4) : Word).toInt.natAbs ≤ 499999999) :
    s.does (.ppsoConfig r) r 0x0208 stOk [] (·.ppsoConfigured r.payload) := by
  have he : exec (.ppsoConfig r) s = execPpsoConfig r s := rfl
  unfold execPpsoConfig at he
  refine does_of_body h he (fun d => if_neg ?_) (fun d => ?_)
  · simp only [ppsoWidthOk, ppsoOfsOk, Bool.or_eq_true, Bool.not_eq_true', Bool.and_eq_false_iff, decide_eq_true_eq,
      decide_eq_false_iff_not]
    omega
  · rfl

/-! ### Event pins -/

theorem evtConfig_does (h : s.begins 0x0209 r) (hn : leAt r.payload 0 1 ≤ 15)
    (hv : fld (BitVec.ofNat 32 (leAt r.payload 1 4)) 16 15 ≠ 3)
    (hq : bit (BitVec.ofNat 32 (leAt r.payload 1 4)) 20 = false ∨ ((s.qw (leAt r.payload 5 4)).en = true ∧
      s.ownsQp 0 (leAt r.payload 5 4) = true ∧ (s.qw (leAt r.payload 5 4)).evq = true)) :
    s.does (.evtConfig r) r 0x0209 stOk [] fun t => t.setPin (leAt r.payload 0 1) { s.pin (leAt r.payload 0 1) with
      ctrl := BitVec.ofNat 32 (leAt r.payload 1 4), accepted := (s.pin (leAt r.payload 0 1)).raw, pend := none
      qpn := leAt r.payload 5 4 } := by
  have he : exec (.evtConfig r) s = execEvtConfig r s := rfl
  unfold execEvtConfig at he
  refine does_of_body h he (fun d => (if_neg ?_).trans ((if_neg ?_).trans ?_)) (fun d => rfl)
  · simp only [Bool.or_eq_true, decide_eq_true_eq]
    omega
  · have hqw (d : Drn) (q : Nat) : ({ s with drn := d } : State).qw q = s.qw q := rfl
    have hown (d : Drn) (q : Nat) : ({ s with drn := d } : State).ownsQp 0 q = s.ownsQp 0 q := rfl
    rcases hq with hq | ⟨h1, h2, h3⟩
    · simp [hq]
    · simp [hqw, hown, h1, h2, h3]
  · simp only [State.pinCtrl, if_neg hv, setPin_setPin, setPin_get, if_true]
    rfl

theorem evtRead_does (h : s.begins 0x020A r) (hn : leAt r.payload 0 1 ≤ 15) :
    s.does (.evtRead r) r 0x020A stOk (le 4 (s.pinStat (leAt r.payload 0 1)).1.toNat)
      fun t => t.setPin (leAt r.payload 0 1) { s.pin (leAt r.payload 0 1) with excursions := 0 } := by
  have he : exec (.evtRead r) s = execEvtRead r s := rfl
  unfold execEvtRead at he
  exact does_of_body h he (fun d => if_neg (Nat.not_lt.2 hn)) (fun d => rfl)

/-! ### Loads -/

/-- The state with a load of TIME_LOAD done or refused. -/
def State.loadSet (s : State) (g : Gts) : State := ({ s with tim := { s.tim with load := g } } : State).timeLoad (gtsUnits g)

theorem units_withLoad (s : State) (g : Gts) : ({ s with tim := { s.tim with load := g } } : State).units = s.units :=
  units_of rfl rfl rfl

theorem units_withDrn (s : State) (d : Drn) : ({ s with drn := d } : State).units = s.units := units_of rfl rfl rfl

theorem loadAllowed_withDrn (s : State) (d : Drn) (u : Nat) :
    ({ s with drn := d } : State).loadAllowed u = s.loadAllowed u := by
  rw [State.loadAllowed, State.loadAllowed, units_withDrn]

section
variable {g : Gts}

theorem loadSet_allowed (s : State) (hr : s.clk.rootOk = true) (hq : s.tim.qual = 3) (h : s.units < gtsUnits g) :
    (s.loadSet g).tim.sec = gtsUnits g / 65536 / 1000000000 ∧
    (s.loadSet g).tim.acc = gtsUnits g % (65536 * 1000000000) * 2 ^ 24 ∧ (s.loadSet g).tim.qual = s.tim.qual ∧
    (s.loadSet g).tim.loaded = true ∧ (s.loadSet g).loop.startHold = false ∧ (s.loadSet g).drn = s.drn := by
  obtain ⟨hsec, hacc, hloaded, hqual, hhold, -, -, -, hdrn⟩ :=
    timeLoad_allowed (s := { s with tim := { s.tim with load := g } }) hr hq ((units_withLoad s g).trans_lt h)
  exact ⟨hsec, hacc, hqual, hloaded, hhold, hdrn⟩

theorem loadSet_refused (s : State) (h : s.clk.rootOk = false ∨ s.tim.qual ≠ 3 ∨ gtsUnits g ≤ s.units) :
    s.loadAllowed (gtsUnits g) = false ∧
    s.loadSet g = timEvent { s with tim := { s.tim with load := g } } 6 := by
  refine ⟨(timeLoad_refused h).1, (timeLoad_refused ?_).2⟩
  rw [units_withLoad]
  exact h

variable (hg : g = BitVec.ofNat 96 (leAt r.payload 0 12)) (h : s.begins 0x0206 r) (hn : gtsNsec g ≤ 999999999)
include hg h hn

theorem timeLoad_loads (hr : s.clk.rootOk = true) (hq : s.tim.qual = 3) (hu : s.units < gtsUnits g) :
    s.does (.timeLoad r) r 0x0206 stOk (le 12 (s.loadSet g).gts.toNat) (·.loadSet g) := by
  have he : exec (.timeLoad r) s = execTimeLoad r s := rfl
  have hok : s.loadAllowed (gtsUnits g) = true := by simp [State.loadAllowed, hr, hq, hu]
  obtain ⟨hsec, hacc, hqual, -⟩ := loadSet_allowed s hr hq hu
  have hdrn (d : Drn) := loadSet_allowed { s with drn := d } hr hq ((units_withDrn s d).trans_lt hu)
  unfold execTimeLoad at he
  rw [← hg] at he
  refine does_of_body h he (fun d => (if_neg (Nat.not_lt.2 hn)).trans
    ((if_pos ((loadAllowed_withDrn s d _).trans hok)).trans ?_)) fun d => ?_
  all_goals obtain ⟨hsec', hacc', hqual', -, -, hd⟩ := hdrn d
  · have hgts : (State.loadSet { s with drn := d } g).gts = (s.loadSet g).gts :=
      gts_of (hsec'.trans hsec.symm) (hacc'.trans hacc.symm) (hqual'.trans hqual.symm)
    rw [← hgts]
    rfl
  · rw [hd]

theorem timeLoad_rejects (hno : s.clk.rootOk = false ∨ s.tim.qual ≠ 3 ∨ gtsUnits g ≤ s.units) :
    s.does (.timeLoad r) r 0x0206 stRejected [] (·.loadSet g) := by
  have he : exec (.timeLoad r) s = execTimeLoad r s := rfl
  have hok := (loadSet_refused s hno).1
  have hdrn (d : Drn) := loadSet_refused (g := g) { s with drn := d } (by rw [units_withDrn]; exact hno)
  unfold execTimeLoad at he
  rw [← hg] at he
  refine does_of_body h he (fun d => (if_neg (Nat.not_lt.2 hn)).trans
    (if_neg (by rw [loadAllowed_withDrn, hok]; decide))) fun d => ?_
  rw [(hdrn d).2]
  rfl

end

end
/-! ### An Auth that is verified -/

section
variable (s : State)

@[simp] theorem drn_hashWork (cycles : Nat) (avoid : Option Nat) : (s.hashWork cycles avoid).drn = s.drn := by
  unfold State.hashWork
  dsimp only
  split <;> simp [apply_ite State.drn]

@[simp] theorem drn_hashes (len : Nat) : (s.hashes len).drn = s.drn := drn_hashWork s _ _

@[simp] theorem drn_ask (p n : Nat) : (s.ask p n).drn = s.drn := by
  unfold State.ask
  split <;> rfl

@[simp] theorem drn_draw (p n : Nat) : (s.draw p n).2.drn = s.drn := by
  unfold State.draw
  split <;> rfl

@[simp] theorem drn_drawSign (d e n : Nat) : (s.drawSign d e n).2.drn = s.drn := by
  induction n generalizing s with
  | zero => exact drn_ask s _ _
  | succ n ih =>
    unfold State.drawSign
    split_ifs
    · exact drn_ask s _ _
    · dsimp only
      split
      · simp
      · rw [ih]; simp

@[simp] theorem drn_runProg (e : Engine) (prog : Nat) : (s.runProg e prog).2.drn = s.drn := by
  unfold State.runProg
  dsimp only
  repeat' split
  all_goals simp

@[simp] theorem drn_compute (e : Engine) (op w : Nat) : (s.compute e op w).2.drn = s.drn := by
  fun_cases State.compute <;> simp

@[simp] theorem drn_startOp (n : Nat) (f : EngineFor) : (s.startOp n f).drn = s.drn := by
  have h := drn_compute s (s.eng n) (fld (s.eng n).cmd 3 0) (fld (s.eng n).cmd 12 4)
  unfold State.startOp
  dsimp only
  split_ifs
  · simp
  · split
    · next hc => rw [hc] at h; exact h
    · next hc =>
      rw [hc] at h
      exact (each_keeps _ State.drn _ (fun _ _ => by rfl) _).trans h

theorem endOp_keeps (n : Nat) : (s.endOp n).drn = s.drn ∧ (s.endOp n).outside = s.outside :=
  ⟨each_keeps s State.drn _ (fun _ _ => by rfl) _,
    (outside_setEng _ _ _).trans (outside_each s _ (fun _ _ => by rfl) _)⟩

/-- A signature that is verified on an engine changes what the engines and the hash units hold alone. -/
theorem ranVerify_keeps (pub msg sig : Bytes) :
    (s.ranVerify pub msg sig).drn = s.drn ∧ (s.ranVerify pub msg sig).outside = s.outside := by
  unfold State.ranVerify
  dsimp only
  split
  · exact ⟨drn_hashes s _, outside_hashes s _⟩
  · obtain ⟨hdrn, hout⟩ := endOp_keeps (s := _) _
    exact ⟨hdrn.trans (by simp), hout.trans (by simp)⟩

theorem authRun_keeps (op : Nat) (p : Bytes) : (s.authRun op p).drn = s.drn ∧ (s.authRun op p).outside = s.outside := by
  unfold State.authRun
  split
  · exact ranVerify_keeps s _ _ _
  · exact ⟨rfl, rfl⟩

end

/-- An Auth is judged by the life cycle alone. -/
theorem ownerAuth_of_lc {s t : State} (h : t.lc = s.lc) (op : Nat) (p : Bytes) :
    t.ownerAuth op p = (s.ownerAuth op p).map fun u => { t with lc := u.lc } := by
  unfold State.ownerAuth State.authMsg
  rw [h]
  dsimp only
  split
  · rfl
  · split <;> rfl

section
variable {s : State} {r : Req} (h : s.begins 0x0207 r) (hw : s.verifyWaits = false)
include h hw

theorem timeRebase_denied (ha : s.ownerAuth 0x0207 r.payload = none) : exec (.timeRebase r) s =
    .next (((s.begun 0x0207 r).authRun 0x0207 r.payload).holdFor true r.party 0x0207 r.tag stAccess false []) := by
  obtain ⟨hdrn, hout⟩ := authRun_keeps (s.begun 0x0207 r) 0x0207 r.payload
  have hlc : ((s.begun 0x0207 r).authRun 0x0207 r.payload).lc = s.lc :=
    (congrArg Outside.lc hout).trans (by simp [State.outside])
  have he : exec (.timeRebase r) s = execTimeRebase r s := rfl
  rw [he, execTimeRebase, if_neg (by simp [hw]), drinerNow_begins h]
  dsimp only
  rw [ownerAuth_of_lc hlc, ha]
  exact congrArg Host.Outcome.next (reply_of_out (s := (s.begun 0x0207 r).authRun 0x0207 r.payload)
    (by rw [hdrn]; exact begun_contains s _ r) stAccess [])

/-- An authorized rebase is a rebase to the value given. -/
theorem timeRebase_rebases (hr : s.clk.rootOk = true) (ha : (s.ownerAuth 0x0207 r.payload).isSome = true)
    {g : Gts} (hg : g = BitVec.ofNat 96 (leAt r.payload 0 12)) (hn : gtsNsec g ≤ 999999999) :
    ∃ t, ∃ u : State, exec (.timeRebase r) s = .next t ∧ u.clk.rootOk = true ∧
      t.tim = (u.rebase (gtsUnits g)).tim ∧ t.dv = (u.rebase (gtsUnits g)).dv := by
  obtain ⟨v, hv⟩ := Option.isSome_iff_exists.1 ha
  obtain ⟨-, hout⟩ := authRun_keeps (s.begun 0x0207 r) 0x0207 r.payload
  have hlc : ((s.begun 0x0207 r).authRun 0x0207 r.payload).lc = s.lc :=
    (congrArg Outside.lc hout).trans (by simp [State.outside])
  have hclk : ((s.begun 0x0207 r).authRun 0x0207 r.payload).clk = s.clk :=
    (congrArg Outside.clk hout).trans (by simp [State.outside])
  have he : exec (.timeRebase r) s = execTimeRebase r s := rfl
  rw [he, execTimeRebase, if_neg (by simp [hw]), drinerNow_begins h]
  dsimp only
  rw [ownerAuth_of_lc hlc, hv, ← hg]
  dsimp only [Option.map]
  rw [if_neg (Nat.not_lt.2 hn)]
  refine ⟨_, { (s.begun 0x0207 r).authRun 0x0207 r.payload with
    lc := v.lc, tim := { ((s.begun 0x0207 r).authRun 0x0207 r.payload).tim with load := g } }, rfl, ?_, ?_⟩
  · rw [← hr, ← hclk]
  · rw [reply_eq]
    exact ⟨rfl, rfl⟩

end

/-- TIM_UTC takes its seconds and its mark, and keeps an announced leap second. -/
theorem utc_timWrite (s : State) {a b : Nat} (ha : a < 2 ^ 16) (hb : b ≤ 1) :
    fld (s.timWrite 0x0510 (bf 15 0 a ||| bf 31 31 b)).tim.utc 15 0 = a ∧
    bit (s.timWrite 0x0510 (bf 15 0 a ||| bf 31 31 b)).tim.utc 31 = (b == 1) ∧
    fld (s.timWrite 0x0510 (bf 15 0 a ||| bf 31 31 b)).tim.utc 17 16 = fld s.tim.utc 17 16 := by
  have hutc : (s.timWrite 0x0510 (bf 15 0 a ||| bf 31 31 b)).tim.utc =
      (s.tim.utc &&& 0x30000) ||| ((bf 15 0 a ||| bf 31 31 b) &&& 0x8000FFFF) := rfl
  have hmark : fld (s.timWrite 0x0510 (bf 15 0 a ||| bf 31 31 b)).tim.utc 31 31 = b := by
    rw [hutc, fld_or, fld_and_off _ 31 31 (by decide), fld_and_mask _ 31 31 (by decide), fld_or,
      fld_bf_other _ (by decide), fld_bf_same _ _ _ (by decide) (by omega), Nat.zero_or, Nat.zero_or]
  have hbit := testBit_fld (s.timWrite 0x0510 (bf 15 0 a ||| bf 31 31 b)).tim.utc 31 31 0
  refine ⟨?_, ?_, ?_⟩
  · rw [hutc, fld_or, fld_and_off _ 15 0 (by decide), fld_and_mask _ 15 0 (by decide), fld_or,
      fld_bf_same _ _ _ (by decide) ha, fld_bf_other _ (by decide), Nat.zero_or, Nat.or_zero]
  · rw [hmark] at hbit
    refine hbit.symm.trans ?_
    rcases Nat.le_one_iff_eq_zero_or_eq_one.1 hb with rfl | rfl <;> rfl
  · rw [hutc, fld_or, fld_and_mask _ 17 16 (by decide), fld_and_off _ 17 16 (by decide), Nat.or_zero]

theorem pin_of_dv {t u : State} {n : Nat} {x : Pin} (h : t.dv = (u.setPin n x).dv) : t.pin n = x := by
  rw [State.pin, h]
  exact (setPin_get u n n x).trans (if_pos rfl)

/-- Settles O11: each clause by the lemma about its command; the fields that a command takes are read back from the words that
it puts together. -/
theorem timeCommands : Obligations.TimeCommands := by
  unfold Obligations.TimeCommands
  intro s r
  refine ⟨fun h => timeGet_answers h, fun h => timeStatus_answers h, fun h h0 h1 h2 h3 h5 h6 h7 h8 h8' h10 h12 => ?_,
    fun h hn hu => ?_, fun h hv => ?_, fun h hn => ⟨fun hr hq hu => ?_, fun hno => ?_⟩, fun h hw hr ha hn => ?_,
    fun h hw ha => timeRebase_denied h hw ha, fun h h0 h1 h2 h3 h4 h4' h8 => ?_, fun h hn hv hq => ?_, fun h hn => ?_⟩
  · obtain ⟨t, d, he, ha, htim, -, -⟩ := timeConfig_does h h0 h1 h2 h3 h5 h6 h7 h8 h8' h10 h12
    have hb := leAt_lt r.payload 4 1
    have hd := leAt_lt r.payload 16 2
    have hl := leAt_lt r.payload 18 2
    refine ⟨t, he, ha, ?_⟩
    rw [htim]
    simp only [State.timeConfigured, ctrlTime_parts]
    rw [fld_and_mask _ 1 0 (by decide), fld_and_mask _ 15 8 (by decide)]
    simp (disch := omega) only [fld_or, fld_bf_same, fld_bf_other, Nat.or_zero, Nat.zero_or]
    exact ⟨trivial, trivial, trivial, trivial, trivial, Nat.mod_eq_of_lt h12, trivial, trivial⟩
  · obtain ⟨t, d, he, ha, htim, hloop, -⟩ := timeSetMap_does h hn hu
    refine ⟨t, _, he, ha, by rw [hloop]; rfl, by rw [htim]; rfl, ?_, ?_, ?_, ?_, by rw [hloop]; rfl⟩
    · exact Nat.mod_eq_of_lt (leAt_lt r.payload 0 8)
    · exact Nat.mod_eq_of_lt (Nat.mod_lt _ (by decide))
    · exact Nat.mod_eq_of_lt (leAt_lt r.payload 20 4)
    · exact Nat.mod_eq_of_lt (Nat.lt_succ_of_le hu)
  · obtain ⟨t, d, he, ha, htim, -, -⟩ := timeSetUtc_does h hv
    refine ⟨t, he, ha, ?_⟩
    rw [htim]
    exact utc_timWrite { s with drn := d } (leAt_lt r.payload 0 2) hv
  · obtain ⟨t, d, he, ha, htim, hloop, -⟩ := timeLoad_loads rfl h hn hr hq hu
    obtain ⟨hsec, hacc, hqual, hloaded, hhold, -⟩ :=
      loadSet_allowed { s with drn := d } hr hq ((units_withDrn s d).trans_lt hu)
    obtain ⟨hsec', hacc', hqual', -⟩ := loadSet_allowed s hr hq hu
    rw [← htim] at hsec hacc hqual hloaded
    rw [← gts_of (hsec.trans hsec'.symm) (hacc.trans hacc'.symm) (hqual.trans hqual'.symm)] at ha
    exact ⟨t, he, ha, hloaded, hloop ▸ hhold, hsec⟩
  · obtain ⟨t, d, he, ha, htim, -, -⟩ := timeLoad_rejects rfl h hn hno
    dsimp only at htim
    rw [(loadSet_refused { s with drn := d } (by rw [units_withDrn]; exact hno)).2] at htim
    refine ⟨t, he, ha, ?_⟩
    rw [htim]
    exact ⟨by simp [timEvent], rfl, rfl⟩
  · obtain ⟨t, u, he, hu, htim, hdv⟩ := timeRebase_rebases h hw hr ha rfl hn
    obtain ⟨hsec, -, hqual, -, -, hstore, hlast⟩ := rebase_parts hu (gtsUnits (BitVec.ofNat 96 (leAt r.payload 0 12)))
    exact ⟨t, he, htim ▸ hqual, hdv ▸ hstore, hdv ▸ hlast, htim ▸ hsec⟩
  · obtain ⟨t, d, he, ha, htim, -, -⟩ := ppsoConfig_does h h0 h1 h2 h3 h4 h4' h8
    refine ⟨t, he, ha, ?_⟩
    rw [htim]
    simp only [State.ppsoConfigured]
    simp (disch := omega) only [fld_or, fld_bf_same, fld_bf_other, Nat.or_zero, Nat.zero_or]
    exact ⟨trivial, trivial, trivial, trivial, Nat.mod_eq_of_lt (leAt_lt r.payload 8 4)⟩
  · obtain ⟨t, d, he, ha, -, -, hdv⟩ := evtConfig_does h hn hv hq
    refine ⟨t, he, ha, ?_⟩
    rw [pin_of_dv hdv]
    exact ⟨rfl, rfl, rfl, rfl⟩
  · obtain ⟨t, d, he, ha, -, -, hdv⟩ := evtRead_does h hn
    exact ⟨t, he, by rw [pin_of_dv hdv], ha⟩

end Sys2Proof.Machine
end
section
/-! PROOFS. Credit waits, what leaves the transmitter, and what may then join the queues (R100, R101, R105, R106, R160). -/

namespace Sys2Proof.Machine
open Sys2Proof

/-! ### A long credit wait's marks (R106, R160) -/

/-- The mark that a long credit wait leaves on the run whose read a TLP of the priority queue asks for. -/
def State.markRun (t : Tlp) (s : State) : State :=
  match s.readWhy t with
  | some (.sqRun q id _) =>
    s.setQrun q { s.qrun q with runs := (s.qrun q).runs.map fun x => if x.id = id then { x with credWait := true } else x }
  | _ => s

theorem markRun_eq (t : Tlp) (s : State) :
    s.markRun t = { s with qps := { s.qps with run := (s.markRun t).qps.run } } := by
  unfold State.markRun
  split <;> rfl

theorem each_markRun_eq (l : List Tlp) (s : State) :
    each l State.markRun s = { s with qps := { s.qps with run := (each l State.markRun s).qps.run } } :=
  congrArg (fun u : State => { u with qps := { u.qps with run := (each l State.markRun s).qps.run } })
    (each_keeps s (fun s => { s with qps := { s.qps with run := [] } }) State.markRun
      (fun t s => by rw [markRun_eq t s]) l)

section
variable (s : State)

/-- What a long credit wait's expiry writes: the entries that wait in the queue, the jobs with a TLP there, the runs. -/
theorem creditLate_eq : s.creditLate = { s with
    pci := { s.pci with prio := s.pci.prio.map Tlp.late }
    qps := { s.qps with jobs := s.qps.jobs.map (credLate (s.pci.prio.filterMap s.tlpJob))
                        run := (each s.pci.prio State.markRun s).qps.run } } := by
  change { each s.pci.prio State.markRun s with
    pci := { (each s.pci.prio State.markRun s).pci with prio := (each s.pci.prio State.markRun s).pci.prio.map Tlp.late }
    qps := { (each s.pci.prio State.markRun s).qps with
      jobs := (each s.pci.prio State.markRun s).qps.jobs.map (credLate (s.pci.prio.filterMap s.tlpJob)) } } = _
  rw [each_markRun_eq s.pci.prio s]

theorem creditLate_of_nil (h : s.pci.prio = []) : s.creditLate = s := by
  have hjobs : s.qps.jobs.map (credLate []) = s.qps.jobs := (List.map_congr_left fun _ _ => rfl).trans (List.map_id _)
  have heq := creditLate_eq s
  simp only [h, List.map_nil, List.filterMap_nil, hjobs] at heq
  exact heq.trans (congrArg (fun p => { s with pci := { s.pci with prio := p } }) h.symm)

/-- Every run of queue pair `q` with number `id` carries the mark. -/
def State.runMarked (s : State) (q id : Nat) : Prop := ∀ y ∈ (s.qrun q).runs, y.id = id → y.credWait = true

variable {s} in
theorem runMarked_markRun {q id : Nat} (t : Tlp) (h : s.runMarked q id) : (s.markRun t).runMarked q id := by
  unfold State.markRun
  split
  · next q' id' _ _ =>
    intro y hy hid
    rw [setQrun_get] at hy
    split_ifs at hy with hq
    · subst hq
      obtain ⟨x, hx, rfl⟩ := List.mem_map.mp hy
      split_ifs at hid ⊢
      · rfl
      · exact h x hx hid
    · exact h y hy hid
  · exact h

variable {s} in
theorem markRun_marks {t : Tlp} {q id n : Nat} (h : s.readWhy t = some (.sqRun q id n)) :
    (s.markRun t).runMarked q id := by
  unfold State.markRun
  rw [h]
  intro y hy hid
  rw [setQrun_get, if_pos rfl] at hy
  obtain ⟨x, hx, rfl⟩ := List.mem_map.mp hy
  split_ifs at hid ⊢ with hx'
  · rfl
  · exact absurd hid hx'

theorem readWhy_markRun (t x : Tlp) : (s.markRun t).readWhy x = s.readWhy x := by
  rw [markRun_eq]
  rfl

theorem each_markRun_keeps {q id : Nat} (l : List Tlp) (h : s.runMarked q id) :
    (each l State.markRun s).runMarked q id := by
  induction l generalizing s with
  | nil => exact h
  | cons t l ih => exact ih _ (runMarked_markRun t h)

theorem each_markRun_marks {x : Tlp} {q id n : Nat} {l : List Tlp} (hx : x ∈ l)
    (hwhy : s.readWhy x = some (.sqRun q id n)) : (each l State.markRun s).runMarked q id := by
  induction l generalizing s with
  | nil => exact absurd hx List.not_mem_nil
  | cons t l ih =>
    rcases List.mem_cons.mp hx with rfl | hx
    · exact each_markRun_keeps _ l (markRun_marks hwhy)
    · exact ih _ hx ((readWhy_markRun s t x).trans hwhy)

theorem creditLate_marks {x : Tlp} (hx : x ∈ s.pci.prio) {q id n : Nat} (h : s.readWhy x = some (.sqRun q id n)) :
    s.creditLate.runMarked q id := by
  have hrun : ∀ k, s.creditLate.qrun k = (each s.pci.prio State.markRun s).qrun k := by
    rw [creditLate_eq]
    exact fun _ => rfl
  unfold State.runMarked
  rw [hrun]
  exact each_markRun_marks s hx h

/-! ### The wait of the priority head (R106) -/

/-- The state with a credit wait that began at `w`, counted or not. -/
def State.waiting (s : State) (w : Option Nat) (counted : Bool) : State :=
  { s with pci := { s.pci with waitAt := w, waitCounted := counted } }

variable {s}

theorem headLacks_of_nil (h : s.pci.prio = []) : s.headLacks = false := by simp [State.headLacks, h]

theorem headLacks_cons {t : Tlp} {r : List Tlp} (hlink : s.pci.up = true) (h : s.pci.prio = t :: r) :
    s.headLacks = !creditCovers s.pci.credit t := by simp [State.headLacks, h, hlink]

/-- While the head lacks credit its wait stands, begun now if none stood. -/
theorem creditWait_of_lacks (h : s.headLacks = true) :
    s.creditWait = s.waiting (some (s.pci.waitAt.getD s.now)) (s.pci.waitAt.isSome && s.pci.waitCounted) := by
  unfold State.creditWait
  rw [h]
  cases hw : s.pci.waitAt with
  | none => rfl
  | some a =>
    obtain ⟨⟩ := s
    simp_all [State.waiting]
    rw [← hw]

/-- A wait that has not been counted ends without a mark. -/
theorem creditWait_of_short (h : s.headLacks = false) (hshort : (s.pci.waitAt.isSome && s.pci.waitCounted) = false) :
    s.creditWait = s.waiting none s.creditWait.pci.waitCounted := by
  unfold State.creditWait
  rw [h]
  cases hw : s.pci.waitAt with
  | none => simp [State.waiting, ← hw]
  | some a =>
    have hc : s.pci.waitCounted = false := by simpa [hw] using hshort
    simp [hc, State.waiting]

/-- A counted wait ends with the marks of a long one. -/
theorem creditWait_of_long (h : s.headLacks = false) (hlong : (s.pci.waitAt.isSome && s.pci.waitCounted) = true) :
    s.creditWait = s.creditLate.waiting none false := by
  obtain ⟨hw, hc⟩ := Bool.and_eq_true_iff.mp hlong
  obtain ⟨a, ha⟩ := Option.isSome_iff_exists.mp hw
  unfold State.creditWait
  rw [h, ha]
  simp only [hc, if_true]
  rfl

/-- Where no wait is counted, only the wait itself changes. -/
theorem creditWait_of_uncounted (hshort : (s.pci.waitAt.isSome && s.pci.waitCounted) = false) :
    s.creditWait = s.waiting s.creditWait.pci.waitAt s.creditWait.pci.waitCounted := by
  cases h : s.headLacks with
  | true =>
    rw [creditWait_of_lacks h]
    rfl
  | false =>
    rw [creditWait_of_short h hshort]
    rfl

variable (s) in
/-- Credit waits change the priority queue's own TLPs, the job table and the runs, and nothing else. -/
theorem creditWait_eq : ∃ p w c q, s.creditWait =
    { s with pci := { s.pci with prio := p, waitAt := w, waitCounted := c }, qps := q } := by
  by_cases hl : s.headLacks = false ∧ (s.pci.waitAt.isSome && s.pci.waitCounted) = true
  · exact ⟨_, _, _, _, (creditWait_of_long hl.1 hl.2).trans (by rw [creditLate_eq]; rfl)⟩
  · cases h : s.headLacks with
    | true => exact ⟨_, _, _, _, creditWait_of_lacks h⟩
    | false => exact ⟨_, _, _, _, creditWait_of_short h (by simpa [h] using hl)⟩

end

/-! ### What leaves the transmitter -/

theorem length_lset {α : Type} (l : List α) (n : Nat) (v : α) : (lset l n v).length = l.length := by
  induction l generalizing n with
  | nil => rfl
  | cons x l ih =>
    cases n with
    | zero => rfl
    | succ n => exact congrArg (· + 1) (ih n)

/-- The mark of a long wait changes bytes of a completion entry, in place. -/
theorem late_shape (t : Tlp) : t.late.kind = t.kind ∧ t.late.fn = t.fn ∧ t.late.data.length = t.data.length := by
  unfold Tlp.late
  split
  · exact ⟨rfl, rfl, by simp only [length_lset]⟩
  · exact ⟨rfl, rfl, rfl⟩

theorem creditCovers_late (c : Credit) (t : Tlp) : creditCovers c t.late = creditCovers c t := by
  obtain ⟨hkind, -, hlen⟩ := late_shape t
  unfold creditCovers dataUnits
  rw [hkind, hlen]

/-- Credit of one type spent leaves that of another: each of the four kinds of TLP spends fields of its own type. -/
theorem creditCovers_spend (c : Credit) {g t : Tlp} (h : g.typ ≠ t.typ) :
    creditCovers (creditSpend c g) t = creditCovers c t := by
  unfold Tlp.typ at h
  unfold creditSpend creditCovers
  cases hg : g.kind <;> cases ht : t.kind <;> simp [hg, ht] at h ⊢

/-- An entry just written, and not the default, is the one that a search for its number finds. -/
theorem find?_tset {α : Type} [DecidableEq α] {d v : α} (hv : v ≠ d) (t : Tab α) (n : Nat) :
    (tset d t n v).find? (·.1 == n) = some (n, v) := by
  have hins : ∀ t : Tab α, (∀ e ∈ t, e.1 ≠ n) → (tins n v t).find? (·.1 == n) = some (n, v) := fun t => by
    induction t with
    | nil => exact fun _ => by simp [tins]
    | cons e t ih =>
      intro h
      have he := h e (List.mem_cons_self ..)
      unfold tins
      split
      · simpa [he] using ih fun e' he' => h e' (List.mem_cons_of_mem _ he')
      · simp
  unfold tset
  rw [if_neg hv]
  exact hins _ fun e he => by simpa using (List.mem_filter.mp he).2

section
variable (s : State) (t : Tlp)

/-- What leaves goes onto the wire and spends its credit; a read's table entry and the loop may change with it. -/
theorem sendTlp_eq : s.sendTlp t = { s with
    pci := { s.pci with credit := creditSpend s.pci.credit t, wire := s.pci.wire ++ [t], tags := (s.sendTlp t).pci.tags }
    loop := (s.sendTlp t).loop } := by
  fun_cases State.sendTlp s t <;> rfl

variable {s t}

theorem loop_sendTlp_ptm (h : t.kind = .ptm) :
    (s.sendTlp t).loop = { s.loop with ptmQueued := false, ptmT1 := some s.units, ptmSent := s.now } := by
  unfold State.sendTlp
  rw [h]
  rfl

theorem loop_sendTlp_other (h : t.kind ≠ .ptm) : (s.sendTlp t).loop = s.loop := by
  unfold State.sendTlp
  dsimp only
  split
  · split <;> rfl
  · next hk => exact absurd hk h
  · rfl

/-- A read is timed from the instant at which it leaves (R104). -/
theorem tags_sendTlp_read {tag : Nat} {e : Nat × HRead} (h : t.kind = .read tag)
    (he : s.pci.tags.find? (·.1 == tag) = some e) :
    ((s.sendTlp t).pci.tags.find? (·.1 == tag)).map (·.2) = some { e.2 with sentAt := some s.now } := by
  unfold State.sendTlp
  simp only [h, he, Option.map_some]
  rw [find?_tset (by simp [noRead])]
  rfl

end

/-- The priority head leaves a state in which no credit wait stands. -/
theorem sendHead_holds {s s1 : State} {x : Tlp} {r : List Tlp} {c : Bool} {q : Qps}
    (h : s1 = { s with pci := { s.pci with prio := x :: r, waitAt := none, waitCounted := c }, qps := q }) :
    ∃ s', s' = (State.sendTlp { s1 with pci := { s1.pci with prio := r } } x).creditWait ∧
      s'.pci.gen = s.pci.gen ∧ s'.pci.credit = creditSpend s.pci.credit x ∧ s'.pci.wire = s.pci.wire ++ [x] ∧
      s' = { s with pci := s'.pci, qps := s'.qps, loop := s'.loop } ∧ s'.pci.prio = r ∧ s'.qps = q ∧
      (x.kind = .ptm → s'.loop = { s.loop with ptmQueued := false, ptmT1 := some s.units, ptmSent := s.now }) ∧
      (x.kind ≠ .ptm → s'.loop = s.loop) ∧
      (∀ tag e, x.kind = .read tag → s.pci.tags.find? (·.1 == tag) = some e →
        (s'.pci.tags.find? (·.1 == tag)).map (·.2) = some { e.2 with sentAt := some s.now }) := by
  subst h
  refine ⟨_, rfl, ?_⟩
  rw [creditWait_of_uncounted (by rw [sendTlp_eq]; rfl)]
  refine ⟨?_, ?_, ?_, ?_, ?_, ?_, fun hk => ?_, fun hk => ?_, fun tag e hk he => ?_⟩
  iterate 6 (rw [sendTlp_eq]; rfl)
  · exact loop_sendTlp_ptm hk
  · exact loop_sendTlp_other hk
  · exact tags_sendTlp_read hk he

/-! ### The general queue (R105, R106) -/

theorem firstGen_spec {c : Credit} : ∀ {l : List Tlp} {skip : List Nat} {i : Nat}, firstGen c skip l = some i →
    ∃ g, l[i]? = some g ∧ g.typ ∉ skip ∧ creditCovers c g = true ∧ ∀ j < i, ∀ h, l[j]? = some h → h.typ ≠ g.typ
  | [], _, _, h => by simp [firstGen] at h
  | t :: l, skip, i, h => by
    unfold firstGen at h
    split at h
    · next hfirst =>
      obtain rfl : 0 = i := by simpa using h
      obtain ⟨hskip, hcov⟩ := Bool.and_eq_true_iff.mp hfirst
      exact ⟨t, rfl, by simpa using hskip, hcov, fun j hj => absurd hj (Nat.not_lt_zero j)⟩
    · obtain ⟨k, hk, rfl⟩ := Option.map_eq_some_iff.mp h
      obtain ⟨g, hg, hskip, hcov, hfirst⟩ := firstGen_spec hk
      have hne := List.ne_of_not_mem_cons hskip
      have hskip := List.not_mem_of_not_mem_cons hskip
      refine ⟨g, hg, hskip, hcov, fun j hj h hh => ?_⟩
      cases j with
      | zero => exact Option.some.inj hh ▸ Ne.symm hne
      | succ j => exact hfirst j (by omega) h hh

theorem firstGen_of_first {c : Credit} {g : Tlp} : ∀ {l : List Tlp} {skip : List Nat} {i : Nat}, l[i]? = some g →
    g.typ ∉ skip → creditCovers c g = true →
    (∀ j < i, ∀ h, l[j]? = some h → h.typ ≠ g.typ ∧ creditCovers c h = false) → firstGen c skip l = some i
  | [], _, _, hg, _, _, _ => by simp at hg
  | t :: l, skip, 0, hg, hskip, hcov, _ => by
    obtain rfl := Option.some.inj hg
    simp [firstGen, hskip, hcov]
  | t :: l, skip, i + 1, hg, hskip, hcov, hfirst => by
    obtain ⟨hne, hlacks⟩ := hfirst 0 (by omega) t rfl
    have hrest := firstGen_of_first (l := l) (skip := t.typ :: skip) (i := i) hg
      (List.not_mem_cons_of_ne_of_not_mem (Ne.symm hne) hskip) hcov fun j hj h hh => hfirst (j + 1) (by omega) h hh
    simp [firstGen, hlacks, hrest]

/-! ### Messages that may now join the queues (R100, R101) -/

/-- A state without what placing a message touches: the vectors, the numbers, the queues, the head's wait. -/
def State.unsent (s : State) : State :=
  { s with pci := { s.pci with fns := [], nextId := 0, gen := [], prio := [], waitAt := none, waitCounted := false } }

/-- A wait that stands is that of a head that lacks credit. -/
def State.headWaits (s : State) : Prop := s.pci.waitAt.isSome = true → s.headLacks = true

/-- Only messages have joined the queues at their tails; a wait that stood goes on, and one that stands is the head's. -/
structure Joined (s t : State) : Prop where
  unsent : t.unsent = s.unsent
  gen : ∃ l, t.pci.gen = s.pci.gen ++ l
  prio : ∃ l, t.pci.prio = s.pci.prio ++ l
  waitAt : ∀ a, s.pci.waitAt = some a → t.pci.waitAt = some a
  headWaits : t.headWaits

theorem Joined.refl {s : State} (h : s.headWaits) : Joined s s :=
  ⟨rfl, ⟨[], (List.append_nil _).symm⟩, ⟨[], (List.append_nil _).symm⟩, fun _ h => h, h⟩

theorem Joined.trans {s t u : State} (h : Joined s t) (h' : Joined t u) : Joined s u := by
  obtain ⟨l, hl⟩ := h.gen
  obtain ⟨l', hl'⟩ := h'.gen
  obtain ⟨p, hp⟩ := h.prio
  obtain ⟨p', hp'⟩ := h'.prio
  exact ⟨h'.unsent.trans h.unsent, ⟨l ++ l', by rw [hl', hl, List.append_assoc]⟩,
    ⟨p ++ p', by rw [hp', hp, List.append_assoc]⟩, fun a ha => h'.waitAt a (h.waitAt a ha), h'.headWaits⟩

section
variable {s : State}

theorem headLacks_append (h : s.headLacks = true) (l : List Tlp) (n : Nat) :
    State.headLacks { s with pci := { s.pci with prio := s.pci.prio ++ l, nextId := n } } = true := by
  unfold State.headLacks at h ⊢
  cases hp : s.pci.prio with
  | nil => simp [hp] at h
  | cons t r => simpa [hp] using h

theorem joined_creditWait (h : s.headWaits) : Joined s s.creditWait := by
  cases hl : s.headLacks with
  | true =>
    rw [creditWait_of_lacks hl]
    exact ⟨rfl, ⟨[], (List.append_nil _).symm⟩, ⟨[], (List.append_nil _).symm⟩,
      fun a ha => by simp [State.waiting, ha], fun _ => hl⟩
  | false =>
    have hw : s.pci.waitAt = none := by
      cases hw : s.pci.waitAt with
      | none => rfl
      | some a => exact absurd (h (by simp [hw])) (by simp [hl])
    have : s.creditWait = s := by
      unfold State.creditWait
      rw [hl, hw]
    rw [this]
    exact Joined.refl h

theorem joined_place (h : s.headWaits) (prio : Bool) (t : Tlp) : Joined s (s.place prio t) := by
  unfold State.place
  cases prio with
  | false => exact ⟨rfl, ⟨_, rfl⟩, ⟨[], (List.append_nil _).symm⟩, fun _ h => h, h⟩
  | true =>
    have hw : State.headWaits { s with pci := { s.pci with
        prio := s.pci.prio ++ [{ t with id := s.pci.nextId }], nextId := s.pci.nextId + 1 } } :=
      fun hs => headLacks_append (h hs) _ _
    have hj : Joined s { s with pci := { s.pci with
        prio := s.pci.prio ++ [{ t with id := s.pci.nextId }], nextId := s.pci.nextId + 1 } } :=
      ⟨rfl, ⟨[], (List.append_nil _).symm⟩, ⟨_, rfl⟩, fun _ h => h, hw⟩
    exact hj.trans (joined_creditWait hw)

theorem joined_setFun (h : s.headWaits) (n : Nat) (f : Fun) : Joined s (s.setFun n f) :=
  ⟨rfl, ⟨[], (List.append_nil _).symm⟩, ⟨[], (List.append_nil _).symm⟩, fun _ h => h, h⟩

theorem joined_msix (h : s.headWaits) (fn vec : Nat) (prio : Bool) : Joined s (s.msix fn vec prio) := by
  simp only [State.msix]
  split_ifs
  · exact Joined.refl h
  · exact joined_setFun h _ _
  · exact Joined.refl h
  · exact joined_place h _ _

theorem joined_unmaskVec (h : s.headWaits) (fn vec : Nat) : Joined s (s.unmaskVec fn vec) := by
  simp only [State.unmaskVec]
  split_ifs
  · have hset := joined_setFun h fn
    exact (hset _).trans (joined_msix (hset _).headWaits _ _ _)
  · exact Joined.refl h

theorem joined_each {α : Type} {f : α → State → State} (hf : ∀ a s, s.headWaits → Joined s (f a s)) :
    ∀ (l : List α) {s : State}, s.headWaits → Joined s (each l f s)
  | [], _, h => Joined.refl h
  | a :: l, s, h => (hf a s h).trans (joined_each hf l (hf a s h).headWaits)

theorem joined_unmaskFn (h : s.headWaits) (fn : Nat) : Joined s (s.unmaskFn fn) :=
  joined_each (fun v _ h => joined_unmaskVec h fn v) _ h

end

section
variable {s : State} {i : Nat} {g : Tlp}

/-- The state that TLP `i` of the general queue leaves, before anything joins the queues. -/
def State.sentGen (s : State) (i : Nat) (g : Tlp) : State :=
  State.sendTlp { s with pci := { s.pci with gen := ldel s.pci.gen i } } g

theorem sendGen_eq (hg : s.pci.gen[i]? = some g) : s.sendGen i = (s.sentGen i g).unmaskFn g.fn := by
  unfold State.sendGen
  rw [hg]
  rfl

/-- A general TLP of another credit type leaves the priority head without credit. -/
theorem headLacks_sentGen {t : Tlp} {r : List Tlp} (hlink : s.pci.up = true) (hp : s.pci.prio = t :: r)
    (hc : creditCovers s.pci.credit t = false) (htyp : g.typ ≠ t.typ) : (s.sentGen i g).headLacks = true := by
  rw [State.sentGen, sendTlp_eq]
  simp [State.headLacks, hlink, hp, creditCovers_spend _ htyp, hc]

/-- A general TLP leaves, and messages may join the queues behind the others. -/
theorem sendGen_joined (hg : s.pci.gen[i]? = some g) (hw : (s.sentGen i g).headWaits) :
    Joined (s.sentGen i g) (s.sendGen i).creditWait := by
  rw [sendGen_eq hg]
  have h := joined_unmaskFn hw g.fn
  exact h.trans (joined_creditWait h.headWaits)

/-- What a general TLP that leaves does, whatever joins the queues then. -/
theorem sendGen_holds {t : State} (h : Joined (s.sentGen i g) t) :
    t.pci.wire = s.pci.wire ++ [g] ∧ t.pci.credit = creditSpend s.pci.credit g ∧
      (∃ l, t.pci.gen = ldel s.pci.gen i ++ l) ∧ (∃ l, t.pci.prio = s.pci.prio ++ l) ∧
      (∀ a, s.pci.waitAt = some a → t.pci.waitAt = some a) ∧ t = { s with pci := t.pci, loop := t.loop } := by
  have hsent := sendTlp_eq { s with pci := { s.pci with gen := ldel s.pci.gen i } } g
  have hgen : (s.sentGen i g).pci.gen = ldel s.pci.gen i := by rw [State.sentGen, hsent]
  have hprio : (s.sentGen i g).pci.prio = s.pci.prio := by rw [State.sentGen, hsent]
  have hwait : (s.sentGen i g).pci.waitAt = s.pci.waitAt := by rw [State.sentGen, hsent]
  refine ⟨?_, ?_, hgen ▸ h.gen, hprio ▸ h.prio, hwait ▸ h.waitAt, ?_⟩
  · exact (congrArg (fun u => u.pci.wire) h.unsent).trans (by rw [State.sentGen, hsent])
  · exact (congrArg (fun u => u.pci.credit) h.unsent).trans (by rw [State.sentGen, hsent])
  · exact (congrArg (fun u : State => { u with pci := t.pci, loop := t.loop }) h.unsent).trans
      (by rw [State.sentGen, hsent])

end

/-! ### The commands of the transmitter -/

section
variable {s : State} (hup : s.up = true) (hlink : s.pci.up = true)
include hup hlink

theorem exec_tlpTransmit_head {s1 : State} {x : Tlp} {r : List Tlp} (h1 : s.creditWait = s1) (hp : s1.pci.prio = x :: r)
    (hc : creditCovers s1.pci.credit x = true) :
    exec .tlpTransmit s = .next (State.sendTlp { s1 with pci := { s1.pci with prio := r } } x).creditWait := by
  change execTlpTransmit s = _
  simp only [execTlpTransmit, hup, hlink, h1, hp, hc, Bool.and_self, Bool.not_true, Bool.false_eq_true, if_false, if_true]

theorem exec_tlpTransmit_passed {s1 : State} {t : Tlp} {r : List Tlp} {i : Nat} (h1 : s.creditWait = s1)
    (hp : s1.pci.prio = t :: r) (hc : creditCovers s1.pci.credit t = false)
    (hf : firstGen s1.pci.credit [t.typ] s1.pci.gen = some i) :
    exec .tlpTransmit s = .next (s1.sendGen i).creditWait := by
  change execTlpTransmit s = _
  simp only [execTlpTransmit, hup, hlink, h1, hp, hc, hf, Bool.and_self, Bool.not_true, Bool.false_eq_true, if_false]

theorem exec_tlpTransmit_waits {s1 : State} {t : Tlp} {r : List Tlp} (h1 : s.creditWait = s1)
    (hp : s1.pci.prio = t :: r) (hc : creditCovers s1.pci.credit t = false)
    (hf : firstGen s1.pci.credit [t.typ] s1.pci.gen = none) : exec .tlpTransmit s = .next s1 := by
  change execTlpTransmit s = _
  simp only [execTlpTransmit, hup, hlink, h1, hp, hc, hf, Bool.and_self, Bool.not_true, Bool.false_eq_true, if_false]

theorem exec_tlpTransmit_general {s1 : State} {i : Nat} (h1 : s.creditWait = s1) (hp : s1.pci.prio = [])
    (hf : firstGen s1.pci.credit [] s1.pci.gen = some i) :
    exec .tlpTransmit s = .next (s1.sendGen i).creditWait := by
  change execTlpTransmit s = _
  simp only [execTlpTransmit, hup, hlink, h1, hp, hf, Bool.and_self, Bool.not_true, Bool.false_eq_true, if_false]

/-- The priority head leaves; at the end of a long wait it carries the wait's marks, and so does all that stayed (R106). -/
theorem transmit_head {t : Tlp} {r : List Tlp} (hp : s.pci.prio = t :: r) (hc : creditCovers s.pci.credit t = true) :
    let late : Bool := s.pci.waitAt.isSome && s.pci.waitCounted
    let x := if late then t.late else t
    ∃ s', exec .tlpTransmit s = .next s' ∧ s'.pci.gen = s.pci.gen ∧ s'.pci.credit = creditSpend s.pci.credit x ∧
      s'.pci.wire = s.pci.wire ++ [x] ∧ s' = { s with pci := s'.pci, qps := s'.qps, loop := s'.loop } ∧
      (late = false → s'.pci.prio = r ∧ s'.qps = s.qps) ∧
      (late = true → s'.pci.prio = r.map Tlp.late ∧
        s'.qps.jobs = s.qps.jobs.map (credLate (s.pci.prio.filterMap s.tlpJob))) ∧
      (t.kind = .ptm → s'.loop = { s.loop with ptmQueued := false, ptmT1 := some s.units, ptmSent := s.now }) ∧
      (t.kind ≠ .ptm → s'.loop = s.loop) ∧
      (∀ tag e, t.kind = .read tag → s.pci.tags.find? (·.1 == tag) = some e →
        (s'.pci.tags.find? (·.1 == tag)).map (·.2) = some { e.2 with sentAt := some s.now }) := by
  have hcov : s.headLacks = false := by rw [headLacks_cons hlink hp, hc]; rfl
  dsimp only
  cases hlate : s.pci.waitAt.isSome && s.pci.waitCounted with
  | false =>
    rw [if_neg Bool.false_ne_true]
    have h1 := creditWait_of_short hcov hlate
    generalize s.creditWait.pci.waitCounted = c at h1
    obtain ⟨s', he, hgen, hcred, hwire, hfr, hprio, hq, hloop⟩ := sendHead_holds (s := s) (x := t) (r := r) (c := c)
      (q := s.qps) (h1.trans (congrArg (fun p => State.waiting { s with pci := { s.pci with prio := p } } none c) hp))
    have hex := exec_tlpTransmit_head hup hlink rfl (by rw [h1]; exact hp) (by rw [h1]; exact hc)
    exact ⟨s', he ▸ hex, hgen, hcred, hwire, hfr, fun _ => ⟨hprio, hq⟩, fun h => absurd h Bool.false_ne_true, hloop⟩
  | true =>
    rw [if_pos rfl]
    have h1 := (creditWait_of_long hcov hlate).trans (congrArg (fun u => State.waiting u none false) (creditLate_eq s))
    have hp1 : s.pci.prio.map Tlp.late = t.late :: r.map Tlp.late := by rw [hp]; rfl
    obtain ⟨s', he, hgen, hcred, hwire, hfr, hprio, hq, hloop⟩ := sendHead_holds (s := s) (x := t.late)
      (r := r.map Tlp.late) (c := false) (q := _)
      (h1.trans (congrArg (fun p => State.waiting { s with pci := { s.pci with prio := p }, qps := _ } none false) hp1))
    rw [(late_shape t).1] at hloop
    have hex := exec_tlpTransmit_head hup hlink rfl (by rw [h1]; exact hp1)
      (by rw [h1]; exact (creditCovers_late _ t).trans hc)
    exact ⟨s', he ▸ hex, hgen, hcred, hwire, hfr, fun h => absurd h.symm Bool.false_ne_true,
      fun _ => ⟨hprio, by rw [hq]⟩, hloop⟩

/-- While the head lacks credit its wait stands, and only a general TLP of another credit type passes it (R106). -/
theorem transmit_lacks {t : Tlp} {r : List Tlp} (hp : s.pci.prio = t :: r) (hc : creditCovers s.pci.credit t = false) :
    ∃ s', exec .tlpTransmit s = .next s' ∧ s'.pci.waitAt = some (s.pci.waitAt.getD s.now) ∧
      ((s' = { s with pci := s'.pci } ∧ s'.pci.prio = s.pci.prio ∧ s'.pci.wire = s.pci.wire ∧ s'.pci.gen = s.pci.gen) ∨
        ∃ i g l l', s.pci.gen[i]? = some g ∧ g.typ ≠ t.typ ∧ creditCovers s.pci.credit g = true ∧
          (∀ j < i, ∀ h, s.pci.gen[j]? = some h → h.typ ≠ g.typ) ∧
          s'.pci.wire = s.pci.wire ++ [g] ∧ s'.pci.gen = ldel s.pci.gen i ++ l ∧ s'.pci.prio = s.pci.prio ++ l') := by
  have h1 := creditWait_of_lacks (s := s) (by rw [headLacks_cons hlink hp, hc]; rfl)
  generalize (s.pci.waitAt.isSome && s.pci.waitCounted) = c at h1
  cases hf : firstGen s.pci.credit [t.typ] s.pci.gen with
  | none => exact ⟨_, exec_tlpTransmit_waits hup hlink h1 hp hc hf, rfl, .inl ⟨rfl, rfl, rfl, rfl⟩⟩
  | some i =>
    obtain ⟨g, hg, hskip, hcov, hfirst⟩ := firstGen_spec hf
    have htyp : g.typ ≠ t.typ := List.ne_of_not_mem_cons hskip
    refine ⟨_, exec_tlpTransmit_passed hup hlink h1 hp hc hf, ?_⟩
    obtain ⟨hwire, -, ⟨l, hgen⟩, ⟨l', hprio⟩, hwait, -⟩ :=
      sendGen_holds (sendGen_joined (s := s.waiting (some (s.pci.waitAt.getD s.now)) c) hg fun _ =>
        headLacks_sentGen hlink hp hc htyp)
    exact ⟨hwait _ rfl, .inr ⟨i, g, l, l', hg, htyp, hcov, hfirst, hwire, hgen, hprio⟩⟩

/-- With no priority TLP the first general TLP that credit covers leaves (R105). -/
theorem transmit_general {i : Nat} {g : Tlp} (hp : s.pci.prio = []) (hg : s.pci.gen[i]? = some g)
    (hc : creditCovers s.pci.credit g = true)
    (hfirst : ∀ j < i, ∀ h, s.pci.gen[j]? = some h → h.typ ≠ g.typ ∧ creditCovers s.pci.credit h = false) :
    ∃ s' l, exec .tlpTransmit s = .next s' ∧ s'.pci.wire = s.pci.wire ++ [g] ∧ s'.pci.gen = ldel s.pci.gen i ++ l ∧
      s'.pci.credit = creditSpend s.pci.credit g ∧ s' = { s with pci := s'.pci, loop := s'.loop } := by
  have hcov := headLacks_of_nil hp
  have h1 : s.creditWait = s.waiting none s.creditWait.pci.waitCounted := by
    cases hlate : s.pci.waitAt.isSome && s.pci.waitCounted with
    | false => exact creditWait_of_short hcov hlate
    | true =>
      rw [creditWait_of_long hcov hlate, creditLate_of_nil s hp]
      rfl
  generalize s.creditWait.pci.waitCounted = c at h1
  have hf := firstGen_of_first (skip := []) hg List.not_mem_nil hc hfirst
  have hw : ((s.waiting none c).sentGen i g).headWaits := fun h => by
    rw [State.sentGen, sendTlp_eq] at h
    exact absurd h Bool.false_ne_true
  obtain ⟨hwire, hcred, ⟨l, hgen⟩, -, -, hfr⟩ := sendGen_holds (sendGen_joined (s := s.waiting none c) hg hw)
  exact ⟨_, l, exec_tlpTransmit_general hup hlink h1 hp hf, hwire, hgen, hcred, hfr⟩

/-- Returned credit adds to what is held (R106). -/
theorem creditUpdate_holds (c : Credit) : let k := s.pci.credit
    ∃ s', exec (.creditUpdate c) s = .next s' ∧ s'.pci.credit =
        ⟨k.ph + c.ph, k.pd + c.pd, k.nh + c.nh, k.nd + c.nd, k.ch + c.ch, k.cd + c.cd⟩ ∧
      s'.pci.wire = s.pci.wire ∧ s'.pci.gen = s.pci.gen ∧ s' = { s with pci := s'.pci, qps := s'.qps } ∧
      (s.pci.waitCounted = false → s'.pci.prio = s.pci.prio ∧ s'.qps = s.qps) := by
  intro k
  have hex : exec (.creditUpdate c) s = .next (State.creditWait { s with pci := { s.pci with credit :=
      ⟨k.ph + c.ph, k.pd + c.pd, k.nh + c.nh, k.nd + c.nd, k.ch + c.ch, k.cd + c.cd⟩ } }) := by
    change execCreditUpdate c s = _
    unfold execCreditUpdate
    rw [if_neg (by simp [hup, hlink])]
  refine ⟨_, hex, ?_⟩
  generalize (⟨k.ph + c.ph, k.pd + c.pd, k.nh + c.nh, k.nd + c.nd, k.ch + c.ch, k.cd + c.cd⟩ : Credit) = k'
  obtain ⟨p, w, d, q, heq⟩ := creditWait_eq (s := { s with pci := { s.pci with credit := k' } })
  refine ⟨by rw [heq], by rw [heq], by rw [heq], by rw [heq], fun h => ?_⟩
  rw [creditWait_of_uncounted (by simp [h])]
  exact ⟨rfl, rfl⟩

end

section
variable {s : State}

/-- The head's wait passes 100 ns: it is counted once, and its marks are left (R106, R160). -/
theorem creditWaitExpiry_counts {a : Nat} (hw : s.pci.waitAt = some a) (hc : s.pci.waitCounted = false)
    (hl : s.headLacks = true) (hdue : a + 120 < s.now) :
    exec .creditWaitExpiry s = .next { s.creditLate with pci := { s.creditLate.pci with
      waitCounted := true, credStall := satInc s.creditLate.pci.credStall 65535 } } := by
  change execCreditWaitExpiry s = _
  unfold execCreditWaitExpiry
  rw [hw]
  dsimp only
  rw [if_neg (by simp [hc, hl, hdue])]

/-- Without a wait of the head that may be counted the row has no effect. -/
theorem creditWaitExpiry_idle (h : s.pci.waitCounted = true ∨ s.headLacks = false) :
    exec .creditWaitExpiry s = .next s := by
  change execCreditWaitExpiry s = _
  unfold execCreditWaitExpiry
  split
  · rfl
  · rw [if_pos]
    rcases h with h | h <;> simp [h]

end

/-- Settles O12: each clause by the lemma about its command. -/
theorem transmitter : Obligations.Transmitter := by
  unfold Obligations.Transmitter
  intro s hup hlink
  refine ⟨fun t r hp hc => transmit_head hup hlink hp hc, fun t r hp hc => transmit_lacks hup hlink hp hc,
    fun i g hp hg hc hfirst => transmit_general hup hlink hp hg hc hfirst, fun c => creditUpdate_holds hup hlink c,
    fun a t r hw hc hp hcov hdue => ?_, fun a hw hc => creditWaitExpiry_idle (.inl hc),
    fun h => creditWaitExpiry_idle (.inr h)⟩
  have hl : s.headLacks = true := by rw [headLacks_cons hlink hp, hcov]; rfl
  refine ⟨_, creditWaitExpiry_counts hw hc hl hdue, ?_, rfl, ?_, ?_, fun x hx q id n hwhy => creditLate_marks s hx hwhy⟩
  iterate 3 (rw [creditLate_eq])

end Sys2Proof.Machine
end
section
/-! PROOFS. What general messages, cause bits and logged errors leave of the module as it was; host reads (R99 to R102, R104,
R114, R142, R150). -/

namespace Sys2Proof.Machine
open Sys2Proof

/-! ### Messages in the general queue -/

section
variable (s : State)

variable {s} in
theorem qps_of_unsent {t : State} (h : t.unsent = s.unsent) : t.qps = s.qps := by
  have hq := congrArg State.qps h
  exact hq

variable {s} in
theorem qw_of_words {t : State} (h : t.qps.words = s.qps.words) (q : Nat) : t.qw q = s.qw q := by
  unfold State.qw
  rw [h]

theorem unsent_each {α : Type} {f : α → State → State} (h : ∀ a s, (f a s).unsent = s.unsent) (l : List α) :
    (each l f s).unsent = s.unsent := each_keeps s State.unsent f h l

theorem unsent_msix (fn vec : Nat) : (s.msix fn vec false).unsent = s.unsent := by
  simp only [State.msix]
  split_ifs <;> rfl

theorem unsent_cause (fn b : Nat) : (s.cause fn b).unsent = s.unsent := by
  simp only [State.cause]
  split_ifs
  · rfl
  · exact unsent_msix _ fn _

theorem unsent_statusTouch : s.statusTouch.unsent = s.unsent := by
  refine unsent_each s (fun fn s => ?_) _
  dsimp only
  split_ifs
  · rfl
  · exact unsent_cause _ fn 2

theorem unsent_fwReadies : s.fwReadies.unsent = s.unsent := by
  unfold State.fwReadies
  dsimp only
  split
  · rfl
  · refine (unsent_statusTouch _).trans (unsent_each s (fun fn s => ?_) _)
    split <;> rfl

theorem unsent_dbErr (fn q reason : Nat) : (s.dbErr fn q reason).unsent = s.unsent := by
  simp only [State.dbErr]
  split_ifs
  · rfl
  · exact unsent_cause _ fn 3

theorem qps_dbErr (fn q reason : Nat) : (s.dbErr fn q reason).qps = s.qps :=
  qps_of_unsent (unsent_dbErr s fn q reason)

/-! ### Errors and records -/

/-- An error is logged, with its severity; the record that it may leave is an event (R114). -/
theorem aerLog_eq (e : AerError) (fn header : Nat) : s.aerLog e fn header =
    { s with pci := { s.pci with aer := s.pci.aer ++ [(e, fn, header, s.severity e)] }, dv := (s.aerLog e fn header).dv } := by
  unfold State.aerLog
  dsimp only
  split_ifs <;> rfl

/-- Queries are answered from the state as it stands; they wait no longer. -/
theorem answerQueries_eq (q : Nat) : s.answerQueries q =
    { s.setQrun q { s.qrun q with queryBy := [] } with drn := (s.answerQueries q).drn } :=
  congrArg (fun u : State => { u with drn := (s.answerQueries q).drn })
    (each_keeps (s.setQrun q { s.qrun q with queryBy := [] }) (fun s => { s with drn := {} }) _
      (fun e s => by rw [reply_eq]) (s.qrun q).queryBy)

/-! ### Contexts that fail (R142, R144) -/

/-- Doorbell units are discarded one by one. -/
theorem unsent_each_dbErr (q reason : Nat) (l : List Unit8) :
    (each l (fun u s => s.dbErr u.fn q reason) s).unsent = s.unsent := by
  refine unsent_each s (fun u s => ?_) l
  exact unsent_dbErr s u.fn q reason

/-- A failed context leaves its queue pair disabled and the cache as it was, with the record of R142. -/
theorem ctxFail_holds (q check : Nat) : ((s.ctxFail q check).qw q).en = false ∧
    (s.ctxFail q check).qps.cache = s.qps.cache ∧ ∃ e ∈ (s.ctxFail q check).dv.inbox, e.typ = 0x0032 := by
  have hqps := qps_of_unsent (unsent_each_dbErr (s.disableQp q) q 3 (s.qrun q).units)
  refine ⟨?_, ?_, ⟨_, List.mem_append_right _ (List.mem_singleton_self _), rfl⟩⟩
  · change (tget {} (each (s.qrun q).units (fun u s => s.dbErr u.fn q 3) (s.disableQp q)).qps.words q).en = false
    rw [hqps]
    exact congrArg QpWord.en ((setQw_get s q q _).trans (if_pos rfl))
  · change (each (s.qrun q).units (fun u s => s.dbErr u.fn q 3) (s.disableQp q)).qps.cache = _
    rw [hqps]
    rfl

theorem answerQueries_parts (q : Nat) : (s.answerQueries q).qps.words = s.qps.words ∧
    (s.answerQueries q).qps.cache = s.qps.cache ∧ (s.answerQueries q).dv = s.dv := by
  rw [answerQueries_eq]
  exact ⟨rfl, rfl, rfl⟩

/-- A failed context leaves the same when queries waited on it. -/
theorem ctxFail_answered_holds (q check : Nat) : (((s.ctxFail q check).answerQueries q).qw q).en = false ∧
    ((s.ctxFail q check).answerQueries q).qps.cache = s.qps.cache ∧
    ∃ e ∈ ((s.ctxFail q check).answerQueries q).dv.inbox, e.typ = 0x0032 := by
  obtain ⟨hw, hc, hd⟩ := answerQueries_parts (s.ctxFail q check) q
  rw [qw_of_words hw, hc, hd]
  exact ctxFail_holds s q check

end

/-! ### The context cache -/

section
variable {s : State} {q : Nat} {c : Ctx}

theorem ne_noCtx (h : 4 ≤ c.cqLog.toNat) : c ≠ noCtx := by
  rintro rfl
  exact absurd h (by decide)

/-- A context put into the cache is held there. -/
theorem ctx?_of_cache {t : State} (h : 4 ≤ c.cqLog.toNat) (ht : t.qps.cache = tset noCtx s.qps.cache q c) :
    t.ctx? q = some c := by
  unfold State.ctx?
  rw [ht, find?_tset (ne_noCtx h)]
  rfl

/-- A context is read, its checks agree and no unit waits on it: it enters the cache (R142). -/
theorem ctxRead_enters {b : Bytes} (hen : (s.qw q).en = true) (hunits : (s.qrun q).units = [])
    (hlog : 4 ≤ (ctxOf b).cqLog.toNat)
    (hmac : ctxMac (s.ctxKey (s.qw q).gen) q (sub b 0 56) = sub b 56 8) (hseq : leAt b 0x36 2 = (s.qw q).seq.toNat) :
    (s.ctxRead q b).ctx? q = some (ctxOf b) ∧ (s.ctxRead q b).qw q = s.qw q ∧
      ((s.ctxRead q b).qrun q).fetching = false ∧ ((s.ctxRead q b).qrun q).fetch = (ctxOf b).sqHead.toNat := by
  have heq : s.ctxRead q b = State.answerQueries (((s.setQrun q { s.qrun q with
      units := [], fetching := false, fetch := (ctxOf b).sqHead.toNat }).putCtx q (ctxOf b)).touch q) q := by
    simp only [State.ctxRead, hen, hmac, hseq, hunits, Bool.not_true, Bool.false_eq_true, if_false, ne_eq, not_true]
    rfl
  have hrun : (s.ctxRead q b).qrun q = { s.qrun q with
      units := [], fetching := false, fetch := (ctxOf b).sqHead.toNat, queryBy := [] } := by
    rw [heq, answerQueries_eq]
    refine (setQrun_get _ q q _).trans ((if_pos rfl).trans ?_)
    exact congrArg (fun r : QpRun => { r with queryBy := [] }) ((setQrun_get s q q _).trans (if_pos rfl))
  obtain ⟨hwords, hcache, -⟩ := answerQueries_parts (((s.setQrun q { s.qrun q with
      units := [], fetching := false, fetch := (ctxOf b).sqHead.toNat }).putCtx q (ctxOf b)).touch q) q
  rw [← heq] at hwords hcache
  exact ⟨ctx?_of_cache (s := s) hlog hcache, qw_of_words hwords q, by rw [hrun], by rw [hrun]⟩

theorem ctxRead_badMac {b : Bytes} (hen : (s.qw q).en = true)
    (hmac : ctxMac (s.ctxKey (s.qw q).gen) q (sub b 0 56) ≠ sub b 56 8) :
    s.ctxRead q b = (s.ctxFail q 1).answerQueries q := by
  simp only [State.ctxRead, hen, Bool.not_true, Bool.false_eq_true, if_false, ne_eq, hmac, not_false_eq_true, if_true]

theorem ctxRead_badSeq {b : Bytes} (hen : (s.qw q).en = true)
    (hmac : ctxMac (s.ctxKey (s.qw q).gen) q (sub b 0 56) = sub b 56 8) (hseq : leAt b 0x36 2 ≠ (s.qw q).seq.toNat) :
    s.ctxRead q b = (s.ctxFail q 2).answerQueries q := by
  simp only [State.ctxRead, hen, Bool.not_true, Bool.false_eq_true, if_false, ne_eq, hmac, not_true, hseq,
    not_false_eq_true, if_true]

end

/-! ### Jobs of the job table -/

section
variable {s : State} {id : Nat} {j : Job}

theorem id_of_job? (h : s.job? id = some j) : j.id = id := by
  simpa using List.find?_some h

/-- A job put back under its number is the one that the number finds. -/
theorem job?_putJob (h : s.job? id = some j) {k : Job} (hk : k.id = id) : (s.putJob k).job? id = some k := by
  have hfind : ∀ l : List Job, l.find? (·.id == id) = some j →
      (l.map fun x => if x.id = k.id then k else x).find? (·.id == id) = some k := fun l => by
    induction l with
    | nil => exact fun h => by simp at h
    | cons x l ih =>
      intro h
      by_cases hx : x.id = id
      · simp [hx, hk]
      · simpa [hx, hk] using ih (by simpa [hx] using h)
  exact hfind _ h

/-- What frees a job's lanes and hash unit leaves what the bench's and the hash units' records do not touch. -/
theorem freeUnits_keeps {β : Type} (P : State → β) (hbch : ∀ (s : State) x, P { s with bch := x } = P s)
    (hhme : ∀ (s : State) x, P { s with hme := x } = P s) (s : State) (j : Job) : P (s.freeUnits j) = P s := by
  have hl := each_keeps s P (fun p s => s.setLane p {}) (fun _ s => hbch s _) j.lanes
  simp only [State.freeUnits]
  rw [hbch]
  split
  · exact (hhme _ _).trans hl
  · exact hl

/-- The release of a job's key holds leaves what the key rows do not touch. -/
theorem releaseHolds_keeps {β : Type} (P : State → β) (hkey : ∀ (s : State) x, P { s with key := x } = P s) (s : State)
    (j : Job) : P (s.releaseHolds j) = P s := each_keeps s P _ (fun _ s => hkey s _) j.holds

theorem qps_freeUnits (s : State) (j : Job) : (s.freeUnits j).qps = s.qps :=
  freeUnits_keeps State.qps (fun _ _ => rfl) (fun _ _ => rfl) s j

theorem pci_freeUnits (s : State) (j : Job) : (s.freeUnits j).pci = s.pci :=
  freeUnits_keeps State.pci (fun _ _ => rfl) (fun _ _ => rfl) s j

/-- A job that was not done ends with the status given, its units free. -/
theorem jobEnded_finishJob (h : s.job? id = some j) (hj : j.stage ≠ .done) (st : Nat) (r : Bytes) :
    (s.finishJob j st r).jobEnded j st r := by
  have hid := id_of_job? h
  unfold State.finishJob
  rw [if_neg hj]
  refine ⟨_, job?_putJob (s := s.freeUnits j) (j := j) ?_ rfl, rfl, rfl, rfl, rfl, rfl⟩
  unfold State.job?
  rw [qps_freeUnits, hid]
  exact h

theorem pci_finishJob (s : State) (j : Job) (st : Nat) (r : Bytes) : (s.finishJob j st r).pci = s.pci := by
  unfold State.finishJob
  split
  · rfl
  · exact pci_freeUnits s j

end

/-! ### Completions and timeouts of reads (R104) -/

section
variable {s : State} {tag : Nat}

/-- The state whose tag `tag` is free again; no read waits for one. -/
def State.untagged (s : State) (tag : Nat) : State :=
  { s with pci := { s.pci with tags := s.pci.tags.filter (·.1 != tag) } }

theorem freeRead_of_none (hwait : s.pci.waitTag = []) (h : HRead) : s.freeRead tag h = s.untagged tag := by
  unfold State.freeRead State.retryTags
  rw [hwait]
  rfl

variable (hup : s.up = true) (hlink : s.pci.up = true)
include hup hlink

theorem completion_unexpected (hnone : s.pci.tags.find? (·.1 == tag) = none) (c : Cpl) :
    exec (.hostReadCompletion tag c) s = .next (s.aerLog .unexpectedCompletion 0 0) := by
  change execHostReadCompletion tag c s = _
  unfold execHostReadCompletion
  rw [if_neg (by simp [hup, hlink]), hnone]
  rfl

variable {h : HRead} (hwait : s.pci.waitTag = []) (hread : s.pci.tags.find? (·.1 == tag) = some (tag, h))
include hwait hread

theorem completion_data (b : Bytes) : exec (.hostReadCompletion tag (.data b)) s = .next (match h.why with
    | .context q => (s.untagged tag).ctxRead q b
    | .sqRun q id k => (s.untagged tag).runRead q id k (sub b 0 h.len)
    | .payload id k => (s.untagged tag).chunkRead id k (sub b 0 h.len)
    | .sweep q => (s.untagged tag).sweepRead q b) := by
  change execHostReadCompletion tag (.data b) s = _
  unfold execHostReadCompletion
  rw [if_neg (by simp [hup, hlink]), hread]
  simp only [Option.map_some, freeRead_of_none hwait]
  cases h.why <;> rfl

/-- The error that a completion without data is logged as. -/
def cplError : Cpl → AerError
  | .unsupported => .unsupportedRequest
  | .abort => .completerAbort
  | .poisoned => .poisoned
  | _ => .ecrc

theorem completion_failed {c : Cpl} (hc : c = .unsupported ∨ c = .abort ∨ c = .poisoned ∨ c = .ecrcFail) :
    exec (.hostReadCompletion tag c) s = .next (((s.untagged tag).aerLog (cplError c) h.fn 0).readFails h) := by
  change execHostReadCompletion tag c s = _
  unfold execHostReadCompletion
  rw [if_neg (by simp [hup, hlink]), hread]
  simp only [Option.map_some, freeRead_of_none hwait]
  rcases hc with rfl | rfl | rfl | rfl <;> rfl

omit hlink in
theorem timeout_due {a : Nat} (hsent : h.sentAt = some a)
    (hdue : a * 100 + 98 * cplTimeout s.pci.ctv s.pci.ctDisable ≤ s.now * 100) :
    exec (.completionTimeout tag) s = .next (((s.untagged tag).aerLog .completionTimeout h.fn 0).readFails h) := by
  change execCompletionTimeout tag s = _
  unfold execCompletionTimeout
  simp only [hread, Option.map_some, hsent, freeRead_of_none hwait, hup, Bool.not_true, Bool.false_or,
    decide_eq_true_eq, if_neg (Nat.not_lt.mpr hdue)]

omit hup hlink hwait in
theorem timeout_early {a : Nat} (hsent : h.sentAt = some a)
    (hearly : s.now * 100 < a * 100 + 98 * cplTimeout s.pci.ctv s.pci.ctDisable) :
    exec (.completionTimeout tag) s = .next s := by
  change execCompletionTimeout tag s = _
  unfold execCompletionTimeout
  simp only [hread, Option.map_some, hsent, hearly, decide_true, Bool.or_true, if_true]

end

section
variable {s : State} {tag id k : Nat} {j : Job} (hj : s.job? id = some j) (hstage : j.stage = .reading)
include hj hstage

/-- The data of a chunk is kept, and the job is ready once every chunk has come (R104). -/
theorem chunkRead_holds (d : Bytes) : (s.chunkRead id k d).pci = s.pci ∧
    (s.chunkRead id k d).job? id = some (if (tset [] j.got k d).length = j.need
      then { j with got := tset [] j.got k d, stage := .ready, readyAt := s.now }
      else { j with got := tset [] j.got k d }) := by
  have hid := id_of_job? hj
  unfold State.chunkRead
  simp only [hj, hstage, ne_eq, not_true, if_false]
  split_ifs
  · exact ⟨rfl, job?_putJob hj hid⟩
  · exact ⟨rfl, job?_putJob hj hid⟩

/-- A failed read of payload ends its job with HOST_READ, and the error is logged alone. -/
theorem payloadFails_holds {h : HRead} (hwhy : h.why = .payload id k) (e : AerError) :
    (((s.untagged tag).aerLog e h.fn 0).readFails h).jobEnded j stHostRead (noResult j.sqe.opcode) ∧
      (((s.untagged tag).aerLog e h.fn 0).readFails h).pci =
        { (s.untagged tag).pci with aer := s.pci.aer ++ [(e, h.fn, 0, s.severity e)] } := by
  have hjob : ((s.untagged tag).aerLog e h.fn 0).job? id = some j := by
    rw [aerLog_eq]
    exact hj
  have heq : ((s.untagged tag).aerLog e h.fn 0).readFails h =
      ((s.untagged tag).aerLog e h.fn 0).finishJob j stHostRead (noResult j.sqe.opcode) := by
    simp only [State.readFails, hwhy, hjob]
  rw [heq]
  refine ⟨jobEnded_finishJob hjob (by simp [hstage]) _ _, ?_⟩
  rw [pci_finishJob, aerLog_eq]
  rfl

end

/-- Settles O18: each clause by the lemma about its command. -/
theorem hostReads : Obligations.HostReads := by
  unfold Obligations.HostReads
  intro s tag hup hlink hwait
  refine ⟨fun c hnone => ⟨_, completion_unexpected hup hlink hnone c, ?_⟩, fun h hread => ⟨fun id k j hwhy hj hstage =>
    ⟨fun b => ?_, fun c hc => ?_, fun a hsent hdue => ?_⟩, fun q b hwhy hen hunits _ hlog hmac => ⟨fun hseq => ?_,
      fun hseq => ?_⟩, fun q b hwhy hen hmac => ?_, fun a hsent hearly => timeout_early hread hsent hearly⟩,
    rfl, rfl, rfl, rfl⟩
  · rw [aerLog_eq]
    exact ⟨rfl, rfl, rfl⟩
  all_goals have hdata := completion_data hup hlink hwait hread
  · obtain ⟨hpci, hjob⟩ := chunkRead_holds (s := s.untagged tag) (k := k) hj hstage (sub b 0 h.len)
    refine ⟨_, (hdata b).trans (by rw [hwhy]), by rw [hpci]; rfl, hjob⟩
  · obtain ⟨hend, hpci⟩ := payloadFails_holds (tag := tag) hj hstage hwhy (cplError c)
    refine ⟨_, completion_failed hup hlink hwait hread hc, hend, ?_⟩
    rw [hpci]
    rcases hc with rfl | rfl | rfl | rfl <;> rfl
  · obtain ⟨hend, hpci⟩ := payloadFails_holds (tag := tag) hj hstage hwhy .completionTimeout
    exact ⟨_, timeout_due hup hwait hread hsent hdue, hend, by rw [hpci]; rfl, by rw [hpci]⟩
  · exact ⟨_, (hdata b).trans (by rw [hwhy]), ctxRead_enters (s := s.untagged tag) hen hunits hlog hmac hseq⟩
  · obtain ⟨hoff, hcache, e, he, htyp⟩ := ctxFail_answered_holds (s.untagged tag) q 2
    rw [← ctxRead_badSeq (s := s.untagged tag) hen hmac hseq] at hoff hcache he
    exact ⟨_, e, (hdata b).trans (by rw [hwhy]), hoff, hcache, he, htyp⟩
  · obtain ⟨hoff, hcache, -⟩ := ctxFail_answered_holds (s.untagged tag) q 1
    rw [← ctxRead_badMac (s := s.untagged tag) hen hmac] at hoff hcache
    exact ⟨_, (hdata b).trans (by rw [hwhy]), hoff, hcache⟩

end Sys2Proof.Machine
end
section
/-! PROOFS. Doorbells and coalescing (R97, R101, R145 to R147). -/

namespace Sys2Proof.Machine
open Sys2Proof

/-! ### A function's block after a message -/

/-- A function without what its messages and cause bits touch. -/
def Fun.unsignalled (f : Fun) : Fun := { f with vecs := [], cause := 0, seen := 0 }

theorem doorbells_of_unsignalled {f g : Fun} (h : f.unsignalled = g.unsignalled) :
    f.dbErr = g.dbErr ∧ f.dbCount = g.dbCount := by
  have herr := congrArg Fun.dbErr h
  have hcount := congrArg Fun.dbCount h
  exact ⟨herr, hcount⟩

section
variable (s : State)

theorem fun_creditWait (n : Nat) : s.creditWait.fun_ n = s.fun_ n := by
  obtain ⟨p, w, c, q, h⟩ := creditWait_eq s
  rw [h]
  rfl

theorem fun_place (prio : Bool) (t : Tlp) (n : Nat) : (s.place prio t).fun_ n = s.fun_ n := by
  unfold State.place
  cases prio with
  | false => rfl
  | true => exact fun_creditWait _ n

theorem unsignalled_setFun (fn n : Nat) {f : Fun} (h : f.unsignalled = (s.fun_ fn).unsignalled) :
    ((s.setFun fn f).fun_ n).unsignalled = (s.fun_ n).unsignalled := by
  rw [setFun_get]
  split_ifs with hn
  · rw [hn, h]
  · rfl

theorem unsignalled_msix (fn vec : Nat) (prio : Bool) (n : Nat) :
    ((s.msix fn vec prio).fun_ n).unsignalled = (s.fun_ n).unsignalled := by
  simp only [State.msix]
  split_ifs
  · rfl
  · exact unsignalled_setFun s fn n rfl
  · rfl
  · rw [fun_place]

theorem unsignalled_cause (fn b n : Nat) : ((s.cause fn b).fun_ n).unsignalled = (s.fun_ n).unsignalled := by
  simp only [State.cause]
  split_ifs
  · exact unsignalled_setFun s fn n rfl
  · exact (unsignalled_msix _ fn _ false n).trans (unsignalled_setFun s fn n rfl)

/-! ### A discarded unit (R97) -/

/-- The word that names the first unit discarded. -/
theorem bits_dbErr (q reason : Nat) : bit (bf 19 0 q ||| bf 21 20 reason ||| bitW 31) 31 = true ∧
    fld (bf 19 0 q ||| bf 21 20 reason ||| bitW 31) 21 20 = reason % 4 := by
  have hmod : bf 21 20 reason = bf 21 20 (reason % 4) := by simp [bf]
  have hlt : reason % 4 < 2 ^ (21 + 1 - 20) := Nat.mod_lt reason (by decide : 0 < 4)
  have htop : bitW 31 = bf 31 31 1 := by decide
  refine ⟨by simp [bit, getLsbD_bitW], ?_⟩
  rw [hmod, htop, fld_or, fld_or, fld_bf_same 21 20 _ (by decide) hlt,
    fld_bf_other _ (by decide), fld_bf_other _ (by decide), Nat.zero_or, Nat.or_zero]

/-- A discarded unit is counted; the first is named, a later one sets MORE. -/
theorem dbErr_holds (fn q reason : Nat) : (s.dbErr fn q reason).qps = s.qps ∧
    ((s.dbErr fn q reason).fun_ fn).dbCount = satInc (s.fun_ fn).dbCount (2 ^ 32 - 1) ∧
    bit ((s.dbErr fn q reason).fun_ fn).dbErr 31 = true ∧
    (bit (s.fun_ fn).dbErr 31 = false → fld ((s.dbErr fn q reason).fun_ fn).dbErr 21 20 = reason % 4) ∧
    (bit (s.fun_ fn).dbErr 31 = true → bit ((s.dbErr fn q reason).fun_ fn).dbErr 30 = true) := by
  refine ⟨qps_dbErr s fn q reason, ?_⟩
  simp only [State.dbErr]
  by_cases h : bit (s.fun_ fn).dbErr 31 = true
  · simp [h]
  · obtain ⟨hvalid, hreason⟩ := bits_dbErr q reason
    rw [if_neg h]
    generalize hf : ({ s.fun_ fn with
      dbErr := bf 19 0 q ||| bf 21 20 reason ||| bitW 31, dbCount := satInc (s.fun_ fn).dbCount (2 ^ 32 - 1) } : Fun) = f
    have hkept := unsignalled_cause (s.setFun fn f) fn 3 fn
    rw [setFun_get, if_pos rfl] at hkept
    obtain ⟨herr, hcount⟩ := doorbells_of_unsignalled hkept
    rw [herr, hcount]
    subst hf
    exact ⟨rfl, hvalid, fun _ => hreason, fun h' => absurd h' h⟩

end

/-! ### Doorbell writes (R97) -/

section
variable {s : State} {fn : Fin 64} {k : Nat} {b : Bytes} (hup : s.up = true) (hlink : s.pci.up = true)
  (hfn : s.fnEnabled fn.val = true) (hd3 : (s.fun_ fn.val).d3hot = false) (hlen : b.length = 4)
include hup hlink hfn hd3 hlen

theorem exec_doorbell_tail : exec (.doorbell fn (8 * k) b true) s =
    .next (s.dbUnit fn.val k (some (BitVec.ofNat 16 (leAt b 0 2))) none) := by
  change execDoorbell fn (8 * k) b true s = _
  unfold execDoorbell
  rw [if_neg (by simp [hup, hlink, hfn, hd3])]
  dsimp only
  rw [if_pos (by simp [hlen]), Nat.mul_div_cancel_left k (by decide)]

theorem exec_doorbell_head : exec (.doorbell fn (8 * k + 4) b true) s =
    .next (s.dbUnit fn.val k none (some (BitVec.ofNat 16 (leAt b 0 2)))) := by
  have hoff : (8 * k + 4) % 8 = 4 ∧ (8 * k + 4) / 8 = k := by omega
  change execDoorbell fn (8 * k + 4) b true s = _
  unfold execDoorbell
  rw [if_neg (by simp [hup, hlink, hfn, hd3])]
  dsimp only
  rw [if_neg (by simp [hoff]), if_pos (by simp [hlen, hoff]), hoff.2]

/-- A write without all of its bytes is a unit badly formed: reason 2. -/
theorem exec_doorbell_partial : exec (.doorbell fn (8 * k) b false) s =
    .next (s.dbErr fn.val (if fn.val = 0 then k else (s.fun_ fn.val).first + k) 2) := by
  have hcount : (8 * k + 4 + 7) / 8 - 8 * k / 8 = 1 := by omega
  have hk : 8 * k / 8 = k := by omega
  change execDoorbell fn (8 * k) b false s = _
  unfold execDoorbell
  rw [if_neg (by simp [hup, hlink, hfn, hd3])]
  simp only [Bool.false_and, Bool.false_eq_true, if_false, hlen, hcount]
  change Host.Outcome.next (s.dbErr fn.val ((if fn.val = 0 then 0 else (s.fun_ fn.val).first) + 8 * k / 8 + 0) 2) = _
  rw [hk, Nat.add_zero]
  split_ifs
  · rw [Nat.zero_add]
  · rfl

end

section
variable {s : State} {fn k q : Nat} (hq : (if fn = 0 then k else (s.fun_ fn).first + k) = q)
  (tail head : Option (BitVec 16))
include hq

theorem dbUnit_foreign (hown : s.ownsQp fn q = false) : s.dbUnit fn k tail head = s.dbErr fn q 0 := by
  simp only [State.dbUnit, hq, hown, Bool.not_false, if_true]

theorem dbUnit_disabled (hown : s.ownsQp fn q = true) (hen : (s.qw q).en = false) :
    s.dbUnit fn k tail head = s.dbErr fn q 1 := by
  simp only [State.dbUnit, hq, hown, hen, Bool.not_true, Bool.not_false, Bool.false_eq_true, if_false, Bool.or_true,
    Bool.true_or, if_true]

/-- A unit of an enabled queue pair of the function reaches the queue logic (R113, R115). -/
theorem dbUnit_arrives (hopen : s.ownsQp fn q = true ∧ (s.fun_ fn).fwReady = true ∧ s.halted = false ∧
      s.tmp.zeroized = false ∧ (s.qw q).en = true ∧ (s.qw q).destroying = false) :
    s.dbUnit fn k tail head = s.unitArrives q { fn := fn, tail := tail, head := head } := by
  obtain ⟨hown, hready, hhalt, hzero, hen, hdes⟩ := hopen
  simp only [State.dbUnit, hq, hown, hready, hhalt, hzero, hen, hdes, Bool.not_true, Bool.false_eq_true, if_false,
    Bool.or_self]

end

/-! ### What a unit does to its queue pair (R145 to R147, R155) -/

section
variable {s : State} {q : Nat} {c : Ctx} {u : Unit8}

/-- The context as a unit's values leave it. -/
def Ctx.written (c : Ctx) (u : Unit8) : Ctx := { c with sqTail := u.tail.getD c.sqTail, cqHead := u.head.getD c.cqHead }

theorem unitArrives_refused (hc : s.ctx? q = some c) (hbad : unitOk c u = false) : s.unitArrives q u = s.dbErr u.fn q 3 := by
  simp only [State.unitArrives, hc, State.applyUnit, hbad, Bool.not_false, if_true]

/-- A unit joins those that wait on the context fetch under way (R147). -/
theorem unitArrives_waits (hc : s.ctx? q = none) (hf : (s.qrun q).fetching = true) :
    s.unitArrives q u = s.setQrun q { s.qrun q with units := (s.qrun q).units ++ [u] } := by
  simp only [State.unitArrives, hc, State.fetchCtx, setQrun_get, if_true, hf]

/-- A good unit is applied to the cached context; a class-0 queue pair with new entries then stands in the order. -/
theorem unitArrives_applied (hc : s.ctx? q = some c) (hlog : 4 ≤ c.cqLog.toNat) (hok : unitOk c u = true) :
    (s.unitArrives q u).ctx? q = some (c.written u) ∧ (s.unitArrives q u).qps.jobs = s.qps.jobs ∧
      (s.unitArrives q u).pci = s.pci ∧
      ((s.qw q).cls = 0 → s.unfetched q (c.written u) ≠ 0 → q ∈ (s.unitArrives q u).qps.c0Order) := by
  have heq : s.unitArrives q u = if (s.qw q).cls = 0 && s.unfetched q (c.written u) ≠ 0 && !s.qps.c0Order.contains q
      then { (s.putCtx q (c.written u)).touch q with qps := { ((s.putCtx q (c.written u)).touch q).qps with
        c0Order := s.qps.c0Order ++ [q] } }
      else (s.putCtx q (c.written u)).touch q := by
    simp only [State.unitArrives, hc, State.applyUnit, hok, Bool.not_true, Bool.false_eq_true, if_false]
    rfl
  rw [heq]
  have hlog' : 4 ≤ (c.written u).cqLog.toNat := hlog
  split_ifs with h
  · exact ⟨ctx?_of_cache (s := s) hlog' rfl, rfl, rfl, fun _ _ => List.mem_append_right _ (List.mem_singleton_self q)⟩
  · refine ⟨ctx?_of_cache (s := s) hlog' rfl, rfl, rfl, fun hcls hnew => ?_⟩
    change q ∈ s.qps.c0Order
    simpa [hcls, hnew] using h

theorem unitOk_tail {v : BitVec 16} {fn : Nat} (hev : eventQ c = false) (hsize : v.toNat < sqSize c)
    (hring : ringDiff (sqSize c) c.sqTail.toNat c.sqHead.toNat ≤ ringDiff (sqSize c) v.toNat c.sqHead.toNat) :
    unitOk c ⟨fn, some v, none⟩ = true := by simp [unitOk, hev, hsize, hring]

theorem unitOk_head {v : BitVec 16} {fn : Nat} (hsize : v.toNat < cqSize c)
    (hring : ringDiff (cqSize c) v.toNat c.cqHead.toNat ≤ ringDiff (cqSize c) c.cqTail.toNat c.cqHead.toNat) :
    unitOk c ⟨fn, none, some v⟩ = true := by simp [unitOk, hsize, hring]

theorem unitOk_badTail {v : BitVec 16} {fn : Nat} (h : eventQ c = true ∨ sqSize c ≤ v.toNat) :
    unitOk c ⟨fn, some v, none⟩ = false := by
  rcases h with h | h <;> simp [unitOk, h, Nat.not_lt.mpr]

/-- Entries held COAL_TIME signal their vector (R101). -/
theorem exec_coalesceTimeout (hup : s.up = true) (hunsig : (s.qrun q).unsig ≠ 0) (hdue : (s.qrun q).due ≤ s.now) :
    exec (.coalesceTimeout q) s = .next ((s.setQrun q { s.qrun q with unsig := 0 }).msix (s.qw q).owner.toNat
      (s.qrun q).vector ((s.qw q).cls == 0)) := by
  change execCoalesceTimeout q s = _
  unfold execCoalesceTimeout
  dsimp only
  rw [if_neg (by simp [hup, hunsig, hdue])]

end

/-- Settles O15: a write of 4 bytes is one unit, and each clause is one of the ways in which a unit ends. -/
theorem doorbells : Obligations.Doorbells := by
  unfold Obligations.Doorbells
  intro s fn k b hup hlink hfn hd3 hlen q v open_
  have htail := exec_doorbell_tail (k := k) hup hlink hfn hd3 hlen
  have hhead := exec_doorbell_head (k := k) hup hlink hfn hd3 hlen
  have hq : (if fn.val = 0 then k else (s.fun_ fn.val).first + k) = q := rfl
  refine ⟨fun hown => htail.trans (by rw [dbUnit_foreign hq _ _ hown]),
    fun hown hen => htail.trans (by rw [dbUnit_disabled hq _ _ hown hen]), exec_doorbell_partial hup hlink hfn hd3 hlen,
    fun c hopen hc hlog hev hsize hring => ⟨_, htail, ?_⟩, fun c hopen hc hlog hsize hring => ⟨_, hhead, ?_⟩,
    fun c hopen hc hbad => htail.trans ?_, fun hopen hc hf => htail.trans ?_, fun reason => dbErr_holds s fn.val q reason,
    fun hunsig hdue => exec_coalesceTimeout hup hunsig hdue⟩
  all_goals rw [dbUnit_arrives hq _ _ hopen]
  · exact unitArrives_applied hc hlog (unitOk_tail hev hsize hring)
  · obtain ⟨hctx, -, hpci, -⟩ := unitArrives_applied hc hlog (unitOk_head (fn := fn.val) hsize hring)
    exact ⟨hctx, hpci⟩
  · rw [unitArrives_refused hc (unitOk_badTail hbad)]
  · rw [unitArrives_waits hc hf]

end Sys2Proof.Machine
end
section
/-! PROOFS. Resets by the host: what no part of them brings back (R111, R112, R125, R135). -/

namespace Sys2Proof.Machine
open Sys2Proof

/-! ### What a state holds of a function -/

/-- The queue pairs of a function: the first, and how many (R135). -/
def Fun.range (f : Fun) : Nat × Nat := (f.first, f.count)

def State.noJob (s : State) (fn : Nat) : Prop := ∀ j ∈ s.qps.jobs, j.fn ≠ fn
def State.noQp (s : State) (fn : Nat) : Prop := ∀ e ∈ s.qps.words, e.2.en = true → e.2.owner.toNat ≠ fn
def State.noRead (s : State) (fn : Nat) : Prop := (∀ e ∈ s.pci.tags, e.2.fn ≠ fn) ∧ ∀ h ∈ s.pci.waitTag, h.fn ≠ fn
/-- Of the function's TLPs only completions wait in the priority queue. -/
def State.noSend (s : State) (fn : Nat) : Prop := ∀ x ∈ s.pci.prio, x.fn = fn → x.kind = .completion

/-- `t` holds no job, no enabled queue pair, no read and no request in the priority queue of a function of which `s` held
none, and every function has the range of queue pairs that it had. -/
structure NoNew (s t : State) : Prop where
  jobs : ∀ fn, s.noJob fn → t.noJob fn
  qps : ∀ fn, s.noQp fn → t.noQp fn
  reads : ∀ fn, s.noRead fn → t.noRead fn
  sends : ∀ fn, s.noSend fn → t.noSend fn
  range : ∀ n, (t.fun_ n).range = (s.fun_ n).range

theorem NoNew.refl (s : State) : NoNew s s := ⟨fun _ h => h, fun _ h => h, fun _ h => h, fun _ h => h, fun _ => rfl⟩

theorem NoNew.trans {s t u : State} (h : NoNew s t) (h' : NoNew t u) : NoNew s u :=
  ⟨fun fn hs => h'.jobs fn (h.jobs fn hs), fun fn hs => h'.qps fn (h.qps fn hs), fun fn hs => h'.reads fn (h.reads fn hs),
    fun fn hs => h'.sends fn (h.sends fn hs), fun n => (h'.range n).trans (h.range n)⟩

theorem noNew_each {α : Type} {f : α → State → State} (hf : ∀ a s, NoNew s (f a s)) (l : List α) (s : State) :
    NoNew s (each l f s) := by
  induction l generalizing s with
  | nil => exact NoNew.refl s
  | cons a l ih => exact (hf a s).trans (ih (f a s))

/-- What keeps these parts holds nothing new. -/
theorem noNew_of_parts {s t : State} (hjobs : t.qps.jobs = s.qps.jobs) (hwords : t.qps.words = s.qps.words)
    (htags : t.pci.tags = s.pci.tags) (hwait : t.pci.waitTag = s.pci.waitTag) (hprio : t.pci.prio = s.pci.prio)
    (hrange : ∀ n, (t.fun_ n).range = (s.fun_ n).range) : NoNew s t := by
  refine ⟨fun fn h => ?_, fun fn h => ?_, fun fn h => ?_, fun fn h => ?_, hrange⟩
  · rwa [State.noJob, hjobs]
  · rwa [State.noQp, hwords]
  · rwa [State.noRead, htags, hwait]
  · rwa [State.noSend, hprio]

/-! ### Egress and messages -/

section
variable (s : State)

theorem noNew_setFun (fn : Nat) {f : Fun} (h : f.range = (s.fun_ fn).range) : NoNew s (s.setFun fn f) := by
  refine noNew_of_parts rfl rfl rfl rfl rfl fun n => ?_
  rw [setFun_get]
  split_ifs with hn
  · rw [hn, h]
  · rfl

theorem noNew_creditLate : NoNew s s.creditLate := by
  rw [creditLate_eq]
  refine ⟨fun fn h j hj => ?_, fun _ h => h, fun _ h => h, fun fn h x hx => ?_, fun _ => rfl⟩
  · obtain ⟨k, hk, rfl⟩ := List.mem_map.mp hj
    have hfn : ∀ ids, (credLate ids k).fn = k.fn := fun ids => by
      unfold credLate
      split <;> rfl
    rw [hfn]
    exact h k hk
  · obtain ⟨y, hy, rfl⟩ := List.mem_map.mp hx
    obtain ⟨hkind, hfn, -⟩ := late_shape y
    rw [hkind, hfn]
    exact h y hy

theorem noNew_creditWait : NoNew s s.creditWait := by
  by_cases hl : s.headLacks = false ∧ (s.pci.waitAt.isSome && s.pci.waitCounted) = true
  · rw [creditWait_of_long hl.1 hl.2]
    exact (noNew_creditLate s).trans (noNew_of_parts rfl rfl rfl rfl rfl fun _ => rfl)
  · cases h : s.headLacks with
    | true =>
      rw [creditWait_of_lacks h]
      exact noNew_of_parts rfl rfl rfl rfl rfl fun _ => rfl
    | false =>
      rw [creditWait_of_short h (by simpa [h] using hl)]
      exact noNew_of_parts rfl rfl rfl rfl rfl fun _ => rfl

theorem noNew_msix (fn vec : Nat) : NoNew s (s.msix fn vec false) := by
  simp only [State.msix]
  split_ifs
  · exact NoNew.refl s
  · exact noNew_setFun s fn rfl
  · exact NoNew.refl s
  · exact noNew_of_parts rfl rfl rfl rfl rfl fun _ => rfl

theorem noNew_cause (fn b : Nat) : NoNew s (s.cause fn b) := by
  simp only [State.cause]
  split_ifs
  · exact noNew_setFun s fn rfl
  · refine (noNew_setFun s fn ?_).trans (noNew_msix _ fn _)
    rfl

theorem noNew_fwReadies : NoNew s s.fwReadies := by
  unfold State.fwReadies
  dsimp only
  split
  · exact NoNew.refl s
  · refine (noNew_each (fun fn s => ?_) _ s).trans (noNew_each (fun fn s => ?_) _ _)
    · split
      · exact noNew_setFun s fn rfl
      · exact NoNew.refl s
    · dsimp only
      split_ifs
      · exact NoNew.refl s
      · refine (noNew_setFun s fn ?_).trans (noNew_cause _ fn 2)
        rfl

theorem noNew_dbErr (fn q reason : Nat) : NoNew s (s.dbErr fn q reason) := by
  simp only [State.dbErr]
  split_ifs
  · exact noNew_setFun s fn rfl
  · refine (noNew_setFun s fn ?_).trans (noNew_cause _ fn 3)
    rfl

theorem noNew_ptmAbandon : NoNew s s.ptmAbandon :=
  NoNew.trans (t := { s with
      loop := { s.loop with ptmT1 := none, ptmPrev := none, ptmQueued := false }
      pci := { s.pci with prio := s.pci.prio.filter fun t => t.kind != .ptm } })
    ⟨fun _ h => h, fun _ h => h, fun _ h => h, fun _ h x hx => h x (List.mem_filter.mp hx).1, fun _ => rfl⟩
    (noNew_creditWait _)

theorem noNew_resetFun (fn : Nat) : NoNew s (s.resetFun fn) := by
  unfold State.resetFun
  refine (noNew_setFun s fn (f := { first := (s.fun_ fn).first, count := (s.fun_ fn).count }) rfl).trans
    (noNew_setFun _ fn ?_)
  rfl

/-! ### Queue pairs -/

theorem mem_tset {α : Type} [DecidableEq α] {d v : α} {t : Tab α} {n : Nat} {e : Nat × α} (h : e ∈ tset d t n v) :
    e = (n, v) ∨ e ∈ t ∧ e.1 ≠ n := by
  have hdel : ∀ e ∈ tdel n t, e ∈ t ∧ e.1 ≠ n := fun e he => by simpa [tdel] using he
  have hins : ∀ t : Tab α, e ∈ tins n v t → e = (n, v) ∨ e ∈ t := fun t => by
    induction t with
    | nil => exact fun h => .inl (by simpa [tins] using h)
    | cons x t ih =>
      intro h
      unfold tins at h
      split at h
      · rcases List.mem_cons.mp h with rfl | h
        · exact .inr (List.mem_cons_self ..)
        · exact (ih h).imp_right (List.mem_cons_of_mem _)
      · exact List.mem_cons.mp h
  unfold tset at h
  split at h
  · exact .inr (hdel e h)
  · exact (hins _ h).imp_right (hdel e)

/-- A queue pair disabled brings no queue pair. -/
theorem noNew_setQw (q : Nat) {w : QpWord} (h : w.en = false) : NoNew s (s.setQw q w) := by
  refine ⟨fun _ h => h, fun fn hs e he hen => ?_, fun _ h => h, fun _ h => h, fun _ => rfl⟩
  rcases mem_tset he with rfl | ⟨he, -⟩
  · exact absurd (h.symm.trans hen) Bool.false_ne_true
  · exact hs e he hen

theorem noNew_ctxFail (q check : Nat) : NoNew s (s.ctxFail q check) := by
  have hoff : NoNew s (s.disableQp q) :=
    (noNew_setQw s q (w := { s.qw q with en := false, pinned := false }) rfl).trans
      (noNew_of_parts rfl rfl rfl rfl rfl fun _ => rfl)
  have hunits : NoNew (s.disableQp q) (each (s.qrun q).units (fun u s => s.dbErr u.fn q 3) (s.disableQp q)) := by
    refine noNew_each (fun u s => ?_) _ _
    exact noNew_dbErr s u.fn q 3
  exact (hoff.trans hunits).trans (noNew_of_parts rfl rfl rfl rfl rfl fun _ => rfl)

theorem noNew_answerQueries (q : Nat) : NoNew s (s.answerQueries q) := by
  rw [answerQueries_eq]
  exact noNew_of_parts rfl rfl rfl rfl rfl fun _ => rfl

/-! ### Jobs that are dropped (R111, R112) -/

theorem qps_dropJob (j : Job) : (s.dropJob j).qps = { s.qps with jobs := s.qps.jobs.filter (·.id != j.id) } := by
  unfold State.dropJob
  dsimp only
  rw [releaseHolds_keeps State.qps (fun _ _ => rfl), qps_freeUnits]

theorem pci_dropJob (j : Job) : (s.dropJob j).pci = s.pci :=
  (releaseHolds_keeps State.pci (fun _ _ => rfl) (s.freeUnits j) j).trans (pci_freeUnits s j)

theorem noNew_dropJob (j : Job) : NoNew s (s.dropJob j) := by
  have hq := qps_dropJob s j
  have hp := pci_dropJob s j
  refine ⟨fun fn h k hk => ?_, fun fn h => ?_, fun fn h => ?_, fun fn h => ?_, fun n => ?_⟩
  · rw [hq] at hk
    exact h k (List.mem_filter.mp hk).1
  · rwa [State.noQp, hq]
  · rwa [State.noRead, hp]
  · rwa [State.noSend, hp]
  · rw [State.fun_, hp]
    rfl

/-- The jobs of the functions that `ok` admits are counted, function by function. -/
def State.countDropped (ok : Nat → Bool) (fn : Nat) (s : State) : State :=
  if ok fn then s.setFun fn { s.fun_ fn with dropped := min 65535 ((s.fun_ fn).dropped + s.flying fn) } else s

theorem noNew_countDropped (ok : Nat → Bool) (fn : Nat) : NoNew s (s.countDropped ok fn) := by
  unfold State.countDropped
  split
  · exact noNew_setFun s fn rfl
  · exact NoNew.refl s

theorem qps_countDropped (ok : Nat → Bool) (fn : Nat) : (s.countDropped ok fn).qps = s.qps := by
  unfold State.countDropped
  split <;> rfl

/-- The state in which the functions have counted and every job that goes has left the table. -/
def State.jobsGone (s : State) (ok : Nat → Bool) : State :=
  each (s.qps.jobs.filter fun j => ok j.fn) (fun j s => s.dropJob j) (each (upto 64) (State.countDropped ok) s)

theorem dropJobs_eq (ok : Nat → Bool) : ∃ run arc, s.dropJobs ok =
    { s.jobsGone ok with qps := { (s.jobsGone ok).qps with run := run }, arc := arc } := ⟨_, _, rfl⟩

theorem noNew_dropJobs (ok : Nat → Bool) : NoNew s (s.dropJobs ok) := by
  obtain ⟨run, arc, h⟩ := dropJobs_eq s ok
  rw [h]
  exact ((noNew_each (fun fn s => noNew_countDropped s ok fn) _ s).trans (noNew_each (fun j s => noNew_dropJob s j) _ _)).trans
    (noNew_of_parts rfl rfl rfl rfl rfl fun _ => rfl)

theorem jobs_each_dropJob (l : List Job) : ∀ k ∈ (each l (fun j s => s.dropJob j) s).qps.jobs,
    k ∈ s.qps.jobs ∧ k ∉ l := by
  induction l generalizing s with
  | nil => exact fun k hk => ⟨hk, List.not_mem_nil⟩
  | cons j l ih =>
    intro k hk
    obtain ⟨hmem, hl⟩ := ih (s.dropJob j) k hk
    rw [qps_dropJob] at hmem
    obtain ⟨hmem, hid⟩ := List.mem_filter.mp hmem
    exact ⟨hmem, List.not_mem_cons_of_ne_of_not_mem (fun h => by simp [h] at hid) hl⟩

/-- No job of a function that `ok` admits is left. -/
theorem jobs_dropJobs (ok : Nat → Bool) : ∀ k ∈ (s.dropJobs ok).qps.jobs, ok k.fn = false := by
  intro k hk
  obtain ⟨run, arc, h⟩ := dropJobs_eq s ok
  rw [h] at hk
  obtain ⟨hmem, hout⟩ := jobs_each_dropJob _ _ k hk
  have hcount : (each (upto 64) (State.countDropped ok) s).qps = s.qps :=
    each_keeps s State.qps (State.countDropped ok) (fun fn s => qps_countDropped s ok fn) (upto 64)
  rw [hcount] at hmem
  rw [List.mem_filter] at hout
  exact Bool.eq_false_iff.mpr fun hk => hout ⟨hmem, hk⟩

/-! ### Mailboxes -/

theorem fifo_flushChan (ch n : Nat) : ((s.flushChan ch).chan n).fifo = if n = ch then [] else (s.chan n).fifo := by
  unfold State.flushChan
  dsimp only
  split
  · next h =>
    split_ifs with hn
    · rw [hn]
      exact List.isEmpty_iff.mp h
    · rfl
  · rw [setChan_get]
    split_ifs <;> rfl

/-- The three channels of a function are emptied; no other channel changes its messages (R125). -/
theorem fifo_flushFn (fn n : Nat) : ((s.flushFn fn).chan n).fifo =
    if n = fn ∨ n = 64 + fn ∨ n = 128 + fn then [] else (s.chan n).fifo := by
  have h : (s.flushFn fn).chan n = (((s.flushChan fn).flushChan (64 + fn)).flushChan (128 + fn)).chan n := rfl
  rw [h, fifo_flushChan, fifo_flushChan, fifo_flushChan]
  by_cases h1 : n = fn <;> by_cases h2 : n = 64 + fn <;> by_cases h3 : n = 128 + fn <;> simp [h1, h2, h3]

theorem flushChan_eq (ch : Nat) : s.flushChan ch = { s with mbx := (s.flushChan ch).mbx } := by
  unfold State.flushChan
  dsimp only
  split <;> rfl

theorem flushFn_eq (fn : Nat) : s.flushFn fn = { s with mbx := (s.flushFn fn).mbx, drn := (s.flushFn fn).drn } := by
  unfold State.flushFn State.flushDriner
  rw [flushChan_eq ((s.flushChan fn).flushChan (64 + fn)), flushChan_eq (s.flushChan fn), flushChan_eq s]

theorem noNew_flushFn (fn : Nat) : NoNew s (s.flushFn fn) := by
  rw [flushFn_eq]
  exact noNew_of_parts rfl rfl rfl rfl rfl fun _ => rfl

end

end Sys2Proof.Machine
end
section
/-! PROOFS. HOST_RESET and FUNCTION_RESET (R111, R112, R125, R131). -/

namespace Sys2Proof.Machine
open Sys2Proof

/-! ### What a host reset does not reach -/

/-- The parts of a state, and of its endpoint, that no part of a host reset works on. -/
def State.rest (s : State) : State :=
  { s.unsent with loop := {}, dv := {}, mbx := {}, drn := {}, qps := {}, bch := {}, key := {}, hme := {}, arc := {} }

theorem rest_of_unsent {s t : State} (h : t.unsent = s.unsent) : t.rest = s.rest := by
  unfold State.rest
  rw [h]

/-- What equal rests say, part by part. -/
theorem parts_of_rest {s t : State} (h : t.rest = s.rest) :
    (t.pci.tags = s.pci.tags ∧ t.pci.waitTag = s.pci.waitTag ∧ t.pci.maxPayload = s.pci.maxPayload ∧
      t.pci.vfEnable = s.pci.vfEnable ∧ t.pci.up = s.pci.up) ∧
    t.pwr = s.pwr ∧ t.tmp = s.tmp ∧ t.pas = s.pas ∧ t.fls = s.fls := by
  have hpci := congrArg State.pci h
  have hpwr := congrArg State.pwr h
  have htmp := congrArg State.tmp h
  have hpas := congrArg State.pas h
  have hfls := congrArg State.fls h
  have htags := congrArg Pci.tags hpci
  have hwait := congrArg Pci.waitTag hpci
  have hmax := congrArg Pci.maxPayload hpci
  have hvf := congrArg Pci.vfEnable hpci
  have hup := congrArg Pci.up hpci
  exact ⟨⟨htags, hwait, hmax, hvf, hup⟩, hpwr, htmp, hpas, hfls⟩

section
variable (s : State)

theorem rest_each {α : Type} {f : α → State → State} (h : ∀ a s, (f a s).rest = s.rest) (l : List α) :
    (each l f s).rest = s.rest := each_keeps s State.rest f h l

theorem rest_creditWait : s.creditWait.rest = s.rest := by
  obtain ⟨p, w, c, q, h⟩ := creditWait_eq s
  rw [h]
  rfl

theorem rest_ptmAbandon : s.ptmAbandon.rest = s.rest := by
  unfold State.ptmAbandon
  rw [rest_creditWait]
  rfl

theorem rest_dropJob (j : Job) : (s.dropJob j).rest = s.rest :=
  (releaseHolds_keeps State.rest (fun _ _ => rfl) (s.freeUnits j) j).trans
    (freeUnits_keeps State.rest (fun _ _ => rfl) (fun _ _ => rfl) s j)

theorem rest_dropJobs (ok : Nat → Bool) : (s.dropJobs ok).rest = s.rest := by
  obtain ⟨run, arc, h⟩ := dropJobs_eq s ok
  rw [h]
  refine (rest_each _ (fun j s => rest_dropJob s j) _).trans (rest_each s (fun fn s => ?_) _)
  unfold State.countDropped
  split <;> rfl

theorem rest_setFun (fn : Nat) (f : Fun) : (s.setFun fn f).rest = s.rest := rfl

theorem rest_resetFun (fn : Nat) : (s.resetFun fn).rest = s.rest := by
  unfold State.resetFun
  dsimp only
  rw [rest_setFun, rest_setFun]

theorem rest_flushFn (fn : Nat) : (s.flushFn fn).rest = s.rest := by
  rw [flushFn_eq]
  rfl

/-! ### The reset of a function's block and configuration space -/

/-- The function keeps its range; all else of it is at its reset value but the status last compared. -/
theorem fun_resetFun (fn n : Nat) : ∃ seen, (s.resetFun fn).fun_ n =
    if n = fn then { first := (s.fun_ fn).first, count := (s.fun_ fn).count, seen := seen } else s.fun_ n := by
  unfold State.resetFun
  refine ⟨State.glbStatus (s.setFun fn { first := (s.fun_ fn).first, count := (s.fun_ fn).count }) fn, ?_⟩
  dsimp only
  rw [setFun_get, setFun_get, setFun_get, if_pos rfl]
  split_ifs <;> rfl

/-- A function reset once has no request of its own allowed and no message. -/
theorem controls_each_resetFun {n : Nat} {l : List Nat} (hn : n ∈ l) :
    ((each l (fun fn s => s.resetFun fn) s).fun_ n).controls = ({} : Fun).controls := by
  refine each_reaches (P := fun s => (s.fun_ n).controls = ({} : Fun).controls) (a := n) (fun s => ?_) (fun fn s h => ?_) hn s
  · obtain ⟨seen, hf⟩ := fun_resetFun s n n
    rw [hf, if_pos rfl]
    rfl
  · obtain ⟨seen, hf⟩ := fun_resetFun s fn n
    rw [hf]
    split_ifs
    · rfl
    · exact h

/-! ### A host reset (R111) -/

/-- Configuration space at its reset values; the functions' blocks still as they were. -/
def State.configReset (linkStays : Bool) : State :=
  { s with pci :=
      { up := linkStays && s.pci.up, speed := if linkStays then s.pci.speed else 0,
        width := if linkStays then s.pci.width else 0, fns := s.pci.fns, nextId := s.pci.nextId, wire := s.pci.wire,
        credit := if linkStays then s.pci.credit else {}, aer := s.pci.aer, uieHalt := s.pci.uieHalt,
        beatAt := s.pci.beatAt } }

/-- Every function's block at its reset values too. -/
def State.blocksReset (linkStays : Bool) : State :=
  each (upto 64) (fun fn s => s.resetFun fn) (s.configReset linkStays).ptmAbandon

/-- Every queue pair disabled, no context held, no context table. -/
def State.qpsReset : State :=
  { s with qps := { s.qps with
      words := tmap {} (fun _ w => { w with en := false, pinned := false, destroying := false }) s.qps.words
      cache := [], lru := [], run := [], table := none, c0Order := [] } }

theorem hostResetBody_eq (linkStays : Bool) : s.hostResetBody linkStays = each (upto 64) (fun fn s => s.flushFn fn)
    ((s.blocksReset linkStays).dropJobs fun _ => true).qpsReset := by
  unfold State.hostResetBody State.blocksReset State.qpsReset State.configReset
  rfl

theorem mem_tmap_val {α : Type} [DecidableEq α] {d : α} {f : Nat → α → α} {t : Tab α} {e : Nat × α}
    (he : e ∈ tmap d f t) : ∃ k w, e = (k, f k w) := by
  induction t with
  | nil => simp [tmap] at he
  | cons x t ih =>
    obtain ⟨k, w⟩ := x
    unfold tmap at he
    split at he
    · exact ih he
    · rcases List.mem_cons.mp he with he | he
      · exact ⟨k, w, he⟩
      · exact ih he

theorem qps_hostResetBody (linkStays : Bool) : (s.hostResetBody linkStays).qps =
    ((s.blocksReset linkStays).dropJobs fun _ => true).qpsReset.qps := by
  rw [hostResetBody_eq]
  exact each_keeps _ State.qps _ (fun fn s => by rw [flushFn_eq]) (upto 64)

theorem rest_qpsReset : s.qpsReset.rest = s.rest := rfl

theorem rest_hostResetBody (linkStays : Bool) : (s.hostResetBody linkStays).rest = (s.configReset linkStays).rest := by
  rw [hostResetBody_eq, rest_each _ (fun fn s => rest_flushFn s fn), rest_qpsReset, rest_dropJobs, State.blocksReset,
    rest_each _ (fun fn s => rest_resetFun s fn), rest_ptmAbandon]

theorem noNew_blocksReset (linkStays : Bool) : NoNew (s.configReset linkStays) (s.blocksReset linkStays) :=
  (noNew_ptmAbandon _).trans (noNew_each (fun fn s => noNew_resetFun s fn) _ _)

theorem fun_qpsReset (n : Nat) : s.qpsReset.fun_ n = s.fun_ n := rfl

theorem range_hostResetBody (linkStays : Bool) (n : Nat) :
    ((s.hostResetBody linkStays).fun_ n).range = (s.fun_ n).range := by
  have hflush := noNew_each (fun fn s => noNew_flushFn s fn) (upto 64)
    ((s.blocksReset linkStays).dropJobs fun _ => true).qpsReset
  rw [hostResetBody_eq, hflush.range n, fun_qpsReset, (noNew_dropJobs (s.blocksReset linkStays) _).range n,
    (noNew_blocksReset s linkStays).range n]
  rfl

theorem settings_qpsReset : s.qpsReset.settings = s.settings := rfl

theorem controls_hostResetBody (linkStays : Bool) {n : Nat} (hn : n < 64) :
    ((s.hostResetBody linkStays).fun_ n).controls = ({} : Fun).controls := by
  have hset : (s.hostResetBody linkStays).settings = (s.blocksReset linkStays).settings := by
    rw [hostResetBody_eq, settings_each _ _ (fun fn s => settings_flushFn s fn), settings_qpsReset, settings_dropJobs]
  have hctl := congrArg (fun c : Settings => c.controls n) hset
  exact hctl.trans (controls_each_resetFun _ (List.mem_range.mpr hn))

theorem fifo_hostResetBody (linkStays : Bool) {fn n : Nat} (hfn : fn < 64) (hn : n = fn ∨ n = 64 + fn ∨ n = 128 + fn) :
    ((s.hostResetBody linkStays).chan n).fifo = [] := by
  rw [hostResetBody_eq]
  refine each_reaches (P := fun s => (s.chan n).fifo = []) (a := fn) (fun s => ?_) (fun k s h => ?_)
    (List.mem_range.mpr hfn) _
  · rw [fifo_flushFn, if_pos hn]
  · rw [fifo_flushFn, h, ite_self]

end

theorem up_of_settings {s t : State} (h : t.settings = s.settings) : t.pci.up = s.pci.up := by
  have hup := congrArg Settings.up h
  exact hup

theorem bme_of_controls {f g : Fun} (h : f.controls = g.controls) : f.bme = g.bme := by
  have hbme := congrArg Controls.bme h
  exact hbme

theorem controls_of_ready {s t : State} (h : t.settings.ready = s.settings.ready) (n : Nat) :
    (t.fun_ n).bme = (s.fun_ n).bme ∧ (t.fun_ n).d3hot = (s.fun_ n).d3hot ∧ (t.fun_ n).msixEn = (s.fun_ n).msixEn := by
  have hc := congrArg (fun c : Settings => c.controls n) h
  have hbme := congrArg Controls.bme hc
  have hd3 := congrArg Controls.d3hot hc
  have hmsix := congrArg Controls.msixEn hc
  exact ⟨hbme, hd3, hmsix⟩

section
variable {s : State}

theorem bounds_of_range {f g : Fun} (h : f.range = g.range) : f.first = g.first ∧ f.count = g.count :=
  Prod.mk.inj h

/-- A record, and FW_READY after it, leave of a state all that a host reset has put in place. -/
theorem recorded_holds (b : State) (facts : List Nat) :
    (b.hostRec 0 facts).fwReadies.qps = b.qps ∧ (b.hostRec 0 facts).fwReadies.mbx = b.mbx ∧
      (b.hostRec 0 facts).fwReadies.rest = b.rest ∧
      ∀ n, ((b.hostRec 0 facts).fwReadies.fun_ n).range = (b.fun_ n).range ∧
        ((b.hostRec 0 facts).fwReadies.fun_ n).bme = (b.fun_ n).bme ∧
        ((b.hostRec 0 facts).fwReadies.fun_ n).msixEn = (b.fun_ n).msixEn := by
  have hunsent := unsent_fwReadies (b.hostRec 0 facts)
  have hqps := qps_of_unsent hunsent
  have hmbx := congrArg State.mbx hunsent
  have hrest := rest_of_unsent hunsent
  refine ⟨hqps, hmbx, hrest, fun n => ?_⟩
  obtain ⟨hbme, -, hmsix⟩ := controls_of_ready (ready_fwReadies (b.hostRec 0 facts)) n
  exact ⟨(noNew_fwReadies (b.hostRec 0 facts)).range n, hbme, hmsix⟩

theorem fun_of_pci {t : State} (h : t.pci = s.pci) (n : Nat) : t.fun_ n = s.fun_ n := by
  unfold State.fun_
  rw [h]

/-- A host reset with its record, and FW_READY again where the link stays. -/
theorem hostReset_holds (c : HostResetCause) :
    let t := (s.hostReset c).fwReadies
    t.qps.jobs = [] ∧ t.qps.cache = [] ∧ t.qps.table = none ∧
      (∀ e ∈ t.qps.words, e.2.en = false ∧ e.2.pinned = false ∧ e.2.destroying = false) ∧
      t.rest = (s.configReset (c == .flrPf0)).rest ∧
      (∀ fn < 64, (t.fun_ fn).first = (s.fun_ fn).first ∧ (t.fun_ fn).count = (s.fun_ fn).count ∧
        (t.fun_ fn).bme = false ∧ (t.fun_ fn).msixEn = false ∧ (t.chan fn).fifo = [] ∧ (t.chan (64 + fn)).fifo = []) := by
  have hqps := qps_hostResetBody s (c == .flrPf0)
  have hrest := rest_hostResetBody s (c == .flrPf0)
  have hrange := range_hostResetBody s (c == .flrPf0)
  have hctl := fun n => controls_hostResetBody s (c == .flrPf0) (n := n)
  have hfifo := fun fn n => fifo_hostResetBody s (c == .flrPf0) (fn := fn) (n := n)
  have hjobs := jobs_dropJobs (s.blocksReset (c == .flrPf0)) fun _ => true
  unfold State.hostReset
  dsimp only
  generalize s.hostResetBody (c == .flrPf0) = b at *
  generalize (s.blocksReset (c == .flrPf0)).dropJobs (fun _ => true) = v at *
  obtain ⟨hq, hm, hr, hf⟩ := recorded_holds b [2, hostResetNum c]
  rw [hq, hqps, hr]
  refine ⟨List.eq_nil_iff_forall_not_mem.mpr fun k hk => Bool.noConfusion (hjobs k hk), rfl, rfl, fun e he => ?_, hrest,
    fun fn hfn => ?_⟩
  · obtain ⟨k, w, rfl⟩ := mem_tmap_val he
    exact ⟨rfl, rfl, rfl⟩
  · obtain ⟨hrange', hbme, hmsix⟩ := hf fn
    obtain ⟨hfirst, hcount⟩ := bounds_of_range (hrange'.trans (hrange fn))
    rw [hbme, hmsix, State.chan, State.chan, hm]
    have hb := bme_of_controls (hctl fn hfn)
    have hx := congrArg Controls.msixEn (hctl fn hfn)
    exact ⟨hfirst, hcount, hb, hx, hfifo fn fn hfn (.inl rfl), hfifo fn (64 + fn) hfn (.inr (.inl rfl))⟩

/-- PERST_N is low when it is what resets. -/
def State.resetPin (s : State) (c : HostResetCause) : State :=
  if c = .perst then { s with pwr := { s.pwr with perstN := false } } else s

theorem resetPin_parts (s : State) (c : HostResetCause) : (s.resetPin c).up = s.up ∧ (s.resetPin c).pci = s.pci ∧
    (s.resetPin c).tmp = s.tmp ∧ (s.resetPin c).pas = s.pas ∧ (s.resetPin c).fls = s.fls ∧
    (c = .perst → (s.resetPin c).pwr.perstN = false) := by
  unfold State.resetPin
  split_ifs with h
  · exact ⟨rfl, rfl, rfl, rfl, rfl, fun _ => rfl⟩
  · exact ⟨rfl, rfl, rfl, rfl, rfl, fun h' => absurd h' h⟩

theorem exec_hostReset (hup : s.up = true) {c : HostResetCause} (hc : c = .perst ∨ s.pci.up = true) :
    exec (.hostReset c) s = .next ((s.resetPin c).hostReset c).fwReadies := by
  obtain ⟨hup', hpci, -⟩ := resetPin_parts s c
  have hex : exec (.hostReset c) s = if !(s.resetPin c).up || ((c != .perst) && !(s.resetPin c).pci.up)
      then .next (s.resetPin c) else .next ((s.resetPin c).hostReset c).fwReadies := rfl
  rw [hex, hup', hpci, hup, if_neg]
  rcases hc with rfl | hlink
  · simp
  · simp [hlink]

end

/-! ### One function stops (R112, R125) -/

/-- A state holds nothing of a function that could go on. -/
structure Idle (s : State) (fn : Nat) : Prop where
  jobs : s.noJob fn
  qps : s.noQp fn
  reads : s.noRead fn
  sends : s.noSend fn

theorem NoNew.idle {s t : State} {fn : Nat} (h : NoNew s t) (hs : Idle s fn) : Idle t fn :=
  ⟨h.jobs fn hs.jobs, h.qps fn hs.qps, h.reads fn hs.reads, h.sends fn hs.sends⟩

theorem mem_of_mem_ldel {α : Type} {l : List α} {i : Nat} {a : α} (h : a ∈ ldel l i) : a ∈ l := by
  induction l generalizing i with
  | nil => exact h
  | cons x l ih =>
    cases i with
    | zero => exact List.mem_cons_of_mem x h
    | succ i => exact List.mem_cons.mpr ((List.mem_cons.mp h).imp_right ih)

section
variable {s : State} {fn : Nat}

/-- A TLP of another function joins a queue. -/
theorem idle_place (h : Idle s fn) (prio : Bool) {x : Tlp} (hx : x.fn ≠ fn) : Idle (s.place prio x) fn := by
  unfold State.place
  cases prio with
  | false => exact ⟨h.jobs, h.qps, h.reads, h.sends⟩
  | true =>
    refine (noNew_creditWait _).idle ⟨h.jobs, h.qps, h.reads, fun y hy hfn => ?_⟩
    rcases List.mem_append.mp hy with hy | hy
    · exact h.sends y hy hfn
    · obtain rfl := List.mem_singleton.mp hy
      exact absurd hfn hx

/-- A read of another function takes a tag, or waits for one. -/
theorem idle_startRead (h : Idle s fn) {r : HRead} (hr : r.fn ≠ fn) : Idle (s.startRead r) fn := by
  unfold State.startRead
  split
  · next tag _ =>
    have htags : ∀ e ∈ tset noRead s.pci.tags tag r, e.2.fn ≠ fn := fun e he => by
      rcases mem_tset he with rfl | ⟨he, -⟩
      · exact hr
      · exact h.reads.1 e he
    have htagged : Idle { s with pci := { s.pci with tags := tset noRead s.pci.tags tag r } } fn :=
      ⟨h.jobs, h.qps, ⟨htags, h.reads.2⟩, h.sends⟩
    exact idle_place htagged _ hr
  · refine ⟨h.jobs, h.qps, ⟨h.reads.1, fun x hx => ?_⟩, h.sends⟩
    rcases List.mem_append.mp hx with hx | hx
    · exact h.reads.2 x hx
    · exact List.mem_singleton.mp hx ▸ hr

theorem range_startRead (r : HRead) (n : Nat) : ((s.startRead r).fun_ n).range = (s.fun_ n).range := by
  unfold State.startRead
  split
  · rw [fun_place]
    rfl
  · rfl

/-- The reads that wait are those of other functions, and so is the one that starts. -/
theorem idle_retryTags (h : Idle s fn) (c0 : Bool) : Idle (s.retryTags c0) fn := by
  unfold State.retryTags
  split
  · split
    · next i _ _ _ _ r hr =>
      have hleft : Idle { s with pci := { s.pci with waitTag := ldel s.pci.waitTag i } } fn :=
        ⟨h.jobs, h.qps, ⟨h.reads.1, fun x hx => h.reads.2 x (mem_of_mem_ldel hx)⟩, h.sends⟩
      exact idle_startRead hleft (h.reads.2 r (List.mem_of_getElem? hr))
    · exact h
  · exact h

theorem range_retryTags (c0 : Bool) (n : Nat) : ((s.retryTags c0).fun_ n).range = (s.fun_ n).range := by
  unfold State.retryTags
  split
  · split
    · rw [range_startRead]
      rfl
    · rfl
  · rfl

theorem idle_each_retryTags (l : List HRead) (h : Idle s fn) : Idle (each l (fun h s => s.retryTags h.c0) s) fn := by
  induction l generalizing s with
  | nil => exact h
  | cons r l ih => exact ih (idle_retryTags h r.c0)

/-- What a read given up leaves to its queue pair. -/
def State.giveUp (h : HRead) (s : State) : State :=
  match h.why with
  | .context q => (s.ctxFail q 3).answerQueries q
  | .sweep q => if (s.qw q).en then s.ctxFail q 3 else s
  | _ => s

theorem noNew_giveUp (h : HRead) (s : State) : NoNew s (s.giveUp h) := by
  unfold State.giveUp
  split
  · exact (noNew_ctxFail s _ 3).trans (noNew_answerQueries _ _)
  · split
    · exact noNew_ctxFail s _ 3
    · exact NoNew.refl s
  · exact NoNew.refl s

/-- The state without the reads of a function. -/
def State.readsCut (s : State) (fn : Nat) : State :=
  { s with pci := { s.pci with tags := s.pci.tags.filter fun e => e.2.fn != fn
                               waitTag := s.pci.waitTag.filter fun h => h.fn != fn } }

theorem giveUpReads_eq (s : State) (fn : Nat) : ∃ l : List HRead, s.giveUpReads fn =
    each l (fun h s => s.retryTags h.c0) (each l State.giveUp (s.readsCut fn)) := ⟨_, rfl⟩

/-- The reads of a function are given up, and none is started again. -/
theorem giveUpReads_holds (hjobs : s.noJob fn) (hqps : s.noQp fn) (hsends : s.noSend fn) :
    Idle (s.giveUpReads fn) fn ∧ ∀ n, ((s.giveUpReads fn).fun_ n).range = (s.fun_ n).range := by
  obtain ⟨l, h⟩ := giveUpReads_eq s fn
  have hcut : Idle (s.readsCut fn) fn :=
    ⟨hjobs, hqps, ⟨fun e he => by simpa using (List.mem_filter.mp he).2,
      fun x hx => by simpa using (List.mem_filter.mp hx).2⟩, hsends⟩
  have hnew := noNew_each noNew_giveUp l (s.readsCut fn)
  rw [h]
  refine ⟨idle_each_retryTags l (hnew.idle hcut), fun n => ?_⟩
  rw [each_keeps _ (fun s => (s.fun_ n).range) _ (fun h s => range_retryTags h.c0 n) l, hnew.range n]
  rfl

/-- One queue pair is disabled and its context leaves the cache. -/
def State.stopQp (q : Nat) (s : State) : State :=
  ((s.uncache q).setQrun q {}).setQw q { s.qw q with en := false, pinned := false, destroying := false }

theorem noNew_stopQp (q : Nat) (s : State) : NoNew s (s.stopQp q) := by
  have huncache : NoNew s ((s.uncache q).setQrun q {}) := noNew_of_parts rfl rfl rfl rfl rfl fun _ => rfl
  exact huncache.trans (noNew_setQw _ q rfl)

/-- A queue pair still enabled is one that stood so and is not in the list. -/
theorem words_each_stopQp (l : List Nat) (s : State) : ∀ e ∈ (each l State.stopQp s).qps.words, e.2.en = true →
    e ∈ s.qps.words ∧ e.1 ∉ l := by
  induction l generalizing s with
  | nil => exact fun e he _ => ⟨he, List.not_mem_nil⟩
  | cons q l ih =>
    intro e he hen
    obtain ⟨hmem, hl⟩ := ih (s.stopQp q) e he hen
    rcases mem_tset hmem with rfl | ⟨hmem, hq⟩
    · exact absurd hen Bool.false_ne_true
    · exact ⟨hmem, List.not_mem_cons_of_ne_of_not_mem hq hl⟩

/-- The enabled queue pairs of a function. -/
def State.ownQps (s : State) (fn : Nat) : List Nat :=
  (s.qps.words.filter fun e => e.2.en && e.2.owner.toNat == fn).map (·.1)

theorem noQp_each_stopQp (s : State) (fn : Nat) : (each (s.ownQps fn) State.stopQp s).noQp fn := by
  intro e he hen hfn
  obtain ⟨hmem, hout⟩ := words_each_stopQp _ s e he hen
  exact hout (List.mem_map.mpr ⟨e, List.mem_filter.mpr ⟨hmem, by simp [hen, hfn]⟩, rfl⟩)

/-- The state without the requests of a function in either queue. -/
def State.requestsCut (s : State) (fn : Nat) : State :=
  { s with pci := { s.pci with prio := s.pci.prio.filter fun t => t.fn != fn || t.kind == .completion
                               gen := s.pci.gen.filter fun t => t.fn != fn || t.kind == .completion } }

/-- The function's jobs are dropped too, and PF0's PTM dialog. -/
def State.workCut (s : State) (fn : Nat) : State :=
  let s := ((s.requestsCut fn).dropJobs fun n => n == fn).creditWait
  if fn = 0 then s.ptmAbandon else s

theorem workCut_holds (s : State) (fn : Nat) : (s.workCut fn).noJob fn ∧ (s.workCut fn).noSend fn ∧
    ∀ n, ((s.workCut fn).fun_ n).range = (s.fun_ n).range := by
  have hcut : (s.requestsCut fn).noSend fn := fun x hx hfn => by
    simpa [hfn] using (List.mem_filter.mp hx).2
  have hdrop := noNew_dropJobs (s.requestsCut fn) fun n => n == fn
  have hgone : ((s.requestsCut fn).dropJobs fun n => n == fn).noJob fn := fun j hj hfn => by
    simpa [hfn] using jobs_dropJobs _ _ j hj
  have hrest : NoNew ((s.requestsCut fn).dropJobs fun n => n == fn) (s.workCut fn) := by
    unfold State.workCut
    dsimp only
    split
    · exact (noNew_creditWait _).trans (noNew_ptmAbandon _)
    · exact noNew_creditWait _
  exact ⟨hrest.jobs fn hgone, (hdrop.trans hrest).sends fn hcut, (hdrop.trans hrest).range⟩

theorem stopFn_eq (s : State) (fn : Nat) : ∃ order, s.stopFn fn = State.flushFn (State.giveUpReads
    { each ((s.workCut fn).ownQps fn) State.stopQp (s.workCut fn) with
      qps := { (each ((s.workCut fn).ownQps fn) State.stopQp (s.workCut fn)).qps with c0Order := order } } fn) fn :=
  ⟨_, rfl⟩

/-- A function that stops holds nothing that could go on, its channels are empty and its range stands. -/
theorem stopFn_holds (s : State) (fn : Nat) : Idle (s.stopFn fn) fn ∧
    (∀ n, ((s.stopFn fn).fun_ n).range = (s.fun_ n).range) ∧
    ∀ n, n = fn ∨ n = 64 + fn ∨ n = 128 + fn → ((s.stopFn fn).chan n).fifo = [] := by
  obtain ⟨hjobs, hsends, hrange⟩ := workCut_holds s fn
  obtain ⟨order, h⟩ := stopFn_eq s fn
  have hstop := noNew_each noNew_stopQp ((s.workCut fn).ownQps fn) (s.workCut fn)
  have hqps := noQp_each_stopQp (s.workCut fn) fn
  rw [h]
  generalize each ((s.workCut fn).ownQps fn) State.stopQp (s.workCut fn) = u at *
  obtain ⟨hidle, hgiven⟩ := giveUpReads_holds (s := { u with qps := { u.qps with c0Order := order } })
    (hstop.jobs fn hjobs) hqps (hstop.sends fn hsends)
  have hflush := noNew_flushFn (State.giveUpReads { u with qps := { u.qps with c0Order := order } } fn) fn
  refine ⟨hflush.idle hidle, fun n => ?_, fun n hn => by rw [fifo_flushFn, if_pos hn]⟩
  exact (hflush.range n).trans ((hgiven n).trans ((hstop.range n).trans (hrange n)))

end

/-! ### FUNCTION_RESET (R112, R131) -/

/-- Function `fn` has stopped between `s` and `t`, behind a link that stays up. -/
structure Stopped (s t : State) (fn : Nat) : Prop where
  idle : Idle t fn
  range : (t.fun_ fn).range = (s.fun_ fn).range
  fifo : ∀ n, n = fn ∨ n = 64 + fn ∨ n = 128 + fn → (t.chan n).fifo = []
  up : t.pci.up = true

section
variable {s v : State} {fn : Nat}

theorem stopped_stopFn (hrange : (v.fun_ fn).range = (s.fun_ fn).range) (hlink : v.pci.up = true) :
    Stopped s (v.stopFn fn) fn := by
  obtain ⟨hidle, hr, hfifo⟩ := stopFn_holds v fn
  exact ⟨hidle, (hr fn).trans hrange, hfifo, (up_of_settings (settings_stopFn v fn)).trans hlink⟩

theorem Stopped.fwReadies (h : Stopped s v fn) : Stopped s v.fwReadies fn := by
  have hnew := noNew_fwReadies v
  have hmbx := congrArg State.mbx (unsent_fwReadies v)
  have hset := congrArg Settings.up (ready_fwReadies v)
  refine ⟨hnew.idle h.idle, (hnew.range fn).trans h.range, fun n hn => ?_, hset.trans h.up⟩
  change (tget {} v.fwReadies.mbx.chans n).fifo = []
  rw [show v.fwReadies.mbx = v.mbx from hmbx]
  exact h.fifo n hn

theorem stopped_flrVf (hlink : s.pci.up = true) : Stopped s (s.flrVf fn) fn := by
  unfold State.flrVf
  exact stopped_stopFn ((noNew_resetFun s fn).range fn) hlink

theorem stopped_setFun {f : Fun} (hf : f.range = (s.fun_ fn).range) (hlink : s.pci.up = true) :
    Stopped s ((s.setFun fn f).stopFn fn) fn :=
  stopped_stopFn ((noNew_setFun s fn hf).range fn) hlink

/-- After an FLR the function may issue no request. -/
theorem bme_flrVf (s : State) (fn : Nat) : ((s.flrVf fn).fun_ fn).bme = false := by
  obtain ⟨seen, hf⟩ := fun_resetFun s fn fn
  rw [if_pos rfl] at hf
  have h := bme_of_controls (controls_stopFn (s.resetFun fn) fn fn)
  rw [hf] at h
  exact h

end

section
variable {s : State} {fn : Fin 64} (hup : s.up = true) (hlink : s.pci.up = true) (hfn : s.fnEnabled fn.val = true)
include hup hlink hfn

theorem exec_functionReset (c : FnResetCause) : exec (.functionReset fn c) s = match c with
    | .flr => if fn.val = 0 then .next (s.hostReset .flrPf0).fwReadies else .next (s.flrVf fn.val).fwReadies
    | .vfDisable => if fn.val = 0 then .next s else .next (s.flrVf fn.val)
    | .busMasterClear => .next (s.busMasterClear fn.val)
    | .d3hot => .next (s.toD3 fn.val) := by
  change execFunctionReset fn c s = _
  exact (if_neg (by simp [hup, hlink, hfn])).trans (by cases c <;> rfl)

/-- Each cause stops the function; an FLR and a clear of Bus Master Enable leave that control at 0, a move to D3hot sets
its own. -/
theorem functionReset_stops {c : FnResetCause} (hc : c = .flr ∧ fn.val ≠ 0 ∨ c = .vfDisable ∧ fn.val ≠ 0 ∨
      c = .busMasterClear ∧ (s.fun_ fn.val).bme = true ∨ c = .d3hot ∧ (s.fun_ fn.val).d3hot = false) :
    ∃ t, exec (.functionReset fn c) s = .next t ∧ Stopped s t fn.val ∧
      (c = .flr ∨ c = .busMasterClear → (t.fun_ fn.val).bme = false) ∧ (c = .d3hot → (t.fun_ fn.val).d3hot = true) := by
  have hex := exec_functionReset hup hlink hfn c
  rcases hc with ⟨rfl, h0⟩ | ⟨rfl, h0⟩ | ⟨rfl, hbme⟩ | ⟨rfl, hd3⟩
  · refine ⟨_, hex.trans (if_neg h0), (stopped_flrVf hlink).fwReadies, fun _ => ?_, nofun⟩
    exact (controls_of_ready (ready_fwReadies _) _).1.trans (bme_flrVf s fn.val)
  · exact ⟨_, hex.trans (if_neg h0), stopped_flrVf hlink, nofun, nofun⟩
  · have hstep : s.busMasterClear fn.val = (s.setFun fn.val { s.fun_ fn.val with bme := false }).stopFn fn.val := by
      simp only [State.busMasterClear, hbme, Bool.not_true, Bool.false_eq_true, if_false]
    exact ⟨_, hex.trans (congrArg Host.Outcome.next hstep), stopped_setFun rfl hlink,
      fun _ => bme_setFun_stopFn s fn.val _, nofun⟩
  · have hstep : s.toD3 fn.val = (s.setFun fn.val { s.fun_ fn.val with d3hot := true }).stopFn fn.val := by
      simp only [State.toD3, hd3, Bool.false_eq_true, if_false]
    exact ⟨_, hex.trans (congrArg Host.Outcome.next hstep), stopped_setFun rfl hlink, nofun,
      fun _ => d3hot_setFun_stopFn s fn.val _⟩

end

/-- Settles O14: a host reset by what none of its parts reaches and what its own parts write; a reset of one function by
what holds nothing of it any more, which no later part brings back. -/
theorem hostResets : Obligations.HostResets := by
  unfold Obligations.HostResets
  intro s hup
  refine ⟨fun c hc => ?_, fun fn hlink hfn => ⟨fun c hc => ?_, fun h0 => ?_⟩⟩
  · obtain ⟨-, hpci, htmp, hpas, hfls, hperst⟩ := resetPin_parts s c
    obtain ⟨hjobs, hcache, htable, hwords, hrest, hfns⟩ := hostReset_holds (s := s.resetPin c) c
    obtain ⟨⟨htags, hwait, hmax, hvf, hlink⟩, hpwr, htmp', hpas', hfls'⟩ := parts_of_rest hrest
    refine ⟨_, exec_hostReset hup hc, hjobs, hcache, htable, hwords, htags, hwait, hmax, hvf, hlink.trans ?_,
      fun h => (congrArg Pwr.perstN hpwr).trans (hperst h), fun fn hlt => ?_, htmp'.trans htmp, hpas'.trans hpas,
      hfls'.trans hfls⟩
    · rw [← hpci, Bool.and_comm]
      rfl
    · rw [← fun_of_pci hpci]
      exact hfns fn hlt
  · obtain ⟨t, hex, hstop, hbme, hd3⟩ := functionReset_stops hup hlink hfn hc
    obtain ⟨hfirst, hcount⟩ := bounds_of_range hstop.range
    exact ⟨t, hex, hstop.idle.jobs, hstop.idle.qps, hstop.idle.reads.1, hstop.idle.sends, hstop.fifo _ (.inl rfl),
      hstop.fifo _ (.inr (.inl rfl)), hstop.fifo _ (.inr (.inr rfl)), hfirst, hcount, hbme, hd3, hstop.up⟩
  · refine (exec_functionReset hup hlink hfn .flr).trans ((if_pos h0).trans ?_)
    rw [exec_hostReset hup (.inr hlink)]
    rfl

end Sys2Proof.Machine
end
section
/-! PROOFS. Mailboxes and the sending of responses (R117 to R126, R131). -/

namespace Sys2Proof.Machine
open Sys2Proof

/-! ### What a signal leaves of the fabric and of Driner -/

section
variable (s : State)

variable {s} in
theorem chan_of_mbx {t : State} (h : t.mbx = s.mbx) (n : Nat) : t.chan n = s.chan n := by
  unfold State.chan
  rw [h]

theorem cause_keeps (fn b : Nat) : (s.cause fn b).mbx = s.mbx ∧ (s.cause fn b).drn = s.drn := by
  have hmbx := congrArg State.mbx (unsent_cause s fn b)
  have hdrn := congrArg State.drn (unsent_cause s fn b)
  exact ⟨hmbx, hdrn⟩

theorem signal_keeps (ch : Nat) : (s.signal ch).mbx = s.mbx ∧ (s.signal ch).drn = s.drn := by
  simp only [State.signal]
  split
  · exact cause_keeps s _ 0
  · split_ifs <;> exact ⟨rfl, rfl⟩
  · exact ⟨rfl, rfl⟩

@[simp] theorem mbx_signal (ch : Nat) : (s.signal ch).mbx = s.mbx := (signal_keeps s ch).1

@[simp] theorem drn_signal (ch : Nat) : (s.signal ch).drn = s.drn := (signal_keeps s ch).2

/-- A signal changes no channel. -/
@[simp] theorem chan_signal (ch n : Nat) : (s.signal ch).chan n = s.chan n := chan_of_mbx (mbx_signal s ch) n

/-! ### Doorbells (R122) -/

/-- Doorbell bits that are set change their channel's doorbells and no other part of the fabric. -/
@[simp] theorem chan_dbSet (ch : Nat) (bits : Word) (n : Nat) : (s.dbSet ch bits).chan n =
    if n = ch then { s.chan ch with db := (s.chan ch).db ||| bits } else s.chan n := by
  simp only [State.dbSet]
  split_ifs <;> simp [*]

@[simp] theorem drn_dbSet (ch : Nat) (bits : Word) : (s.dbSet ch bits).drn = s.drn := by
  simp only [State.dbSet]
  split_ifs <;> simp

/-! ### Messages that enter a FIFO (R121, R123) -/

/-- A channel that has taken a message at `now`: it stands last, and doorbell bit 0 is set. -/
def Chan.taking (c : Chan) (now : Nat) (msg : List Word) : Chan :=
  { c with
    fifo := c.fifo ++ [msg]
    headAt := if c.fifo.isEmpty then now else c.headAt
    db := c.db ||| 1 }

@[simp] theorem drn_push (ch : Nat) (msg : List Word) : (s.push ch msg).drn = s.drn := by
  simp only [State.push]
  split_ifs <;> simp

/-- Whether a receiver is retired is not of the mailboxes: a message sent does not change it. -/
theorem midRetired_push (ch : Nat) (msg : List Word) (m : Nat) : (s.push ch msg).midRetired m = s.midRetired m := by
  have hret : (s.push ch msg).ret = s.ret := congrArg Outside.ret (outside_push s ch msg)
  unfold State.midRetired State.phys
  rw [hret]

section
variable {s} {ch : Nat} (hlive : s.midRetired (s.chan ch).receiver.toNat = false) (msg : List Word)
include hlive

theorem push_full (hfull : 16 ≤ (s.chan ch).fifo.length) :
    s.push ch msg = s.setChan ch { s.chan ch with overrun := true } := by
  simp [State.push, hlive, hfull]

theorem chan_push (hroom : (s.chan ch).fifo.length < 16) (n : Nat) :
    (s.push ch msg).chan n = if n = ch then (s.chan ch).taking s.now msg else s.chan n := by
  simp only [State.push, hlive, Bool.false_eq_true, if_false, if_neg (Nat.not_le.2 hroom), chan_dbSet, setChan_get,
    if_true]
  by_cases hn : n = ch
  · rw [if_pos hn, if_pos hn]
    rfl
  · rw [if_neg hn, if_neg hn, if_neg hn]

end

/-- Messages that find room stand last in their channel, in order; no other channel changes. -/
theorem each_push_holds {ch : Nat} (msgs : List (List Word)) : ∀ s : State,
    s.midRetired (s.chan ch).receiver.toNat = false → (s.chan ch).fifo.length + msgs.length ≤ 16 →
    ((each msgs (fun m s => s.push ch m) s).chan ch).fifo = (s.chan ch).fifo ++ msgs ∧
      ∀ n, n ≠ ch → (each msgs (fun m s => s.push ch m) s).chan n = s.chan n := by
  induction msgs with
  | nil => exact fun s _ _ => ⟨(List.append_nil _).symm, fun _ _ => rfl⟩
  | cons m msgs ih =>
    intro s hlive hroom
    rw [List.length_cons] at hroom
    have hchan := chan_push hlive m (by omega)
    have hch : (s.push ch m).chan ch = (s.chan ch).taking s.now m := (hchan ch).trans (if_pos rfl)
    have hfifo : ((s.push ch m).chan ch).fifo = (s.chan ch).fifo ++ [m] := by rw [hch]; rfl
    have hrest := ih (s.push ch m) (by rw [midRetired_push, hch]; exact hlive)
      (by rw [hfifo, List.length_append, List.length_singleton]; omega)
    obtain ⟨hin, hout⟩ := hrest
    exact ⟨hin.trans (by rw [hfifo, ← List.append_cons]),
      fun n hn => (hout n hn).trans ((hchan n).trans (if_neg hn))⟩

theorem drn_each_push (ch : Nat) (msgs : List (List Word)) :
    (each msgs (fun m s => s.push ch m) s).drn = s.drn := each_keeps s State.drn _ (fun m s => drn_push s ch m) msgs

/-! ### Accesses of another party (R119) -/

/-- A discarded access changes no channel and is counted in MBX_FAULT. -/
theorem mbxFault_holds (ch mid : Nat) : (s.mbxFault ch mid).mbx.chans = s.mbx.chans ∧
    bit (s.mbxFault ch mid).mbx.fault 31 = true := by
  refine ⟨rfl, ?_⟩
  simp only [State.mbxFault]
  split_ifs with h
  · rw [bit_setBit, if_neg (by decide), h]
  · simp [bit, getLsbD_bitW]

/-! ### Messages that leave a FIFO (R121, R128) -/

variable {s} in
theorem popHead_of_cons {ch : Nat} {m : List Word} {l : List (List Word)} (hcons : (s.chan ch).fifo = m :: l) :
    s.popHead ch = s.setChan ch { s.chan ch with fifo := l, headAt := s.now } := by
  simp [State.popHead, hcons]

/-- Assembling a command works on what Driner holds, not on the channels. -/
@[simp] theorem mbx_assemble (party : Nat) (msg : List Word) : (s.assemble party msg).mbx = s.mbx := by
  unfold State.assemble
  extract_lets +onlyGivenNames b op tag len flags old rest refuse finish
  have hrefuse (t : State) (op tag st : Nat) : (refuse t op tag st).mbx = t.mbx := rfl
  have hfinish (t : State) (op tag len : Nat) (got : Bytes) : (finish t op tag len got).mbx = t.mbx := by
    simp only [finish]
    split_ifs <;> rfl
  clear_value old refuse finish
  split
  · cases old <;> (dsimp only; split_ifs <;> simp only [hrefuse, hfinish])
  · cases old with
    | none => rfl
    | some p => dsimp only; split_ifs <;> simp only [hrefuse, hfinish]

end

/-! ### Accesses through a window (R119 to R122) -/

section
variable {s : State} {mid w ch : Nat} (hopen : s.mbxOpen mid = true) (hwin : s.windowChan mid w = some ch)
include hopen hwin

theorem exec_mbxSend : exec (.mbxSend mid w) s = if (s.chan ch).sender.toNat = mid
    then .next (s.push ch (stagingWords (s.chan ch))) else .next (s.mbxFault ch mid) := by
  change execMbxSend mid w s = _
  simp [execMbxSend, hopen, hwin]

theorem exec_mbxDbWrite (v : Word) : exec (.mbxDbWrite mid w v) s = if (s.chan ch).sender.toNat = mid
    then .next (s.dbSet ch v) else .next (s.setChan ch { s.chan ch with db := (s.chan ch).db &&& ~~~ v }) := by
  change Host.Outcome.next (s.dbWrite mid w v) = _
  simp only [State.dbWrite, hopen, hwin, Bool.not_true, Bool.false_eq_true, if_false]
  split_ifs <;> rfl

/-- A mask written by the receiver; a signal that it lets through changes no channel. -/
theorem exec_mbxDbMaskWrite (v : Word) (hmine : (s.chan ch).receiver.toNat = mid) :
    ∃ t, exec (.mbxDbMaskWrite mid w v) s = .next t ∧
      ∀ n, t.chan n = if n = ch then { s.chan ch with mask := v } else s.chan n := by
  change ∃ t, execMbxDbMaskWrite mid w v s = .next t ∧ _
  simp only [execMbxDbMaskWrite, hopen, hwin, Bool.not_true, Bool.false_eq_true, if_false, hmine, ne_eq,
    not_true_eq_false]
  split_ifs
  · exact ⟨_, rfl, fun n => setChan_get s ch n _⟩
  · exact ⟨_, rfl, fun n => (chan_signal _ ch n).trans (setChan_get s ch n _)⟩

theorem exec_mbxPop_other (hother : (s.chan ch).receiver.toNat ≠ mid) :
    exec (.mbxPop mid w) s = .next (s.mbxFault ch mid) := by
  change execMbxPop mid w s = _
  simp [execMbxPop, hopen, hwin, hother]

theorem exec_mbxPop_empty (hmine : (s.chan ch).receiver.toNat = mid) (hnil : (s.chan ch).fifo = []) :
    exec (.mbxPop mid w) s = .next s := by
  change execMbxPop mid w s = _
  simp [execMbxPop, hopen, hwin, hmine, hnil]

section
variable (hmine : (s.chan ch).receiver.toNat = mid) {m : List Word} {l : List (List Word)}
  (hcons : (s.chan ch).fifo = m :: l)
include hmine hcons

/-- A message that the receiver pops leaves its channel; on a command channel firmware reads it. -/
theorem exec_mbxPop_head : exec (.mbxPop mid w) s =
    if ((mid == 0x50 && ch < 64) || (mid == 0x52 && 192 ≤ ch && ch < 204)) && (s.popHead ch).serves (s.chan ch).sender.toNat
    then .next ((s.popHead ch).assemble (s.chan ch).sender.toNat m) else .next (s.popHead ch) := by
  change execMbxPop mid w s = _
  simp only [execMbxPop, hopen, hwin, hmine, hcons, Bool.not_true, Bool.false_eq_true, if_false, ne_eq, not_true_eq_false]

/-- Whoever reads it, the message leaves its channel and nothing else of the fabric changes. -/
theorem mbx_exec_mbxPop : ∃ t, exec (.mbxPop mid w) s = .next t ∧
    t.mbx = (s.setChan ch { s.chan ch with fifo := l, headAt := s.now }).mbx := by
  rw [exec_mbxPop_head hopen hwin hmine hcons, popHead_of_cons hcons]
  split_ifs
  · exact ⟨_, rfl, mbx_assemble _ _ m⟩
  · exact ⟨_, rfl, rfl⟩

/-- A receiver that is not a firmware pair reads no commands. -/
theorem exec_mbxPop_plain (hA : mid ≠ 0x50) (hB : mid ≠ 0x52) :
    exec (.mbxPop mid w) s = .next (s.setChan ch { s.chan ch with fifo := l, headAt := s.now }) := by
  rw [exec_mbxPop_head hopen hwin hmine hcons, popHead_of_cons hcons]
  simp [hA, hB]

end

end

/-! ### The binding table (R118, R126) -/

/-- Word A of an entry that is written before the lock. -/
theorem chan_bindWrite {s : State} (hlock : s.mbx.lock = false) (ch : Nat) (v : Word) (n : Nat) :
    (s.bindWrite ch false v).chan n = if n = ch then { s.chan ch with
      valid := bit v 0
      irq := BitVec.ofNat 4 (fld v 7 4)
      sender := BitVec.ofNat 8 (fld v 15 8)
      receiver := BitVec.ofNat 8 (fld v 23 16) } else s.chan n := by
  simp [State.bindWrite, hlock]

/-- A register as wide as a field holds it whole. -/
theorem toNat_ofNat_fld (w : Nat) (v : Word) {hi lo : Nat} (h : hi + 1 - lo = w) :
    (BitVec.ofNat w (fld v hi lo)).toNat = fld v hi lo := by
  rw [BitVec.toNat_ofNat, Nat.mod_eq_of_lt (h ▸ fld_lt v hi lo)]

theorem exec_mbxBindWrite {s : State} {mid : Nat} (hup : s.up = true) (hfw : s.fwMid mid = true) (pl : BitVec 2)
    (ch : Fin 256) (b : Bool) (v : Word) :
    exec (.mbxBindWrite mid pl ch b v) s = if pl = 0 then .next (s.bindWrite ch.val b v) else .next s := by
  change execMbxBindWrite mid pl ch b v s = _
  simp [execMbxBindWrite, hup, hfw]

/-! ### Responses (R128, R131) -/

/-- A payload travels in as many messages as it needs. -/
theorem length_messages (op tag len flags : Nat) (p : Bytes) (n i : Nat) :
    (messages op tag len flags p n i).length = n := by
  induction n generalizing i with
  | zero => rfl
  | succ n ih => exact congrArg (· + 1) (ih (i + 1))

/-- The commands outstanding once a response is sent: one that answers a command begun frees its tag (R130). -/
def Held.freed (h : Held) (out : List (Nat × Nat × Nat)) : List (Nat × Nat × Nat) :=
  if h.begun then out.filter fun o => !(o.1 == h.party && o.2.1 == h.tag) else out

/-- The messages of a held response. -/
def Held.messages (h : Held) : List (List Word) :=
  Machine.messages h.opcode h.tag h.payload.length (1 + (if h.dup then 8 else 0) + 256 * h.status) h.payload
    (msgCount h.payload.length) 0

section
variable {s : State} {i : Nat} {h : Held} (hheld : s.drn.held[i]? = some h)
include hheld

/-- A response waits while its channel has no room for it. -/
theorem exec_drinerResponseSend_waits
    (hfull : 16 < (s.chan (respChan h.party)).fifo.length + msgCount h.payload.length) :
    exec (.drinerResponseSend i) s = .next s := by
  change execDrinerResponseSend i s = _
  simp [execDrinerResponseSend, hheld, hfull]

/-- A response that finds room, with no TLP of its buffer waiting, is pushed message by message and held no more. -/
theorem exec_drinerResponseSend_goes (hup : s.up = true)
    (hroom : (s.chan (respChan h.party)).fifo.length + msgCount h.payload.length ≤ 16)
    (hbuf : (s.pci.gen.any fun t => t.kind == .write && t.id ≤ h.after) = false) :
    exec (.drinerResponseSend i) s =
      let t := each h.messages (fun m s => s.push (respChan h.party) m) s
      .next { t with drn := { s.drn with held := ldel s.drn.held i, out := h.freed s.drn.out } } := by
  change execDrinerResponseSend i s = _
  simp only [execDrinerResponseSend, hheld, hup, hbuf, Nat.not_lt.2 hroom, Bool.not_true, decide_false, Bool.or_false,
    Bool.false_eq_true, if_false, drn_each_push]
  rfl

end

/-! ### The obligation -/

/-- Settles O17: each access by the rule of its instruction, the messages by what `push` makes of a channel. -/
theorem mailboxes : Obligations.Mailboxes := by
  unfold Obligations.Mailboxes
  intro s hup
  refine ⟨fun mid w ch hopen hwin => ?_, fun ch hne hdue => ?_, fun mid ch v hfw => ?_, ?_,
    fun i h hheld _ hroom hlive hbuf => ?_, fun i h hheld => exec_drinerResponseSend_waits hheld⟩
  · have hsend := exec_mbxSend hopen hwin
    have hdb := exec_mbxDbWrite hopen hwin
    refine ⟨fun hmine hlive hroom => ?_, fun hmine hlive hfull => ?_, fun hother => ?_,
      fun hmine m l hcons => exec_mbxPop_plain hopen hwin hmine hcons,
      fun hmine m l hcons => mbx_exec_mbxPop hopen hwin hmine hcons, exec_mbxPop_empty hopen hwin,
      fun hother => ⟨_, exec_mbxPop_other hopen hwin hother, mbxFault_holds s ch mid⟩,
      fun v hother => (hdb v).trans (if_neg hother), fun v hmine => ?_, fun v hmine => ?_⟩
    · have hchan := chan_push hlive (stagingWords (s.chan ch)) hroom
      have hch := (hchan ch).trans (if_pos rfl)
      refine ⟨_, hsend.trans (if_pos hmine), ?_, ?_, ?_, fun n hn => (hchan n).trans (if_neg hn), fun hnil => ?_⟩
      iterate 3 (rw [hch]; rfl)
      rw [hch]
      simp [Chan.taking, hnil]
    · rw [hsend, if_pos hmine, push_full hlive _ hfull]
    · exact ⟨_, hsend.trans (if_neg hother), mbxFault_holds s ch mid⟩
    · exact ⟨_, (hdb v).trans (if_pos hmine), by simp, by simp, fun n hn => by simp [hn]⟩
    · obtain ⟨t, hex, hchan⟩ := exec_mbxDbMaskWrite hopen hwin v hmine
      exact ⟨t, hex, by simp [hchan], by simp [hchan], fun n hn => by simp [hchan, hn]⟩
  · change execMbxTimeout ch s = _
    simp [execMbxTimeout, hup, hne, Nat.not_lt.2 hdue]
  · have hex := exec_mbxBindWrite hup hfw
    refine ⟨fun hlock => ?_, fun hlock b => ?_, fun pl b hpl => (hex pl ch b v).trans (if_neg hpl)⟩
    · have hchan := chan_bindWrite hlock ch.val v
      refine ⟨_, (hex 0 ch false v).trans (if_pos rfl), ?_, ?_, ?_, ?_, fun n hn => (hchan n).trans (if_neg hn)⟩
      all_goals rw [hchan, if_pos rfl]
      · exact toNat_ofNat_fld 4 v rfl
      · exact toNat_ofNat_fld 8 v rfl
      · exact toNat_ofNat_fld 8 v rfl
    · rw [hex, if_pos rfl, State.bindWrite, if_pos hlock]
  · change execMbxLock s = _
    simp [execMbxLock, hup]
  · have hcount : h.messages.length = msgCount h.payload.length := length_messages _ _ _ _ _ _ _
    obtain ⟨hfifo, hothers⟩ := each_push_holds h.messages s hlive (by rw [hcount]; exact hroom)
    refine ⟨_, exec_drinerResponseSend_goes hheld hup hroom hbuf, rfl, rfl, ?_, hothers⟩
    exact (congrArg List.length hfifo).trans (by rw [List.length_append, hcount])

end Sys2Proof.Machine
end
section
/-! PROOFS. The queue-pair commands and the key sweep (R135, R136, R138, R140, R141, R143). -/

namespace Sys2Proof.Machine
open Sys2Proof

/-! ### What a step leaves of one queue pair and of the commands -/

/-- `t` has the state word that queue pair `q` has in `s`, and the commands of `s`. -/
structure KeepsPair (q : Nat) (s t : State) : Prop where
  word : t.qw q = s.qw q
  drn : t.drn = s.drn

theorem keepsPair_of_words {s t : State} {q : Nat} (hw : t.qps.words = s.qps.words) (hd : t.drn = s.drn) :
    KeepsPair q s t := ⟨qw_of_words hw q, hd⟩

theorem keepsPair_of_unsent {s t : State} {q : Nat} (h : t.unsent = s.unsent) : KeepsPair q s t := by
  have hd := congrArg State.drn h
  exact keepsPair_of_words (congrArg Qps.words (qps_of_unsent h)) hd

theorem KeepsPair.refl (q : Nat) (s : State) : KeepsPair q s s := ⟨rfl, rfl⟩

theorem KeepsPair.trans {q : Nat} {s t u : State} (h : KeepsPair q s t) (h' : KeepsPair q t u) : KeepsPair q s u :=
  ⟨h'.word.trans h.word, h'.drn.trans h.drn⟩

theorem keepsPair_ite {q : Nat} {s t u : State} {c : Prop} [Decidable c] (ht : KeepsPair q s t) (hu : KeepsPair q s u) :
    KeepsPair q s (if c then t else u) := by
  split
  · exact ht
  · exact hu

section
variable (s : State) (q : Nat)

theorem unsent_hostWrite (fn addr : Nat) (data : Bytes) (ro : Bool) (job : Option Nat) :
    (s.hostWrite fn addr data false ro job).unsent = s.unsent := by
  unfold State.hostWrite
  refine unsent_each s (fun _ _ => ?_) _
  rfl

/-- A context on its way to the table is a message in the general queue. -/
theorem unsent_writeCtx (c : Ctx) : (s.writeCtx q c).unsent = s.unsent := by
  unfold State.writeCtx
  split
  · rfl
  · split
    · rfl
    · exact unsent_hostWrite s _ _ _ _ _

/-- A sweep that begins, or takes a queue pair next, touches no state word (R143). -/
theorem keepsPair_sweepCheck (p : Nat) : KeepsPair q s (s.sweepCheck p) := by
  unfold State.sweepCheck State.withDraw
  split
  · exact keepsPair_ite (KeepsPair.refl q s) (keepsPair_ite (keepsPair_of_words rfl rfl) (keepsPair_of_words rfl rfl))
  · exact keepsPair_ite (keepsPair_of_words rfl rfl) (KeepsPair.refl q s)

theorem drn_writeBack (p : Nat) (c : Ctx) : (s.writeBack p c).drn = s.drn := by
  refine (keepsPair_sweepCheck _ p p).drn.trans ?_
  exact (keepsPair_of_unsent (q := p) (unsent_writeCtx _ p c)).drn

variable {q} in
theorem keepsPair_writeBack {p : Nat} (hp : q ≠ p) (c : Ctx) : KeepsPair q s (s.writeBack p c) := by
  refine ⟨?_, drn_writeBack s p c⟩
  refine (keepsPair_sweepCheck _ q p).word.trans ((keepsPair_of_unsent (unsent_writeCtx _ p c)).word.trans ?_)
  rw [setQw_get, if_neg hp]

variable {s q}

/-- The context that makes room is not a pinned one. -/
theorem victim_ne_of_pinned (hpin : (s.qw q).pinned = true) {p : Nat} (hp : s.victim = some p) : q ≠ p := by
  rintro rfl
  have h := List.find?_some hp
  rw [hpin] at h
  exact absurd h (by simp)

/-- Making room leaves a pinned queue pair as it was (R144). -/
theorem keepsPair_evict (hpin : (s.qw q).pinned = true) : KeepsPair q s s.evict := by
  unfold State.evict
  split
  · exact KeepsPair.refl q s
  · split
    · exact KeepsPair.refl q s
    next p hp =>
      split
      · exact keepsPair_of_words rfl rfl
      next c _ =>
        have hback : KeepsPair q s (if (s.qw p).en then s.writeBack p c else s) :=
          keepsPair_ite (keepsPair_writeBack s (victim_ne_of_pinned hpin hp) c) (KeepsPair.refl q s)
        refine hback.trans (KeepsPair.trans (keepsPair_ite (keepsPair_of_words ?_ ?_) (KeepsPair.refl q _))
          (keepsPair_of_words rfl rfl)) <;> rfl

theorem keepsPair_cacheCtx (hpin : (s.qw q).pinned = true) (p : Nat) (c : Ctx) : KeepsPair q s (s.cacheCtx p c) := by
  unfold State.cacheCtx
  split
  · refine (keepsPair_evict hpin).trans ?_
    exact keepsPair_of_words rfl rfl
  · exact keepsPair_of_words rfl rfl

end

/-! ### Commands that answer at once -/

section
variable {s : State} {op : Nat} {r : Req}

/-- A command that answers at once leaves what its body makes, and its answer. -/
theorem drinerNow_does (h : s.begins op r) {e : Instr} {body : State → State × Nat × Bytes} {f : State → State}
    {st : Nat} {p : Bytes} (he : exec e s = drinerNow op r s body)
    (hb : ∀ d, body { s with drn := d } = (f { s with drn := d }, st, p))
    (hout : ∀ d, (f { s with drn := d }).drn.out = d.out) :
    ∃ t d d', exec e s = .next t ∧ t = { f { s with drn := d } with drn := d' } ∧ t.answers r op st p := by
  have hbody : body (s.begun op r) = (f { s with drn := (s.begun op r).drn }, st, p) := by rw [begun_eq]; exact hb _
  rw [he, drinerNow_begins h, hbody]
  refine ⟨_, (s.begun op r).drn, _, rfl, reply_eq _ _ _ _ _ _, reply_answers ?_ st p⟩
  rw [hout]
  exact begun_contains s op r

/-- A command that may begin does what its body does to what lies outside Driner. -/
theorem driner_does (h : s.begins op r) {body f : State → State}
    (hb : ∀ d, body { s with drn := d } = f { s with drn := d }) : driner op r s body = .next (f (s.begun op r)) := by
  have hbody : body (s.begun op r) = f (s.begun op r) := by rw [begun_eq]; exact hb _
  rw [driner_begins h, hbody]

/-- A command whose body only answers. -/
theorem driner_replies (h : s.begins op r) {body : State → State} {st : Nat} {p : Bytes}
    (hb : ∀ d, body { s with drn := d } = State.reply { s with drn := d } r.party r.tag op st p) :
    driner op r s body = .next ((s.begun op r).holdFor true r.party op r.tag st false p) := by
  rw [driner_does (f := fun u => u.reply r.party r.tag op st p) h hb, reply_of_out (begun_contains s op r)]

end

/-! ### QP_ASSIGN and CTX_TABLE_SET (R135, R136) -/

section
variable {s : State} {r : Req}

/-- A function gets a range, and FW_READY with it. -/
def State.assigned (s : State) (fn first count : Nat) : State :=
  (s.setFun fn { s.fun_ fn with first := if count = 0 then 0 else first, count := count }).fwReadies

theorem assigned_unsent (fn first count : Nat) : (s.assigned fn first count).unsent = s.unsent := unsent_fwReadies _

theorem assigned_range {fn first count : Nat} (hcount : 0 < count) :
    ((s.assigned fn first count).fun_ fn).first = first ∧ ((s.assigned fn first count).fun_ fn).count = count := by
  have h := (noNew_fwReadies
    (s.setFun fn { s.fun_ fn with first := if count = 0 then 0 else first, count := count })).range fn
  obtain ⟨hfirst, hcnt⟩ := bounds_of_range h
  rw [setFun_get, if_pos rfl] at hfirst hcnt
  exact ⟨hfirst.trans (if_neg (by omega)), hcnt⟩

/-- Another function's range shares a queue pair with the range that the command names. -/
def State.overlapped (s : State) (r : Req) : Bool :=
  (upto 64).any fun k =>
    k != leAt r.payload 0 1 && (s.fun_ k).count != 0 && leAt r.payload 8 4 != 0 &&
      leAt r.payload 4 4 < (s.fun_ k).first + (s.fun_ k).count && (s.fun_ k).first < leAt r.payload 4 4 + leAt r.payload 8 4

/-- What QP_ASSIGN refuses. -/
def State.assignBad (s : State) (r : Req) : Bool :=
  63 < leAt r.payload 0 1 || leAt r.payload 1 3 ≠ 0 || s.overlapped r || 2 ^ 20 < leAt r.payload 4 4 + leAt r.payload 8 4 ||
    (leAt r.payload 0 1 ≠ 0 && 32768 < leAt r.payload 8 4) ||
    s.anyEnabled (s.fun_ (leAt r.payload 0 1)).first (s.fun_ (leAt r.payload 0 1)).count ||
    s.anyEnabled (leAt r.payload 4 4) (leAt r.payload 8 4)

theorem overlapped_iff (hcount : 0 < leAt r.payload 8 4) : s.overlapped r = true ↔
    ∃ k < 64, k ≠ leAt r.payload 0 1 ∧ (s.fun_ k).count ≠ 0 ∧ leAt r.payload 4 4 < (s.fun_ k).first + (s.fun_ k).count ∧
      (s.fun_ k).first < leAt r.payload 4 4 + leAt r.payload 8 4 := by
  have h : leAt r.payload 8 4 ≠ 0 := by omega
  simp [State.overlapped, upto, h, and_assoc]


theorem qpAssign_assigns (h : s.begins 0x0301 r) (hfn : leAt r.payload 0 1 ≤ 63) (hzero : leAt r.payload 1 3 = 0)
    (hcount : 0 < leAt r.payload 8 4) (hend : leAt r.payload 4 4 + leAt r.payload 8 4 ≤ 2 ^ 20)
    (hmax : leAt r.payload 0 1 ≠ 0 → leAt r.payload 8 4 ≤ 32768)
    (hold : s.anyEnabled (s.fun_ (leAt r.payload 0 1)).first (s.fun_ (leAt r.payload 0 1)).count = false)
    (hnew : s.anyEnabled (leAt r.payload 4 4) (leAt r.payload 8 4) = false) (hover : s.overlapped r = false) :
    ∃ t, exec (.qpAssign r) s = .next t ∧ t.answers r 0x0301 stOk [] ∧
      (t.fun_ (leAt r.payload 0 1)).first = leAt r.payload 4 4 ∧
      (t.fun_ (leAt r.payload 0 1)).count = leAt r.payload 8 4 ∧ t.qps = s.qps := by
  have hwell : ¬ s.assignBad r = true := by
    simpa [State.assignBad, hzero, hold, hnew, hover, hfn] using ⟨hend, hmax⟩
  obtain ⟨t, d, d', ht, rfl, hans⟩ := drinerNow_does
    (f := fun u => u.assigned (leAt r.payload 0 1) (leAt r.payload 4 4) (leAt r.payload 8 4)) (st := stOk) (p := []) h
    (show exec (.qpAssign r) s = execQpAssign r s from rfl) (fun d => if_neg hwell)
    (fun d => congrArg (fun u : State => u.drn.out) (assigned_unsent _ _ _))
  obtain ⟨hfirst, hcnt⟩ := assigned_range (s := { s with drn := d }) (fn := leAt r.payload 0 1)
    (first := leAt r.payload 4 4) hcount
  refine ⟨_, ht, hans, hfirst, hcnt, ?_⟩
  have hqps := qps_of_unsent (assigned_unsent (s := { s with drn := d }) (leAt r.payload 0 1) (leAt r.payload 4 4)
    (leAt r.payload 8 4))
  exact hqps

/-- A range that shares a queue pair with another function's is refused. -/
theorem qpAssign_overlapped (h : s.begins 0x0301 r) (hover : s.overlapped r = true) :
    exec (.qpAssign r) s = .next ((s.begun 0x0301 r).holdFor true r.party 0x0301 r.tag stRejected false []) := by
  have hbad : s.assignBad r = true := by simp [State.assignBad, hover]
  change execQpAssign r s = _
  exact drinerNow_reads h fun d => if_pos hbad

/-- What CTX_TABLE_SET refuses. -/
def State.placeBad (s : State) (r : Req) : Bool :=
  leAt r.payload 8 4 < 64 || 2 ^ 20 < leAt r.payload 8 4 || leAt r.payload 8 4 % 64 ≠ 0 ||
    leAt r.payload 0 8 % 4096 ≠ 0 || s.anyEnabled 0 (2 ^ 20)

theorem ctxTableSet_places (h : s.begins 0x0302 r) (hlow : 64 ≤ leAt r.payload 8 4) (hhigh : leAt r.payload 8 4 ≤ 2 ^ 20)
    (hgrain : leAt r.payload 8 4 % 64 = 0) (hpage : leAt r.payload 0 8 % 4096 = 0) (hidle : s.anyEnabled 0 (2 ^ 20) = false) :
    ∃ t, exec (.ctxTableSet r) s = .next t ∧ t.answers r 0x0302 stOk [] ∧
      t.qps = { s.qps with table := some (BitVec.ofNat 64 (leAt r.payload 0 8), leAt r.payload 8 4) } := by
  have hwell : ¬ s.placeBad r = true := by
    simpa [State.placeBad, hgrain, hpage, hlow] using ⟨hhigh, hidle⟩
  obtain ⟨t, d, d', ht, rfl, hans⟩ := drinerNow_does (f := fun u => { u with qps := { u.qps with
    table := some (BitVec.ofNat 64 (leAt r.payload 0 8), leAt r.payload 8 4) } }) h
    (show exec (.ctxTableSet r) s = execCtxTableSet r s from rfl) (fun d => if_neg hwell) (fun d => rfl)
  exact ⟨_, ht, hans, rfl⟩

theorem ctxTableSet_inUse (h : s.begins 0x0302 r) (hused : s.anyEnabled 0 (2 ^ 20) = true) :
    exec (.ctxTableSet r) s = .next ((s.begun 0x0302 r).holdFor true r.party 0x0302 r.tag stRejected false []) := by
  have hbad : s.placeBad r = true := by rw [State.placeBad, hused, Bool.or_true]
  change execCtxTableSet r s = _
  exact drinerNow_reads h fun d => if_pos hbad

end

/-! ### QP_CREATE (R140) -/

section
variable {s : State} {r : Req}

/-- The function that a command comes from. -/
def callerFn (r : Req) : Nat := (midFn r.party).getD 0

/-- The queue pairs that the context table covers. -/
def State.covered (s : State) : Nat :=
  match s.qps.table with
  | some (_, n) => n
  | none => 0

/-- An image, a queue pair or a table that lets QP_CREATE be refused. -/
def State.createBad (s : State) (r : Req) : Bool :=
  !Machine.imageOk (callerFn r) (sub r.payload 4 64) || (s.qw (leAt r.payload 0 4)).en ||
    (s.qw (leAt r.payload 0 4)).destroying || s.covered ≤ leAt r.payload 0 4 ||
    ((ctxOf (sub r.payload 4 64)).cls = 0 && 4096 ≤ s.c0Qps)

/-- The state word of a queue pair just created. -/
def State.createdWord (s : State) (q fn : Nat) (c : Ctx) : QpWord :=
  { en := true, cls := BitVec.ofNat 2 c.cls.toNat, owner := BitVec.ofNat 6 fn, gen := s.qps.gen,
    pinned := BitVec.ofNat 2 c.cls.toNat == 0, destroying := false, seq := (s.qw q).seq + 1, evq := eventQ c }

/-- A context as QP_CREATE writes it: its rings are empty. -/
def Ctx.fresh (c : Ctx) : Ctx := { c with sqHead := 0, cqTail := 0, sqTail := 0, cqHead := 0, ovf := 0, phase := 1 }

/-- A queue pair is created, and its context is on its way to the table. -/
def State.written (s : State) (q fn : Nat) (c : Ctx) : State :=
  (((s.setQw q (s.createdWord q fn c)).setQrun q {}).uncache q).writeCtx q c.fresh

/-- What QP_CREATE makes: a class-0 context is held in the cache as well. -/
def State.created (s : State) (q fn : Nat) (c : Ctx) : State :=
  (if BitVec.ofNat 2 c.cls.toNat = 0 then (s.written q fn c).cacheCtx q c.fresh else s.written q fn c).sweepCheck q

theorem written_word (q fn : Nat) (c : Ctx) : KeepsPair q (s.setQw q (s.createdWord q fn c)) (s.written q fn c) := by
  refine KeepsPair.trans ?_ (keepsPair_of_unsent (unsent_writeCtx _ q c.fresh))
  exact keepsPair_of_words rfl rfl

/-- A queue pair created has its state word, and no command has been answered meanwhile. -/
theorem created_word (q fn : Nat) (c : Ctx) : KeepsPair q (s.setQw q (s.createdWord q fn c)) (s.created q fn c) := by
  refine KeepsPair.trans ?_ (keepsPair_sweepCheck _ q q)
  split
  next hcls =>
    refine (written_word q fn c).trans (keepsPair_cacheCtx ?_ q c.fresh)
    rw [(written_word q fn c).word, setQw_get, if_pos rfl]
    exact beq_iff_eq.mpr hcls
  · exact written_word q fn c

theorem qpCreate_notOwned (h : s.begins 0x0303 r) (hown : s.ownsQp (callerFn r) (leAt r.payload 0 4) = false) :
    exec (.qpCreate r) s = .next ((s.begun 0x0303 r).holdFor true r.party 0x0303 r.tag stAccess false []) := by
  have hbad : (!s.ownsQp (callerFn r) (leAt r.payload 0 4)) = true := by rw [hown]; rfl
  change execQpCreate r s = _
  exact drinerNow_reads h fun d => if_pos hbad

theorem qpCreate_enabled (h : s.begins 0x0303 r) (hown : s.ownsQp (callerFn r) (leAt r.payload 0 4) = true)
    (hen : (s.qw (leAt r.payload 0 4)).en = true) :
    exec (.qpCreate r) s = .next ((s.begun 0x0303 r).holdFor true r.party 0x0303 r.tag stRejected false []) := by
  have howned : ¬ (!s.ownsQp (callerFn r) (leAt r.payload 0 4)) = true := by simp [hown]
  have hbad : s.createBad r = true := by simp [State.createBad, hen]
  change execQpCreate r s = _
  exact drinerNow_reads h fun d => (if_neg howned).trans (if_pos hbad)

/-- The class of an image whose fields are in range. -/
theorem cls_of_imageOk {fn : Nat} {b : Bytes} (h : imageOk fn b = true) : leAt b 18 1 < 4 := by
  have hcls : (ctxOf b).cls.toNat < 4 := by
    simp only [imageOk, Bool.and_eq_true, decide_eq_true_eq] at h
    tauto
  have hbyte := leAt_lt b 18 1
  change (BitVec.ofNat 8 (leAt b 18 1)).toNat < 4 at hcls
  rwa [BitVec.toNat_ofNat, Nat.mod_eq_of_lt hbyte] at hcls

theorem qpCreate_creates (h : s.begins 0x0303 r) (hown : s.ownsQp (callerFn r) (leAt r.payload 0 4) = true)
    (hbad : s.createBad r = false) (hmove : s.mayMove 0 = true) :
    ∃ t, exec (.qpCreate r) s = .next t ∧
      t.answers r 0x0303 stOk (le 2 ((s.qw (leAt r.payload 0 4)).seq + 1).toNat) ∧
      t.qw (leAt r.payload 0 4) = s.createdWord (leAt r.payload 0 4) (callerFn r) (ctxOf (sub r.payload 4 64)) := by
  have howned : ¬ (!s.ownsQp (callerFn r) (leAt r.payload 0 4)) = true := by simp [hown]
  have hgood : ¬ s.createBad r = true := by simp [hbad]
  have hmoves : ¬ (!s.mayMove 0) = true := by simp [hmove]
  obtain ⟨t, d, d', ht, rfl, hans⟩ := drinerNow_does
    (f := fun u => u.created (leAt r.payload 0 4) (callerFn r) (ctxOf (sub r.payload 4 64)))
    (p := le 2 ((s.qw (leAt r.payload 0 4)).seq + 1).toNat) h
    (show exec (.qpCreate r) s = execQpCreate r s from rfl)
    (fun d => (if_neg howned).trans ((if_neg hgood).trans (if_neg hmoves)))
    (fun d => congrArg Drn.out (created_word _ _ _).drn)
  refine ⟨_, ht, hans, ?_⟩
  refine (created_word (s := { s with drn := d }) _ _ _).word.trans ?_
  rw [setQw_get, if_pos rfl]
  rfl


end

/-! ### QP_DESTROY and its end (R141) -/

section
variable {s : State} {r : Req}

theorem qpDestroy_notOwned (h : s.begins 0x0304 r) (hown : s.ownsQp (callerFn r) (leAt r.payload 0 4) = false) :
    exec (.qpDestroy r) s = .next ((s.begun 0x0304 r).holdFor true r.party 0x0304 r.tag stAccess false []) := by
  have hbad : (!s.ownsQp (callerFn r) (leAt r.payload 0 4)) = true := by rw [hown]; rfl
  change execQpDestroy r s = _
  exact driner_replies h fun d => if_pos hbad

/-- A queue pair is being destroyed, for the command that asked it. -/
def State.destroyed (s : State) (q : Nat) (r : Req) : State :=
  (s.setQw q { s.qw q with destroying := true }).setQrun q { s.qrun q with destroyBy := some (r.party, r.tag) }

theorem destroyed_holds (q : Nat) (r : Req) : (s.destroyed q r).qw q = { s.qw q with destroying := true } ∧
    (s.destroyed q r).qrun q = { s.qrun q with destroyBy := some (r.party, r.tag) } ∧ (s.destroyed q r).drn = s.drn := by
  have hwords : (s.destroyed q r).qps.words = tset {} s.qps.words q { s.qw q with destroying := true } := rfl
  refine ⟨by rw [State.qw, hwords, tget_tset, if_pos rfl], by rw [State.destroyed, setQrun_get, if_pos rfl], ?_⟩
  simp [State.destroyed]

theorem qpDestroy_marks (h : s.begins 0x0304 r) (hown : s.ownsQp (callerFn r) (leAt r.payload 0 4) = true)
    (hen : (s.qw (leAt r.payload 0 4)).en = true) (hfirst : (s.qw (leAt r.payload 0 4)).destroying = false) :
    exec (.qpDestroy r) s = .next ((s.begun 0x0304 r).destroyed (leAt r.payload 0 4) r) := by
  have howned : ¬ (!s.ownsQp (callerFn r) (leAt r.payload 0 4)) = true := by simp [hown]
  have hopen : ¬ (!(s.qw (leAt r.payload 0 4)).en || (s.qw (leAt r.payload 0 4)).destroying) = true := by
    simp [hen, hfirst]
  change execQpDestroy r s = _
  exact driner_does (f := fun u => u.destroyed (leAt r.payload 0 4) r) h
    (fun d => (if_neg howned).trans (if_neg hopen))

/-- A context held in the cache has been written back, where its queue pair is still enabled. -/
def State.flushed (s : State) (q : Nat) : State :=
  match (s.qw q).en, s.ctx? q with
  | true, some c => s.writeBack q c
  | _, _ => s

/-- The state word of a queue pair that is destroyed. -/
def QpWord.off (w : QpWord) : QpWord := { w with en := false, pinned := false, destroying := false }

/-- A queue pair that is destroyed has left the cache and the order of doorbells; what it has of `k` is its interrupt. -/
def State.retired (s : State) (q : Nat) (k : QpRun) : State :=
  (((s.setQw q (s.qw q).off).uncache q).setQrun q
    { unsig := k.unsig, due := k.due, vector := k.vector }).leaveOrder q

/-- The doorbell units that still waited for a queue pair are discarded (R97). -/
def State.unitsDropped (s : State) (q : Nat) (l : List Unit8) : State := each l (fun u s => s.dbErr u.fn q 1) s

theorem drn_flushed (q : Nat) : (s.flushed q).drn = s.drn := by
  unfold State.flushed
  split
  · exact drn_writeBack s q _
  · rfl

/-- A queue pair that has been destroyed is off and its context is not held; no command has been answered meanwhile. -/
theorem retired_holds (q : Nat) (k : QpRun) : ((s.retired q k).qw q).en = false ∧
    ((s.retired q k).qw q).destroying = false ∧ (s.retired q k).ctx? q = none ∧ (s.retired q k).drn = s.drn := by
  have hwords : (s.retired q k).qps.words = tset {} s.qps.words q (s.qw q).off := rfl
  have hword : (s.retired q k).qw q = (s.qw q).off := by
    rw [State.qw, hwords, tget_tset, if_pos rfl]
  refine ⟨by rw [hword]; rfl, by rw [hword]; rfl, ?_, ?_⟩
  · simp [State.ctx?, State.retired, State.leaveOrder, State.setQrun, State.uncache, List.find?_filter]
  · simp [State.retired, State.leaveOrder, State.uncache]

section
variable {q party tag : Nat} (hup : s.up = true) (hd : (s.qw q).destroying = true)
    (hjobs : s.inFlight q = 0) (hread : (s.qrun q).fetching = false) (hposted : s.postedStill q = false)
    (hby : (s.qrun q).destroyBy = some (party, tag))
include hup hd hjobs hread hposted hby

/-- The last job has completed: the command that asked for it is answered. -/
theorem qpDestroyFinish_answers :
    exec (.qpDestroyFinish q) s = .next ((((s.flushed q).retired q (s.qrun q)).unitsDropped q (s.qrun q).units).reply
      party tag 0x0304 stOk []) := by
  have hends : ¬ (!s.up || !(s.qw q).destroying || s.inFlight q ≠ 0 || (s.qrun q).fetching || s.postedStill q) = true := by
    simp [hup, hd, hjobs, hread, hposted]
  change execQpDestroyFinish q s = _
  refine (if_neg hends).trans ?_
  rw [hby]
  rfl

theorem qpDestroyFinish_ends (hout : (party, tag, 0x0304) ∈ s.drn.out) :
    ∃ t h, exec (.qpDestroyFinish q) s = .next t ∧ (t.qw q).en = false ∧ (t.qw q).destroying = false ∧
      t.ctx? q = none ∧ h ∈ t.drn.held ∧ h.party = party ∧ h.tag = tag ∧ h.status = stOk := by
  obtain ⟨hen, hdest, hctx, hdrn⟩ := retired_holds (s := s.flushed q) q (s.qrun q)
  have hunsent := unsent_each_dbErr ((s.flushed q).retired q (s.qrun q)) q 1 (s.qrun q).units
  have hqps := qps_of_unsent hunsent
  have hdropped : (((s.flushed q).retired q (s.qrun q)).unitsDropped q (s.qrun q).units).drn = s.drn :=
    ((keepsPair_of_unsent (q := q) hunsent).drn.trans hdrn).trans (drn_flushed q)
  have hreply := reply_of_out (party := party) (tag := tag) (op := 0x0304)
    (by rw [hdropped]; exact List.contains_iff_mem.mpr hout) stOk []
  rw [qpDestroyFinish_answers hup hd hjobs hread hposted hby, hreply]
  refine ⟨_, _, rfl, ?_, ?_, ?_, List.mem_append_right _ (List.mem_singleton_self _), rfl, rfl, rfl⟩
  · exact (congrArg QpWord.en (qw_of_words (congrArg Qps.words hqps) q)).trans hen
  · exact (congrArg QpWord.destroying (qw_of_words (congrArg Qps.words hqps) q)).trans hdest
  · rw [← hctx]
    exact congrArg (fun c : Tab Ctx => (c.find? (·.1 == q)).map (·.2)) (congrArg Qps.cache hqps)

end

end

/-! ### QP_QUERY (R138) -/

section
variable {s : State} {r : Req}

theorem qpQuery_notOwned (h : s.begins 0x0305 r) (hown : s.ownsQp (callerFn r) (leAt r.payload 0 4) = false) :
    exec (.qpQuery r) s = .next ((s.begun 0x0305 r).holdFor true r.party 0x0305 r.tag stAccess false []) := by
  have hbad : (!s.ownsQp (callerFn r) (leAt r.payload 0 4)) = true := by rw [hown]; rfl
  change execQpQuery r s = _
  exact driner_replies h fun d => if_pos hbad

theorem qpQuery_answers {c : Ctx} (h : s.begins 0x0305 r) (hown : s.ownsQp (callerFn r) (leAt r.payload 0 4) = true)
    (hctx : s.ctx? (leAt r.payload 0 4) = some c) :
    exec (.qpQuery r) s = .next ((s.begun 0x0305 r).holdFor true r.party 0x0305 r.tag stOk false
      (s.queryBody (leAt r.payload 0 4) (some c))) := by
  have howned : ¬ (!s.ownsQp (callerFn r) (leAt r.payload 0 4)) = true := by simp [hown]
  change execQpQuery r s = _
  refine driner_replies h fun d => (if_neg howned).trans ?_
  have hheld : State.ctx? { s with drn := d } (leAt r.payload 0 4) = some c := hctx
  simp only [hheld]
  rfl

end

/-! ### The key sweep (R143) -/

section
variable {s : State} {n : Nat}

/-- The queue pairs that a sweep at `n` has still to reach. -/
def State.toSweep (s : State) (n : Nat) : Tab QpWord := s.qps.words.filter fun e => n ≤ e.1 && e.2.gen != s.qps.gen

/-- The walk is over, and the old key is erased. -/
def State.sweepEnded (s : State) : State :=
  if s.qps.gen then { s with qps := { s.qps with sweep := none, key0 := 0 } }
  else { s with qps := { s.qps with sweep := none, key1 := 0 } }

theorem toSweep_eq_nil (h : ∀ e ∈ s.qps.words, e.1 < n ∨ e.2.gen = s.qps.gen) : s.toSweep n = [] := by
  refine List.filter_eq_nil_iff.mpr fun e he => ?_
  have hreached := h e he
  simp only [Bool.and_eq_true, decide_eq_true_eq, bne_iff_ne, ne_eq]
  rintro ⟨hn, hgen⟩
  exact hreached.elim (Nat.not_lt.mpr hn) hgen

theorem keySweepStep_ends (hup : s.up = true) (hsweep : s.qps.sweep = some n) (hread : s.sweepReading = false)
    (hnext : s.qps.sweepNext = []) (hdone : s.toSweep n = []) : exec .keySweepStep s = .next s.sweepEnded := by
  change execKeySweepStep s = _
  unfold State.toSweep at hdone
  unfold execKeySweepStep State.sweepEnded
  simp only [hsweep, hup, hread, hnext, hdone]
  cases s.qps.gen <;> rfl

/-- A queue pair that is not enabled is swept at once. -/
theorem keySweepStep_sweeps {e : Nat × QpWord} (hup : s.up = true) (hsweep : s.qps.sweep = some n)
    (hread : s.sweepReading = false) (hnext : s.qps.sweepNext = []) (hhead : (s.toSweep n).head? = some e)
    (hen : (s.qw e.1).en = false) :
    exec .keySweepStep s = .next (State.sweepOne { s with qps := { s.qps with sweep := some e.1 } } e.1 none) := by
  change execKeySweepStep s = _
  unfold State.toSweep at hhead
  unfold execKeySweepStep
  simp only [hsweep, hup, hread, hnext, hhead]
  simp [hen]

/-- A queue pair swept without a context has SEQ 0 and the new key. -/
theorem sweepOne_word (q : Nat) : ((s.sweepOne q none).qw q).seq = 0 ∧ ((s.sweepOne q none).qw q).gen = s.qps.gen := by
  have hwords : (s.sweepOne q none).qps.words = tset {} s.qps.words q { s.qw q with seq := 0, gen := s.qps.gen } := rfl
  rw [State.qw, hwords, tget_tset, if_pos rfl]
  exact ⟨rfl, rfl⟩

end

/-! ### The obligation -/

/-- What QP_CREATE needs of its image, its queue pair and the table. -/
theorem createBad_eq_false {s : State} {r : Req} {a : BitVec 64} {n : Nat}
    (himg : imageOk (callerFn r) (sub r.payload 4 64) = true) (hen : (s.qw (leAt r.payload 0 4)).en = false)
    (hd : (s.qw (leAt r.payload 0 4)).destroying = false) (htable : s.qps.table = some (a, n))
    (hq : leAt r.payload 0 4 < n) (hroom : s.c0Qps < 4096) : s.createBad r = false := by
  have hcov : s.covered = n := by
    unfold State.covered
    rw [htable]
  simp [State.createBad, himg, hen, hd, hcov, hq, hroom]

/-- The class of a queue pair just created is its image's. -/
theorem createdWord_cls {s : State} {q fn : Nat} {b : Bytes} (h : imageOk fn b = true) :
    (s.createdWord q fn (ctxOf b)).cls.toNat = leAt b 18 1 := by
  have hcls := cls_of_imageOk h
  change (BitVec.ofNat 2 (BitVec.ofNat 8 (leAt b 18 1)).toNat).toNat = _
  simp only [BitVec.toNat_ofNat]
  omega

/-- Settles O19: each command by the lemmas on its cases. -/
theorem queuePairCommands : Obligations.QueuePairCommands := by
  unfold Obligations.QueuePairCommands
  intro s r
  dsimp only
  refine ⟨fun h hfn hzero hcount hend hmax hold hnew => ⟨fun hapart => ?_, fun hover => ?_⟩,
    fun h hlow hhigh hgrain hpage hidle => ctxTableSet_places h hlow hhigh hgrain hpage hidle,
    fun h hused => ctxTableSet_inUse h hused, fun h hown => qpCreate_notOwned h hown,
    fun h hown hen => qpCreate_enabled h hown hen,
    fun a n h hown himg hen hd hmove htable hq hroom _ _ => ?_, fun h hown hen hd => ?_,
    fun h hown => qpDestroy_notOwned h hown,
    fun q party tag hup hd hjobs hread hposted hby hout => qpDestroyFinish_ends hup hd hjobs hread hposted hby hout,
    fun c h hown hctx => ?_, fun h hown => qpQuery_notOwned h hown, fun n hup hsweep hread hnext => ⟨fun hdone => ?_,
      fun e hhead hen => ?_⟩⟩
  · refine qpAssign_assigns h hfn hzero hcount hend hmax hold hnew (Bool.eq_false_iff.mpr fun hover => ?_)
    obtain ⟨k, hk, hne, hpos, hlow, hhigh⟩ := (overlapped_iff hcount).mp hover
    rcases hapart k hk hne with h | h | h <;> omega
  · exact qpAssign_overlapped h ((overlapped_iff hcount).mpr hover)
  · obtain ⟨t, ht, hans, hword⟩ := qpCreate_creates h hown (createBad_eq_false himg hen hd htable hq hroom) hmove
    refine ⟨t, ht, hans, ?_⟩
    rw [hword]
    exact ⟨rfl, BitVec.toNat_ofNat _ _, createdWord_cls himg, rfl, rfl, rfl⟩
  · obtain ⟨hword, hby, hdrn⟩ := destroyed_holds (s := s.begun 0x0304 r) (leAt r.payload 0 4) r
    refine ⟨_, qpDestroy_marks h hown hen hd, ?_⟩
    rw [hword, hby, hdrn, begun_held]
    refine ⟨rfl, ?_, rfl, rfl⟩
    rw [begun_eq]
    exact hen
  · simp only [qpQuery_answers h hown hctx, State.queryBody, List.append_assoc]
  · exact keySweepStep_ends hup hsweep hread hnext (toSweep_eq_nil hdone)
  · obtain ⟨hseq, hgen⟩ := sweepOne_word (s := { s with qps := { s.qps with sweep := some e.1 } }) e.1
    exact ⟨_, keySweepStep_sweeps hup hsweep hread hnext hhead hen, rfl, hseq, hgen⟩

end Sys2Proof.Machine
end
section
/-! PROOFS. A run of entries is fetched (R106, R150, R155). -/

namespace Sys2Proof.Machine
open Sys2Proof

/-- Refutes O20 in its first clause. The read that a fetch places at the tail of the priority queue also ends the wait of the
queue's head when credit covers the head again (R106), and the end of a counted wait marks every class-0 job with a TLP in the
queue with cause 7 (R160): the job table is then not the one that stood there. The state holds queue pair 0 of class 0 with one
entry posted, a payload write of running job 5 at the head, credit for it, and a counted wait that nothing has ended yet. -/
theorem not_jobsEnterTheBench : ¬ Obligations.JobsEnterTheBench := by
  unfold Obligations.JobsEnterTheBench
  intro h
  obtain ⟨hfetch, -⟩ := h { State.reset with
    pci := { State.reset.pci with
      up := true, fns := [(0, { bme := true })], credit := { ph := 1, pd := 1 }, waitAt := some 0, waitCounted := true
      prio := [{ id := 0, fn := 0, kind := .write, addr := 0, data := List.replicate 16 0, job := some 5 }] }
    qps := { State.reset.qps with
      words := [(0, { en := true })], cache := [(0, { sqLog := 4, cqLog := 4, sqTail := 1, inflightMax := 2 })]
      c0Order := [0]
      jobs := [{ id := 5, qpn := 0, fn := 0, cls := 0, sqe := sqeOf (List.replicate 64 0), stage := .running }] } } rfl
  obtain ⟨-, -, -, -, t, run, ht, -, -, -, -, -, hjobs⟩ :=
    hfetch 0 { sqLog := 4, cqLog := 4, sqTail := 1, inflightMax := 2 } (by simp [State.reset]) (by decide +kernel) rfl
  obtain rfl := Host.Outcome.next.inj ht
  revert hjobs
  decide +kernel

end Sys2Proof.Machine
end
section
/-! PROOFS. Completion entries and event entries (R151 to R154, R161, R162). -/

namespace Sys2Proof.Machine
open Sys2Proof

/-! ### What a step leaves of the rings and of the job table -/

/-- `t` has the contexts, the events and the job numbers of `s`; what stood in the general queue stands there still. -/
structure KeepsRings (s t : State) : Prop where
  cache : t.qps.cache = s.qps.cache
  events : t.qps.events = s.qps.events
  ids : t.qps.jobs.map Job.id = s.qps.jobs.map Job.id
  gen : ∀ x ∈ s.pci.gen, x ∈ t.pci.gen

theorem keepsRings_of_parts {s t : State} (hqps : t.qps = s.qps) (hgen : t.pci.gen = s.pci.gen) : KeepsRings s t := by
  refine ⟨?_, ?_, ?_, fun x hx => hgen ▸ hx⟩ <;> rw [hqps]

theorem KeepsRings.refl (s : State) : KeepsRings s s := ⟨rfl, rfl, rfl, fun _ h => h⟩

theorem KeepsRings.trans {s t u : State} (h : KeepsRings s t) (h' : KeepsRings t u) : KeepsRings s u :=
  ⟨h'.cache.trans h.cache, h'.events.trans h.events, h'.ids.trans h.ids, fun x hx => h'.gen x (h.gen x hx)⟩

theorem keepsRings_each {α : Type} {f : α → State → State} (hf : ∀ a s, KeepsRings s (f a s)) (l : List α) (s : State) :
    KeepsRings s (each l f s) := by
  induction l generalizing s with
  | nil => exact KeepsRings.refl s
  | cons a l ih => exact (hf a s).trans (ih (f a s))

theorem keepsRings_ite {s t u : State} {c : Prop} [Decidable c] (ht : KeepsRings s t) (hu : KeepsRings s u) :
    KeepsRings s (if c then t else u) := by
  split
  · exact ht
  · exact hu

theorem KeepsRings.ctx? {s t : State} (h : KeepsRings s t) (q : Nat) : t.ctx? q = s.ctx? q := by
  unfold State.ctx?
  rw [h.cache]

/-- A number that no job of the table has. -/
theorem job?_eq_none_iff (s : State) (id : Nat) : s.job? id = none ↔ id ∉ s.qps.jobs.map Job.id := by
  simp only [State.job?, List.find?_eq_none, List.mem_map, beq_iff_eq, not_exists, not_and]

theorem KeepsRings.job?_none {s t : State} (h : KeepsRings s t) {id : Nat} (hid : s.job? id = none) :
    t.job? id = none := by
  rw [job?_eq_none_iff, h.ids]
  exact (job?_eq_none_iff s id).mp hid

section
variable (s : State)

theorem keepsRings_creditLate : KeepsRings s s.creditLate := by
  have hid : ∀ ids j, (credLate ids j).id = j.id := fun ids j => by
    unfold credLate
    split <;> rfl
  rw [creditLate_eq]
  exact ⟨rfl, rfl, by simp [hid], fun _ h => h⟩

theorem keepsRings_creditWait : KeepsRings s s.creditWait := by
  unfold State.creditWait
  split
  · exact ⟨rfl, rfl, rfl, fun _ h => h⟩
  · dsimp only
    split
    · exact (keepsRings_creditLate s).trans ⟨rfl, rfl, rfl, fun _ h => h⟩
    · exact ⟨rfl, rfl, rfl, fun _ h => h⟩
  · exact KeepsRings.refl s

theorem keepsRings_place (prio : Bool) (x : Tlp) : KeepsRings s (s.place prio x) := by
  cases prio with
  | false => exact ⟨rfl, rfl, rfl, fun _ h => List.mem_append_left _ h⟩
  | true =>
    change KeepsRings s (State.creditWait _)
    refine KeepsRings.trans ?_ (keepsRings_creditWait _)
    exact keepsRings_of_parts rfl rfl

theorem keepsRings_msix (fn vec : Nat) (prio : Bool) : KeepsRings s (s.msix fn vec prio) := by
  simp only [State.msix]
  split_ifs
  · exact KeepsRings.refl s
  · exact ⟨rfl, rfl, rfl, fun _ h => h⟩
  · exact KeepsRings.refl s
  · exact keepsRings_place s _ _

theorem keepsRings_setQrun (q : Nat) (r : QpRun) : KeepsRings s (s.setQrun q r) := ⟨rfl, rfl, rfl, fun _ h => h⟩

theorem keepsRings_startRead (h : HRead) : KeepsRings s (s.startRead h) := by
  unfold State.startRead
  split
  · refine KeepsRings.trans ?_ (keepsRings_place _ _ _)
    exact keepsRings_of_parts rfl rfl
  · exact ⟨rfl, rfl, rfl, fun _ h => h⟩

theorem keepsRings_putJob (j : Job) : KeepsRings s (s.putJob j) := by
  refine ⟨rfl, rfl, ?_, fun _ h => h⟩
  change (s.qps.jobs.map _).map Job.id = _
  rw [List.map_map]
  refine List.map_congr_left fun k _ => ?_
  by_cases h : k.id = j.id <;> simp [h]

theorem keepsRings_readPayload (j : Job) : KeepsRings s (s.readPayload j) := by
  unfold State.readPayload
  dsimp only
  split
  · exact keepsRings_putJob s _
  · exact (keepsRings_putJob s _).trans (keepsRings_each (fun _ s => keepsRings_startRead s _) _ _)

theorem keepsRings_unfence (q : Nat) : KeepsRings s (s.unfence q) := by
  unfold State.unfence
  split
  · split
    · exact keepsRings_readPayload s _
    · exact KeepsRings.refl s
  · exact KeepsRings.refl s

end

/-! ### An entry of a completion queue (R151, R154) -/

/-- A context whose CQ has taken one more entry: the tail advances, and the phase flips as it wraps. -/
def Ctx.advanced (c : Ctx) : Ctx :=
  let tail := (c.cqTail.toNat + 1) % cqSize c
  { c with cqTail := BitVec.ofNat 16 tail, phase := if tail = 0 then c.phase ^^^ 1 else c.phase }

/-- The write of an entry at CQ_TAIL. -/
def State.cqeTlp (s : State) (q : Nat) (c : Ctx) (entry : Bytes) (job : Option Nat) : Tlp :=
  { id := s.pci.nextId, fn := (s.qw q).owner.toNat, kind := .write, addr := c.cqBase.toNat + 32 * c.cqTail.toNat
    data := entry, job := job, cqe := job.isSome }

/-- An entry is on its way and its context has advanced; nothing is signalled yet. -/
def State.entered (s : State) (q : Nat) (c : Ctx) (entry : Bytes) (job : Option Nat) : State :=
  ((s.place ((s.qw q).cls == 0) (s.cqeTlp q c entry job)).putCtx q c.advanced).touch q

section
variable (s : State) (q : Nat) (c : Ctx) (entry : Bytes) (job : Option Nat)

/-- The signal of an entry, or its wait for more of them (R101), touches no ring. -/
theorem writeCqe_entered (cid status flags head credit : Nat) (result gts : Bytes) (aux : Nat) :
    KeepsRings (s.entered q c (le 2 cid ++ le 1 status ++ le 1 (flags + c.phase.toNat % 2) ++ le 2 head ++
      le 2 credit ++ result ++ gts ++ le 4 aux) job)
      (s.writeCqe q c cid status flags head credit result gts aux job) := by
  unfold State.writeCqe
  exact keepsRings_ite (KeepsRings.refl _) (keepsRings_ite ((keepsRings_setQrun _ q _).trans (keepsRings_msix _ _ _ _))
    (keepsRings_setQrun _ q _))

theorem entered_rings : (s.entered q c entry job).qps.events = s.qps.events ∧
    (s.entered q c entry job).qps.jobs.map Job.id = s.qps.jobs.map Job.id := by
  have h := keepsRings_place s ((s.qw q).cls == 0) (s.cqeTlp q c entry job)
  exact ⟨h.events, h.ids⟩

variable {c} in
theorem ctx?_entered (hlog : 4 ≤ c.cqLog.toNat) : (s.entered q c entry job).ctx? q = some c.advanced := by
  have hlog' : 4 ≤ c.advanced.cqLog.toNat := hlog
  exact ctx?_of_cache (s := s.place ((s.qw q).cls == 0) (s.cqeTlp q c entry job)) hlog' rfl

variable {s q} in
/-- The entry of a queue pair outside class 0 joins the general queue. -/
theorem mem_gen_entered (hcls : (s.qw q).cls ≠ 0) : s.cqeTlp q c entry job ∈ (s.entered q c entry job).pci.gen := by
  have hgen : (s.entered q c entry job).pci.gen = (s.place false (s.cqeTlp q c entry job)).pci.gen := by
    rw [← beq_eq_false_iff_ne.mpr hcls]
    rfl
  rw [hgen]
  exact List.mem_append_right _ (List.mem_singleton_self _)

end

section
variable {s : State} {q : Nat} {c : Ctx} {cid status flags head credit : Nat} {result gts : Bytes} {aux : Nat}
  {job : Option Nat}

theorem writeCqe_rings (hlog : 4 ≤ c.cqLog.toNat) :
    (s.writeCqe q c cid status flags head credit result gts aux job).ctx? q = some c.advanced ∧
    (s.writeCqe q c cid status flags head credit result gts aux job).qps.events = s.qps.events ∧
    (s.writeCqe q c cid status flags head credit result gts aux job).qps.jobs.map Job.id = s.qps.jobs.map Job.id := by
  have h := writeCqe_entered s q c job cid status flags head credit result gts aux
  obtain ⟨hevents, hids⟩ := entered_rings s q c (le 2 cid ++ le 1 status ++ le 1 (flags + c.phase.toNat % 2) ++ le 2 head ++
    le 2 credit ++ result ++ gts ++ le 4 aux) job
  exact ⟨(h.ctx? q).trans (ctx?_entered s q _ job hlog), h.events.trans hevents, h.ids.trans hids⟩

theorem mem_gen_writeCqe (hcls : (s.qw q).cls ≠ 0) : s.cqeTlp q c (le 2 cid ++ le 1 status ++
    le 1 (flags + c.phase.toNat % 2) ++ le 2 head ++ le 2 credit ++ result ++ gts ++ le 4 aux) job ∈
    (s.writeCqe q c cid status flags head credit result gts aux job).pci.gen :=
  (writeCqe_entered s q c job cid status flags head credit result gts aux).gen _ (mem_gen_entered c _ job hcls)

end

/-! ### Completion (R151 to R154, R194) -/

section
variable (s : State) (j : Job)

/-- The records of an outcome go to the archive's intake; without an association there are none, and none is lost. -/
theorem outcomeRecords_eq : (s.outcomeRecords j).1 = { s with arc := (s.outcomeRecords j).1.arc } := by
  unfold State.outcomeRecords
  dsimp only
  split
  · rfl
  · split_ifs <;> rfl

variable {j} in
theorem outcomeRecords_lost (h : isAssoc j.sqe.opcode = false) : (s.outcomeRecords j).2 = false := by
  unfold State.outcomeRecords
  simp [h]

theorem outsideBy_id (cause : Nat) : (outsideBy j cause).id = j.id ∧ (outsideBy j cause).cls = j.cls := by
  unfold outsideBy
  split <;> exact ⟨rfl, rfl⟩

/-- The job as it is completed: outside the guarantee while this is withdrawn (R160). -/
def State.completing (s : State) (j : Job) : Job := if s.c0Withdrawn then outsideBy j 4 else j

/-- The state in which the outcome's records are on their way and the job has left the table. -/
def State.completed (s : State) (j : Job) : State := (s.outcomeRecords j).1.dropJob (s.completing j)

theorem completing_eq : s.completing j = { j with outside := (s.completing j).outside } := by
  unfold State.completing outsideBy
  split_ifs <;> rfl

theorem qps_completed : (s.completed j).qps = { s.qps with jobs := s.qps.jobs.filter (·.id != j.id) } := by
  rw [State.completed, qps_dropJob, outcomeRecords_eq, completing_eq]

theorem job?_completed : (s.completed j).job? j.id = none := by
  rw [job?_eq_none_iff, qps_completed]
  simp

theorem ctx?_completed (q : Nat) : (s.completed j).ctx? q = s.ctx? q := by
  unfold State.ctx?
  rw [qps_completed]

theorem qw_completed (q : Nat) : (s.completed j).qw q = s.qw q := by
  unfold State.qw
  rw [qps_completed]

end

section
variable {s : State} {j : Job} (hj : s.job? j.id = some j)
include hj

theorem jobCompletion_waits (h : j.stage ≠ .done ∨ j.waitRec = true) : exec (.jobCompletion j.id) s = .next s := by
  change execJobCompletion j.id s = _
  unfold execJobCompletion
  rw [hj]
  exact if_pos (by rcases h with h | h <;> simp [h])

variable (hup : s.up = true) (hdone : j.stage = .done) (hrec : j.waitRec = false)
include hup hdone hrec

/-- A job that is done leaves the table, and its entry is written if it has one, with FLAGS and AUX of R151. -/
theorem jobCompletion_does {c : Ctx} (hc : s.ctx? j.qpn = some c) : exec (.jobCompletion j.id) s =
    .next ((if quiet j.sqe && j.status = stOk then s.completed j
      else (s.completed j).writeCqe j.qpn c j.sqe.cid j.status
        (2 * b2n (j.status = stAuthFail) + 4 * b2n (j.cls = 0 && (s.completing j).outside ≠ 0) +
          32 * b2n ((s.outcomeRecords j).2 || j.notArchived)) c.sqHead.toNat ((s.completed j).credit j.qpn c) j.result
        (le 12 j.gts.toNat) ((if j.cls = 0 then (s.completing j).outside else 0) + 256 * j.lanesUsed)
        (some j.id)).unfence j.qpn) := by
  have hctx : (s.completed j).ctx? j.qpn = some c := (ctx?_completed s j j.qpn).trans hc
  have hk := completing_eq s j
  change execJobCompletion j.id s = _
  unfold execJobCompletion State.completed at *
  rw [hj]
  dsimp only
  rw [if_neg (by simp [hup, hdone, hrec]), show (if s.c0Withdrawn = true then outsideBy j 4 else j) = s.completing j from rfl]
  generalize s.completing j = k at hk hctx ⊢
  obtain ⟨o, rfl⟩ : ∃ o, k = { j with outside := o } := ⟨_, hk⟩
  rw [hctx]

end

/-! ### Event entries (R161, R162) -/

/-- The state in which the oldest event entry has been taken. -/
def State.eventTaken (s : State) (rest : List EvEnt) : State := { s with qps := { s.qps with events := rest } }

section
variable {s : State} {e : EvEnt} {rest : List EvEnt} {c : Ctx} (hup : s.up = true) (hevents : s.qps.events = e :: rest)
  (hen : (s.qw e.qpn).en = true) (hdes : (s.qw e.qpn).destroying = false) (hc : s.ctx? e.qpn = some c)
  (hev : eventQ c = true)
include hup hevents hen hdes hc hev

/-- The oldest entry goes to its queue, or is counted there when the queue is full. -/
theorem eventEntry_does : exec .eventEntry s = .next (if s.cqFree e.qpn c = 0
    then (s.eventTaken rest).putCtx e.qpn { c with ovf := BitVec.ofNat 32 (satInc c.ovf.toNat (2 ^ 32 - 1)) }
    else (s.eventTaken rest).writeCqe e.qpn { c with ovf := 0 } 0xFFFF stOk (8 + 16 * b2n (c.ovf.toNat ≠ 0)) 0 0 e.result
      (le 12 e.gts.toNat) c.ovf.toNat none) := by
  change execEventEntry s = _
  unfold execEventEntry
  rw [if_neg (by simp [hup])]
  simp only [hevents, List.findIdx?_cons, hc, Option.isSome_some, Bool.true_or, if_true, List.getElem?_cons_zero, hen, hdes,
    hev, Bool.not_true, Bool.or_self, Bool.false_eq_true, if_false]
  split <;> rfl

end

theorem eventEntry_idle {s : State} (h : s.qps.events = []) : exec .eventEntry s = .next s := by
  change execEventEntry s = _
  unfold execEventEntry
  split
  · rfl
  · rw [h]
    rfl

/-! ### A running job -/

/-- A job on its units does its work. -/
theorem runJob_runs {s : State} {op : Nat} {j : Job} (h : s.jobOn op j) (body : State → Job → State) :
    s.runJob j.id op body = .next (body s j) := by
  obtain ⟨hup, hhalt, hzero, hj, hrun, hrec, hop⟩ := h
  unfold State.runJob
  rw [hj]
  dsimp only
  rw [if_neg (by simp [hup, hrun, hrec, hop]), if_neg (by simp [hhalt, hzero])]

theorem jobNop_ends {s : State} {j : Job} (h : s.jobOn 0 j) :
    exec (.jobNop j.id) s = .next (s.finishJob j stOk [0, 0, 0, 0, 0, 0, 0, 0]) :=
  runJob_runs h fun s j => s.finishJob j stOk (noResult 0)

/-- Settles O21: a completion by `jobCompletion_does`, an event entry by `eventEntry_does`; what follows the entry touches no
ring (`KeepsRings`). -/
theorem completions : Obligations.Completions := by
  unfold Obligations.Completions
  intro s hup
  refine ⟨fun j c hj hdone hrec hc hlog => ⟨fun hq hok => ?_, fun hq => ?_⟩, fun j hj h => jobCompletion_waits hj h,
    fun e rest c hevents hen hdes hc hlog hev => ⟨fun hfree => ?_, fun hfull hovf => ?_⟩, eventEntry_idle,
    fun j h => jobNop_ends h⟩
  · have hdoes := jobCompletion_does hj hup hdone hrec hc
    rw [if_pos (by simp [hq, hok])] at hdoes
    have hkeep := keepsRings_unfence (s.completed j) j.qpn
    exact ⟨_, hdoes, hkeep.job?_none (job?_completed s j), (hkeep.ctx? _).trans ((ctx?_completed s j _).trans hc)⟩
  · have hdoes := jobCompletion_does hj hup hdone hrec hc
    rw [if_neg (by rcases hq with h | h <;> simp [h])] at hdoes
    refine ⟨_, hdoes, ?_, ?_, fun hcls hqcls hassoc _ => ?_⟩
    · refine (keepsRings_unfence _ _).job?_none ?_
      rw [job?_eq_none_iff, (writeCqe_rings hlog).2.2]
      exact (job?_eq_none_iff _ _).mp (job?_completed s j)
    · exact ((keepsRings_unfence _ _).ctx? _).trans (writeCqe_rings hlog).1
    · refine ⟨_, List.mem_append_right _ ((keepsRings_unfence _ _).gen _ (mem_gen_writeCqe ?_)),
        (s.completed j).credit j.qpn c, rfl, rfl, ?_, ?_⟩
      · rwa [qw_completed]
      · rw [← qw_completed s j]
        rfl
      · have hnot : ¬ j.cls = 0#2 := hcls
        simp [State.cqeTlp, hnot, outcomeRecords_lost s hassoc, b2n]
  · have hdoes := eventEntry_does hup hevents hen hdes hc hev
    rw [if_neg hfree] at hdoes
    have hlog' : 4 ≤ ({ c with ovf := 0 } : Ctx).cqLog.toNat := hlog
    exact ⟨_, hdoes, (writeCqe_rings hlog').2.1, (writeCqe_rings hlog').1⟩
  · have hdoes := eventEntry_does hup hevents hen hdes hc hev
    rw [if_pos hfull, satInc, if_pos hovf] at hdoes
    have hcount : BitVec.ofNat 32 (c.ovf.toNat + 1) = c.ovf + 1 := by simp [BitVec.ofNat_add]
    rw [hcount] at hdoes
    have hlog' : 4 ≤ ({ c with ovf := c.ovf + 1 } : Ctx).cqLog.toNat := hlog
    exact ⟨_, hdoes, rfl, ctx?_of_cache (s := s) hlog' rfl, rfl⟩

end Sys2Proof.Machine
end
section
/-! PROOFS. The jobs of protected associations (R176 to R184, R190 to R193). -/

namespace Sys2Proof.Machine
open Sys2Proof

/-! ### What an association job's output leaves of the module -/

section
variable {s t : State}

/-- The association table lies outside the job table and the egress. -/
theorem pa_of_outside (h : t.outside = s.outside) (n : Nat) : t.pa n = s.pa n :=
  congrArg (fun o : Outside => tget ({} : Pa) o.pas n) h

/-- A job of a kept table is found again, marked or not. -/
theorem KeepsRings.job?_some (h : KeepsRings s t) {id : Nat} {j : Job} (hj : s.job? id = some j) :
    ∃ k, t.job? id = some k := by
  refine Option.ne_none_iff_exists'.mp fun hnone => ?_
  have hs : s.job? id = none := by
    rw [job?_eq_none_iff, ← h.ids]
    exact (job?_eq_none_iff t id).mp hnone
  simp [hs] at hj

variable (s)

theorem pa_ite_paEvent (c : Prop) [Decidable c] (n code epoch count m : Nat) :
    (if c then s.paEvent n code epoch count else s).pa m = s.pa m := by
  split <;> rfl

theorem qps_ite_paEvent (c : Prop) [Decidable c] (n code epoch count : Nat) :
    (if c then s.paEvent n code epoch count else s).qps = s.qps := by
  split <;> rfl

theorem outside_hostWrite (fn addr : Nat) (data : Bytes) (prio ro : Bool) (job : Option Nat) :
    (s.hostWrite fn addr data prio ro job).outside = s.outside :=
  outside_each s _ (fun _ s => outside_place s _ _) _

theorem keepsRings_hostWrite (fn addr : Nat) (data : Bytes) (prio ro : Bool) (job : Option Nat) :
    KeepsRings s (s.hostWrite fn addr data prio ro job) :=
  keepsRings_each (fun _ s => keepsRings_place s _ _) _ s

theorem outside_jobOut (j : Job) (data : Bytes) : (s.jobOut j data).outside = s.outside := by
  have hlanes : (each (s.laneRuns j) (fun r s => if r.2.2 < r.2.1
      then s.jobWriteAt j (r.1 + r.2.2) (sub data (r.1 + r.2.2) (r.2.1 - r.2.2)) else s) s).outside = s.outside :=
    outside_each s _ (fun _ s => outside_ite (outside_hostWrite s _ _ _ _ _ _) rfl) _
  unfold State.jobOut
  split
  · exact outside_hostWrite s _ _ _ _ _ _
  · exact outside_ite hlanes ((outside_hostWrite _ _ _ _ _ _ _).trans hlanes)

theorem keepsRings_jobOut (j : Job) (data : Bytes) : KeepsRings s (s.jobOut j data) := by
  have hlanes : KeepsRings s (each (s.laneRuns j) (fun r s => if r.2.2 < r.2.1
      then s.jobWriteAt j (r.1 + r.2.2) (sub data (r.1 + r.2.2) (r.2.1 - r.2.2)) else s) s) :=
    keepsRings_each (fun _ s => keepsRings_ite (keepsRings_hostWrite s _ _ _ _ _ _) (KeepsRings.refl s)) _ s
  unfold State.jobOut
  split
  · exact keepsRings_hostWrite s _ _ _ _ _ _
  · exact keepsRings_ite hlanes (hlanes.trans (keepsRings_hostWrite _ _ _ _ _ _ _))

end

/-! ### Transmit counters (R178) -/

@[simp] theorem paKey_setPaKey (a : Pa) (i k : Nat) (x : PaKey) :
    paKey (setPaKey a i x) k = if k = i then x else paKey a k := tget_tset _ _ _ _ _

/-- An association whose key `i` has used its counter's value; the last one exhausts the key. -/
def Pa.keyUsed (a : Pa) (i : Nat) : Pa :=
  let k := paKey a i
  setPaKey a i { k with counter := k.counter + 1, exhausted := k.exhausted || k.counter = 2 ^ 40 - 1 }

/-- The invocation value that key `i` of an association gives next. -/
def State.nextInvocation (s : State) (n i : Nat) : Nat :=
  s.lc.bootCount % 2 ^ 24 * 2 ^ 40 + (paKey (s.pa n) i).counter

theorem counter_keyUsed (a : Pa) (i : Nat) : (paKey (a.keyUsed i) i).counter = (paKey a i).counter + 1 := by
  simp [Pa.keyUsed]

section
variable (s : State) (n i : Nat)

theorem pa_useCounter (m : Nat) : (s.useCounter n i).2.pa m = if m = n then (s.pa n).keyUsed i else s.pa m :=
  (pa_ite_paEvent _ _ n 4 _ 0 m).trans (setPa_get s n m _)

theorem keepsRings_useCounter : KeepsRings s (s.useCounter n i).2 := by
  unfold State.useCounter
  exact keepsRings_ite (keepsRings_of_parts rfl rfl) (keepsRings_of_parts rfl rfl)

end

section
variable (s : State)

/-- The value of a job's first output is kept; otherwise the key's counter is used. -/
theorem invocation_eq (j : Job) (i : Nat) : s.invocation j i =
    (j.inv.getD (s.nextInvocation j.sqe.target i), if j.inv.isSome then s else (s.useCounter j.sqe.target i).2) := by
  unfold State.invocation
  cases j.inv <;> rfl

theorem keepsRings_invocation (j : Job) (i : Nat) : KeepsRings s (s.invocation j i).2 := by
  rw [invocation_eq]
  exact keepsRings_ite (KeepsRings.refl s) (keepsRings_useCounter s _ i)

theorem counter_invocation (j : Job) (i : Nat) : (paKey ((s.invocation j i).2.pa j.sqe.target) i).counter =
    (paKey (s.pa j.sqe.target) i).counter + (if j.inv.isSome then 0 else 1) := by
  rw [invocation_eq]
  dsimp only
  split
  · rfl
  · rw [pa_useCounter, if_pos rfl, counter_keyUsed]

end

/-! ### The end of an association job (R192, R193) -/

/-- An association that has counted one receive failure of a status. -/
def Pa.counted (a : Pa) (status : Nat) : Pa :=
  if status = stReplay then { a with replayed := satInc a.replayed (2 ^ 32 - 1) }
  else if status = stStale then { a with stale := satInc a.stale (2 ^ 32 - 1) }
  else { a with failed := satInc a.failed (2 ^ 32 - 1) }

section
variable (s : State)

/-- A failure is counted, and the count of this GTS second with it. -/
theorem pa_countFailure (n status : Nat) : ∃ sec k b, (s.countFailure n status).pa n =
    { (s.pa n).counted status with failSec := sec, failCount := k, failRaised := b } :=
  ⟨_, _, _, (pa_ite_paEvent _ _ n 3 0 _ n).trans ((setPa_get s n n _).trans (if_pos rfl))⟩

theorem qps_countFailure (n status : Nat) : (s.countFailure n status).qps = s.qps :=
  qps_ite_paEvent _ _ n 3 0 _

variable {s} {k : Job} {status : Nat} {result : Bytes}

theorem rxFailure_of_ok : rxFailure { k with status := stOk, result := result } = false := by
  simp [rxFailure, stOk, stAuthFail, stReplay, stStale, stKeyAbsent, stRejected]

theorem rxFailure_of_rx (hassoc : isAssoc k.sqe.opcode = true) (hrx : isRx k.sqe.opcode = true)
    (hst : status = stAuthFail ∨ status = stReplay ∨ status = stStale ∨ status = stKeyAbsent) :
    rxFailure { k with status := status, result := result } = true := by
  rcases hst with rfl | rfl | rfl | rfl <;> simp [rxFailure, hassoc, hrx]

/-- A job of the table that was not done ends with the status and the RESULT given. -/
theorem paEnd_ends {x : Job} (hx : s.job? k.id = some x) (hk : k.stage ≠ .done) (status : Nat) (result : Bytes) :
    (s.paEnd k status result).jobEnded k status result := by
  have hfin : (s.finishJob k status result).jobEnded k status result := by
    unfold State.finishJob
    rw [if_neg hk]
    refine ⟨_, job?_putJob (s := s.freeUnits k) (j := x) ?_ rfl, rfl, rfl, rfl, rfl, rfl⟩
    unfold State.job?
    rw [qps_freeUnits]
    exact hx
  unfold State.paEnd
  dsimp only
  split
  · unfold State.jobEnded State.job?
    rw [qps_countFailure]
    exact hfin
  · exact hfin

theorem pa_paEnd_uncounted (h : rxFailure { k with status := status, result := result } = false) (m : Nat) :
    (s.paEnd k status result).pa m = s.pa m := by
  unfold State.paEnd
  dsimp only
  rw [if_neg (by simp [h])]
  exact pa_of_outside (outside_finishJob s k status result) m

theorem pa_paEnd_counted (h : rxFailure { k with status := status, result := result } = true) :
    ∃ sec c b, (s.paEnd k status result).pa k.sqe.target =
      { (s.pa k.sqe.target).counted status with failSec := sec, failCount := c, failRaised := b } := by
  unfold State.paEnd
  dsimp only
  rw [if_pos h, ← pa_of_outside (outside_finishJob s k status result)]
  exact pa_countFailure _ _ _

end

/-! ### A job's cause (R160) -/

/-- A job that is outside the guarantee, or not, for a cause that its key or its association gives. -/
theorem outsideBy_eq (j : Job) (cause : Nat) : ∃ o, outsideBy j cause = { j with outside := o } := by
  unfold outsideBy
  split <;> exact ⟨_, rfl⟩

theorem keyCause_eq (j : Job) (h : KeyHold) : ∃ o, keyCause j h = { j with outside := o } := by
  unfold keyCause
  split
  · exact outsideBy_eq j 5
  · exact ⟨_, rfl⟩

/-! ### Frames that the sequencer cannot read (R175) -/

section
variable {s : State} {j : Job} {c : Nat}

theorem assocTx_bad (hseq : s.sequencer j = .bad c) : s.assocTx j = s.paEnd j stRejected (paResult 3 0 c 0) := by
  unfold State.assocTx
  simp only [hseq]

theorem assocRx_bad (hseq : s.sequencer j = .bad c) : s.assocRx j = s.paEnd j stRejected (paResult 3 0 c 0) := by
  unfold State.assocRx
  simp only [hseq]

theorem opcode_of_jobOn {op : Nat} (hon : s.jobOn op j) : j.sqe.opcode = op := by
  obtain ⟨-, -, -, -, -, -, hop⟩ := hon
  exact hop

/-- A running job ends, whatever its output has done since and whatever cause it carries. -/
theorem paEnd_of_jobOn {u : State} {op : Nat} (hon : s.jobOn op j) (hu : KeepsRings s u) (o st : Nat) (r : Bytes) :
    (u.paEnd { j with outside := o } st r).jobEnded j st r := by
  obtain ⟨-, -, -, hj, hrun, -, -⟩ := hon
  obtain ⟨x, hx⟩ := hu.job?_some hj
  exact paEnd_ends (k := { j with outside := o }) hx (by simp [hrun]) st r

theorem runJob_rejects {op : Nat} (hon : s.jobOn op j) {body : State → Job → State}
    (hbody : body s j = s.paEnd j stRejected (paResult 3 0 c 0)) :
    ∃ t, s.runJob j.id op body = .next t ∧ t.jobEnded j stRejected (paResult 3 0 c 0) :=
  ⟨_, runJob_runs hon body, hbody ▸ paEnd_of_jobOn hon (KeepsRings.refl s) j.outside _ _⟩

end

/-! ### Transmit jobs (R177, R178, R190) -/

/-- The octets of a job that stand before its message: a frame, or the AAD of a generic one. -/
def Job.aad (j : Job) : Bytes := (jobData j).take j.sqe.aadLen

section
variable {s : State} {j : Job} {h : KeyHold} {key : Bytes}

/-- A transmit job runs under the key that it holds first. -/
theorem pickKey_of_tx (hrx : isRx j.sqe.opcode = false) (hhold : j.holds.head? = some h) (q : Seqd) :
    pickKey j q = some h := by
  unfold pickKey
  simp [hrx, hhold]

variable (hrx : isRx j.sqe.opcode = false) (hhold : j.holds.head? = some h)
  (husable : (j.inv.isSome || s.txUsable j.sqe.target (h.slot % 4)) = true) (hkey : s.heldKey h = some key)
include hrx hhold husable hkey

/-- A frame is tagged under the counter's value, written, and its job ends with OK. -/
theorem assocTx_frame {fr : Frame} {kid : Nat} (hseq : s.sequencer j = .frame fr kid)
    (hlen : (frameSpan j.aad (s.pa j.sqe.target).params fr).length ≤ 1024) :
    ∃ out, s.assocTx j = ((s.useCounter j.sqe.target (h.slot % 4)).2.jobWrite (keyCause j h) out).paEnd (keyCause j h)
      stOk (paResult (h.role + rSimulated * b2n fr.sim) h.epoch 0 (s.nextInvocation j.sqe.target (h.slot % 4))) := by
  obtain ⟨o, ho⟩ := keyCause_eq j h
  unfold State.assocTx
  simp only [hseq, pickKey_of_tx hrx hhold, husable, hkey, ho]
  exact ⟨_, if_neg (Nat.not_lt.mpr hlen)⟩

/-- A generic frame is sealed under its job's invocation value, written, and its job ends with OK. -/
theorem assocTx_generic {inv : Nat} {kid : Option Nat} (hseq : s.sequencer j = .generic inv kid) :
    ∃ out, s.assocTx j = ((s.invocation j (h.slot % 4)).2.jobOut (keyCause j h) out).paEnd (keyCause j h)
      stOk (paResult h.role h.epoch 0 (s.invocation j (h.slot % 4)).1) := by
  obtain ⟨o, ho⟩ := keyCause_eq j h
  unfold State.assocTx
  simp only [hseq, pickKey_of_tx hrx hhold, husable, hkey, ho]
  exact ⟨_, rfl⟩

end

section
variable {s : State} {j : Job} {h : KeyHold} {key : Bytes} {op : Nat} (hon : s.jobOn op j) (hrx : isRx op = false)
  (hhold : j.holds.head? = some h) (hkey : s.heldKey h = some key)
include hon hrx hhold hkey

theorem transmit_frame {fr : Frame} {kid : Nat} (hseq : s.sequencer j = .frame fr kid)
    (husable : s.txUsable j.sqe.target (h.slot % 4) = true)
    (hlen : (frameSpan j.aad (s.pa j.sqe.target).params fr).length ≤ 1024) :
    ∃ t, s.runJob j.id op State.assocTx = .next t ∧ t.jobEnded j stOk
        (paResult (h.role + rSimulated * b2n fr.sim) h.epoch 0 (s.nextInvocation j.sqe.target (h.slot % 4))) ∧
      (paKey (t.pa j.sqe.target) (h.slot % 4)).counter = (paKey (s.pa j.sqe.target) (h.slot % 4)).counter + 1 ∧
      (t.pa j.sqe.target).mark = (s.pa j.sqe.target).mark ∧ ∀ m, m ≠ j.sqe.target → t.pa m = s.pa m := by
  have hop := opcode_of_jobOn hon
  obtain ⟨o, ho⟩ := keyCause_eq j h
  obtain ⟨out, htx⟩ := assocTx_frame (hop ▸ hrx) hhold (by simp [husable]) hkey hseq hlen
  rw [ho] at htx
  have hrings := (keepsRings_useCounter s j.sqe.target (h.slot % 4)).trans (keepsRings_hostWrite _ j.fn j.sqe.dst out
    (j.cls == 0) (s.useCounter j.sqe.target (h.slot % 4)).2.pci.relaxed (some j.id))
  have hpa : ∀ m, (s.assocTx j).pa m =
      if m = j.sqe.target then (s.pa j.sqe.target).keyUsed (h.slot % 4) else s.pa m := fun m => by
    rw [htx, pa_paEnd_uncounted rxFailure_of_ok, ← pa_useCounter]
    exact pa_of_outside (outside_hostWrite _ _ _ _ _ _ _) m
  refine ⟨_, runJob_runs hon _, htx ▸ paEnd_of_jobOn hon hrings o _ _, ?_, ?_, fun m hm => ?_⟩
  · rw [hpa, if_pos rfl, counter_keyUsed]
  · rw [hpa, if_pos rfl]
    rfl
  · rw [hpa, if_neg hm]

theorem transmit_generic {inv : Nat} {kid : Option Nat} (hseq : s.sequencer j = .generic inv kid)
    (husable : j.inv.isSome = true ∨ s.txUsable j.sqe.target (h.slot % 4) = true) :
    ∃ t, s.runJob j.id op State.assocTx = .next t ∧ t.jobEnded j stOk
        (paResult h.role h.epoch 0 (j.inv.getD (s.nextInvocation j.sqe.target (h.slot % 4)))) ∧
      (paKey (t.pa j.sqe.target) (h.slot % 4)).counter =
        (paKey (s.pa j.sqe.target) (h.slot % 4)).counter + (if j.inv.isSome then 0 else 1) := by
  have hop := opcode_of_jobOn hon
  obtain ⟨o, ho⟩ := keyCause_eq j h
  obtain ⟨out, htx⟩ := assocTx_generic (hop ▸ hrx) hhold (by simpa using husable) hkey hseq
  rw [ho] at htx
  have hrings := (keepsRings_invocation s j (h.slot % 4)).trans (keepsRings_jobOut _ { j with outside := o } out)
  have hfst := congrArg Prod.fst (invocation_eq s j (h.slot % 4))
  refine ⟨_, runJob_runs hon _, ?_, ?_⟩
  · rw [htx, hfst]
    exact paEnd_of_jobOn hon hrings o _ _
  · rw [htx, pa_paEnd_uncounted rxFailure_of_ok, pa_of_outside (outside_jobOut _ _ _), counter_invocation]

end

/-! ### Verification (R179 to R184) -/

/-- A frame's tag compares (R176). -/
def State.tagFits (s : State) (k : Job) (fr : Frame) (key : Bytes) : Prop :=
  sub k.aad fr.auth (algTag (paAlg (s.pa k.sqe.target).params)) = spanTag k.lanes.length (paAlg (s.pa k.sqe.target).params)
    key (sub k.aad fr.iv 12) (frameSpan k.aad (s.pa k.sqe.target).params fr)

/-- What the freshness check of a job's frame answers. -/
def State.freshOf (s : State) (op : Nat) (k : Job) (fr : Frame) : Option Bool :=
  s.freshness (s.pa k.sqe.target).params (3 ≤ op) fr

/-- What the replay test of a job's frame answers. -/
def State.replayOf (s : State) (op : Nat) (k : Job) (fr : Frame) (h : KeyHold) : Option (Pa × Bool) :=
  replayTest (s.pa k.sqe.target) (h.slot % 4) (3 ≤ op) fr (sub k.aad fr.iv 12) (s.freshOf op k fr)

section
variable {s : State} {k : Job} {h : KeyHold} {key : Bytes} {fr : Frame}

theorem verifyFrame_untrue (htag : ¬ s.tagFits k fr key) :
    ∃ r, s.verifyFrame k fr h key k.aad = s.paEnd k stAuthFail r :=
  ⟨_, if_pos htag⟩

/-- A frame whose tag compares meets the replay test, then the freshness check; one that passes both moves the mark, and its
association counts it. -/
theorem verifyFrame_true (htag : s.tagFits k fr key) :
    (s.replayOf k.sqe.opcode k fr h = none → ∃ r, s.verifyFrame k fr h key k.aad = s.paEnd k stReplay r) ∧
    ∀ b restart, s.replayOf k.sqe.opcode k fr h = some (b, restart) →
      (s.freshOf k.sqe.opcode k fr = some false → ∃ r, s.verifyFrame k fr h key k.aad = s.paEnd k stStale r) ∧
      (s.freshOf k.sqe.opcode k fr ≠ some false → ∃ t r, s.verifyFrame k fr h key k.aad = t.paEnd k stOk r ∧
        KeepsRings s t ∧ t.pa k.sqe.target = { b with accepted := satInc b.accepted (2 ^ 32 - 1) }) := by
  unfold State.tagFits at htag
  unfold State.replayOf State.freshOf State.verifyFrame
  dsimp only
  rw [if_neg (not_not.mpr htag)]
  refine ⟨fun hreplay => ?_, fun b restart hreplay => ⟨fun hstale => ?_, fun hfresh => ?_⟩⟩ <;> rw [hreplay]
  · exact ⟨_, rfl⟩
  · exact ⟨_, if_pos hstale⟩
  · exact ⟨_, _, if_neg hfresh, keepsRings_ite (keepsRings_of_parts rfl rfl) (keepsRings_of_parts rfl rfl),
      (pa_ite_paEvent _ _ _ 5 _ _ _).trans ((setPa_get s _ _ _).trans (if_pos rfl))⟩

end

/-! A generic frame: its plaintext is written before the verdict (R190). -/

/-- The plaintext of a generic frame and the tag that belongs to it. -/
def genericOpened (k : Job) (inv : Nat) (kid : Option Nat) (h : KeyHold) (key : Bytes) : Bytes × Bytes :=
  gangOpen k.lanes.length key (frameIv (kid.getD h.keyId) inv) k.aad (((jobData k).drop k.sqe.aadLen).take k.sqe.length)

/-- A generic frame's tag compares. -/
def State.genericFits (s : State) (k : Job) (inv : Nat) (kid : Option Nat) (h : KeyHold) (key : Bytes) : Prop :=
  sub ((jobData k).drop k.sqe.aadLen) k.sqe.length (paGenTag (s.pa k.sqe.target).params) =
    (genericOpened k inv kid h key).2.take (paGenTag (s.pa k.sqe.target).params)

/-- What the replay test of a generic frame answers. -/
def State.genericReplay (s : State) (k : Job) (inv : Nat) (h : KeyHold) : Option Mark :=
  windowTest (paKey (s.pa k.sqe.target) (h.slot % 4)).mark 0 (paWindow (s.pa k.sqe.target).params) inv

/-- An association that has accepted a generic frame under key `i`. -/
def Pa.passed (a : Pa) (i : Nat) (m : Mark) : Pa :=
  { setPaKey a i { paKey a i with mark := m } with accepted := satInc a.accepted (2 ^ 32 - 1) }

section
variable {s : State} {k : Job} {h : KeyHold} {key : Bytes} {inv : Nat} {kid : Option Nat}

theorem verifyGeneric_untrue (htag : ¬ s.genericFits k inv kid h key) :
    s.verifyGeneric k inv kid h key (jobData k) =
      (s.jobOut k (genericOpened k inv kid h key).1).paEnd k stAuthFail (paResult h.role h.epoch 0 inv) :=
  if_pos htag

/-- A generic frame whose tag compares meets the replay test of its key. -/
theorem verifyGeneric_true (htag : s.genericFits k inv kid h key) :
    (s.genericReplay k inv h = none → ∃ r, s.verifyGeneric k inv kid h key (jobData k) =
      (s.jobOut k (genericOpened k inv kid h key).1).paEnd k stReplay r) ∧
    ∀ m, s.genericReplay k inv h = some m → ∃ r, s.verifyGeneric k inv kid h key (jobData k) =
      ((s.jobOut k (genericOpened k inv kid h key).1).setPa k.sqe.target
        ((s.pa k.sqe.target).passed (h.slot % 4) m)).paEnd k stOk r := by
  unfold State.genericFits genericOpened Job.aad at htag
  unfold State.genericReplay State.verifyGeneric
  dsimp only
  rw [if_neg (not_not.mpr htag)]
  refine ⟨fun hreplay => ?_, fun m hreplay => ?_⟩ <;> rw [hreplay] <;> exact ⟨_, rfl⟩

end

/-! ### Receive jobs (R179, R193) -/

section
variable {s : State} {j : Job}

theorem assocRx_frame {fr : Frame} {kid : Nat} {h : KeyHold} {key : Bytes} (hseq : s.sequencer j = .frame fr kid)
    (hpick : pickKey j (.frame fr kid) = some h) (hkey : s.heldKey h = some key)
    (hlen : (frameSpan j.aad (s.pa j.sqe.target).params fr).length ≤ 1024) :
    s.assocRx j = s.verifyFrame (keyCause j h) fr h key j.aad := by
  unfold State.assocRx
  simp only [hseq, hpick, Option.bind_some, hkey, Option.map_some]
  exact if_neg (Nat.not_lt.mpr hlen)

theorem assocRx_generic {inv : Nat} {kid : Option Nat} {h : KeyHold} {key : Bytes}
    (hseq : s.sequencer j = .generic inv kid) (hpick : pickKey j (.generic inv kid) = some h)
    (hkey : s.heldKey h = some key) : s.assocRx j = s.verifyGeneric (keyCause j h) inv kid h key (jobData j) := by
  unfold State.assocRx
  simp only [hseq, hpick, Option.bind_some, hkey, Option.map_some]

/-- No key of the job has the frame's ID. -/
theorem assocRx_keyAbsent {fr : Frame} {kid : Nat} (hseq : s.sequencer j = .frame fr kid)
    (hpick : pickKey j (.frame fr kid) = none) : ∃ r, s.assocRx j = s.paEnd (outsideBy j 5) stKeyAbsent r := by
  unfold State.assocRx
  simp only [hseq, hpick, Option.bind_none]
  exact ⟨_, rfl⟩

variable {op : Nat} (hon : s.jobOn op j)
include hon

/-- A receive failure: the job ends with its status, and of its association only counters change. -/
theorem receive_fails (hassoc : isAssoc op = true) (hrx : isRx op = true) {u : State} {o st : Nat} {r : Bytes}
    (hu : KeepsRings s u) (hpa : u.pa j.sqe.target = s.pa j.sqe.target)
    (hst : st = stAuthFail ∨ st = stReplay ∨ st = stStale ∨ st = stKeyAbsent)
    (hends : s.assocRx j = u.paEnd { j with outside := o } st r) :
    ∃ t sec c b, s.runJob j.id op State.assocRx = .next t ∧ t.jobEnded j st r ∧ t.pa j.sqe.target =
      { (s.pa j.sqe.target).counted st with failSec := sec, failCount := c, failRaised := b } := by
  have hop := opcode_of_jobOn hon
  subst hop
  obtain ⟨sec, c, b, hcount⟩ := pa_paEnd_counted (s := u) (k := { j with outside := o })
    (rxFailure_of_rx (result := r) hassoc hrx hst)
  rw [hpa] at hcount
  exact ⟨_, sec, c, b, (runJob_runs hon _).trans (by rw [hends]), paEnd_of_jobOn hon hu o st r, hcount⟩

/-- A receive job that passes leaves its association as the verification wrote it. -/
theorem receive_passes {u : State} {o : Nat} {r : Bytes}
    (hends : s.assocRx j = u.paEnd { j with outside := o } stOk r) (hu : KeepsRings s u) :
    ∃ t, s.runJob j.id op State.assocRx = .next t ∧ t.jobEnded j stOk r ∧ t.pa j.sqe.target = u.pa j.sqe.target :=
  ⟨_, (runJob_runs hon _).trans (by rw [hends]), paEnd_of_jobOn hon hu o stOk r, pa_paEnd_uncounted rxFailure_of_ok _⟩

/-- The first step of R179 that fails decides the status and its counter, and leaves the mark; a frame that passes every step
advances the mark and the count of those accepted. -/
theorem receive_frame (hassoc : isAssoc op = true) (hrx : isRx op = true) {fr : Frame} {kid : Nat} {h : KeyHold}
    {key : Bytes} (hseq : s.sequencer j = .frame fr kid) (hpick : pickKey j (.frame fr kid) = some h)
    (hkey : s.heldKey h = some key) (hlen : (frameSpan j.aad (s.pa j.sqe.target).params fr).length ≤ 1024) :
    (¬ s.tagFits j fr key → ∃ t, s.runJob j.id op State.assocRx = .next t ∧ (∃ r, t.jobEnded j stAuthFail r) ∧
      (t.pa j.sqe.target).mark = (s.pa j.sqe.target).mark ∧
      (t.pa j.sqe.target).failed = satInc (s.pa j.sqe.target).failed (2 ^ 32 - 1) ∧
      (t.pa j.sqe.target).accepted = (s.pa j.sqe.target).accepted) ∧
    (s.tagFits j fr key → s.replayOf op j fr h = none →
      ∃ t, s.runJob j.id op State.assocRx = .next t ∧ (∃ r, t.jobEnded j stReplay r) ∧
        (t.pa j.sqe.target).mark = (s.pa j.sqe.target).mark ∧
        (t.pa j.sqe.target).replayed = satInc (s.pa j.sqe.target).replayed (2 ^ 32 - 1) ∧
        (t.pa j.sqe.target).accepted = (s.pa j.sqe.target).accepted) ∧
    (∀ b restart, s.tagFits j fr key → s.replayOf op j fr h = some (b, restart) → s.freshOf op j fr = some false →
      ∃ t, s.runJob j.id op State.assocRx = .next t ∧ (∃ r, t.jobEnded j stStale r) ∧
        (t.pa j.sqe.target).mark = (s.pa j.sqe.target).mark ∧
        (t.pa j.sqe.target).stale = satInc (s.pa j.sqe.target).stale (2 ^ 32 - 1) ∧
        (t.pa j.sqe.target).accepted = (s.pa j.sqe.target).accepted) ∧
    (∀ b restart, s.tagFits j fr key → s.replayOf op j fr h = some (b, restart) → s.freshOf op j fr ≠ some false →
      ∃ t r, s.runJob j.id op State.assocRx = .next t ∧ t.jobEnded j stOk r ∧ (t.pa j.sqe.target).mark = b.mark ∧
        (t.pa j.sqe.target).keys = b.keys ∧ (t.pa j.sqe.target).accepted = satInc b.accepted (2 ^ 32 - 1) ∧
        (t.pa j.sqe.target).failed = b.failed) := by
  have hop := opcode_of_jobOn hon
  subst hop
  have hverify := assocRx_frame hseq hpick hkey hlen
  obtain ⟨o, ho⟩ := keyCause_eq j h
  rw [ho] at hverify
  refine ⟨fun htag => ?_, fun htag hreplay => ?_, fun b restart htag hreplay hstale => ?_,
    fun b restart htag hreplay hstale => ?_⟩
  · obtain ⟨r, hends⟩ := verifyFrame_untrue (k := { j with outside := o }) (h := h) htag
    obtain ⟨t, sec, c, b, hrun, hended, hpa⟩ := receive_fails hon hassoc hrx (KeepsRings.refl s) rfl (.inl rfl)
      (hverify.trans hends)
    exact ⟨t, hrun, ⟨r, hended⟩, hpa ▸ ⟨rfl, rfl, rfl⟩⟩
  · obtain ⟨r, hends⟩ := (verifyFrame_true (k := { j with outside := o }) htag).1 hreplay
    obtain ⟨t, sec, c, b, hrun, hended, hpa⟩ := receive_fails hon hassoc hrx (KeepsRings.refl s) rfl (.inr (.inl rfl))
      (hverify.trans hends)
    exact ⟨t, hrun, ⟨r, hended⟩, hpa ▸ ⟨rfl, rfl, rfl⟩⟩
  · obtain ⟨r, hends⟩ := ((verifyFrame_true (k := { j with outside := o }) htag).2 b restart hreplay).1 hstale
    obtain ⟨t, sec, c, b', hrun, hended, hpa⟩ := receive_fails hon hassoc hrx (KeepsRings.refl s) rfl
      (.inr (.inr (.inl rfl))) (hverify.trans hends)
    exact ⟨t, hrun, ⟨r, hended⟩, hpa ▸ ⟨rfl, rfl, rfl⟩⟩
  · obtain ⟨u, r, hends, hu, hb⟩ := ((verifyFrame_true (k := { j with outside := o }) htag).2 b restart hreplay).2 hstale
    obtain ⟨t, hrun, hended, hpa⟩ := receive_passes hon (hverify.trans hends) hu
    have hpassed := hpa.trans hb
    exact ⟨t, r, hrun, hended, hpassed ▸ ⟨rfl, rfl, rfl, rfl⟩⟩

/-- A generic frame under the same rules, with the replay state of its own key. -/
theorem receive_generic (hassoc : isAssoc op = true) (hrx : isRx op = true) {inv : Nat} {kid : Option Nat} {h : KeyHold}
    {key : Bytes} (hseq : s.sequencer j = .generic inv kid) (hpick : pickKey j (.generic inv kid) = some h)
    (hkey : s.heldKey h = some key) :
    (¬ s.genericFits j inv kid h key → ∃ t, s.runJob j.id op State.assocRx = .next t ∧
      t.jobEnded j stAuthFail (paResult h.role h.epoch 0 inv) ∧
      (t.pa j.sqe.target).failed = satInc (s.pa j.sqe.target).failed (2 ^ 32 - 1) ∧
      (t.pa j.sqe.target).keys = (s.pa j.sqe.target).keys) ∧
    (∀ m, s.genericFits j inv kid h key → s.genericReplay j inv h = some m →
      ∃ t r, s.runJob j.id op State.assocRx = .next t ∧ t.jobEnded j stOk r ∧
        (paKey (t.pa j.sqe.target) (h.slot % 4)).mark = m ∧
        (t.pa j.sqe.target).accepted = satInc (s.pa j.sqe.target).accepted (2 ^ 32 - 1)) ∧
    (s.genericFits j inv kid h key → s.genericReplay j inv h = none →
      ∃ t r, s.runJob j.id op State.assocRx = .next t ∧ t.jobEnded j stReplay r ∧
        (t.pa j.sqe.target).keys = (s.pa j.sqe.target).keys) := by
  have hverify := assocRx_generic hseq hpick hkey
  obtain ⟨o, ho⟩ := keyCause_eq j h
  rw [ho] at hverify
  have hu := keepsRings_jobOut s { j with outside := o } (genericOpened j inv kid h key).1
  have hout := pa_of_outside (outside_jobOut s { j with outside := o } (genericOpened j inv kid h key).1) j.sqe.target
  refine ⟨fun htag => ?_, fun m htag hreplay => ?_, fun htag hreplay => ?_⟩
  · obtain ⟨t, sec, c, b, hrun, hended, hpa⟩ := receive_fails hon hassoc hrx hu hout (.inl rfl)
      (hverify.trans (verifyGeneric_untrue (k := { j with outside := o }) htag))
    exact ⟨t, hrun, hended, hpa ▸ ⟨rfl, rfl⟩⟩
  · obtain ⟨r, hends⟩ := (verifyGeneric_true (k := { j with outside := o }) htag).2 m hreplay
    obtain ⟨t, hrun, hended, hpa⟩ := receive_passes hon (hverify.trans hends) (hu.trans (keepsRings_of_parts rfl rfl))
    have hpassed : t.pa j.sqe.target = (s.pa j.sqe.target).passed (h.slot % 4) m :=
      hpa.trans ((setPa_get _ _ _ _).trans (if_pos rfl))
    refine ⟨t, r, hrun, hended, ?_, hpassed ▸ rfl⟩
    rw [hpassed]
    exact congrArg PaKey.mark ((paKey_setPaKey _ _ _ _).trans (if_pos rfl))
  · obtain ⟨r, hends⟩ := (verifyGeneric_true (k := { j with outside := o }) htag).1 hreplay
    obtain ⟨t, sec, c, b, hrun, hended, hpa⟩ := receive_fails hon hassoc hrx hu hout (.inr (.inl rfl))
      (hverify.trans hends)
    exact ⟨t, r, hrun, hended, hpa ▸ rfl⟩

theorem receive_keyAbsent (hassoc : isAssoc op = true) (hrx : isRx op = true) {fr : Frame} {kid : Nat}
    (hseq : s.sequencer j = .frame fr kid) (hpick : pickKey j (.frame fr kid) = none) :
    ∃ t r, s.runJob j.id op State.assocRx = .next t ∧ t.jobEnded j stKeyAbsent r ∧
      (t.pa j.sqe.target).mark = (s.pa j.sqe.target).mark := by
  obtain ⟨r, hends⟩ := assocRx_keyAbsent hseq hpick
  obtain ⟨o, ho⟩ := outsideBy_eq j 5
  rw [ho] at hends
  obtain ⟨t, sec, c, b, hrun, hended, hpa⟩ := receive_fails hon hassoc hrx (KeepsRings.refl s) rfl
    (.inr (.inr (.inr rfl))) hends
  exact ⟨t, r, hrun, hended, hpa ▸ rfl⟩

end

/-! ### The obligation -/

/-- Settles O22: a frame that does not parse by `runJob_rejects`, a transmission by `transmit_frame` and `transmit_generic`, a
reception by `receive_frame`, `receive_generic` and `receive_keyAbsent`. -/
theorem associationJobs : Obligations.AssociationJobs := by
  unfold Obligations.AssociationJobs
  intro s j n a d aad bad tx rx
  exact ⟨fun hon _ hseq => runJob_rejects hon (assocTx_bad hseq), fun hon _ hseq => runJob_rejects hon (assocTx_bad hseq),
    fun hon _ hseq => runJob_rejects hon (assocTx_bad hseq), fun hon _ hseq => runJob_rejects hon (assocRx_bad hseq),
    fun hon _ hseq => runJob_rejects hon (assocRx_bad hseq), fun hon _ hseq => runJob_rejects hon (assocRx_bad hseq),
    fun hon _ _ _ _ hseq hhold husable hkey hlen => transmit_frame hon rfl hhold hkey hseq husable hlen,
    fun hon _ _ _ _ hseq hhold husable hkey hlen => transmit_frame hon rfl hhold hkey hseq husable hlen,
    fun hon _ _ _ _ hseq hpick hkey hlen => receive_frame hon rfl rfl hseq hpick hkey hlen,
    fun hon _ _ _ _ hseq hpick hkey hlen => receive_frame hon rfl rfl hseq hpick hkey hlen,
    fun hon _ _ _ _ hseq hhold husable hkey => transmit_generic hon rfl hhold hkey hseq husable,
    fun hon _ _ _ _ hseq hpick hkey => receive_generic hon rfl rfl hseq hpick hkey,
    fun hon _ _ hseq hpick => receive_keyAbsent hon rfl rfl hseq hpick⟩

end Sys2Proof.Machine
end
section
/-! PROOFS. The commands on protected associations, their rolls and the end of grace (R169 to R172, R185, R186, R196). -/

namespace Sys2Proof.Machine
open Sys2Proof

/-! ### Erased slots (R221) -/

theorem kState_setKState (r : KRow) {st : Nat} (hst : st < 4) : kState (setKState r st) = st := by
  simp only [kState, att, setKState, BitVec.toNat_ofNat]
  omega

section
variable (s : State)

/-- An erase for which nobody waits writes the key store alone. -/
theorem eraseSlot_eq (slot : Nat) :
    s.eraseSlot slot false none = { s with key := (s.eraseSlot slot false none).key } := by
  unfold State.eraseSlot
  dsimp only
  split <;> rfl

variable {s}

/-- A slot that holds a key, or whose erase has begun, is ERASING. -/
theorem eraseSlot_erases {slot : Nat} (h : kState (s.krow slot) = kLoaded ∨ kState (s.krow slot) = kErasing) :
    kState ((s.eraseSlot slot false none).krow slot) = kErasing := by
  unfold State.eraseSlot
  dsimp only
  rw [if_neg (by rcases h with h | h <;> simp [h, kLoaded, kErasing, kEmpty, kUnusable]), setKrow_get, if_pos rfl]
  exact kState_setKState _ (by decide)

theorem eraseSlot_others {slot k : Nat} (hk : k ≠ slot) : (s.eraseSlot slot false none).krow k = s.krow k := by
  unfold State.eraseSlot
  dsimp only
  split
  · rfl
  · rw [setKrow_get, if_neg hk]

/-- Of the slots erased one after another each that held a key is ERASING. -/
theorem each_eraseSlot_erases (slot : Nat → Nat) {k : Nat} {l : List Nat}
    (h : (kState (s.krow k) = kLoaded ∧ ∃ i ∈ l, slot i = k) ∨ kState (s.krow k) = kErasing) :
    kState ((each l (fun i s => s.eraseSlot (slot i) false none) s).krow k) = kErasing := by
  induction l generalizing s with
  | nil => exact h.resolve_left fun hl => by simp at hl
  | cons i l ih =>
    refine ih ?_
    by_cases hi : slot i = k
    · subst hi
      exact .inr (eraseSlot_erases (h.imp_left And.left))
    · rw [eraseSlot_others (Ne.symm hi)]
      refine h.imp_left fun ⟨hl, x, hx, hxk⟩ => ⟨hl, x, ?_, hxk⟩
      exact (List.mem_cons.mp hx).resolve_left fun hxi => hi (hxi ▸ hxk)

end

/-! ### An entry that a command holds (R172) -/

section
variable (s : State) (n : Nat)

theorem pa_begun (op : Nat) (r : Req) : (s.begun op r).pa n = s.pa n := by
  rw [begun_eq]
  rfl

theorem pa_reply (party tag op st : Nat) (p : Bytes) : (s.reply party tag op st p).pa n = s.pa n :=
  pa_of_outside (outside_reply s party tag op st p) n

/-- The entry of an association that a command holds. -/
def State.heldPa (s : State) (n : Nat) : Pa := { s.pa n with heldUntil := s.now + 2 * usC }

/-- The state in which a command has begun and holds the entry of a created association. -/
def State.entryHeld (s : State) (op n : Nat) (r : Req) : State := (s.begun op r).setPa n (s.heldPa n)

theorem pa_entryHeld (op : Nat) (r : Req) : (s.entryHeld op n r).pa n = s.heldPa n :=
  (setPa_get _ _ _ _).trans (if_pos rfl)

variable {s n} in
theorem holdPa_begun {op : Nat} {r : Req} (hst : (s.pa n).state ≠ .free) :
    (s.begun op r).holdPa n = s.entryHeld op n r := by
  have hheld : (s.begun op r).holdPa n = (s.begun op r).setPa n ((s.begun op r).heldPa n) :=
    if_neg (by rwa [pa_begun])
  rw [hheld, State.heldPa, pa_begun, (begun_parts s op r).1]
  rfl

theorem pa_paEvent (code epoch count m : Nat) : (s.paEvent n code epoch count).pa m = s.pa m := rfl

theorem pa_paTo (st : PaState) : (s.paTo n st).pa n = { s.pa n with state := st } :=
  (setPa_get s n n _).trans (if_pos rfl)

/-- A command that leaves Driner's part as its begin left it is answered. -/
theorem answers_of_drn {t : State} {op : Nat} {r : Req} (h : t.drn = (s.begun op r).drn) (st : Nat) (p : Bytes) :
    (t.reply r.party r.tag op st p).answers r op st p :=
  reply_answers (h ▸ begun_contains s op r) st p

end

/-! ### PA_CREATE (R169) -/

/-- EVENT_QPN names an event queue of PF0 when it is VALID. -/
theorem paEventQOk_iff (s : State) (p : Bytes) : s.paEventQOk p = true ↔ (2 ^ 31 ≤ paEventQ p →
    (s.qw (paEventQ p % 2 ^ 20)).en = true ∧ (s.qw (paEventQ p % 2 ^ 20)).owner = 0 ∧
      (s.qw (paEventQ p % 2 ^ 20)).evq = true) := by
  rw [State.paEventQOk, Bool.or_eq_true, decide_eq_true_eq, or_iff_not_imp_left, Nat.not_lt]
  simp [and_assoc]

section
variable {s : State} {r : Req} {n : Nat} (h : s.begins 0x0401 r) (hn : leAt r.payload 0 2 = n)
include h hn

theorem paCreate_malformed (hbad : 2048 ≤ n ∨ leAt r.payload 3 1 ≠ 0) :
    exec (.paCreate r) s = .next ((s.begun 0x0401 r).holdFor true r.party 0x0401 r.tag stRejected false []) := by
  subst hn
  change execPaCreate r s = _
  exact drinerNow_reads h fun d => if_pos (by simpa [or_assoc] using Or.inl hbad)

variable (hlt : n < 2048) (hzero : leAt r.payload 3 1 = 0)
  (hok : paCreateBad (leAt r.payload 2 1) (sub r.payload 4 48) = false)
include hlt hzero hok

/-- EVENT_QPN is VALID and names no event queue of PF0. -/
theorem paCreate_noEventQueue (hq : s.paEventQOk (sub r.payload 4 48) = false) :
    exec (.paCreate r) s = .next ((s.begun 0x0401 r).holdFor true r.party 0x0401 r.tag stRejected false []) := by
  subst hn
  change execPaCreate r s = _
  refine drinerNow_reads h fun d => (if_neg (by simp [hlt, hzero, hok])).trans (if_pos ?_)
  change (!s.paEventQOk _) = true
  simp [hq]

variable (hq : s.paEventQOk (sub r.payload 4 48) = true)
include hq

theorem paCreate_notFree (hst : (s.pa n).state ≠ .free) :
    exec (.paCreate r) s = .next ((s.begun 0x0401 r).holdFor true r.party 0x0401 r.tag stPaState false []) := by
  subst hn
  change execPaCreate r s = _
  refine drinerNow_reads h fun d => (if_neg (by simp [hlt, hzero, hok])).trans ((if_neg ?_).trans (if_pos hst))
  change ¬ (!s.paEventQOk _) = true
  simp [hq]

/-- An entry just created. -/
def State.createdPa (s : State) (r : Req) : Pa :=
  { state := .idle, kind := BitVec.ofNat 8 (leAt r.payload 2 1), params := sub r.payload 4 48
    heldUntil := s.now + 2 * usC }

theorem paCreate_creates (hst : (s.pa n).state = .free) (hrestore : paRestore (sub r.payload 4 48) = false) :
    ∃ t, exec (.paCreate r) s = .next t ∧ t.answers r 0x0401 stOk [] ∧ t.pa n = s.createdPa r ∧
      ∀ m, m ≠ n → t.pa m = s.pa m := by
  have hq' : (s.begun 0x0401 r).paEventQOk (sub r.payload 4 48) = true := by
    rw [begun_eq]
    exact hq
  have hdoes : exec (.paCreate r) s = .next ((((s.begun 0x0401 r).setPa n (s.createdPa r)).paEvent n 6 0 1).reply
      r.party r.tag 0x0401 stOk []) := by
    subst hn
    change execPaCreate r s = _
    unfold execPaCreate
    rw [drinerNow_begins h]
    dsimp only
    rw [if_neg (by simp [hlt, hzero, hok]), if_neg (by simp [hq']), if_neg (by simp [pa_begun, hst]),
      if_pos (by simp [hrestore]), (begun_parts s 0x0401 r).1]
    rfl
  refine ⟨_, hdoes, answers_of_drn s (by rfl) _ _, ?_, fun m hm => ?_⟩
  · rw [pa_reply, pa_paEvent, setPa_get, if_pos rfl]
  · rw [pa_reply, pa_paEvent, setPa_get, if_neg hm, pa_begun]

end

/-! ### PA_STATE_SET and ASSOCIATION_FREED (R171) -/

section
variable {s : State} {r : Req} {n : Nat} (h : s.begins 0x0404 r) (hn : leAt r.payload 0 2 = n) (hlt : n < 2048)
  (hzero : leAt r.payload 3 1 = 0) (hst : (s.pa n).state ≠ .free)

theorem ne_free_of_inactive (hfrom : (s.pa n).state = .idle ∨ (s.pa n).state = .suspended) :
    (s.pa n).state ≠ .free := by
  rcases hfrom with hfrom | hfrom <;> simp [hfrom]

include h hn hlt hzero hst

/-- ACTIVE is entered once each direction of the role has a current key. -/
theorem paStateSet_active (hv : leAt r.payload 2 1 = 2) (hfreeing : (s.pa n).freeing = none)
    (hfrom : (s.pa n).state = .idle ∨ (s.pa n).state = .suspended) :
    exec (.paStateSet r) s = .next (
      if (paTx (s.pa n) && (s.pa n).tx.cur.isNone) || (paRx (s.pa n) && (s.pa n).rx.cur.isNone) then
        (s.entryHeld 0x0404 n r).reply r.party r.tag 0x0404 stKeyAbsent []
      else ((s.entryHeld 0x0404 n r).paTo n .active).reply r.party r.tag 0x0404 stOk []) := by
  change execPaStateSet r s = _
  unfold execPaStateSet
  rw [driner_begins h]
  simp only [hn, holdPa_begun hst, pa_begun, pa_entryHeld, hv, hfreeing]
  rw [if_neg (by simp [hlt, hzero]), if_neg (by simp)]
  rcases hfrom with hfrom | hfrom
  · simp only [hfrom]
    rfl
  · simp only [hfrom]
    rfl

omit hst in
theorem paStateSet_activates (hv : leAt r.payload 2 1 = 2) (hfreeing : (s.pa n).freeing = none)
    (hfrom : (s.pa n).state = .idle ∨ (s.pa n).state = .suspended)
    (htx : paTx (s.pa n) = true → (s.pa n).tx.cur.isSome = true)
    (hrx : paRx (s.pa n) = true → (s.pa n).rx.cur.isSome = true) :
    ∃ t, exec (.paStateSet r) s = .next t ∧ t.answers r 0x0404 stOk [] ∧ (t.pa n).state = .active ∧
      (t.pa n).keys = (s.pa n).keys := by
  have hdoes := paStateSet_active h hn hlt hzero (ne_free_of_inactive hfrom) hv hfreeing hfrom
  rw [if_neg (by simpa using ⟨fun hp => Option.isSome_iff_ne_none.mp (htx hp),
    fun hp => Option.isSome_iff_ne_none.mp (hrx hp)⟩)] at hdoes
  refine ⟨_, hdoes, answers_of_drn s (by rfl) _ _, ?_⟩
  rw [pa_reply, pa_paTo, pa_entryHeld]
  exact ⟨rfl, rfl⟩

omit hst in
theorem paStateSet_keyAbsent (hv : leAt r.payload 2 1 = 2) (hfreeing : (s.pa n).freeing = none)
    (hfrom : (s.pa n).state = .idle ∨ (s.pa n).state = .suspended) (htx : paTx (s.pa n) = true)
    (hnone : (s.pa n).tx.cur = none) :
    ∃ t, exec (.paStateSet r) s = .next t ∧ t.answers r 0x0404 stKeyAbsent [] ∧ (t.pa n).state = (s.pa n).state := by
  have hdoes := paStateSet_active h hn hlt hzero (ne_free_of_inactive hfrom) hv hfreeing hfrom
  rw [if_pos (by simp [htx, hnone])] at hdoes
  refine ⟨_, hdoes, answers_of_drn s (by rfl) _ _, ?_⟩
  rw [pa_reply, pa_entryHeld]
  rfl

omit hst in
theorem paStateSet_suspends (hv : leAt r.payload 2 1 = 3) (hfreeing : (s.pa n).freeing = none)
    (hfrom : (s.pa n).state = .active) :
    ∃ t, exec (.paStateSet r) s = .next t ∧ t.answers r 0x0404 stOk [] ∧ (t.pa n).state = .suspended := by
  have hdoes : exec (.paStateSet r) s =
      .next (((s.entryHeld 0x0404 n r).paTo n .suspended).reply r.party r.tag 0x0404 stOk []) := by
    change execPaStateSet r s = _
    unfold execPaStateSet
    rw [driner_begins h]
    simp only [hn, holdPa_begun (s := s) (n := n) (by simp [hfrom]), pa_begun, hv, hfreeing, hfrom]
    rw [if_neg (by simp [hlt, hzero]), if_neg (by simp)]
  refine ⟨_, hdoes, answers_of_drn s (by rfl) _ _, ?_⟩
  rw [pa_reply, pa_paTo]

/-- FREE waits: the command is answered by ASSOCIATION_FREED. -/
theorem paStateSet_frees (hv : leAt r.payload 2 1 = 0) (hfreeing : (s.pa n).freeing = none) :
    ∃ t, exec (.paStateSet r) s = .next t ∧ (t.pa n).freeing = some (r.party, r.tag) ∧ t.drn.held = s.drn.held := by
  have hdoes : exec (.paStateSet r) s = .next ((s.entryHeld 0x0404 n r).setPa n
      { s.heldPa n with freeing := some (r.party, r.tag) }) := by
    change execPaStateSet r s = _
    unfold execPaStateSet
    rw [driner_begins h]
    simp only [hn, holdPa_begun hst, pa_begun, pa_entryHeld, hv, hfreeing]
    rw [if_neg (by simp [hlt, hzero]), if_neg hst, if_neg (by simp)]
    rfl
  refine ⟨_, hdoes, ?_, begun_held s 0x0404 r⟩
  rw [setPa_get, if_pos rfl]

theorem paStateSet_resyncs (hv : leAt r.payload 2 1 = 0x10) :
    ∃ t, exec (.paStateSet r) s = .next t ∧ t.answers r 0x0404 stOk [] ∧ (t.pa n).mark = {} ∧
      (t.pa n).state = (s.pa n).state := by
  have hdoes : exec (.paStateSet r) s = .next (((s.entryHeld 0x0404 n r).setPa n (resyncPa (s.heldPa n))).reply
      r.party r.tag 0x0404 stOk []) := by
    change execPaStateSet r s = _
    unfold execPaStateSet
    rw [driner_begins h]
    simp only [hn, holdPa_begun hst, pa_begun, pa_entryHeld, hv]
    rw [if_neg (by simp [hlt, hzero]), if_neg hst]
    rfl
  refine ⟨_, hdoes, answers_of_drn s (by rfl) _ _, ?_⟩
  rw [pa_reply, setPa_get, if_pos rfl]
  exact ⟨rfl, rfl⟩

end

/-- The state in which the four slots of an association are being erased. -/
def State.slotsErased (s : State) (n : Nat) : State :=
  each (upto 4) (fun i s => s.eraseSlot (4 * n + i) false none) (s.paEvent n 6 0 0)

theorem drn_slotsErased (s : State) (n : Nat) : (s.slotsErased n).drn = s.drn :=
  each_keeps (s.paEvent n 6 0 0) State.drn _ (fun i s => by rw [eraseSlot_eq]) _

theorem krow_slotsErased {s : State} {n i : Nat} (hi : i < 4) (h : kState (s.krow (4 * n + i)) = kLoaded) :
    kState ((s.slotsErased n).krow (4 * n + i)) = kErasing :=
  each_eraseSlot_erases (s := s.paEvent n 6 0 0) (fun i => 4 * n + i) (.inl ⟨h, i, by simpa [upto] using hi, rfl⟩)

section
variable {s : State} {m : Fin 2048} {party tag : Nat} (hup : s.up = true)
  (hfreeing : (s.pa m.val).freeing = some (party, tag))
include hfreeing

theorem associationFreed_waits (hjobs : s.paJobs m.val ≠ []) : exec (.associationFreed m) s = .next s := by
  change execAssociationFreed m s = _
  unfold execAssociationFreed
  simp only [hfreeing]
  exact if_pos (by simp [hjobs])

include hup in
/-- The last job has completed: the entry is cleared, its keys are being erased, and the command that waits is answered. -/
theorem associationFreed_clears (hjobs : s.paJobs m.val = []) :
    ∃ t, exec (.associationFreed m) s = .next t ∧ t.pa m.val = {} ∧
      ((party, tag, 0x0404) ∈ s.drn.out → ∃ h ∈ t.drn.held, h.party = party ∧ h.tag = tag ∧ h.status = stOk) ∧
      ∀ i < 4, kState (s.krow (4 * m.val + i)) = kLoaded → kState (t.krow (4 * m.val + i)) = kErasing := by
  have hdoes : exec (.associationFreed m) s =
      .next (((s.slotsErased m.val).setPa m.val {}).reply party tag 0x0404 stOk []) := by
    change execAssociationFreed m s = _
    unfold execAssociationFreed
    simp only [hfreeing]
    exact if_neg (by simp [hup, hjobs])
  refine ⟨_, hdoes, ?_, fun hout => ?_, fun i hi hloaded => ?_⟩
  · rw [pa_reply, setPa_get, if_pos rfl]
  · rw [reply_of_out ((drn_slotsErased s m.val).symm ▸ List.contains_iff_mem.mpr hout)]
    exact ⟨_, List.mem_append_right _ (List.mem_singleton_self _), rfl, rfl, rfl⟩
  · rw [reply_eq]
    exact krow_slotsErased hi hloaded

end

/-! ### PA_QUERY (R196) -/

theorem paQuery_answers {s : State} {r : Req} (h : s.begins 0x0405 r) (hlt : leAt r.payload 0 2 < 2048) :
    exec (.paQuery r) s = .next ((s.begun 0x0405 r).holdFor true r.party 0x0405 r.tag stOk false
      (s.paBlock (leAt r.payload 0 2))) := by
  change execPaQuery r s = _
  exact drinerNow_reads h fun d => if_neg (Nat.not_le.mpr hlt)

/-! ### PA_KEY_LOAD (R185) -/

section
variable {s : State} {r : Req} {n : Nat} (h : s.begins 0x0402 r) (hidle : s.key.unwrap = none)
  (hn : leAt r.payload 0 2 = n) (hlt : n < 2048) (hd : leAt r.payload 2 1 ≤ 1)
include h hidle hn hlt hd

theorem paKeyLoad_ofFree (hst : (s.pa n).state = .free) : exec (.paKeyLoad r) s =
    .next ((s.begun 0x0402 r).holdFor true r.party 0x0402 r.tag stPaState false []) := by
  subst hn
  change execPaKeyLoad r s = _
  unfold execPaKeyLoad
  rw [if_neg (by simp [hidle]), driner_begins h]
  dsimp only
  rw [if_neg (by simp [hlt, hd]), if_pos (by simp [pa_begun, hst]), reply_of_out (begun_contains s 0x0402 r)]

/-- What PA_KEY_LOAD unwraps: into the slot that the current key of its direction does not hold. -/
def State.paUnwrap (s : State) (r : Req) : Unwrap :=
  let n := leAt r.payload 0 2
  let rx := leAt r.payload 2 1 = 1
  { slot := 4 * n + otherSlot (dirOf (s.pa n) rx) rx, epoch := leAt r.payload 3 1, sealB := sub r.payload 4 80
    party := r.party, tag := r.tag, pa := some (n, leAt r.payload 2 1), replace := (dirOf (s.pa n) rx).next.isSome }

theorem paKeyLoad_unwraps (hst : (s.pa n).state ≠ .free) (hfreeing : (s.pa n).freeing = none)
    (hrole : (if leAt r.payload 2 1 = 1 then paRx (s.pa n) else paTx (s.pa n)) = true)
    (hroll : (dirOf (s.pa n) (leAt r.payload 2 1 = 1)).roll = none)
    (hprev : leAt r.payload 2 1 = 1 → (dirOf (s.pa n) (leAt r.payload 2 1 = 1)).prev = none)
    (hepoch : ∀ i, (dirOf (s.pa n) (leAt r.payload 2 1 = 1)).cur = some i →
      (paKey (s.pa n) i).epoch ≠ leAt r.payload 3 1) :
    exec (.paKeyLoad r) s = .next (((s.begun 0x0402 r).holdPa n).unwrapStart (s.paUnwrap r) true
      (leAt (sub r.payload 4 80) 1 1 = algKey (paAlg (s.pa n).params) &&
        leAt (sub r.payload 4 80) 8 1 = paUse (paAlg (s.pa n).params) (leAt r.payload 2 1 = 1))) := by
  have hother : ((dirOf (s.pa n) (leAt r.payload 2 1 = 1)).cur.any fun i =>
      (paKey (s.pa n) i).epoch = leAt r.payload 3 1) = false := by
    cases hcur : (dirOf (s.pa n) (leAt r.payload 2 1 = 1)).cur with
    | none => rfl
    | some i => simpa using hepoch i hcur
  subst hn
  change execPaKeyLoad r s = _
  unfold execPaKeyLoad
  rw [if_neg (by simp [hidle]), driner_begins h]
  dsimp only
  simp only [pa_begun]
  rw [if_neg (by simp [hlt, hd]), if_neg (by simp [hst, hfreeing]), if_neg (by simp [hrole]), if_neg (by simp [hroll]),
    if_neg (by simpa using fun hrx => by simp [hprev hrx]), if_neg (by simp [hother])]
  rfl

end

/-! ### Rolls (R186) -/

theorem dirOf_setDir (a : Pa) (rx : Bool) (d : Dir) : dirOf (setDir a rx d) rx = d := by
  cases rx <;> rfl

/-- A direction whose next key, in slot `i`, has become current; for receive the key before it stays as previous. -/
def Dir.rolled (d : Dir) (rx : Bool) (i : Nat) (grace : Option Gts) : Dir :=
  { d with cur := some i, next := none, roll := none, prev := if rx then d.cur else none, graceEnd := grace }

section
variable {s : State} {n i : Nat} {rx : Bool} {g : Gts} (hroll : (dirOf (s.pa n) rx).roll = some g)
  (hnext : (dirOf (s.pa n) rx).next = some i)
include hroll hnext

theorem fireRoll_waits (hlt : gtsTime s.gts < gtsTime g) : s.fireRoll n rx = s := by
  unfold State.fireRoll
  simp only [hroll, hnext]
  exact if_pos hlt

/-- A due roll writes its direction, of the associations nothing else, and nothing of Driner. -/
theorem fireRoll_fires (hdue : gtsTime g ≤ gtsTime s.gts) : ∃ grace, (s.fireRoll n rx).drn = s.drn ∧
    ∀ k, (s.fireRoll n rx).pa k =
      if k = n then setDir (s.pa n) rx ((dirOf (s.pa n) rx).rolled rx i grace) else s.pa k := by
  unfold State.fireRoll
  simp only [hroll, hnext]
  rw [if_neg (Nat.not_lt.mpr hdue)]
  cases rx with
  | true => exact ⟨_, rfl, fun k => setPa_get s n k _⟩
  | false =>
    split
    · rw [eraseSlot_eq]
      exact ⟨_, rfl, fun k => setPa_get s n k _⟩
    · exact ⟨_, rfl, fun k => setPa_get s n k _⟩

end

section
variable {s : State} {r : Req} {n : Nat} {rx : Bool} (h : s.begins 0x0403 r) (hn : leAt r.payload 0 2 = n)
  (hrx : (leAt r.payload 2 1 = 1 : Bool) = rx) (hlt : n < 2048) (hd : leAt r.payload 2 1 ≤ 1)
  (hzero : leAt r.payload 3 1 = 0) (hst : (s.pa n).state ≠ .free) (hfreeing : (s.pa n).freeing = none)
include h hn hrx hlt hd hzero hst hfreeing

theorem paRoll_keyAbsent (hnext : (dirOf (s.pa n) rx).next = none) : exec (.paRoll r) s =
    .next ((s.begun 0x0403 r).holdFor true r.party 0x0403 r.tag stKeyAbsent false []) := by
  subst hn hrx
  change execPaRoll r s = _
  refine drinerNow_reads h fun d => (if_neg (by simp [hlt, hd, hzero])).trans ((if_neg ?_).trans (if_pos ?_))
  · change ¬ (decide ((s.pa _).state = .free) || (s.pa _).freeing.isSome) = true
    simp [hst, hfreeing]
  · change (dirOf (s.pa _) _).next.isNone = true
    simp [hnext]

variable (hnext : (dirOf (s.pa n) rx).next.isSome = true)
include hnext

theorem paRoll_noTime (hqual : s.tim.qual = 3) : exec (.paRoll r) s =
    .next ((s.begun 0x0403 r).holdFor true r.party 0x0403 r.tag stTime false []) := by
  subst hn hrx
  change execPaRoll r s = _
  refine drinerNow_reads h fun d => (if_neg (by simp [hlt, hd, hzero])).trans
    ((if_neg ?_).trans ((if_neg ?_).trans (if_pos hqual)))
  · change ¬ (decide ((s.pa _).state = .free) || (s.pa _).freeing.isSome) = true
    simp [hst, hfreeing]
  · change ¬ (dirOf (s.pa _) _).next.isNone = true
    rw [Option.isNone_eq_false_iff.mpr hnext]
    simp

/-- The state in which PA_ROLL has set its activation. -/
def State.rollSet (s : State) (n : Nat) (rx : Bool) (r : Req) : State :=
  (s.entryHeld 0x0403 n r).setPa n (setDir (s.heldPa n) rx
    { dirOf (s.pa n) rx with roll := some (BitVec.ofNat 96 (leAt r.payload 4 12)) })

theorem paRoll_sets (hqual : s.tim.qual ≠ 3) : exec (.paRoll r) s =
    .next (((s.rollSet n rx r).fireRoll n rx).reply r.party r.tag 0x0403 stOk []) := by
  subst hrx
  change execPaRoll r s = _
  unfold execPaRoll
  rw [drinerNow_begins h]
  dsimp only
  simp only [hn, pa_begun, holdPa_begun hst, pa_entryHeld]
  rw [if_neg (by simp [hlt, hd, hzero]), if_neg (by simp [hst, hfreeing]),
    if_neg (by rw [Option.isNone_eq_false_iff.mpr hnext]; simp), if_neg (by simpa using hqual)]
  rfl

end

/-- A roll whose activation has passed fires on acceptance (R197); another one stays set. -/
theorem fireRoll_rollSet {s : State} {n i : Nat} {rx : Bool} {r : Req} (hnext : (dirOf (s.pa n) rx).next = some i) :
    ((s.rollSet n rx r).fireRoll n rx).drn = (s.begun 0x0403 r).drn ∧
    if gtsTime s.gts < gtsTime (BitVec.ofNat 96 (leAt r.payload 4 12)) then
      (dirOf (((s.rollSet n rx r).fireRoll n rx).pa n) rx).roll = some (BitVec.ofNat 96 (leAt r.payload 4 12)) ∧
      (dirOf (((s.rollSet n rx r).fireRoll n rx).pa n) rx).cur = (dirOf (s.pa n) rx).cur
    else
      (dirOf (((s.rollSet n rx r).fireRoll n rx).pa n) rx).roll = none ∧
      (dirOf (((s.rollSet n rx r).fireRoll n rx).pa n) rx).cur = some i := by
  have hdir : dirOf ((s.rollSet n rx r).pa n) rx =
      { dirOf (s.pa n) rx with roll := some (BitVec.ofNat 96 (leAt r.payload 4 12)) } := by
    rw [State.rollSet, setPa_get, if_pos rfl, dirOf_setDir]
  have hgts : (s.rollSet n rx r).gts = s.gts := by
    rw [State.rollSet, State.entryHeld, begun_eq]
    rfl
  split
  · next hlt =>
    rw [fireRoll_waits (by rw [hdir]) (by rwa [hdir]) (by rwa [hgts]), hdir]
    exact ⟨rfl, rfl, rfl⟩
  · next hdue =>
    obtain ⟨grace, hdrn, hpa⟩ := fireRoll_fires (s := s.rollSet n rx r) (by rw [hdir]) (by rwa [hdir])
      (by rw [hgts]; exact Nat.not_lt.mp hdue)
    rw [hpa, if_pos rfl, dirOf_setDir]
    exact ⟨hdrn, rfl, rfl⟩

theorem rollFire_eq {s : State} (hup : s.up = true) (m : Fin 2048) (rx : Bool) :
    exec (.rollFire m rx) s = .next (s.fireRoll m.val rx) := by
  change execRollFire m rx s = _
  exact if_pos hup

/-! ### The end of grace (R186) -/

section
variable {s : State} {n i : Nat} {g : Gts} (hprev : (s.pa n).rx.prev = some i) (hgrace : (s.pa n).rx.graceEnd = some g)
include hprev hgrace

theorem endGrace_waits (hlt : gtsTime s.gts < gtsTime g) : s.endGrace n = s := by
  unfold State.endGrace
  simp only [hprev, hgrace]
  exact if_pos hlt

/-- The previous key leaves its direction, and its slot is erased. -/
theorem endGrace_ends (hdue : gtsTime g ≤ gtsTime s.gts) :
    (s.endGrace n).pa n = { s.pa n with rx := { (s.pa n).rx with prev := none, graceEnd := none } } ∧
    (kState (s.krow (4 * n + i)) = kLoaded → kState ((s.endGrace n).krow (4 * n + i)) = kErasing) := by
  unfold State.endGrace
  simp only [hprev, hgrace]
  rw [if_neg (Nat.not_lt.mpr hdue)]
  refine ⟨?_, fun hloaded => eraseSlot_erases (s := s.setPa n _) (.inl hloaded)⟩
  rw [pa_paEvent, eraseSlot_eq]
  exact (setPa_get s n n _).trans (if_pos rfl)

end

theorem graceEnd_eq {s : State} (hup : s.up = true) (m : Fin 2048) : exec (.graceEnd m) s = .next (s.endGrace m.val) := by
  change execGraceEnd m s = _
  exact if_pos hup

/-! ### The obligation -/

/-- Settles O24: each command by the lemmas on its cases, a roll by `fireRoll_fires`, a grace's end by `endGrace_ends`. -/
theorem associations : Obligations.Associations := by
  unfold Obligations.Associations
  intro s r
  dsimp only
  refine ⟨fun h hlt hzero hok => ⟨fun hvalid hno => ?_, fun hvalid =>
      ⟨paCreate_notFree h rfl hlt hzero hok ((paEventQOk_iff s _).mpr hvalid),
        paCreate_creates h rfl hlt hzero hok ((paEventQOk_iff s _).mpr hvalid)⟩⟩,
    fun h => paCreate_malformed h rfl,
    fun h hlt hzero => ⟨fun hv hfreeing hfrom => ⟨paStateSet_activates h rfl hlt hzero hv hfreeing hfrom,
        paStateSet_keyAbsent h rfl hlt hzero hv hfreeing hfrom⟩, paStateSet_suspends h rfl hlt hzero,
      fun hv hfreeing hst => paStateSet_frees h rfl hlt hzero hst hv hfreeing,
      fun hv hst => paStateSet_resyncs h rfl hlt hzero hst hv⟩,
    fun m party tag hup hfreeing => ⟨associationFreed_clears hup hfreeing, associationFreed_waits hfreeing⟩,
    paQuery_answers, fun h hidle => paKeyLoad_unwraps h hidle rfl, fun h hidle => paKeyLoad_ofFree h hidle rfl,
    fun h hlt hd hzero hst hfreeing => ⟨paRoll_keyAbsent h rfl rfl hlt hd hzero hst hfreeing,
      paRoll_noTime h rfl rfl hlt hd hzero hst hfreeing, fun hnext hqual => ?_⟩,
    fun m rx g i hup hroll hnext => ⟨fun hlt => ?_, fun hdue => ?_⟩,
    fun m g i hup hprev hgrace => ⟨fun hlt => ?_, fun hdue => ?_⟩⟩
  · refine paCreate_noEventQueue h rfl hlt hzero hok (Bool.eq_false_iff.mpr fun hq => ?_)
    obtain ⟨hen, howner, hevq⟩ := (paEventQOk_iff s _).mp hq hvalid
    rcases hno with hno | hno | hno
    · exact absurd (hen.symm.trans hno) (by decide)
    · exact hno howner
    · exact absurd (hevq.symm.trans hno) (by decide)
  · obtain ⟨i, hi⟩ := Option.isSome_iff_exists.mp hnext
    obtain ⟨hdrn, hdir⟩ := fireRoll_rollSet (r := r) hi
    refine ⟨_, paRoll_sets h rfl rfl hlt hd hzero hst hfreeing hnext hqual, answers_of_drn s hdrn _ _, ?_⟩
    rw [pa_reply, hi]
    exact hdir
  · rw [rollFire_eq hup, fireRoll_waits hroll hnext hlt]
  · obtain ⟨grace, -, hpa⟩ := fireRoll_fires hroll hnext hdue
    refine ⟨_, rollFire_eq hup m rx, ?_⟩
    rw [hpa, if_pos rfl, dirOf_setDir]
    exact ⟨rfl, rfl, rfl, rfl, fun k hk => (hpa k).trans (if_neg hk)⟩
  · rw [graceEnd_eq hup, endGrace_waits hprev hgrace hlt]
  · obtain ⟨hpa, herases⟩ := endGrace_ends hprev hgrace hdue
    refine ⟨_, graceEnd_eq hup m, ?_, ?_, herases⟩ <;> rw [hpa]

end Sys2Proof.Machine
end
section
/-! PROOFS. Assays asked for, the reservation, and errors of lanes and hash units under a job (R205, R214, R215, R234). -/

namespace Sys2Proof.Machine
open Sys2Proof

/-! ### Assays asked for (R215, R234) -/

section
variable (s : State)

/-- BCH_ASSAY names a lane, and shows that its assay is asked for. -/
def State.laneAsked (s : State) (p : Nat) : State :=
  { s with bch := { s.bch with assayPhys := BitVec.ofNat 10 p, assayResult := 1 } }

/-- BCH_HU_ASSAY names a hash unit, and shows that its assay is asked for. -/
def State.unitAsked (s : State) (p : Nat) : State :=
  { s with hme := { s.hme with huAssay := BitVec.ofNat 7 p, huResult := 1 } }

/-- The field of a write with GO set is that of the value, where GO stands above it. -/
theorem fld_go (v : Word) {hi : Nat} (lo : Nat) (h : hi < 31) : fld (setBit v 31 true) hi lo = fld v hi lo :=
  fld_setBit_other v hi lo 31 true (.inl h)

theorem underAssay_startAssay (c : ResClass) (p : Nat) (who : Option (Nat × Nat)) :
    (s.startAssay c p who).underAssay c p = true := by
  simp [State.underAssay, State.startAssay]

variable {s} (hup : s.up = true) (v : Word)
include hup

theorem laneAssayGo_starts (hidle : s.assayBusy .lane = false) (hmay : s.mayAssay .lane (fld v 9 0) = true) :
    exec (.laneAssayGo v) s = .next ((s.laneAsked (fld v 9 0)).startAssay .lane (fld v 9 0) none) := by
  change execLaneAssayGo v s = _
  unfold execLaneAssayGo State.laneAssayWrite
  rw [if_pos hup, if_neg (by simp [hidle]), fld_go v 0 (by decide)]
  exact congrArg _ (if_pos (Bool.and_eq_true_iff.mpr ⟨by simp, hmay⟩))

theorem hashAssayGo_starts (hidle : s.assayBusy .hashUnit = false) (hmay : s.mayAssay .hashUnit (fld v 6 0) = true) :
    exec (.hashAssayGo v) s = .next ((s.unitAsked (fld v 6 0)).startAssay .hashUnit (fld v 6 0) none) := by
  change execHashAssayGo v s = _
  unfold execHashAssayGo State.hashAssayWrite
  rw [if_pos hup, if_neg (by simp [hidle]), fld_go v 0 (by decide)]
  exact congrArg _ (if_pos (Bool.and_eq_true_iff.mpr ⟨by simp, hmay⟩))

end

/-! ### The reservation (R205) -/

section
variable (s : State)

/-- The lanes' cause is all that the guard writes of the retirements and of the owner's settings. -/
theorem ret_laneGuard : ∃ b, s.laneGuard.ret = { s.ret with wLanes := b } := by
  unfold State.laneGuard
  dsimp only
  split_ifs
  · exact ⟨_, congrArg Outside.ret (outside_setCause s 1 true _)⟩
  · exact ⟨_, congrArg Outside.ret (outside_setCause s 1 false _)⟩
  · exact ⟨_, rfl⟩

/-- A new reservation keeps the owner's settings. -/
theorem ret_keepDuty_laneGuard (old : State) : ∃ b, (s.keepDuty old).laneGuard.ret = { s.ret with wLanes := b } := by
  obtain ⟨b, hb⟩ := ret_laneGuard (s.keepDuty old)
  have hret : (s.keepDuty old).ret = s.ret := congrArg Outside.ret (outside_keepDuty s old)
  exact ⟨b, hret ▸ hb⟩

theorem quiet_keepDuty_laneGuard (old : State) : (s.keepDuty old).laneGuard.quiet = s.quiet :=
  (quiet_laneGuard _).trans (quiet_keepDuty s old)

variable {s} (hup : s.up = true) {v : Word}
include hup

theorem bchReserveWrite_takes (hn : 32 ≤ fld v 7 0 ∧ fld v 7 0 ≤ 128) :
    ∃ t, exec (.bchReserveWrite v) s = .next t ∧ t.bch.count.toNat = fld v 7 0 ∧ t.ret.accept = bit v 8 := by
  have hwrite : execBchReserveWrite v s = .next (s.reserveWrite v) := if_pos hup
  unfold State.reserveWrite at hwrite
  dsimp only at hwrite
  rw [if_neg (by simp; omega)] at hwrite
  refine ⟨_, hwrite, ?_, ?_⟩
  · have hcount := congrArg Quiet.count (quiet_keepDuty_laneGuard { s with
      bch := { s.bch with count := BitVec.ofNat 8 (fld v 7 0) }, ret := { s.ret with accept := bit v 8 } } s)
    exact (congrArg BitVec.toNat hcount).trans (Nat.mod_eq_of_lt (fld_lt v 7 0))
  · obtain ⟨b, hret⟩ := ret_keepDuty_laneGuard { s with
      bch := { s.bch with count := BitVec.ofNat 8 (fld v 7 0) }, ret := { s.ret with accept := bit v 8 } } s
    exact congrArg Ret.accept hret

theorem bchReserveWrite_discards (hn : ¬ (32 ≤ fld v 7 0 ∧ fld v 7 0 ≤ 128)) :
    exec (.bchReserveWrite v) s = .next s := by
  change execBchReserveWrite v s = _
  unfold execBchReserveWrite State.reserveWrite
  rw [if_pos hup]
  exact congrArg _ (if_pos (by simp; omega))

end

/-- What C0_RESERVE_SET refuses. -/
def reserveBad (r : Req) : Bool :=
  (leAt r.payload 0 1 ≠ 0 && (leAt r.payload 0 1 < 32 || 128 < leAt r.payload 0 1)) || 1 < leAt r.payload 1 1

/-- The owner's count, 0 for its withdrawal, and the acceptance as C0_RESERVE_SET gives them. -/
def State.ownerSet (s : State) (n a : Nat) : State :=
  { s with ret := { s.ret with ownerCount := if n = 0 then none else some n, accept := a = 1 } }

theorem out_applyReserve (s : State) : s.applyReserve.drn.out = s.drn.out :=
  (congrArg Quiet.out (quiet_applyReserve s) :)

theorem ret_applyReserve (s : State) : ∃ b, s.applyReserve.ret = { s.ret with wLanes := b } :=
  ret_keepDuty_laneGuard _ s

theorem c0ReserveSet_takes {s : State} {r : Req} (h : s.begins 0x0A03 r)
    (hn : leAt r.payload 0 1 = 0 ∨ (32 ≤ leAt r.payload 0 1 ∧ leAt r.payload 0 1 ≤ 128)) (ha : leAt r.payload 1 1 ≤ 1) :
    ∃ t, exec (.c0ReserveSet r) s = .next t ∧ t.answers r 0x0A03 stOk [] ∧ t.ret.accept = (leAt r.payload 1 1 == 1) ∧
      t.ret.ownerCount = (if leAt r.payload 0 1 = 0 then none else some (leAt r.payload 0 1)) := by
  have hwell : ¬ reserveBad r = true := by
    simp [reserveBad]
    omega
  obtain ⟨t, d, d', hexec, rfl, hans⟩ := drinerNow_does
    (f := fun u => (u.ownerSet (leAt r.payload 0 1) (leAt r.payload 1 1)).applyReserve) (st := stOk) (p := []) h
    (show exec (.c0ReserveSet r) s = execC0ReserveSet r s from rfl) (fun d => if_neg hwell) (fun d => out_applyReserve _)
  obtain ⟨b, hret⟩ := ret_applyReserve (({ s with drn := d } : State).ownerSet (leAt r.payload 0 1) (leAt r.payload 1 1))
  exact ⟨_, hexec, hans, congrArg Ret.accept hret, congrArg Ret.ownerCount hret⟩

/-! ### Errors under a job (R214, R234) -/

section
variable (s : State)

/-- An error that counts against a resource writes its record alone (R29). -/
theorem strike_eq (c : ResClass) (p : Nat) : s.strike c p = { s with ret := (s.strike c p).ret } := by
  unfold State.strike State.transient State.permanent
  dsimp only
  split_ifs <;> rfl

theorem bchEvents_freeUnits (j : Job) : (s.freeUnits j).bch.events = s.bch.events := by
  have hlanes := each_keeps s (fun s => s.bch.events) (fun p s => s.setLane p {}) (fun _ _ => rfl) j.lanes
  unfold State.freeUnits
  dsimp only
  split <;> exact hlanes

theorem huEvents_freeUnits (j : Job) : (s.freeUnits j).hme.huEvents = s.hme.huEvents := by
  have hlanes := each_keeps s (fun s => s.hme.huEvents) (fun p s => s.setLane p {}) (fun _ _ => rfl) j.lanes
  unfold State.freeUnits
  dsimp only
  split <;> exact hlanes

variable {s} {c : ResClass} {p id : Nat} {j : Job} {fail : State → State}

/-- What freeing units, the job table and the retirements leave is as it was before the error, or as a third one makes it. -/
theorem jobError_keeps {β : Type} (P : State → β) (hfree : ∀ s j, P (State.freeUnits s j) = P s)
    (hqps : ∀ (s : State) x, P { s with qps := x } = P s) (hret : ∀ (s : State) x, P { s with ret := x } = P s) :
    P (s.jobError c p j fail) = P (if 2 ≤ j.reruns then fail s else s) := by
  have hrerun : ∀ (s : State) (k : Job), P (s.rerunJob k) = P s := fun s k => (hqps _ _).trans (hfree s k)
  unfold State.jobError
  split
  · unfold State.finishJob
    split
    · rfl
    · exact (hqps _ _).trans (hfree _ _)
  · dsimp only
    split
    · exact (hrerun _ _).trans (hret _ _)
    · exact hrerun _ _

theorem job?_rerunJob (h : s.job? id = some j) {k : Job} (hk : k.id = id) : (s.rerunJob k).job? id =
    some { k with stage := .ready, lanes := [], hashUnit := none, written := [], readyAt := s.now } := by
  unfold State.rerunJob
  refine job?_putJob (j := j) ?_ hk
  rw [State.job?, qps_freeUnits]
  exact h

/-- A first or a second error: the job starts again, off the lane or unit that erred. -/
theorem jobError_reruns (h : s.job? id = some j) (hfew : j.reruns < 2) :
    ∃ k, (s.jobError c p j fail).job? id = some k ∧ k.reruns = j.reruns + 1 ∧ k.lanes = [] ∧ k.hashUnit = none ∧
      k.avoid = some p := by
  have hid := id_of_job? h
  unfold State.jobError
  rw [if_neg (Nat.not_le.mpr hfew)]
  dsimp only
  split
  · obtain ⟨o, ho⟩ := outsideBy_eq { j with reruns := j.reruns + 1, avoid := some p } 3
    rw [ho]
    exact ⟨_, job?_rerunJob (s := s.countRerun c p) h hid, rfl, rfl, rfl, rfl⟩
  · exact ⟨_, job?_rerunJob h hid, rfl, rfl, rfl, rfl⟩

/-- A third error: the job completes with RESOURCE. -/
theorem jobError_fails (h : s.job? id = some j) (hmany : 2 ≤ j.reruns) (hstage : j.stage ≠ .done)
    (hfail : (fail s).qps = s.qps) :
    ∃ k, (s.jobError c p j fail).job? id = some k ∧ k.stage = .done ∧ k.status = stResource := by
  have hfind : (fail s).job? id = some j := by rwa [State.job?, hfail]
  obtain ⟨k, hk, hdone, hstatus, -⟩ := jobEnded_finishJob hfind hstage stResource (noResult j.sqe.opcode)
  unfold State.jobError
  rw [if_pos hmany]
  exact ⟨k, id_of_job? h ▸ hk, hdone, hstatus⟩

end

section
variable {s : State} (hup : s.up = true) {id : Nat} {j : Job} (hj : s.job? id = some j) (hrun : j.stage = .running)
include hup hj hrun

theorem laneTransientError_reruns (p : Fin 544) (hlane : j.lanes.contains p.val = true) :
    ∃ t, exec (.laneTransientError p id) s = .next t ∧ bit t.bch.events 0 = true ∧
      (j.reruns < 2 → ∃ k, t.job? id = some k ∧ k.reruns = j.reruns + 1 ∧ k.lanes = [] ∧ k.avoid = some p.val) ∧
      (2 ≤ j.reruns → bit t.bch.events 4 = true ∧ ∃ k, t.job? id = some k ∧ k.stage = .done ∧ k.status = stResource) := by
  let u := (s.bchEvent 0).strike .lane p.val
  have hu : u = { s.bchEvent 0 with ret := u.ret } := strike_eq _ _ _
  have hfind : u.job? id = some j := by rwa [hu]
  have hevents : u.bch.events = setBit s.bch.events 0 true := by rw [hu]; rfl
  have hkept := jobError_keeps (s := u) (c := .lane) (p := p.val) (j := j) (fail := (·.bchEvent 4))
    (fun s => s.bch.events) bchEvents_freeUnits (fun _ _ => rfl) (fun _ _ => rfl)
  have hexec : exec (.laneTransientError p id) s = .next (u.jobError .lane p.val j (·.bchEvent 4)) := by
    change execLaneTransientError p id s = _
    unfold execLaneTransientError
    rw [hj]
    exact if_neg (by simpa [hup, hrun] using hlane)
  refine ⟨_, hexec, ?_, fun hfew => ?_, fun hmany => ⟨?_, ?_⟩⟩
  · rw [hkept]
    split <;> simp [State.bchEvent, hevents]
  · obtain ⟨k, hk, hreruns, hlanes, -, havoid⟩ := jobError_reruns (c := .lane) (p := p.val) hfind hfew
    exact ⟨k, hk, hreruns, hlanes, havoid⟩
  · rw [hkept, if_pos hmany]
    simp [State.bchEvent]
  · exact jobError_fails hfind hmany (by simp [hrun]) rfl

theorem hashUnitMismatch_reruns (p : Fin 68) (hunit : j.hashUnit = some p.val) :
    ∃ t, exec (.hashUnitMismatch p (some id)) s = .next t ∧ bit t.hme.huEvents 0 = true ∧
      (j.reruns < 2 → ∃ k, t.job? id = some k ∧ k.reruns = j.reruns + 1 ∧ k.hashUnit = none ∧ k.avoid = some p.val) ∧
      (2 ≤ j.reruns → bit t.hme.huEvents 2 = true ∧
        ∃ k, t.job? id = some k ∧ k.stage = .done ∧ k.status = stResource) := by
  let u := (s.huEvent 0).strike .hashUnit p.val
  have hu : u = { s.huEvent 0 with ret := u.ret } := strike_eq _ _ _
  have hfind : u.job? id = some j := by rwa [hu]
  have hevents : u.hme.huEvents = setBit s.hme.huEvents 0 true := by rw [hu]; rfl
  have hkept := jobError_keeps (s := u) (c := .hashUnit) (p := p.val) (j := j) (fail := (·.huEvent 2))
    (fun s => s.hme.huEvents) huEvents_freeUnits (fun _ _ => rfl) (fun _ _ => rfl)
  have hexec : exec (.hashUnitMismatch p (some id)) s = .next (u.jobError .hashUnit p.val j (·.huEvent 2)) := by
    change execHashUnitMismatch p (some id) s = _
    unfold execHashUnitMismatch
    rw [if_neg (by simp [hup])]
    dsimp only
    rw [hj]
    exact if_neg (by simp [hrun, hunit])
  refine ⟨_, hexec, ?_, fun hfew => ?_, fun hmany => ⟨?_, ?_⟩⟩
  · rw [hkept]
    split <;> simp [State.huEvent, hevents]
  · obtain ⟨k, hk, hreruns, -, hnone, havoid⟩ := jobError_reruns (c := .hashUnit) (p := p.val) hfind hfew
    exact ⟨k, hk, hreruns, hnone, havoid⟩
  · rw [hkept, if_pos hmany]
    simp [State.huEvent]
  · exact jobError_fails hfind hmany (by simp [hrun]) rfl

end

/-- Hash work begins on one unit, or waits; the events that stand go on standing. -/
theorem hashWork_keeps (s : State) (cycles : Nat) (avoid : Option Nat) : (s.hashWork cycles avoid).qps = s.qps ∧
    (bit s.hme.huEvents 0 = true → bit (s.hashWork cycles avoid).hme.huEvents 0 = true) := by
  unfold State.hashWork
  split
  · exact ⟨rfl, id⟩
  · dsimp only
    split
    · exact ⟨rfl, fun h => (bit_setBit _ 4 0 true).trans h⟩
    · exact ⟨rfl, id⟩

/-- A unit that errs in the archive's or firmware's own work loses it to another unit. -/
theorem hashUnitMismatch_moves {s : State} (hup : s.up = true) (p : Fin 68)
    (hserves : (s.logical .hashUnit p.val).isSome = true) (hnone : (s.hunit p.val).job = none)
    (hwork : s.now < (s.hunit p.val).workTill) :
    ∃ t, exec (.hashUnitMismatch p none) s = .next t ∧ bit t.hme.huEvents 0 = true ∧ t.qps = s.qps := by
  let u := ((s.huEvent 0).strike .hashUnit p.val).setHunit p.val {}
  have hu : (s.huEvent 0).strike .hashUnit p.val = { s.huEvent 0 with ret := u.ret } := strike_eq _ _ _
  obtain ⟨hqps, hevents⟩ := hashWork_keeps u (s.hunit p.val).work (some p.val)
  have hexec : exec (.hashUnitMismatch p none) s = .next (u.hashWork (s.hunit p.val).work (some p.val)) := by
    change execHashUnitMismatch p none s = _
    unfold execHashUnitMismatch
    rw [if_neg (by simp [hup])]
    exact if_neg (by simp [Option.isSome_iff_ne_none.mp hserves, hnone, hwork])
  refine ⟨_, hexec, hevents ?_, hqps.trans ?_⟩
  · change bit ((s.huEvent 0).strike .hashUnit p.val).hme.huEvents 0 = true
    rw [hu]
    simp [State.huEvent]
  · change ((s.huEvent 0).strike .hashUnit p.val).qps = s.qps
    rw [hu]
    rfl

/-! ### The obligation -/

/-- Settles O3: each clause is one of the lemmas above; the errors of lanes and of hash units share `jobError_reruns` and
`jobError_fails`. -/
theorem benchAndHashRows : Obligations.BenchAndHashRows := by
  unfold Obligations.BenchAndHashRows
  intro s hup
  refine ⟨fun v hidle hmay => ⟨_, laneAssayGo_starts hup v hidle hmay, rfl, Nat.mod_eq_of_lt (fld_lt v 9 0),
      underAssay_startAssay _ _ _ _, rfl⟩,
    fun v hidle hmay => ⟨_, hashAssayGo_starts hup v hidle hmay, rfl, Nat.mod_eq_of_lt (fld_lt v 6 0),
      underAssay_startAssay _ _ _ _, rfl⟩,
    fun v hn => bchReserveWrite_takes hup hn, fun v hn => bchReserveWrite_discards hup hn,
    fun r h hn ha => c0ReserveSet_takes h hn ha, fun p id j hj hrun hlane => laneTransientError_reruns hup hj hrun p hlane,
    fun p id j hj hrun hunit => hashUnitMismatch_reruns hup hj hrun p hunit,
    fun p hserves hnone hwork => hashUnitMismatch_moves hup p hserves hnone hwork⟩

end Sys2Proof.Machine
end
section
/-! PROOFS. Cipher, hash and append jobs, and the end of a job (R204, R208 to R211, R231 to R233, R293). -/

namespace Sys2Proof.Machine
open Sys2Proof

/-! ### The key of a job (R31, R209, R232) -/

/-- A job outside the associations reports no result of its own. -/
theorem noResult_of_not_assoc {op : Nat} (h : isAssoc op = false) : noResult op = List.replicate 8 0 := by
  rw [noResult, h]
  rfl

/-- A command that runs a job of opcode `op` under the key of its first hold, and does `f` to the module. -/
def RunsKeyed (e : Nat → Instr) (op : Nat) (f : State → Job → Bytes → State) : Prop :=
  ∀ job s, exec (e job) s = s.runJob job op fun s j => s.withKey j (f s j)

section
variable {e : Nat → Instr} {op : Nat} {f : State → Job → Bytes → State} (hrow : RunsKeyed e op f) {s : State} {j : Job}
  (hon : s.jobOn op j)
include hrow hon

theorem RunsKeyed.does {key : Bytes} (hkey : j.holds.head?.bind s.heldKey = some key) :
    exec (e j.id) s = .next (f s j key) := by
  rw [hrow, runJob_runs hon, State.withKey, hkey]

/-- A job whose slot has lost its key writes nothing. -/
theorem RunsKeyed.keyAbsent (hassoc : isAssoc op = false) (hlost : j.holds.head?.bind s.heldKey = none) :
    exec (e j.id) s = .next (s.finishJob j stKeyAbsent (List.replicate 8 0)) := by
  rw [hrow, runJob_runs hon, State.withKey, hlost, opcode_of_jobOn hon, noResult_of_not_assoc hassoc]

end

/-! ### Cipher and MAC jobs (R208 to R211, R233) -/

/-- What a job has read after its additional data. -/
def Job.message (j : Job) : Bytes := (jobData j).drop j.sqe.aadLen

/-- The tag of a job that only authenticates. -/
def Job.gmac (j : Job) (key : Bytes) : Bytes := (gangSeal j.lanes.length key j.sqe.iv (jobData j) []).2

/-- The status that a job's own tag gives. -/
def Job.verdict (j : Job) (tag : Bytes) : Nat :=
  if j.sqe.tag.take j.sqe.tagLen = tag.take j.sqe.tagLen then stOk else stAuthFail

/-- Ciphertext and tag are written, and the tag is reported. -/
def State.sealJob (s : State) (j : Job) (key : Bytes) : State :=
  let sealed := gangSeal j.lanes.length key j.sqe.iv j.aad j.message
  (s.jobOut j (sealed.1 ++ sealed.2.take j.sqe.tagLen)).finishJob j stOk (sealed.2.take 8)

/-- The plaintext is written whatever the tag says. -/
def State.openJob (s : State) (j : Job) (key : Bytes) : State :=
  let opened := gangOpen j.lanes.length key j.sqe.iv j.aad j.message
  (s.jobOut j opened.1).finishJob j (j.verdict opened.2) (List.replicate 8 0)

def State.tagJob (s : State) (j : Job) (key : Bytes) : State :=
  (if j.sqe.dst = 0 then s else s.jobWrite j ((j.gmac key).take j.sqe.tagLen)).finishJob j stOk ((j.gmac key).take 8)

def State.checkJob (s : State) (j : Job) (key : Bytes) : State :=
  s.finishJob j (j.verdict (j.gmac key)) (List.replicate 8 0)

def State.streamJob (s : State) (j : Job) (key : Bytes) : State :=
  (s.jobOut j (gangStream j.lanes.length key j.sqe.iv (jobData j))).finishJob j stOk
    (le 4 (((jobData j).length + 15) / 16) ++ le 4 0)

/-- The comparison of the model is that of the verdict. -/
theorem verdict_eq (j : Job) (tag : Bytes) : j.verdict tag =
    if (j.sqe.tag.take j.sqe.tagLen == tag.take j.sqe.tagLen) = true then stOk else stAuthFail := by
  simp only [Job.verdict, beq_iff_eq]

theorem aesGcmEncrypt_keyed : RunsKeyed .aesGcmEncrypt 0x10 State.sealJob := fun _ _ => rfl

theorem aesGcmDecrypt_keyed : RunsKeyed .aesGcmDecrypt 0x11 State.openJob := fun _ _ => by
  unfold State.openJob
  simp only [verdict_eq]
  rfl

theorem aesGmacGenerate_keyed : RunsKeyed .aesGmacGenerate 0x12 State.tagJob := fun _ _ => rfl

theorem aesGmacVerify_keyed : RunsKeyed .aesGmacVerify 0x13 State.checkJob := fun _ _ => by
  unfold State.checkJob
  simp only [verdict_eq]
  rfl

theorem aesCtr_keyed : RunsKeyed .aesCtr 0x14 State.streamJob := fun _ _ => rfl

theorem hmacSha256_keyed : RunsKeyed .hmacSha256 0x22 fun s j key => s.hashEnd j (hmac256 key (jobData j)) :=
  fun _ _ => rfl

/-- A job that has written nothing yet writes its whole output in one row. -/
theorem jobOut_unwritten {s : State} {j : Job} (h : j.written = []) (data : Bytes) :
    s.jobOut j data = s.hostWrite j.fn j.sqe.dst data (j.cls == 0) s.pci.relaxed (some j.id) :=
  if_pos (by simp [h])

/-! ### Appends (R293) -/

/-- A record at the intake port is the one that came, but for its flag JIG, and its waiter waits for it. -/
theorem arrive_appends (s : State) (r : Rec) (w : Waiter) (reserved : Bool) :
    ∃ a flags, (s.arrive r w reserved).arc.arrivals = s.arc.arrivals ++ [a] ∧ a.r = { r with flags := flags } ∧
      a.reserved = reserved ∧ a.waiter = w := by
  unfold State.arrive
  dsimp only
  split
  · exact ⟨_, _, rfl, rfl, rfl, rfl⟩
  · exact ⟨_, r.flags, rfl, rfl, rfl, rfl⟩

theorem archiveAppend_arrives {s : State} {j : Job} (hon : s.jobOn 0x30 j) :
    ∃ t a, exec (.archiveAppend j.id) s = .next t ∧ t.job? j.id = some { j with waitRec := true } ∧
      t.arc.arrivals = s.arc.arrivals ++ [a] ∧ a.r.typ = j.sqe.target ∧ a.r.src = 0x020 + j.fn ∧ a.r.cls = j.cls ∧
      a.r.body = jobData j ∧ a.r.gts = s.gts ∧ a.reserved = true ∧ a.waiter = .job j.id := by
  obtain ⟨a, flags, harrivals, hr, hreserved, hwaiter⟩ := arrive_appends (s.putJob { j with waitRec := true })
    { typ := j.sqe.target, src := 0x020 + j.fn, cls := j.cls, gts := s.gts, body := jobData j } (.job j.id) true
  have hexec := runJob_runs hon fun s j => (s.putJob { j with waitRec := true }).arrive
    { typ := j.sqe.target, src := 0x020 + j.fn, cls := j.cls, gts := s.gts, body := jobData j } (.job j.id) true
  obtain ⟨-, -, -, hj, -⟩ := hon
  refine ⟨_, a, hexec, job?_putJob (k := { j with waitRec := true }) hj rfl, harrivals, ?_, ?_, ?_, ?_, ?_, hreserved,
    hwaiter⟩ <;> rw [hr]

/-! ### The end of a job (R151, R198) -/

section
variable (s : State)

/-- A job put back leaves the other jobs. -/
theorem job?_putJob_other {k : Job} {id i : Nat} (hk : k.id = id) (h : i ≠ id) : (s.putJob k).job? i = s.job? i := by
  subst hk
  have hfind : ∀ l : List Job, (l.map fun x => if x.id = k.id then k else x).find? (·.id == i) = l.find? (·.id == i) :=
    fun l => by
      induction l with
      | nil => rfl
      | cons x l ih =>
        by_cases hx : x.id = k.id
        · simp [hx, h.symm, ih]
        · simp [hx, List.find?_cons, ih]
  exact hfind _

theorem job?_finishJob_other (j : Job) (st : Nat) (r : Bytes) {i : Nat} (h : i ≠ j.id) :
    (s.finishJob j st r).job? i = s.job? i := by
  unfold State.finishJob
  split
  · rfl
  · refine (job?_putJob_other _ (by rfl) h).trans ?_
    rw [State.job?, qps_freeUnits]
    rfl

/-- A lane that is cleared is clear, and stays so as others are. -/
theorem lane_each_clear {p : Nat} {l : List Nat} (h : p ∈ l ∨ s.lane p = {}) :
    (each l (fun p s => s.setLane p {}) s).lane p = {} := by
  induction l generalizing s with
  | nil => exact h.resolve_left List.not_mem_nil
  | cons x l ih =>
    refine ih _ ?_
    rw [setLane_get]
    by_cases hx : p = x
    · exact .inr (if_pos hx)
    · exact h.imp (fun hp => (List.mem_cons.mp hp).resolve_left hx) fun hp => (if_neg hx).trans hp

theorem lane_finishJob {j : Job} (hstage : j.stage ≠ .done) (st : Nat) (r : Bytes) {p : Nat} (hp : p ∈ j.lanes) :
    (s.finishJob j st r).lane p = {} := by
  have hclear := lane_each_clear s (.inl hp)
  unfold State.finishJob
  rw [if_neg hstage]
  unfold State.freeUnits
  dsimp only
  split <;> exact hclear

end

/-! ### The obligation -/

/-- Settles O23: a job under its key by `RunsKeyed.does`, one that has lost it by `RunsKeyed.keyAbsent`, an append by
`archiveAppend_arrives`, the end of a job by the lemmas on `finishJob`. -/
theorem cipherAndHashJobs : Obligations.CipherAndHashJobs := by
  unfold Obligations.CipherAndHashJobs
  intro s j q d aad msg g put out lost
  exact ⟨fun data h => jobOut_unwritten h data,
    fun key hkey => ⟨fun hon => aesGcmEncrypt_keyed.does hon hkey, fun hon => aesGcmDecrypt_keyed.does hon hkey,
      fun hon => aesGmacGenerate_keyed.does hon hkey, fun hon => aesGmacVerify_keyed.does hon hkey,
      fun hon => aesCtr_keyed.does hon hkey, fun hon => hmacSha256_keyed.does hon hkey⟩,
    fun hon => runJob_runs hon fun s j => s.hashEnd j (Machine.sha256 (jobData j)),
    fun hon => runJob_runs hon fun s j => s.hashEnd j (Machine.sha512 (jobData j)),
    fun hon => aesGcmEncrypt_keyed.keyAbsent hon rfl, fun hon => aesGcmDecrypt_keyed.keyAbsent hon rfl,
    fun hon => aesGmacGenerate_keyed.keyAbsent hon rfl, fun hon => aesGmacVerify_keyed.keyAbsent hon rfl,
    fun hon => aesCtr_keyed.keyAbsent hon rfl, fun hon => hmacSha256_keyed.keyAbsent hon rfl, archiveAppend_arrives,
    fun st res hstage hj => ⟨jobEnded_finishJob hj hstage st res, fun i hi => job?_finishJob_other s j st res hi,
      pci_finishJob s j st res, fun p hp => lane_finishJob s hstage st res hp⟩⟩

end Sys2Proof.Machine
end
section
/-! PROOFS. The key store: erases, re-splits, KEY_ATTR_GET and unwraps (R216 to R224, R525). -/

namespace Sys2Proof.Machine
open Sys2Proof

/-! ### What messages, responses and the flash leave of the key store -/

section
variable (s : State)

theorem key_each {α : Type} {f : α → State → State} (h : ∀ a s, (f a s).key = s.key) (l : List α) :
    (each l f s).key = s.key := each_keeps s State.key f h l

theorem key_cause (fn b : Nat) : (s.cause fn b).key = s.key :=
  (congrArg State.key (unsent_cause s fn b) :)

theorem key_signal (ch : Nat) : (s.signal ch).key = s.key := by
  simp only [State.signal]
  split
  · exact key_cause s _ 0
  · split <;> rfl
  · rfl

theorem key_dbSet (ch : Nat) (bits : Word) : (s.dbSet ch bits).key = s.key := by
  simp only [State.dbSet]
  split
  · rfl
  · exact key_signal _ ch

theorem key_push (ch : Nat) (m : List Word) : (s.push ch m).key = s.key := by
  unfold State.push
  dsimp only
  split
  · rfl
  · split
    · rfl
    · exact key_dbSet _ ch 1

theorem key_notice (fn op : Nat) (p : Bytes) : (s.notice fn op p).key = s.key := by
  simp only [State.notice]
  split_ifs
  · rfl
  · rfl
  · exact (key_cause _ fn 1).trans (key_each _ (fun m s => key_push s _ m) _)

theorem key_reply (party tag op st : Nat) (p : Bytes) : (s.reply party tag op st p).key = s.key := by
  rw [reply_eq]

/-! ### Erases (R221) -/

theorem key_eraseEnded (byCmd : Bool) (waiter : Option (Nat × Nat)) :
    (s.eraseEnded byCmd waiter).key = if byCmd then (s.keyEvent 5).key else s.key := by
  unfold State.eraseEnded
  cases waiter with
  | none => cases byCmd <;> rfl
  | some w => cases byCmd <;> exact key_reply _ _ _ _ _ _

theorem outside_eraseEnded (byCmd : Bool) (waiter : Option (Nat × Nat)) :
    (s.eraseEnded byCmd waiter).outside = s.outside := by
  unfold State.eraseEnded
  cases waiter with
  | none => cases byCmd <;> rfl
  | some w => cases byCmd <;> exact outside_reply _ _ _ _ _ _

/-- An erase that ends leaves the rows. -/
theorem krow_eraseEnded (byCmd : Bool) (waiter : Option (Nat × Nat)) (m : Nat) :
    (s.eraseEnded byCmd waiter).krow m = s.krow m := by
  unfold State.krow
  rw [key_eraseEnded]
  cases byCmd <;> rfl

variable {s}

/-- The erase of a LOADED slot begins: the row keeps its shares and its holds, and is ERASING. -/
theorem eraseSlot_loaded {n : Nat} (h : kState (s.krow n) = kLoaded) (byCmd : Bool) (waiter : Option (Nat × Nat)) :
    ∃ k, s.eraseSlot n byCmd waiter = s.setKrow n k ∧ kState k = kErasing ∧ k.s0 = (s.krow n).s0 ∧
      k.s1 = (s.krow n).s1 ∧ k.holds = (s.krow n).holds :=
  ⟨_, if_neg (by simp [h, kLoaded, kEmpty, kUnusable]), kState_setKState (s.krow n) (by decide), rfl, rfl, rfl⟩

end

section
variable {s : State} {r : Req} (h : s.begins 0x0408 r)
include h

theorem keyErase_begins (hlow : 8192 ≤ leAt r.payload 0 2) (hhigh : leAt r.payload 0 2 < 16384)
    (hloaded : kState (s.krow (leAt r.payload 0 2)) = kLoaded) : exec (.keyErase r) s =
    .next ((s.begun 0x0408 r).eraseSlot (leAt r.payload 0 2) false (some (r.party, r.tag))) := by
  have hidle : ¬ (kState (s.krow (leAt r.payload 0 2)) = kErasing &&
      (s.krow (leAt r.payload 0 2)).waiter.isSome) = true := by
    simp [hloaded, kLoaded, kErasing]
  change execKeyErase r s = _
  exact driner_does (f := fun u => u.eraseSlot (leAt r.payload 0 2) false (some (r.party, r.tag))) h fun d =>
    (if_neg (Nat.not_le.mpr hhigh)).trans ((if_neg (Nat.not_lt.mpr hlow)).trans (if_neg hidle))

theorem keyErase_noSlot (hhigh : 16384 ≤ leAt r.payload 0 2) : exec (.keyErase r) s =
    .next ((s.begun 0x0408 r).holdFor true r.party 0x0408 r.tag stRejected false []) := by
  change execKeyErase r s = _
  exact driner_replies h fun d => if_pos hhigh

theorem keyErase_ofAssociation (hlow : leAt r.payload 0 2 < 8192) : exec (.keyErase r) s =
    .next ((s.begun 0x0408 r).holdFor true r.party 0x0408 r.tag stAccess false []) := by
  change execKeyErase r s = _
  exact driner_replies h fun d => (if_neg (by omega)).trans (if_pos hlow)

end

/-! ### The end of an erase (R221) -/

/-- The association key of an erased slot starts anew; a general slot has none. -/
def State.paKeyFresh (s : State) (n : Nat) : State :=
  if n < 8192 then s.setPa (n / 4) (setPaKey (s.pa (n / 4)) (n % 4) {}) else s

theorem paKeyFresh_keeps (s : State) (n : Nat) : (s.paKeyFresh n).key = s.key ∧ (s.paKeyFresh n).ret = s.ret := by
  unfold State.paKeyFresh
  split <;> exact ⟨rfl, rfl⟩

/-- The key row `p` that serves slot `n` and does not read zero is retired, with its fault and its event (R31). -/
def State.rowRetired (s : State) (n p : Nat) : State :=
  let s := (s.keyFault n 4).keyEvent 1
  { s with ret := { s.ret with keyRow := { s.ret.keyRow with retired := s.ret.keyRow.retired ++ [p] } } }

/-- The spare row that may serve a slot now and what it holds; with no spare the slot is UNUSABLE. -/
def State.spareRow (s : State) : Nat × KRow :=
  match s.freeSparesOf .keyRow with
  | sp :: _ => (sp, {})
  | [] => (gone, setKState {} kUnusable)

theorem spareRow_holds (s : State) : s.spareRow.2 = {} ∨ s.spareRow.2 = setKState {} kUnusable := by
  unfold State.spareRow
  split
  · exact .inl rfl
  · exact .inr rfl

/-- A spare row takes slot `n`. -/
def State.rowSpared (s : State) (n : Nat) : State :=
  let rc := s.ret.keyRow
  ({ s with ret := { s.ret with keyRow := { rc with map := tset n rc.map n s.spareRow.1 } } } : State).setKrow n s.spareRow.2

/-- The replacement of a row is programmed, recorded and told. -/
def State.rowTold (s : State) (n p : Nat) : State := (s.programMap.retRecord .keyRow n p 1 0).capacityNotice

theorem rowTold_keeps (s : State) (n p : Nat) : (s.rowTold n p).key = s.key ∧ (s.rowTold n p).ret = s.ret :=
  ⟨key_notice _ _ _ _, (congrArg Outside.ret (outside_notice (s.programMap.retRecord .keyRow n p 1 0) _ _ _) :)⟩

/-- The end of an erase whose slot stands cleared. -/
def State.eraseDone (s : State) (n : Nat) (r : KRow) : State := (s.paKeyFresh n).eraseEnded r.byCmd r.waiter

section
variable (s : State) (n : Nat) (r : KRow)

theorem eraseDone_keeps : (∀ m, (s.eraseDone n r).krow m = s.krow m) ∧ (s.eraseDone n r).ret = s.ret ∧
    (s.eraseDone n r).key.unwrap = s.key.unwrap := by
  obtain ⟨hkey, hret⟩ := paKeyFresh_keeps s n
  refine ⟨fun m => (krow_eraseEnded _ _ _ m).trans ?_, ?_, ?_⟩
  · rw [State.krow, hkey]
    rfl
  · exact (congrArg Outside.ret (outside_eraseEnded _ _ _) :).trans hret
  · rw [State.eraseDone, key_eraseEnded, ← hkey]
    cases r.byCmd <;> rfl

theorem events_eraseDone {b : Nat} (h : bit s.key.events b = true ∨ (b = 5 ∧ r.byCmd = true)) :
    bit (s.eraseDone n r).key.events b = true := by
  rw [State.eraseDone, key_eraseEnded]
  cases hby : r.byCmd with
  | false => simpa [hby, (paKeyFresh_keeps s n).1] using h
  | true => simpa [State.keyEvent, (paKeyFresh_keeps s n).1, or_comm] using h.imp_right And.left

end

section
variable {s : State} {n : Fin 16384}

theorem keyEraseFinish_held (h : (s.krow n.val).holds ≠ 0) (z : Bool) : exec (.keyEraseFinish n z) s = .next s := by
  change execKeyEraseFinish n z s = _
  exact if_pos (by simp [h])

variable (hup : s.up = true) (herasing : kState (s.krow n.val) = kErasing) (hfree : (s.krow n.val).holds = 0)
  (hidle : s.key.unwrap = none)
include hup herasing hfree hidle

/-- Zeros stand in the row. -/
theorem keyEraseFinish_zeroes :
    exec (.keyEraseFinish n true) s = .next ((s.setKrow n.val {}).eraseDone n.val (s.krow n.val)) := by
  obtain ⟨-, -, hunwrap⟩ := eraseDone_keeps (s.setKrow n.val {}) n.val (s.krow n.val)
  have hnone := hunwrap.trans hidle
  change execKeyEraseFinish n true s = _
  refine (if_neg (by simp [hup, herasing, hfree])).trans ?_
  change (match ((s.setKrow n.val {}).eraseDone n.val (s.krow n.val)).key.unwrap with | some u => _ | none => _) = _
  rw [hnone]
  rfl

/-- The row did not read zero: a spare that holds nothing takes the slot, or the slot is UNUSABLE. -/
theorem keyEraseFinish_retires {p : Nat} (hphys : s.phys .keyRow n.val = some p) :
    exec (.keyEraseFinish n false) s =
      .next ((((s.rowRetired n.val p).rowSpared n.val).rowTold n.val p).eraseDone n.val (s.krow n.val)) := by
  let u := ((s.rowRetired n.val p).rowSpared n.val).rowTold n.val p
  have hnone : (u.eraseDone n.val (s.krow n.val)).key.unwrap = none := by
    obtain ⟨-, -, hunwrap⟩ := eraseDone_keeps u n.val (s.krow n.val)
    rw [hunwrap, (rowTold_keeps _ _ _).1]
    exact hidle
  change execKeyEraseFinish n false s = _
  unfold execKeyEraseFinish
  rw [if_neg (by simp [hup, herasing, hfree]), hphys]
  change (match (u.eraseDone n.val (s.krow n.val)).key.unwrap with | some u => _ | none => _) = _
  rw [hnone]
  rfl

end

/-- What a row that is retired and replaced leaves of the key store and of the retirements. -/
theorem rowSpared_keeps (s : State) (n p : Nat) :
    (((s.rowRetired n p).rowSpared n).krow n = {} ∨ ((s.rowRetired n p).rowSpared n).krow n = setKState {} kUnusable) ∧
    p ∈ ((s.rowRetired n p).rowSpared n).ret.keyRow.retired ∧
    bit ((s.rowRetired n p).rowSpared n).key.events 1 = true := by
  refine ⟨?_, List.mem_append_right _ (List.mem_singleton_self p), ?_⟩
  · have hrow : ((s.rowRetired n p).rowSpared n).krow n = (s.rowRetired n p).spareRow.2 :=
      (setKrow_get _ n n _).trans (if_pos rfl)
    rw [hrow]
    exact spareRow_holds _
  · exact (bit_setBit _ 1 1 true).trans (if_pos ⟨rfl, by decide⟩)

/-! ### Re-splits (R220, R525) -/

section
variable {s : State} {n : Nat}

/-- Both shares take the same noise. -/
theorem resplitSlot_splits (hdraw : s.canDraw 4 256 = true) : ∃ v, ∀ m, (s.resplitSlot n).krow m =
    if m = n then { s.krow n with s0 := (s.krow n).s0 ^^^ v, s1 := (s.krow n).s1 ^^^ v, loads := 0 } else s.krow m := by
  refine ⟨BitVec.ofNat 256 (s.draw 4 256).1, fun m => ?_⟩
  unfold State.resplitSlot State.withDraw
  dsimp only
  rw [if_pos (by exact hdraw)]
  refine (setKrow_get _ n m _).trans ?_
  by_cases hm : m = n
  · rw [if_pos hm, if_pos hm]
    rfl
  · rw [if_neg hm, if_neg hm]
    exact (setKrow_get s n m _).trans (if_neg hm)

/-- Without the noise the re-split stays due. -/
theorem resplitSlot_waits (hdraw : s.canDraw 4 256 = false) (m : Nat) : (s.resplitSlot n).krow m =
    if m = n then { s.krow n with loads := max (s.krow n).loads 65536 } else s.krow m := by
  unfold State.resplitSlot State.withDraw
  dsimp only
  rw [if_neg (by exact ne_true_of_eq_false hdraw)]
  exact setKrow_get s n m _

/-- Noise that both shares take is not in the key. -/
theorem xor_xor_same (a b v : BitVec 256) : (a ^^^ v) ^^^ (b ^^^ v) = a ^^^ b := by
  rw [show (a ^^^ v) ^^^ (b ^^^ v) = (a ^^^ b) ^^^ (v ^^^ v) by ac_rfl, BitVec.xor_self, BitVec.xor_zero]

theorem resplit_early {n : Fin 16384} (hloads : (s.krow n.val).loads < 65536) : exec (.resplit n) s = .next s := by
  change execResplit n s = _
  exact if_pos (by simp [hloads])

variable (hup : s.up = true)
include hup

theorem resplit_splits {n : Fin 16384} (hloaded : kState (s.krow n.val) = kLoaded) (hloads : 65536 ≤ (s.krow n.val).loads) :
    exec (.resplit n) s = .next (s.resplitSlot n.val) := by
  change execResplit n s = _
  exact if_neg (by simp [hup, hloaded, hloads])

theorem keyCmdResplit_splits (hloaded : kState (s.krow s.key.slotSel.toNat) = kLoaded) :
    exec .keyCmdResplit s = .next (s.resplitSlot s.key.slotSel.toNat) := by
  change execKeyCmdResplit s = _
  exact if_neg (by simp [hup, hloaded])

/-- Without the noise the selected slot keeps both its shares. -/
theorem keyCmdResplit_waits (hdraw : s.canDraw 4 256 = false) : ∃ t, exec .keyCmdResplit s = .next t ∧
    ∀ m, (t.krow m).s0 = (s.krow m).s0 ∧ (t.krow m).s1 = (s.krow m).s1 := by
  by_cases hloaded : kState (s.krow s.key.slotSel.toNat) = kLoaded
  · refine ⟨_, keyCmdResplit_splits hup hloaded, fun m => ?_⟩
    rw [resplitSlot_waits hdraw]
    by_cases hm : m = s.key.slotSel.toNat
    · rw [if_pos hm, hm]
      exact ⟨rfl, rfl⟩
    · rw [if_neg hm]
      exact ⟨rfl, rfl⟩
  · refine ⟨s, ?_, fun m => ⟨rfl, rfl⟩⟩
    change execKeyCmdResplit s = _
    exact if_pos (by simp [hloaded])

end

/-! ### KEY_ATTR_GET (R218) -/

/-- What KEY_ATTR_GET shows of a slot, and to whom: PF0 every one, a VF its own and SHARED slots', a tenant core TENANT slots'. -/
def seesAttr (k : KRow) (party : Nat) : Bool :=
  match midFn party with
  | some 0 => true
  | some fn => att k 21 16 = fn || att k 5 5 = 1
  | none => att k 6 6 = 1

theorem keyAttrGet_shows {s : State} {r : Req} (h : s.begins 0x0407 r) (hslot : leAt r.payload 0 2 < 16384) :
    exec (.keyAttrGet r) s = .next ((s.begun 0x0407 r).holdFor true r.party 0x0407 r.tag stOk false
      (le 8 (if seesAttr (s.krow (leAt r.payload 0 2)) r.party then (s.krow (leAt r.payload 0 2)).attr.toNat else 0))) := by
  change execKeyAttrGet r s = _
  exact drinerNow_reads h fun d => if_neg (Nat.not_le.mpr hslot)

/-! ### Decisions (R440, R441) -/

/-- What a decision is about, and its first evaluation. -/
def Dec.asked (d : Dec) : DecWhat × Bool := (d.what, d.first)

section
variable (s : State)

/-- Decisions taken up one after another keep what they are about; the key store is left as it is. -/
theorem foldl_decisions {f : State → Dec → State}
    (hf : ∀ s d, (f s d).tmp.decisions.map Dec.asked = s.tmp.decisions.map Dec.asked ++ [d.asked] ∧ (f s d).key = s.key)
    (l : List Dec) : (l.foldl f s).tmp.decisions.map Dec.asked = s.tmp.decisions.map Dec.asked ++ l.map Dec.asked ∧
      (l.foldl f s).key = s.key := by
  induction l generalizing s with
  | nil => exact ⟨(List.append_nil _).symm, rfl⟩
  | cons d l ih =>
    obtain ⟨hasked, hkey⟩ := ih (f s d)
    obtain ⟨hone, hsame⟩ := hf s d
    exact ⟨by rw [List.foldl_cons, hasked, hone]; simp, hkey.trans hsame⟩

/-- Random bytes handed out change no decision's question. -/
theorem fillDecisions_asked : s.fillDecisions.tmp.decisions.map Dec.asked = s.tmp.decisions.map Dec.asked ∧
    s.fillDecisions.key = s.key := by
  unfold State.fillDecisions
  refine foldl_decisions { s with tmp := { s.tmp with decisions := [] } } (fun s d => ?_) s.tmp.decisions
  dsimp only
  split_ifs <;> exact ⟨List.map_append, rfl⟩

/-- A decision that begins stands among those that wait, whatever byte its delay takes. -/
theorem decide_asks (w : DecWhat) (first : Bool) : (s.decide w first).key = s.key ∧
    ∃ d ∈ (s.decide w first).tmp.decisions, d.what = w ∧ d.first = first := by
  have hbegun : ∀ (u : State) (d : Dec), u.key = s.key → d.asked = (w, first) → d ∈ u.tmp.decisions →
      u.fillDecisions.key = s.key ∧ ∃ d ∈ u.fillDecisions.tmp.decisions, d.what = w ∧ d.first = first :=
    fun u d hu hd hmem => by
      obtain ⟨hasked, hkey⟩ := fillDecisions_asked u
      have hfilled : (w, first) ∈ u.fillDecisions.tmp.decisions.map Dec.asked :=
        hasked ▸ hd ▸ List.mem_map_of_mem hmem
      obtain ⟨x, hx, hxd⟩ := List.mem_map.mp hfilled
      exact ⟨hkey.trans hu, x, hx, congrArg Prod.fst hxd, congrArg Prod.snd hxd⟩
  unfold State.decide
  split_ifs <;> exact hbegun _ _ rfl rfl (List.mem_append_right _ (List.mem_singleton_self _))

end

/-! ### Unwraps (R222 to R224) -/

section
variable (s : State) (u : Unwrap)

/-- An unwrap that ends leaves the rows and the unit free. -/
theorem key_unwrapEnd (st : Nat) (p : Bytes) : (s.unwrapEnd u st p).key =
    { s.key with unwrap := none, sealW := [], unResult := if st = stOk then 2 else 3 } := key_reply _ _ _ _ _ _

variable {s u}

/-- A check that decides ends the unwrap with its status. -/
theorem unwrapStart_refused {fieldsOk algOk : Bool} {st : Nat} (h : s.unwrapCheck u fieldsOk algOk = some st) :
    s.unwrapStart u fieldsOk algOk = (s.sealWrite u).unwrapEnd u st [] := by
  have hcheck : (s.sealWrite u).unwrapCheck u fieldsOk algOk = some st := h
  unfold State.unwrapStart
  dsimp only
  rw [hcheck]

/-- The unit works on an unwrap and awaits the decision of code 6. -/
def State.unwrapAwaits (s : State) (u : Unwrap) : State :=
  { s.sealWrite u with key := { (s.sealWrite u).key with unwrap := some { u with ok6 := s.wrapOpens }, unResult := 1 } }

theorem unwrapStart_decides {fieldsOk algOk : Bool} (h : s.unwrapCheck u fieldsOk algOk = none) {w : Bytes}
    (hrow : s.key.transRow = some (w, BitVec.ofNat 32 (leAt u.sealB 0x4C 4))) :
    s.unwrapStart u fieldsOk algOk = (s.unwrapAwaits u).decide .kekUnwrap s.wrapOpens := by
  have hcheck : (s.sealWrite u).unwrapCheck u fieldsOk algOk = none := h
  have hrow' : (s.sealWrite u).key.transRow = some (w, BitVec.ofNat 32 (leAt u.sealB 0x4C 4)) := hrow
  have hid : leAt u.sealB 0x4C 4 = (BitVec.ofNat 32 (leAt u.sealB 0x4C 4)).toNat :=
    (Nat.mod_eq_of_lt (leAt_lt u.sealB 0x4C 4)).symm
  unfold State.unwrapStart
  dsimp only
  rw [hcheck]
  dsimp only
  split
  · next hnone => exact absurd (hnone.symm.trans hrow') (by simp)
  · next hsome =>
    obtain ⟨-, rfl⟩ := Prod.mk.inj (Option.some.inj (hsome.symm.trans hrow'))
    exact if_neg (not_not.mpr hid)

end

theorem keyUnwrap_starts {s : State} {r : Req} (h : s.begins 0x0406 r) (hidle : s.key.unwrap = none)
    (hlow : 8192 ≤ leAt r.payload 0 2) (hhigh : leAt r.payload 0 2 < 16384) :
    exec (.keyUnwrap r) s = .next ((s.begun 0x0406 r).unwrapStart
      { slot := leAt r.payload 0 2, epoch := 0, sealB := sub r.payload 4 80, party := r.party, tag := r.tag, pa := none,
        replace := false } (leAt r.payload 2 2 = 0) true) := by
  change execKeyUnwrap r s = _
  unfold execKeyUnwrap
  rw [if_neg (by simp [hidle]), driner_begins h]
  dsimp only
  rw [if_neg (Nat.not_le.mpr hhigh), if_neg (Nat.not_lt.mpr hlow)]

theorem keyUnwrap_waits {s : State} {r : Req} (hbusy : s.key.unwrap.isSome = true)
    (hroom : (s.outstanding r.party).length < 16) : exec (.keyUnwrap r) s = .next s := by
  change execKeyUnwrap r s = _
  exact if_pos (by simp [hbusy, hroom])

section
variable {s : State} (hup : s.up = true) (v : Word)
include hup

theorem keyUnwrapGo_waits (hbusy : s.key.unwrap.isSome = true) : exec (.keyUnwrapGo v) s = .next s := by
  change execKeyUnwrapGo v s = _
  unfold execKeyUnwrapGo State.unwrapWrite
  rw [if_pos hup, if_pos (by simp [hbusy])]

/-- KEY_UNWRAP shows the slot and the epoch of a write. -/
def State.unwrapNamed (s : State) (v : Word) : State :=
  { s with key := { s.key with unSlot := BitVec.ofNat 14 (fld v 13 0), unEpoch := BitVec.ofNat 8 (fld v 21 14) } }

theorem keyUnwrapGo_starts (hidle : s.key.unwrap = none) :
    exec (.keyUnwrapGo v) s = .next ((s.unwrapNamed v).unwrapStart
      { slot := fld v 13 0, epoch := fld v 21 14, sealB := s.sealRegs, party := 0, tag := 0, pa := none, replace := false }
      (fld v 13 0 < 8192 || fld v 21 14 = 0) true) := by
  change execKeyUnwrapGo v s = _
  unfold execKeyUnwrapGo State.unwrapWrite
  rw [if_pos hup, if_neg (by simp [hidle])]
  dsimp only
  rw [if_neg (by simp), fld_go v 0 (by decide), fld_go v 14 (by decide)]
  rfl

end

/-! ### The throttle (R224) -/

section
variable {s : State} {a : Nat} (h : s.key.throttledAt = some a)
include h

theorem unwrapThrottleEnd_early (hlt : s.now < a + 60 * secC) : exec .unwrapThrottleEnd s = .next s := by
  change execUnwrapThrottleEnd s = _
  unfold execUnwrapThrottleEnd
  rw [h]
  exact if_pos hlt

theorem unwrapThrottleEnd_due (hle : a + 60 * secC ≤ s.now) : exec .unwrapThrottleEnd s =
    .next { s with key := { s.key with throttledAt := none, fails := [] } } := by
  change execUnwrapThrottleEnd s = _
  unfold execUnwrapThrottleEnd
  rw [h]
  exact if_neg (Nat.not_lt.mpr hle)

end

/-! ### The obligation -/

/-- Settles O25: each command by the lemmas on its cases; the end of an erase by `keyEraseFinish_zeroes` and
`keyEraseFinish_retires`, a re-split by `resplitSlot_splits`, an unwrap by `unwrapStart_refused` and `unwrapStart_decides`. -/
theorem keyStore : Obligations.KeyStore := by
  unfold Obligations.KeyStore
  intro s r hup
  dsimp only
  refine ⟨fun n by_ w h => eraseSlot_loaded h by_ w, if_pos hup, keyErase_begins, keyErase_noSlot, keyErase_ofAssociation,
    fun n herasing => ⟨keyEraseFinish_held, fun hfree hidle => ?_, fun ph hfree hidle hphys => ?_⟩,
    fun n hloaded hloads hdraw => ?_, fun n => resplit_early, fun hloaded hdraw => ?_, keyCmdResplit_waits hup,
    keyAttrGet_shows, keyUnwrap_starts, keyUnwrap_waits, keyUnwrapGo_starts hup, keyUnwrapGo_waits hup,
    fun u fieldsOk algOk st h => ?_, fun u w h hrow => ?_,
    fun a h => ⟨unwrapThrottleEnd_early h, unwrapThrottleEnd_due h⟩⟩
  · obtain ⟨hrows, -, -⟩ := eraseDone_keeps (s.setKrow n.val {}) n.val (s.krow n.val)
    refine ⟨_, keyEraseFinish_zeroes hup herasing hfree hidle, ?_, fun m hm => ?_, fun hby =>
      events_eraseDone _ _ _ (.inr ⟨rfl, hby⟩)⟩
    · rw [hrows, setKrow_get, if_pos rfl]
    · rw [hrows, setKrow_get, if_neg hm]
  · obtain ⟨hrow, hretired, hevent⟩ := rowSpared_keeps s n.val ph
    obtain ⟨hkey, hret⟩ := rowTold_keeps ((s.rowRetired n.val ph).rowSpared n.val) n.val ph
    obtain ⟨hrows, hret', -⟩ := eraseDone_keeps (((s.rowRetired n.val ph).rowSpared n.val).rowTold n.val ph) n.val
      (s.krow n.val)
    refine ⟨_, keyEraseFinish_retires hup herasing hfree hidle hphys, ?_, ?_, events_eraseDone _ _ _ (.inl ?_)⟩
    · rwa [hret', hret]
    · rwa [hrows, State.krow, hkey]
    · rwa [hkey]
  · obtain ⟨v, hrows⟩ := resplitSlot_splits (n := n.val) hdraw
    refine ⟨_, resplit_splits hup hloaded hloads, ?_⟩
    rw [hrows, if_pos rfl]
    exact ⟨xor_xor_same _ _ v, rfl, rfl, fun m hm => (hrows m).trans (if_neg hm)⟩
  · obtain ⟨v, hrows⟩ := resplitSlot_splits (n := s.key.slotSel.toNat) hdraw
    refine ⟨_, keyCmdResplit_splits hup hloaded, fun m => ?_, ?_⟩
    · rw [hrows]
      split
      · next hm => exact hm ▸ xor_xor_same _ _ v
      · rfl
    · rw [hrows, if_pos rfl]
  · rw [unwrapStart_refused h, key_unwrapEnd]
    exact ⟨rfl, rfl, rfl⟩
  · obtain ⟨hkey, hdecision⟩ := decide_asks (s.unwrapAwaits u) .kekUnwrap s.wrapOpens
    rw [unwrapStart_decides h hrow, hkey]
    exact ⟨rfl, rfl, hdecision⟩

end Sys2Proof.Machine
end
